-- ==== Sys2Proof/Word.lean ====
section
/-!
DEFINITION. The word types of the Ahnetos 7832 and their plainest arithmetic: a byte, a 32-bit register
word, the saturating counter step of the field maps, and arrays of a fixed length. Every field map of
spec/ numbers bits with bit 0 the least significant (R10, "Numbers"), and image and register data are
little-endian.
-/
namespace Sys2Proof

/-- One byte. -/
abbrev Byte := BitVec 8

/-- One 32-bit register word. -/
abbrev Word := BitVec 32

/-- One step of a counter that the field maps call "saturates at `top`". -/
def satInc (top n : Nat) : Nat := if n < top then n + 1 else top

/-- A counter that saturates at `top`, advanced by `k`. -/
def satAdd (top n k : Nat) : Nat := min top (n + k)

/-- The entry `i` of an array, or `d` outside it. -/
def vget {α : Type} {n : Nat} (v : Vector α n) (i : Nat) (d : α) : α :=
  v.toList.getD i d

/-- The array with entry `i` replaced; nothing changes outside the array. -/
def vset {α : Type} {n : Nat} (v : Vector α n) (i : Nat) (a : α) : Vector α n :=
  ⟨⟨v.toList.set i a⟩, by simp⟩

/-- The array with entry `i` rewritten by `f`. -/
def vmod {α : Type} {n : Nat} (v : Vector α n) (i : Nat) (f : α → α) : Vector α n :=
  ⟨⟨v.toList.modify i f⟩, by simp⟩

/-- Every entry rewritten by `f`. -/
def vmap {α β : Type} {n : Nat} (f : α → β) (v : Vector α n) : Vector β n :=
  ⟨⟨v.toList.map f⟩, by simp⟩

/-- Every list entry rewritten by `f`, which is told the entry's place counted from `i`. -/
def mapFrom {α β : Type} (f : Nat → α → β) : Nat → List α → List β
  | _, [] => []
  | i, a :: l => f i a :: mapFrom f (i + 1) l

theorem mapFrom_length {α β : Type} (f : Nat → α → β) (i : Nat) (l : List α) :
    (mapFrom f i l).length = l.length := by
  induction l generalizing i with
  | nil => rfl
  | cons a l ih => simp [mapFrom, ih]

/-- Every array entry rewritten by `f`, which is told the entry's index. -/
def vmapIdx {α β : Type} {n : Nat} (f : Nat → α → β) (v : Vector α n) : Vector β n :=
  ⟨⟨mapFrom f 0 v.toList⟩, by simp [mapFrom_length]⟩

/-- An array of `n` equal entries. -/
def vrep {α : Type} (n : Nat) (a : α) : Vector α n := ⟨⟨List.replicate n a⟩, by simp⟩

/-- The numbers below `n`, in rising order. -/
def upto (n : Nat) : List Nat := List.range n

end Sys2Proof
end

