-- ==== Sys2Proof/Machine/Bits.lean ====
section
/-!
DEFINITION. Bit fields, byte order and check values: packing a register word from its fields, little-endian
bytes (R10, "Numbers"), two's-complement readings, the CRCs that the spec gives (R28, R237, R254, R487), and
sparse data kept as one canonical list of keys and values.
-/
namespace Sys2Proof.Machine

/-- 1 for true, 0 for false, as a field of one bit. -/
def b2n (b : Bool) : Nat := if b then 1 else 0

/-- One field of a register: its lowest bit, its width and its value. -/
abbrev RegField := Nat × Nat × Nat

/-- The register word that holds the given fields, every other bit 0 (R11). -/
def packNat : List RegField → Nat
  | [] => 0
  | (lo, w, v) :: fs => (v % 2 ^ w) * 2 ^ lo + packNat fs

/-- `packNat` as a word. -/
def pack (fs : List RegField) : Word := BitVec.ofNat 32 (packNat fs)

/-- Bits `[lo + w - 1 : lo]` of a number. -/
def bits (n lo w : Nat) : Nat := n / 2 ^ lo % 2 ^ w

/-- Bit `i` of a number. -/
def bitAt (n i : Nat) : Bool := n / 2 ^ i % 2 == 1

/-- The number whose bits are the list's Booleans, the first least significant. -/
def ofBits : List Bool → Nat
  | [] => 0
  | b :: bs => b2n b + 2 * ofBits bs

/-- The two's-complement reading of a `w`-bit number. -/
def toInt (w n : Nat) : Int := if n % 2 ^ w < 2 ^ (w - 1) then (n % 2 ^ w : Nat) else ((n % 2 ^ w : Nat) : Int) - 2 ^ w

/-- The `w`-bit two's-complement form of an integer. -/
def ofInt (w : Nat) (i : Int) : Nat := (i % (2 ^ w : Int)).toNat

/-- An integer held to `lo ≤ · ≤ hi`. -/
def clampI (lo hi i : Int) : Int := if i < lo then lo else if hi < i then hi else i

/-- The signed byte range of a two's-complement `i8`. -/
def sat8 (i : Int) : Int := clampI (-128) 127 i

/-- The least significant `n` bytes of a number, low byte first. -/
def leBytes : Nat → Nat → List Byte
  | 0, _ => []
  | n + 1, v => BitVec.ofNat 8 v :: leBytes n (v / 256)

/-- The number whose little-endian bytes the list holds. -/
def ofLe : List Byte → Nat
  | [] => 0
  | b :: bs => b.toNat + 256 * ofLe bs

/-- The byte at an offset of a byte string; 0 beyond its end. -/
def u8 (bs : List Byte) (off : Nat) : Nat := (bs.getD off 0).toNat
/-- The little-endian 16-bit number at an offset. -/
def u16 (bs : List Byte) (off : Nat) : Nat := ofLe ((bs.drop off).take 2)
/-- The little-endian 32-bit number at an offset. -/
def u32 (bs : List Byte) (off : Nat) : Nat := ofLe ((bs.drop off).take 4)
/-- The little-endian 64-bit number at an offset. -/
def u64 (bs : List Byte) (off : Nat) : Nat := ofLe ((bs.drop off).take 8)
/-- The signed 16-bit number at an offset. -/
def i16 (bs : List Byte) (off : Nat) : Int := toInt 16 (u16 bs off)
/-- The signed 32-bit number at an offset. -/
def i32 (bs : List Byte) (off : Nat) : Int := toInt 32 (u32 bs off)
/-- `n` bytes at an offset. -/
def slice (bs : List Byte) (off n : Nat) : List Byte := (bs.drop off).take n

/-! ### Check values -/

/-- Bit `i` of a byte, most significant first for a forward CRC. -/
def byteBitsMsb (b : Byte) : List Bool := ((upto 8).map fun i => b.getLsbD i).reverse

/-- The bits of a byte, least significant first for a reflected CRC. -/
def byteBitsLsb (b : Byte) : List Bool := (upto 8).map fun i => b.getLsbD i

/-- One bit shifted into a forward CRC register of `w` bits. -/
def crcStepMsb {w : Nat} (poly r : BitVec w) (d : Bool) : BitVec w :=
  if xor r.msb d then (r <<< 1) ^^^ poly else r <<< 1

/-- One bit shifted into a reflected CRC register of `w` bits; `poly` is the reflected polynomial. -/
def crcStepLsb {w : Nat} (poly r : BitVec w) (d : Bool) : BitVec w :=
  if xor (r.getLsbD 0) d then (r >>> 1) ^^^ poly else r >>> 1

/-- The bits of a number of at most `w` bits, reversed. -/
def reflect (w : Nat) (n : BitVec w) : BitVec w :=
  BitVec.ofNat w (ofBits ((upto w).map fun i => n.getLsbD i).reverse)

/-- A forward CRC over bytes. -/
def crcMsb {w : Nat} (poly init : BitVec w) (bs : List Byte) : BitVec w :=
  bs.foldl (fun r b => (byteBitsMsb b).foldl (crcStepMsb poly) r) init

/-- A reflected CRC over bytes; `poly` is written in its forward form. -/
def crcLsb {w : Nat} (poly init : BitVec w) (bs : List Byte) : BitVec w :=
  bs.foldl (fun r b => (byteBitsLsb b).foldl (crcStepLsb (reflect w poly)) r) init

/-! ### Sparse data -/

/-- Data by address, in one canonical form: keys strictly rising, and no entry that an unlisted key reads as. -/
abbrev Sparse (β : Type) := List (Nat × β)

/-- What a key reads as: its entry, or `d` where it is unlisted. -/
def Sparse.get {β : Type} (d : β) : Sparse β → Nat → β
  | [], _ => d
  | (k, v) :: m, a => if k = a then v else Sparse.get d m a

/-- `m` with the entry for `a`, kept in rising order; the value an unlisted key reads as removes the entry. -/
def Sparse.put {β : Type} [DecidableEq β] (d : β) : Sparse β → Nat → β → Sparse β
  | [], a, v => if v = d then [] else [(a, v)]
  | (k, w) :: m, a, v =>
    if a < k then (if v = d then (k, w) :: m else (a, v) :: (k, w) :: m)
    else if a = k then (if v = d then m else (a, v) :: m)
    else (k, w) :: Sparse.put d m a v

/-- Every key of the list is above `k`. -/
def Sparse.above {β : Type} (k : Nat) : Sparse β → Bool
  | [] => true
  | (a, _) :: m => decide (k < a) && Sparse.above k m

/-- The canonical form: keys strictly rising and no entry equal to what an unlisted key reads as. -/
def Sparse.wf {β : Type} [DecidableEq β] (d : β) : Sparse β → Bool
  | [] => true
  | (a, v) :: m => decide (v ≠ d) && Sparse.above a m && Sparse.wf d m

/-- A byte memory: an unlisted address reads 0. -/
abbrev Mem := List (Nat × BitVec 8)

/-- The byte at an address of a memory.
(DESIGN CHOICE, unsafe: notes/assumptions/1.md.) -/
def Mem.read (m : Mem) (a : Nat) : Byte := Sparse.get 0 m a

/-- A memory with one byte written. -/
def Mem.write (m : Mem) (a : Nat) (b : Byte) : Mem := Sparse.put 0 m a b

/-- The canonical form of a memory. -/
def Mem.wf (m : Mem) : Bool := Sparse.wf 0 m

/-- `n` bytes from an address on. -/
def Mem.readN (m : Mem) (a n : Nat) : List Byte := (upto n).map fun i => m.read (a + i)

/-- A memory with the listed bytes written from an address on. -/
def Mem.writeN (m : Mem) (a : Nat) : List Byte → Mem
  | [] => m
  | b :: bs => Mem.writeN (m.write a b) (a + 1) bs

end Sys2Proof.Machine
end

