-- ==== Sys2Proof/Machine/StateIsland.lean ====
section
/-!
DEFINITION. The pieces of State that the safety island holds: fault collection, the watchdogs, the event
recorder, the watch, safe I/O, the encoders, the I3C target and the command mailbox. Plain data, one structure
per block of the register space (R523).
-/
namespace Sys2Proof.Machine

/-! ### Fault collection (R299 to R309) -/

/-- The class of a fault or of a record (R299, R337). -/
inductive FaultClass where
  | event | ce | uc | ft
  deriving DecidableEq, Repr

/-- The code of a class in the register and record fields (R299). -/
def FaultClass.code : FaultClass → Nat
  | .event => 0 | .ce => 1 | .uc => 2 | .ft => 3

/-- The content of the first-fault latch (R306). -/
structure FaultLatch where
  source : Nat
  cls : FaultClass
  info : Nat
  beat : Nat
  cycle : Nat
  deriving DecidableEq, Repr

/-- One source counter, `FC_SRC_CNT_i` (R332). -/
structure SrcCnt where
  ce : Nat
  uc : Nat
  ft : Nat
  deriving DecidableEq, Repr

/-- Fault collection (R299 to R309, R331, R332). -/
structure FaultState where
  /-- The first-fault latch; none while it is empty (R306). -/
  latch : Option FaultLatch
  /-- `FC_STATUS.FF_OVF` (R304, R307). -/
  ffOvf : Bool
  /-- `FC_FIRST_FT` and its beat: source and beat (R308). -/
  firstFt : Option (Nat × Nat)
  /-- `FC_STATUS.ESCALATED` (R303). -/
  escalated : Bool
  /-- Sources with an active UC fault. -/
  activeUc : BitVec 128
  /-- Sources with an active FT fault. -/
  activeFt : BitVec 128
  /-- FAULT_N is driven low (R305). -/
  faultNLow : Bool
  /-- FAULT_N is held low by the island's reset, by the start-up steps before step 3 or by SELFTEST_FAIL (R305). -/
  faultNHold : Bool
  /-- FAULT_N and D6 follow a recovery in the beat after it (R302). -/
  releaseDue : Bool
  /-- The last beat of the quiet period that runs (R302). -/
  quietEnd : Option Nat
  /-- Source and info of the most recent UC fault (R303). -/
  lastUc : Nat
  /-- The beats of the recoveries, newest first (R303). -/
  recoveries : List Nat
  /-- `FC_RECOVERY.TOTAL`. -/
  recTotal : Nat
  /-- The info value of each source's newest fault, for its recovery record (R340). -/
  info : Vector Nat 128
  /-- `FC_SRC_CNT_i`. -/
  cnt : Vector SrcCnt 128
  deriving DecidableEq, Repr

/-! ### Watchdogs (R313 to R327) -/

/-- One task of the task watchdog (R317 to R321). -/
structure TaskWd where
  /-- The offset of the present own beat in the current period; none before period 0 has begun. -/
  off : Option Nat
  /-- The period in progress ends without judgment (R321). -/
  noJudge : Bool
  /-- `WD_TASK_STAT.CHECKED`. -/
  checked : Bool
  /-- `WD_TASK_STAT.FAULTED`. -/
  faulted : Bool
  deriving DecidableEq, Repr

/-- The service-core watchdog (R322, R335). -/
structure SvcWd where
  off : Option Nat
  noJudge : Bool
  checked : Bool
  /-- The beat of the fault that put the service core into reset; none while it runs (R322). -/
  downSince : Option Nat
  /-- `WD_SVC_STAT.RESTARTS`. -/
  restarts : Nat
  deriving DecidableEq, Repr

/-- One heartbeat monitor (R323, R324, R336). -/
structure HbMon where
  alive : Bool
  persist : Bool
  /-- Consecutive valid intervals, held at 255. -/
  run : Nat
  /-- I of the last edge, held at 65,535. -/
  lastInterval : Nat
  /-- The beat of the last edge, while one serves as reference. -/
  lastEdge : Option Nat
  /-- The beat from which the monitor has been LOST. -/
  lostSince : Nat
  losses : Nat
  early : Nat
  /-- The last sample of ACCk_HB (R323). -/
  level : Bool
  deriving DecidableEq, Repr

/-- The watchdog block (R313 to R327, R334 to R336). -/
structure WdState where
  tasks : Vector TaskWd 16
  svc : SvcWd
  hb : Vector HbMon 2
  /-- `WD_STATUS.WAKE_SRC`. -/
  wakeSrc : Nat
  wakePending : Bool
  /-- The beat at which STANDBY was entered, from which STANDBY_PERIOD counts (R326). -/
  standbySince : Nat
  taskFrozen : Bool
  svcFrozen : Bool
  xtalStopFlag : Bool
  ircStopFlag : Bool
  ircFreqFlag : Bool
  /-- `WD_CLKMON.IRC_DEV`, in 0.01 % (R334). -/
  ircDev : Int
  deriving DecidableEq, Repr

/-! ### Event recorder (R337 to R349) -/

/-- One event record (R337). -/
structure EvRec where
  beat : Nat
  rep : Nat
  code : Nat
  /-- Fault source 0 to 127, or 0xFF. -/
  source : Nat
  cls : FaultClass
  sat : Bool
  limited : Bool
  timeValid : Bool
  seq : Nat
  devTime : Nat
  data : Nat
  deriving DecidableEq, Repr

/-- Where a record enters: an engine's event port, or a block's port outside the cores, named by the record's
block code (R342). -/
inductive EvPort where
  | engine (g : Nat)
  | block (n : Nat)
  deriving DecidableEq, Repr

/-- One code that a port tracks: the beat of the last record passed, and whether one was suppressed since (R342). -/
structure RateEntry where
  code : Nat
  last : Nat
  suppressed : Bool
  deriving DecidableEq, Repr

/-- The event recorder (R342 to R349, R366). -/
structure RecState where
  seqNext : Nat
  /-- The last area, oldest first, at most 4,096 records. -/
  last : List EvRec
  /-- The first area, at most 256 records. -/
  first : List EvRec
  /-- How many of the newest records have not been copied to NAND (R350). -/
  waiting : Nat
  /-- The codes each port tracks, most recently passed first (R342). -/
  ports : List (EvPort × List RateEntry)
  /-- The SEQ of the last record that each folding point appended: a core, or 32 for the recorder (R343). -/
  folds : List (Nat × Nat)
  firstRestored : Bool
  area : Nat
  cursor : Nat
  empty : Bool
  gone : Bool
  window : List Byte
  limited : Nat
  folded : Nat
  deriving DecidableEq, Repr

/-! ### The watch (R13 to R49) -/

/-- The states of the watch (R13). Code 7 is no state: the 7832 never enters it (R14). -/
inductive WState where
  | stopped | arming | trust | floor | stopping | standstill | halt
  deriving DecidableEq, Repr

/-- The code of a state (R13). -/
def WState.code : WState → Nat
  | .stopped => 0 | .arming => 1 | .trust => 2 | .floor => 3 | .stopping => 4 | .standstill => 5 | .halt => 6

/-- One trigger of the table of R17: the target and the cause value. -/
structure Trigger where
  target : WState
  cause : Nat
  deriving DecidableEq, Repr

/-- What an INTENT command carries (R36): direction, mode and yaw rate as the 16 bits received. -/
structure Intent where
  dir : Nat
  mode : Nat
  yaw : Nat
  deriving DecidableEq, Repr

/-- The watch (R13 to R49). -/
structure WatchState where
  wstate : WState
  /-- The doubt flags D0 (bit 0) to D7 (bit 7) (R20). -/
  doubt : BitVec 8
  /-- Causes detected in the present beat, taken into its evaluation (R15, R20). -/
  causes : BitVec 8
  /-- Clear conditions that held at an event of the present beat: D2 and D5 at a frame end (R20). -/
  clears : BitVec 8
  /-- Triggers detected in the present beat (R15, R19). -/
  trig : List Trigger
  /-- `WATCH_DOUBT.D1_CLAIM` (R43). -/
  d1Claim : Nat
  /-- `WATCH_DOUBT.D1_INTENT` (R43). -/
  d1Intent : Bool
  sticky : BitVec 8
  /-- Consecutive clean frames (R21). -/
  cleanCnt : Nat
  /-- The frame in progress is partial: the state was entered within it (R21, R22). -/
  partialFrame : Bool
  /-- Nothing unclean has happened in the frame in progress (R21). -/
  frameClean : Bool
  /-- Frame ticks seen in ARMING (R558). -/
  armTicks : Nat
  /-- The beat of the newest frame tick's count, at which TRUST may be decided (R21, R22). -/
  countBeat : Option Nat
  /-- Frame numbers of the entries to FLOOR within the window, newest first (R23). -/
  floorEntries : List Nat
  retrustBlocked : Bool
  /-- RETRUST_BLOCKED set for a case that clears only with the reset (R23, R183). -/
  blockedUntilReset : Bool
  /-- v_entry and the beat of the first FLOOR beat (R25). -/
  floorVEntry : Nat
  floorSince : Nat
  /-- The beat s and v_entry of STOPPING; v_entry is none where the speed was invalid (R286). -/
  ss1Since : Nat
  ss1VEntry : Option Nat
  /-- The frozen governing field: index, and whether it is a floor field (R28, R36). -/
  frozen : Option (Nat × Bool)
  /-- The verdict word of the present beat (R28). -/
  verdict : Word
  /-- The beat latched by the last read of `WATCH_VERDICT` (R42). -/
  verdictBeat : Nat
  lastFrom : WState
  lastTo : WState
  lastCause : Nat
  lastBeat : Nat
  intentNext : Option Intent
  intent : Intent
  intentAge : Nat
  /-- Measured speed of the present beat; none while invalid (R276 to R278). -/
  speed : Option Nat
  irqPinEn : Bool
  ibiDoubtEn : Bool
  ibiStateEn : Bool
  stops : Nat
  floorEntryCount : Nat
  deriving DecidableEq, Repr

/-! ### Safe inputs, test pulses and the lock-out reset (R264 to R273, R288, R289) -/

/-- One channel of a safe input. -/
structure SafeChan where
  /-- ON at the last sample (R264). -/
  level : Bool
  /-- ON at the last unmasked sample, the reference of R273. -/
  prev : Bool
  /-- Consecutive unmasked OFF samples (R266). -/
  offRun : Nat
  /-- Consecutive unmasked ON samples (R267). -/
  onRun : Nat
  /-- Read OFF within the present mask window of its own source (R271). -/
  sawOff : Bool
  /-- A pulse of its own source passed without OFF: a stuck-ON fault is due (R271). -/
  stuckDue : Bool
  /-- Sources in whose present mask window it read OFF (R272). -/
  xsOff : BitVec 4
  /-- Sources whose last pulse it followed (R272). -/
  xsPrev : BitVec 4
  /-- A cross-short fault is due (R272). -/
  crossDue : Bool
  deriving DecidableEq, Repr

/-- One safe input (R265 to R273, R296). -/
structure SafeInput where
  a : SafeChan
  b : SafeChan
  on : Bool
  locked : Bool
  unlockArmed : Bool
  /-- 0 none; 1 discrepancy; 2 stuck-ON; 3 chatter; 4 cross-short; 5 test-pulse source (R296). -/
  lockCause : Nat
  /-- The discrepancy counter (R268). -/
  disc : Nat
  /-- The discrepancy fault of the run in progress has been declared. -/
  discDone : Bool
  /-- ON-to-OFF changes in the present chatter window (R273). -/
  chat : Nat
  chatDue : Bool
  demands : Nat
  deriving DecidableEq, Repr

/-- One test-pulse source (R270 to R272). -/
structure TestPulse where
  /-- The driven level. -/
  high : Bool
  /-- The start of its newest pulse. -/
  start : Option Nat
  /-- The level read back at the last sample. -/
  level : Bool
  /-- A wrong level was read at the last sample and its fault is due (R272). -/
  wrongDue : Bool
  /-- The fault of the present pulse period has been raised. -/
  faulted : Bool
  deriving DecidableEq, Repr

/-- The lock-out reset input (R288, R289, R298). -/
structure LrstState where
  a : Bool
  b : Bool
  /-- The sample at which the press in progress began, with the first ON sample of each channel. -/
  pressed : Bool
  onA : Option Nat
  onB : Option Nat
  /-- First OFF sample of each channel after its ON. -/
  offA : Option Nat
  offB : Option Nat
  /-- A channel turned ON again within the press. -/
  invalid : Bool
  /-- Samples at which the channels differed, in a row. -/
  diffRun : Nat
  /-- The discrepancy fault is due, and whether the press in progress has had it. -/
  discDue : Bool
  discDone : Bool
  /-- A valid press ended at the sample of the beat before this one (R288). -/
  acceptAt : Option Nat
  /-- Both channels of every STO input read ON at the sample of acceptance (R289). -/
  stoOn : Bool
  /-- An ignored press: 2 short, 3 long, 5 invalid (R341), not yet flagged. -/
  ignoreDue : Option Nat
  fAccepted : Bool
  fShort : Bool
  fLong : Bool
  fDisc : Bool
  fRefused : Bool
  fInvalid : Bool
  count : Nat
  deriving DecidableEq, Repr

/-! ### Encoders and speed (R274 to R279) -/

/-- What one encoder did within one beat: the signed edge sum, and whether an event of R277 fell in it. -/
structure EncBin where
  sum : Int
  event : Bool
  deriving DecidableEq, Repr

/-- One encoder (R274 to R277, R297). -/
structure Encoder where
  /-- The filtered levels of A and B. -/
  a : Bool
  b : Bool
  pos : BitVec 32
  /-- Signed sum and number of the edges of the present beat. -/
  sum : Int
  count : Nat
  /-- Events of the present beat: over-rate, illegal transition, index failure. -/
  curRate : Bool
  curIllegal : Bool
  curIndex : Bool
  /-- Events of the previous beat that ENCODER_FAULT has still to raise (R277). -/
  dueRate : Bool
  dueIllegal : Bool
  dueIndex : Bool
  /-- The previous beats, newest first. -/
  bins : List EncBin
  /-- Edges since the previous rising edge of Z; none before the first. -/
  zCount : Option Int
  /-- Signed edges since the last frame tick (R279). -/
  frameSum : Int
  /-- Sticky flags of `ENC_STATUS`. -/
  fRate : Bool
  fIllegal : Bool
  fIndex : Bool
  /-- v_e of the present beat; none while invalid. -/
  v : Option Nat
  deriving DecidableEq, Repr

/-- The encoder block (R276, R277, R297). -/
structure EncState where
  enc : Vector Encoder 2
  /-- The first beat at which speed may be valid; none until a tick origin is set (R277). -/
  validFrom : Option Nat
  xchkRun : Nat
  xchkDone : Bool
  /-- The encoder fault condition of R277. -/
  xchkFault : Bool
  /-- The sub-millimetre remainder of R279, in nm, times 2. -/
  distRem : Int
  deriving DecidableEq, Repr

/-! ### Safe outputs (R280 to R285) -/

/-- One channel of an output group. -/
structure OutChan where
  /-- Driven high. -/
  high : Bool
  /-- The read-back at the last sample (R282). -/
  rb : Bool
  /-- The beat of the command in force, and what it says. -/
  cmdBeat : Nat
  cmdOn : Bool
  /-- The read-back has once shown the commanded level. -/
  reached : Bool
  /-- The fault of this command has been raised (R282). -/
  faulted : Bool
  /-- A due off-pulse that has not started (R283). -/
  due : Bool
  deriving DecidableEq, Repr

/-- An off-pulse in progress (R283, R284): the channel, its start, and what the samples have shown. -/
structure OffPulse where
  chan : Bool
  start : Nat
  /-- The pulsed channel is driven again and its return to ON is awaited. -/
  returning : Bool
  sawOff : Bool
  otherDropped : Bool
  deriving DecidableEq, Repr

/-- One output group (R280 to R285, R298). -/
structure OutGroup where
  a : OutChan
  b : OutChan
  /-- The group is commanded on. -/
  on : Bool
  pulse : Option OffPulse
  /-- An off command latched during a pulse, with the end of that pulse's window (R285). -/
  latched : Bool
  latchChan : Bool
  latchEnd : Nat
  pulsesOk : Nat
  deriving DecidableEq, Repr

/-- The safe outputs (R280). -/
structure OutState where
  groups : Vector OutGroup 4
  /-- Held low by a fatal fault until a lock-out reset leads to STOPPED, or by SELFTEST_FAIL (R280). -/
  held : Bool
  deriving DecidableEq, Repr

/-! ### I3C target and command mailbox (R498 to R522) -/

/-- The I3C target (R498 to R513, R521). -/
structure I3cState where
  daValid : Bool
  dynAddr : Nat
  mwl : Nat
  mrl : Nat
  ibiSize : Nat
  /-- ENINT (R500). -/
  enint : Bool
  /-- The target is in HDR-DDR (R508). -/
  hdr : Bool
  /-- The read address (R503, R508). -/
  readAddr : Nat
  /-- GETSTATUS bit 5. -/
  protoErr : Bool
  /-- `GLB_IRQ_STATUS.CAUSE`. -/
  irqStatus : BitVec 7
  /-- `GLB_IRQ_EN.IBI_EN` and PIN_EN, bit n for cause n. -/
  ibiEn : BitVec 7
  pinEn : BitVec 7
  /-- The payload of each cause's pending IBI (R512). -/
  ibi : Vector (Option (List Byte)) 7
  nacked : Nat
  hdrCrc : Nat
  parity : Nat
  nackedReads : Nat
  beatHi : Nat
  /-- PID[31:0] (R499). -/
  pidLo : Nat
  /-- What the target last returned to the controller: CCC data, read words or an IBI with its MDB. -/
  resp : List Byte
  /-- The target acknowledged the last command. -/
  ack : Bool
  deriving DecidableEq, Repr

/-- A mailbox result that waits for the beat in which it is posted (R516). -/
structure CmdResult where
  code : Nat
  alive : Nat
  result : Nat
  /-- The trigger that an accepted ARM, STOP or RESUME joined (R519). -/
  trig : Option Trigger
  deriving DecidableEq, Repr

/-- A mailbox command that has been accepted and whose result waits for a later event (R516): its code and ALIVE. -/
structure CmdOpen where
  code : Nat
  alive : Nat
  deriving DecidableEq, Repr

/-- The command mailbox (R514 to R519, R522). -/
structure CmdState where
  words : Vector Nat 8
  alive : Nat
  crc : Nat
  busy : Bool
  code : Nat
  result : Nat
  aliveLast : Nat
  refused : Nat
  accepted : Nat
  /-- Results judged in this beat, in the order of their commands. -/
  results : List CmdResult
  /-- A command whose result is posted by another event (R516). -/
  waiting : Option CmdOpen
  deriving DecidableEq, Repr

end Sys2Proof.Machine
end

