-- ==== Sys2Proof/Machine/StateMain.lean ====
section
/-!
DEFINITION. The image loader and profiles, the scene grid, the floor grid and the field evaluation. Plain data.
-/
namespace Sys2Proof.Machine

/-! ### Images and profiles (R370 to R397) -/

/-- One section of an image: its ID and its body (R370, R371). -/
structure Section where
  id : Nat
  body : List Byte
  deriving DecidableEq, Repr

/-- An image that has passed a load (R381), with its digest D (R379). -/
structure Image where
  sections : List Section
  digest : List Byte
  deriving DecidableEq, Repr

/-- One image slot: its SYS record and the stored bytes (R381, R392). -/
structure Slot where
  valid : Bool
  rollback : Nat
  digest : List Byte
  bytes : List Byte
  deriving DecidableEq, Repr

/-- A refusal as R156 reports it. -/
structure Refused where
  code : Nat
  sect : Nat
  index : Nat
  core : Nat
  need : Nat
  avail : Nat
  deriving DecidableEq, Repr

/-- The parameters of the active profile, in the order of the parameter IDs of R388. -/
structure ProfileVals where
  trustCode : Nat
  floorCode : Nat
  speedTable : Nat
  retrustFrames : Nat
  fieldSet : Nat
  discIndex : Nat
  ss1Index : Nat
  deriving DecidableEq, Repr

/-- The image loader (R381 to R397). -/
structure LoaderState where
  /-- A verified image runs. -/
  running : Bool
  service : Bool
  loading : Bool
  fallback : Bool
  runSlot : Bool
  prefSlot : Bool
  slotA : Slot
  slotB : Slot
  /-- The image placed by the newest load that passed; its encoder and speed records stay in force through the
  next load (R277). -/
  image : Option Image
  keySlot : Nat
  xferOpen : Bool
  /-- The slot the open transfer writes. -/
  target : Bool
  busy : Bool
  overrun : Bool
  aborted : Bool
  advLeft : Nat
  srcBulk : Bool
  bulkPort : Nat
  length : Nat
  received : List Byte
  /-- What the checks of the staged copy find (R391, R392). -/
  stagedRefusal : Option Refused
  resultA : Nat × Nat
  resultB : Nat × Nat
  /-- `LDR_DETAIL`, `LDR_NEED` and `LDR_AVAIL`: core, index, need and availability. -/
  detail : Refused
  /-- The OTP anti-rollback counter (R384). -/
  otpCtr : Nat
  profile : Nat
  vals : ProfileVals
  modified : BitVec 7
  deriving DecidableEq, Repr

/-! ### The scene grid and the floor grid (R50 to R86) -/

/-- One cell record of the scene grid (R52). -/
structure Cell where
  chkLo : Int
  clmLo : Int
  disAcc : Nat
  margin : Nat
  height : Nat
  cls : Nat
  chkFrame : Nat
  clmFrame : Nat
  chkSeen : Bool
  clmSeen : Bool
  chkObj : Bool
  clmObj : Bool
  evalUndec : Bool
  evalDis : Bool
  clsSrc : Bool
  deriving DecidableEq, Repr

/-- One cell of the floor grid (R71). -/
structure FloorCell where
  lo : Int
  margin : Nat
  frame : Nat
  height : Nat
  cls : Nat
  seen : Bool
  deriving DecidableEq, Repr

/-- The pose at a frame tick, with the shift of that tick (R57, R59). -/
structure PoseRec where
  frame : Nat
  psi : Nat
  offX : Rat
  offY : Rat
  nx : Int
  ny : Int
  deriving DecidableEq, Repr

/-- One entry of the object table (R69). -/
structure ObjEntry where
  cam : Nat
  x : Int
  y : Int
  cls : Nat
  conf : Nat
  srcFrame : Nat
  commit : Nat
  matched : Bool
  deriving DecidableEq, Repr

/-- One claimed object's footprint centre, kept for matching (R69). -/
structure ObjClaim where
  x : Int
  y : Int
  cls : Nat
  srcFrame : Nat
  deriving DecidableEq, Repr

/-- A checker write as the writing core's projection unit sends it (R54, R148): a cell in the grid coordinates of
the source frame, a midpoint and a radius, and the graph whose check produced it. -/
structure CheckerWrite where
  srcFrame : Nat
  x : Int
  y : Int
  c : Int
  r : Nat
  height : Nat
  cls : Nat
  obj : Bool
  graph : Nat
  deriving DecidableEq, Repr

/-- What a claim item says (R55, R238): an object box with its range, or one free-space bin. Edges are pixel
edges, distances are in mm; a bin without a free distance has no obstacle. -/
inductive ClaimItem where
  | object (cls x0 x1 y1 : Nat) (range : Option Nat)
  | bin (left right : Nat) (free : Option Nat)
  deriving DecidableEq, Repr

/-- A claim item to be projected: its camera and its source frame (R55, R57). -/
structure ClaimWrite where
  cam : Nat
  srcFrame : Nat
  item : ClaimItem
  deriving DecidableEq, Repr

/-- The scene grid (R50 to R70, R83 to R85). -/
structure GridState where
  /-- Plane 0 and plane 1 by cell number row × 1,024 + column, in the grid coordinates of the present frame. -/
  plane0 : Sparse Cell
  plane1 : Sparse Cell
  /-- ψ in units of 2π/2³² (R51). -/
  psi : Nat
  offX : Rat
  offY : Rat
  /-- The shift of the last tick. -/
  nx : Int
  ny : Int
  /-- The poses of the last 4 frame ticks, newest first (R57). -/
  poses : List PoseRec
  objs : List ObjEntry
  claims : List ObjClaim
  /-- The beat in which a match was last asked for and is not yet complete (R69). -/
  matchDue : Option Nat
  /-- Writes in the write buffer (R58). -/
  wbuf : Nat
  /-- Checker writes whose agent stalls on a full buffer (R58). -/
  stalled : List CheckerWrite
  /-- Claim items on their way to the grid engine, in arrival order (R243). -/
  claimQ : List ClaimWrite
  /-- The tick whose sweep is in progress (R61). -/
  sweepSince : Option Nat
  /-- `GRID_ERR` bits (R84). -/
  err : BitVec 8
  addrPlane : Bool
  addrRow : Nat
  addrCol : Nat
  deriving DecidableEq, Repr

/-- One cell of a floor engine's result (R72, R376): its interval, height and class. -/
structure FloorWrite where
  x : Nat
  y : Nat
  lo : Int
  hi : Int
  height : Nat
  cls : Nat
  deriving DecidableEq, Repr

/-- The floor grid and the two floor engines (R71 to R73, R178 to R180, R376). -/
structure FloorState where
  cells : Sparse FloorCell
  /-- The floor grid's own remainders (R72). -/
  remX : Rat
  remY : Rat
  f0Ok : Bool
  f1Ok : Bool
  /-- Removed for the rest of the power-on period (R180). -/
  f0Lost : Bool
  f1Lost : Bool
  /-- A floor cycle is in progress (R376). -/
  cycle : Bool
  /-- The results the two engines have delivered for it. -/
  res0 : Option (List FloorWrite)
  res1 : Option (List FloorWrite)
  /-- The frame number of the last completed floor cycle (R24). -/
  lastCycle : Option Nat
  deriving DecidableEq, Repr

/-- What the grid engine and the floor evaluator use and report each beat (R62 to R73). -/
structure EvalState where
  /-- The main and floor fields whose masks are in use, and the heading they were rasterised at. -/
  mainField : Nat
  floorField : Nat
  maskPsi : Nat
  /-- The masks of the coming frame: fields and heading, and the tick they were asked for. -/
  nextField : Nat
  nextFloor : Nat
  nextPsi : Nat
  maskDue : Option Nat
  maskNew : Bool
  band : Nat
  floorBand : Nat
  /-- For each band, the consecutive beats for which the speed allowed a move down to it (R64). -/
  bandRuns : Vector Nat 8
  floorBandRuns : Vector Nat 8
  /-- The main mask of the last beat of the closing frame: field, band and heading (R61). -/
  closing : Nat × Nat × Nat
  c : Nat
  u : Nat
  phantom : Nat
  run : Nat
  cellRule : Bool
  objRule : Bool
  mainClear : Bool
  fCount : Nat
  floorRun : Nat
  floorOcc : Bool
  floorClear : Bool
  /-- The island has received an evaluation in the present beat (R559). -/
  got : Bool
  /-- D0's rules hold in the present beat (R20, R68, R69). -/
  d0 : Bool
  floorAvail : Bool
  deriving DecidableEq, Repr

end Sys2Proof.Machine
end

