-- ==== Sys2Proof/Machine/StateSys.lean ====
section
/-!
DEFINITION. The pieces of State that belong to the NAND journal (spec/10), self-test (spec/12), life cycle and
security (spec/13), power and temperature (spec/14), network time (spec/15) and pair operation (spec/16). Plain data.
-/
namespace Sys2Proof.Machine

/-! ### NAND and journal (R350 to R369) -/

/-- One page of the NAND device as programmed (R352, R353); `data` is what the page holds before encryption (R360). -/
structure NandPage where
  ptype : Nat
  epoch : Nat
  powerOn : Nat
  pageSeq : Nat
  firstSeq : Nat
  count : Nat
  tag : List Byte
  data : List Byte
  deriving DecidableEq, Repr

/-- The partitions of R354; a block outside all of them is bad or not formatted. -/
inductive Part where
  | none | sys | slotA | slotB | evidence | spare | ring
  deriving DecidableEq, Repr

/-- One block (R354 to R358). -/
structure NandBlock where
  part : Part
  factoryBad : Bool
  grownBad : Bool
  erases : Nat
  reads : Nat
  pages : List NandPage
  deriving DecidableEq, Repr

/-- The NAND journal (R350 to R369). -/
structure JnlState where
  /-- `JNL_LOST.LOST`. -/
  lost : Nat
  /-- Records lost that the next flush reports (R350). -/
  lostNew : Nat
  /-- A UC or FT record, a HALT transition or a FLUSH command asks for a flush (R350). -/
  flushDue : Bool
  present : Bool
  formatted : Bool
  ready : Bool
  stopped : Bool
  scrubBusy : Bool
  rdBusy : Bool
  rdOk : Bool
  rdFail : Bool
  twoCe : Bool
  mode : Nat
  /-- 1 for 8 KiB pages, 2 for 16 KiB (R368). -/
  page : Nat
  pagesPerBlock : Nat
  blocks : List NandBlock
  /-- The next PAGE_SEQ, and the last one programmed. -/
  nextSeq : Nat
  lastSeq : Nat
  /-- The blocks of the journal ring and of the evidence area, in ring order, by block number (R354, R356). -/
  ring : List Nat
  evid : List Nat
  /-- The ring block being written, and whether pages still fit behind its last one: a mount closes it (R356, R359). -/
  head : Option Nat
  headOpen : Bool
  /-- The same for the evidence area. -/
  evidHead : Option Nat
  evidOpen : Bool
  /-- PAGE_SEQ of the first-area copy in force; CLEAR_FIRST_AREA makes it obsolete (R345, R348). -/
  firstCopy : Option Nat
  /-- The UC fault of source 98 has been raised in this power-on period (R362). -/
  spareRaised : Bool
  /-- A HALT snapshot is due (R349). -/
  snapDue : Bool
  /-- Which SYS copy is current (R359). -/
  sysCopy : Bool
  copied : Nat
  rewrites : Nat
  /-- Powered beats since the last complete scrub pass (R358). -/
  scrubBeats : Nat
  highCw : Nat
  maxBits : Nat
  slotMib : Nat
  evidMib : Nat
  rdSeqLo : Nat
  rdSeqHi : Nat
  powerOn : Nat
  /-- The page buffer (R347, R369). -/
  buffer : List Byte
  deriving DecidableEq, Repr

/-! ### Self-test (R400 to R419) -/

/-- One test of the due rule of R410: frame of its last completion (for a GDDR6 channel its beat), next slice, aborts in
the interval, and the frame in which its expiry was judged last (R411). -/
structure TestCov where
  last : Option Nat
  slice : Nat
  aborts : Nat
  judged : Option Nat
  deriving DecidableEq, Repr

/-- A kind of periodic slice (R409), with its core, link or channel. -/
inductive TestKind where
  | lbist (core : Nat) | link (n : Nat) | scrub (chan : Nat)
  deriving DecidableEq, Repr

/-- A slice in progress (R412). -/
structure SliceRun where
  kind : TestKind
  slice : Nat
  start : Nat
  deriving DecidableEq, Repr

/-- Self-test (R404 to R419). -/
structure StState where
  running : Bool
  unit : Nat
  step : Nat
  outcome : Nat
  stoppedBeat : Nat
  coreFail : BitVec 32
  misr : Nat
  len : Nat
  lbistCore : Nat
  nextLink : Nat
  expired : BitVec 3
  incomplete : Nat
  aborts : Nat
  cores : Vector TestCov 32
  links : Vector TestCov 76
  chans : Vector TestCov 8
  slices : List SliceRun
  deriving DecidableEq, Repr

/-! ### Life cycle and security (R420 to R441) -/

/-- One owner key slot of OTP (R380, R433). -/
structure KeySlot where
  hash : List Byte
  programmed : Bool
  revoked : Bool
  deriving DecidableEq, Repr

/-- A life-cycle transition whose token has passed (R425): the target, the signer, the beat of acceptance, and
whether the fuses have been programmed. -/
structure LcPending where
  dest : Nat
  signer : Nat
  since : Nat
  deriving DecidableEq, Repr

/-- The life cycle (R420 to R433). -/
structure LcState where
  /-- The four fuse groups of R421, lowest first. -/
  fuses : Vector (BitVec 3) 4
  /-- The state and the counter the island booted with (R426). -/
  bootState : Nat
  bootCounter : Nat
  keys : Vector KeySlot 4
  seed : Option (List Byte)
  /-- The identity region was programmed and did not verify (R427). -/
  seedBad : Bool
  cert : Option (List Byte)
  debugSeen : Bool
  /-- DATA of the 0xC110 record that follows the next power-on record (R425). -/
  again : Option Nat
  pending : Option LcPending
  deriving DecidableEq, Repr

/-- A security operation in progress (R436): its code, the reason that its checks give, and for ATTEST the sampled
report and the STORE flag (R434). -/
structure SecOp where
  op : Nat
  result : Nat
  report : List Byte
  store : Bool
  /-- The target of LC_TRANSITION. -/
  dest : Nat
  deriving DecidableEq, Repr

/-- The security buffer and operations (R434 to R441). -/
structure SecState where
  buf : Mem
  ptr : Nat
  len : Nat
  reportValid : Bool
  result : Nat
  lastOp : Nat
  op : Option SecOp
  nonce : Vector Nat 8
  attCount : Nat
  /-- Random draws made (R427). -/
  draws : Nat
  deriving DecidableEq, Repr

/-! ### Power and temperature (R442 to R462) -/

/-- One primary (R454 to R456, R462). `seq` is the code of `ACC_STAT_k.SEQ`. -/
structure AccState where
  seq : Nat
  pwrEn : Bool
  rstN : Bool
  limit : Bool
  cycles : Nat
  /-- The beats at which automatic cycles started, newest first (R455). -/
  starts : List Nat
  /-- The beat at which the step in progress began. -/
  since : Nat
  /-- The sequence in progress is a power cycle. -/
  cycling : Bool
  /-- The beat at which ACCk_RST_N last rose (R455). -/
  rstRise : Nat
  deriving DecidableEq, Repr

/-- One temperature sensor (R449, R462). -/
structure Sensor where
  valid : Bool
  trip : Bool
  temp : Int
  /-- Consecutive invalid readings (R450). -/
  bad : Nat
  deriving DecidableEq, Repr

/-- Temperature (R449 to R451, R462). -/
structure ThermState where
  sens : Vector Sensor 48
  /-- T, in 0.125 °C. -/
  t : Int
  hot : Nat
  /-- Pairs of which both sensors are invalid, pair p = sensors 32 + 2p and 33 + 2p. -/
  lostPairs : BitVec 8
  /-- T in force for the scheduler from the next beat on (R207), and T's step of the present beat. -/
  tNow : Int
  deriving DecidableEq, Repr

/-- Power (R442 to R448, R452, R461). -/
structure PwrState where
  /-- The main rails are in window: the main domain is powered (R443). -/
  mainOn : Bool
  standby : Bool
  waking : Bool
  /-- The beat in which STANDBY was accepted, until the rails are removed (R452). -/
  entering : Option Nat
  /-- A wake request that arrived during the entry, with its WAKE_SRC (R453). -/
  wakeHeld : Option Nat
  overcurrent : Bool
  railWarn : BitVec 9
  inWindow : BitVec 9
  armed : BitVec 9
  mv : Vector Nat 9
  /-- PEN_CORE, PEN_SRAM, PEN_PHY, PEN_MEM (R443). -/
  pen : BitVec 4
  i10ma : Nat
  vMv : Nat
  target : Nat
  /-- The target before the last change, and the beat of that change (R445). -/
  oldTarget : Nat
  targetBeat : Nat
  point : Nat
  hold : Bool
  mUnavail : Bool
  errors : Nat
  /-- Consecutive periods in which each regulator was unread, and consecutive readings above ICORE_TRIP (R448). -/
  unread : Vector Nat 2
  overRun : Nat
  /-- Energy of the frame in progress, in nJ, and whether M of it is unavailable (R448). -/
  energy : Rat
  frameUnread : Bool
  acc : Vector AccState 2
  deriving DecidableEq, Repr

/-! ### Network time (R463 to R482) -/

/-- One Ethernet port (R466 to R470, R482). -/
structure EthPort where
  link : Bool
  /-- 0 disabled; 1 listening; 2 slave; 3 passive. -/
  ptpState : Nat
  asCapable : Bool
  /-- `ETH_ERR_m`: LINK_DOWN, TS_LANE, BUF_UE, PCS from bit 0. -/
  err : BitVec 4
  discarded : Nat
  fcsErrs : Nat
  /-- Software timestamping after a lane disagreement (R470). -/
  swTs : Bool
  /-- The best master heard: the comparison data of R468 as numbers, most significant first, and its identity. -/
  best : Option (List Nat × Nat)
  pathDelay : Nat
  /-- The transmit time of a delay request that awaits its response (R467), in ns. -/
  asked : Option Nat
  /-- Delay messages sent, and responses given. -/
  sent : Nat
  answered : Nat
  deriving DecidableEq, Repr

/-- Device time and the servo (R463 to R472, R481). -/
structure TimeState where
  /-- Device time, ns, and its 32-bit fraction. -/
  now : Nat
  frac : Nat
  /-- `TIME_STATUS.VALID`: device time has been set. -/
  set : Bool
  holdover : Bool
  /-- The holdover in force began at a loss of Sync, not at a jump (R477). -/
  holdLoss : Bool
  jump : Bool
  slave : Nat
  steps : Nat
  offset : Int
  /-- r and f of R471, in ppb. -/
  r : Rat
  f : Rat
  good : Nat
  master : Nat
  refused : Nat
  samples : Nat
  /-- The most recent sample, with its beat and its Sync interval in beats (R472). -/
  sample : Option (Int × Nat × Nat)
  /-- The latched high word and beat (R481). -/
  nowHi : Nat
  nowBeat : Nat
  eth : Vector EthPort 2
  deriving DecidableEq, Repr

/-- One verdict telegram (R475). -/
structure Telegram where
  ttype : Nat
  alive : Nat
  tflags : Nat
  beat : Nat
  time : Nat
  word : Nat
  prev : Nat
  frame : Nat
  changes : Nat
  deriving DecidableEq, Repr

/-- Verdict telegrams (R473 to R476). -/
structure TelState where
  dropped : Nat
  /-- ALIVE of the next telegram. -/
  alive : Nat
  /-- Telegrams generated and not yet sent, oldest first. -/
  queue : List Telegram
  /-- The beat of the last change telegram. -/
  lastChange : Option Nat
  /-- Change beats waiting for the end of the gap (R474). -/
  held : Nat
  /-- WSTATE and DOUBT of the word last sent. -/
  lastSent : Option (Nat × Nat)
  /-- The frames sent last, as port and payload. -/
  out : List (Nat × List Byte)
  /-- The word committed in the beat before. -/
  prevWord : Nat
  deriving DecidableEq, Repr

/-! ### Pair operation (R483 to R497) -/

/-- A partner beat message as paired (R487, R489). -/
structure PartnerMsg where
  /-- The own beat in which it arrived. -/
  at' : Nat
  stage : Nat
  ownDoubt : Nat
  verdict : Nat
  beat : Nat
  deriving DecidableEq, Repr

/-- One stage watchdog (R493). -/
structure StageState where
  met : Bool
  /-- The stage has been judged in this frame. -/
  judged : Bool
  viol : Bool
  deriving DecidableEq, Repr

/-- Larkspur and pair operation (R485 to R497). `state` is the code of `LK_STATUS.STATE`. -/
structure LkState where
  state : Nat
  lanes : BitVec 4
  cause : Nat
  delta : Int
  phi0 : Int
  latency : Nat
  skew : Int
  skewMax : Nat
  skewBad : Nat
  /-- The newest valid beat messages, newest first, at most 4. -/
  partner : List PartnerMsg
  /-- The beat of the last valid beat message, or of the entry to ALIGNED. -/
  msgBeat : Nat
  partnerCMax : Nat
  crcErrs : Nat
  /-- The beats of recent CRC failures, newest first (R487). -/
  crcBeats : List Nat
  aligns : Nat
  helloRun : Nat
  /-- A HELLO mismatch has been raised and no match has come since (R486). -/
  mismatched : Bool
  /-- Consecutive summaries whose FIELD_HASH differed (R489 code 0x08). -/
  hashRun : Nat
  fieldRun : Nat
  clearRun : Nat
  /-- The last beat in which a condition of R489 held, and whether D7 awaits a met verdict stage (R490). -/
  condBeat : Option Nat
  /-- Bit n: the condition of code n holds (R489). -/
  condCode : Nat
  /-- A frame that began after the last beat with a condition has ended with its verdict stage met (R490). -/
  cleanMet : Bool
  /-- A partner frame summary has arrived in this frame and passed its CRC (R493). -/
  summaryIn : Bool
  stages : Vector StageState 4
  lastStage : Nat
  lastCode : Nat
  /-- Highest C and cell-rule beats of the frame in progress (R487). -/
  cMax : Nat
  ruleBeats : Nat
  /-- Own frame summary sent last: frame, C_MAX, RULE_BEATS, FIELD_HASH. -/
  summary : Option (Nat × Nat × Nat × List Byte)
  /-- C_MAX and RULE_BEATS of the frame just closed. -/
  sumC : Nat
  sumRule : Nat
  /-- The beat or HELLO message sent last (R487). -/
  sent : List Byte
  deriving DecidableEq, Repr

end Sys2Proof.Machine
end

