-- ==== Sys2Proof/Syntax.lean ====
section
/-!
DEFINITION. The commands of the block: one constructor per row of spec/opcode_table.json, in its order, with what
the row's event carries from outside the chip as operands. Operands that a step finds inside the chip are no
operands: the meaning reads them from State.
-/
namespace Sys2Proof

/-! ### What a beat brings (R264, R282, R176, R14, R70, R559) -/

/-- What the grid engine answers for a beat: its result from two agreeing lanes, a disagreement of the lanes, or
nothing (R70, R559). -/
inductive GridAnswer where
  | result | mismatch | silent
  deriving DecidableEq, Repr

/-- The two rails of one comparator in a beat (R176): its test lane in cycle 0, and its real lanes. 1 is the code 01,
2 is the code 10. -/
structure CmpRails where
  test : BitVec 2
  real : BitVec 2
  deriving DecidableEq, Repr

/-- The samples of the beat that begins (R264), pin levels: safe inputs, lock-out reset channels, read-backs, test-pulse pins;
the comparators' codes (R176); whether the watch's state register reads code 7 (R14); the grid engine's answer; and
the longest VC0 delivery of the beat, in cycles (R126).
(DESIGN CHOICE, unsafe: notes/assumptions/69.md.) -/
structure BeatIn where
  si : List (Bool × Bool)
  lrstA : Bool
  lrstB : Bool
  rb : List (Bool × Bool)
  tp : List Bool
  cmp0 : CmpRails
  cmp1 : CmpRails
  code7 : Bool
  grid : GridAnswer
  nocWait : Nat
  deriving DecidableEq, Repr

/-! ### Commands of the mailbox (R514) -/

/-- What a write of 0xA5 to `CMD_GO` copies into the command engine (R514). -/
structure CmdGo where
  words : List Word
  alive : BitVec 16
  crc : Word
  deriving DecidableEq, Repr

/-! ### Start-up (R400 to R407) -/

/-- A failure of one of the steps 2 to 8 (R404, R406): its step, unit (R418), outcome (2 FAIL, 3 INCOMPLETE twice),
signature and length. -/
structure TestFail where
  step : Nat
  unit : Nat
  outcome : Nat
  misr : Nat
  len : Nat
  deriving DecidableEq, Repr

/-- A start-up failure confined to one core (R407): unit code 0x16 for its MBIST, 0x14 for its router. -/
structure CoreFail where
  core : Fin 32
  router : Bool
  misr : Nat
  deriving DecidableEq, Repr

/-- The NAND device that answers at the mount (R351, R352, R368). -/
structure NandDevice where
  supported : Bool
  twoCe : Bool
  mode : Nat
  page : Nat
  pagesPerBlock : Nat
  total : Nat
  factoryBad : List Nat
  deriving DecidableEq, Repr

/-- What the start-up steps find (R400 to R407): the length of each step 2 to 8 in beats, the failures, the NAND
device that answers, and the readings of the rails in mV. -/
structure StartTests where
  beats : List Nat
  fail : Option TestFail
  cores : List CoreFail
  nand : Option NandDevice
  mv : List Nat
  /-- Fixed forwarding latency of each port, ns (R233). -/
  fwdLat : List Nat
  deriving DecidableEq, Repr

/-- What a load meets outside the slot contents: uncorrectable NAND reads of slots A and B, and of the placing step
(R381, steps 3 and 9). -/
structure LoadIn where
  badA : Bool
  badB : Bool
  badPlace : Bool
  deriving DecidableEq, Repr

/-! ### Micro-operations (R94, R108 to R117, R139 to R149) -/

/-- A place in memory: the engine's own SRAM, its core's shared SRAM, or GDDR6. -/
inductive MemLoc where
  | engine (addr : Nat)
  | core (addr : Nat)
  | gddr (addr : Nat)
  deriving DecidableEq, Repr

/-- The envelope operations on two tensors (R115). -/
inductive EnvOp where
  | add | sub | mul | max | min
  deriving DecidableEq, Repr

/-- What one micro-operation does on its engine. Formats are the codes of R132; data addresses are bytes of the
engine's SRAM; an accumulator is a number. -/
inductive MicroOp where
  /-- No arithmetic: control, projection and checks. -/
  | control
  | setAcc (acc : Nat) (value : BitVec 32)
  /-- One multiply-accumulate of the given formats (R94, R106, R107, R111); an INT4 operand is a nibble address. -/
  | mac (fa fw : Nat) (acc a w : Nat)
  /-- One block of 32 products of an MX format with its two scale bytes (R109). -/
  | macMx (f : Nat) (acc a w ea ew : Nat)
  /-- Requantise or convert an accumulator into a format (R108, R111). -/
  | drain (f : Nat) (acc dst m0 shift zp : Nat)
  | envMac (acc a rad w : Nat)
  | envDrain (acc dst rad m0 shift : Nat)
  /-- Two envelope elements with multipliers in M0 and shift (R115). -/
  | envBinary (k : EnvOp) (a ra b rb dst rdst ma sa mb sb : Nat)
  | envAct (f : Nat) (a ra dst rdst : Nat)
  /-- Integer ELTWISE: 0 add, 1 subtract, 2 multiply, 3 max, 4 min (R145). -/
  | eltwise (func f a b dst ma sa mb sb zp : Nat)
  | act (f func src dst : Nat)
  | convert (src dst a b : Nat) (radius : Nat)
  /-- 32 values of a format made into one MX block (R109). -/
  | mxPack (src f a dst scale : Nat)
  | threshold (f cmp : Nat) (thresh : Int) (a : Nat) (radius : Option Nat) (dst : Nat)
  | argmax (f n a dst : Nat)
  | move (src dst : MemLoc) (n : Nat)
  deriving DecidableEq, Repr

/-! ### Streams (R224 to R253) -/

/-- The header of a received packet (R224, R232). -/
inductive HeaderState where
  | good | corrected | uncorrectable
  deriving DecidableEq, Repr

/-- A long packet as received: header, CRC-16, payload, and the samples that the payload encodes for its data type. -/
structure LongPkt where
  vc : Nat
  dt : Nat
  hdr : HeaderState
  crcOk : Bool
  payload : List Byte
  samples : List Nat
  deriving DecidableEq, Repr

/-! ### Time (R467 to R471) -/

/-- One Sync sample as the port measures it (R469, R471): the offset o in ns, and the master's logSyncInterval. -/
structure SyncSample where
  offset : Int
  logInterval : Int
  deriving DecidableEq, Repr

/-- An Announce message: the comparison data of the best master clock algorithm, most significant first, lower
better, and the clock identity (R468). -/
structure Announce where
  rank : List Nat
  identity : Nat
  deriving DecidableEq, Repr

/-! ### Pair messages (R487) -/

/-- A partner beat message, with its CRC check and the arrival measured in ns: round trip and phase (R488). -/
structure BeatMsg where
  crcOk : Bool
  stage : BitVec 8
  ownDoubt : BitVec 8
  verdict : Word
  beat : Nat
  roundTrip : Nat
  phase : Int
  deriving DecidableEq, Repr

/-- A partner HELLO message (R486, R487). -/
structure HelloMsg where
  crcOk : Bool
  chip : Nat
  pairId : Nat
  digest : List Byte
  beat : Nat
  roundTrip : Nat
  phase : Int
  deriving DecidableEq, Repr

/-- A partner frame summary (R487). -/
structure SummaryMsg where
  crcOk : Bool
  cMax : Nat
  hash : List Byte
  deriving DecidableEq, Repr

open Sys2Proof.Machine in
/-- The commands. -/
inductive Instr where
  | beat (i : BeatIn)
  | ss1MaxTime
  | encCrosscheckFault
  | cellRulePersist
  | bandDown
  | floorOccupancyConfirmed
  | frameTick (estimatedUj : Nat)
  | sweepComplete
  | masksReady
  | armFramesReached
  | retrust
  | armTimeout
  | retrustBlock
  | microopsCancelled (graph : Fin 64)
  | constantCopyDone (graph : Fin 64) (copy : Fin 2) (index : Fin 8)
  | coverageExpiry (k : TestKind)
  | telegramSend (late : Bool)
  | telegramGapEnd
  | fsyncAssert (n : Fin 4)
  | fsyncRelease (n : Fin 4)
  | goldenFail (core : Fin 32)
  | arm (c : CmdGo)
  | stop (c : CmdGo)
  | resume (c : CmdGo)
  | profileSelect (c : CmdGo)
  | profileSet (c : CmdGo)
  | intent (c : CmdGo)
  | serviceEnter (c : CmdGo)
  | serviceExit (c : CmdGo)
  | clearFirstArea (c : CmdGo)
  | lcTransition (c : CmdGo)
  | lcApply (fatal : Option (Fin 112 × Word))
  | ldrOpen
  | ldrWdataWrite (bs : List Byte)
  | ldrClose
  | stagedImageVerified (readBackOk : Bool)
  | ldrAbort
  | ldrActivate (slotB : Bool)
  | ldrCommit
  | bulkChunk (port : Fin 16) (vc : Nat) (bs : List Byte)
  | imageLoad (l : LoadIn)
  | idGenerate (trngOk : Bool) (readBackOk : Bool)
  | certProgram
  | certRead
  | keyOp
  | attest (store : Bool)
  | attestReportSigned
  | bufClear
  | secBufDataWrite (bs : List Byte)
  | secBufDataRead
  | watchVerdictRead
  | glbBeatLoRead
  | timeNowLoRead
  | gridCellData3Read
  | recWin0Read
  | recWin7Read
  | rcFieldRead (addr : BitVec 24)
  | fcFfClear
  | wdTaskKick (task : Fin 16) (own : Nat)
  | wdSvcKick (own : Nat)
  | standbyReq
  | wake (t : StartTests)
  | accOn (k : Fin 2)
  | accOff (k : Fin 2)
  | accCycle (k : Fin 2)
  | timeStep
  | jnlRdPage
  | jnlFlushCmd
  | jnlFormat
  | cvuFeed (unit : Fin 16) (bs : List Byte) (runtime : Bool) (lanesAgree : Bool)
  | cvuAliveCheck (unit : Fin 16) (value : BitVec 16) (runtime : Bool)
  | irqStatusClear (mask : BitVec 7)
  | registerWrite (bs : List Byte) (parityError : Bool)
  | enec (enint : Bool)
  | disec (enint : Bool)
  | rstdaa
  | entdaa (addr : BitVec 7) (won : Bool)
  | setmwl (n : BitVec 16)
  | setmrl (n : BitVec 16) (ibi : Option Byte)
  | rstact (db : Byte)
  | enthdr0
  | hdrDdrWrite (code : Byte) (words : List (BitVec 16)) (crcOk : Bool)
  | hdrDdrRead (code : Byte) (n : Nat)
  | setdasa (addr : BitVec 7)
  | setnewda (addr : BitVec 7)
  | getmwl
  | getmrl
  | getpid
  | getbcr
  | getdcr
  | getstatus
  | getmxds
  | getcaps
  | targetResetPattern
  | ibiRequest (acked : Bool)
  | safeInputDemand (i : Fin 8)
  | safeInputOn (i : Fin 8)
  | discrepancyFault (i : Fin 8)
  | stuckOnFault (i : Fin 8) (chanB : Bool)
  | crossShortFault (i : Fin 8) (chanB : Bool)
  | chatterFault (i : Fin 8)
  | testPulseStart (k : Fin 4)
  | testPulseEnd (k : Fin 4)
  | testPulsePinFault (k : Fin 4)
  | encoderEdge (e : Fin 2) (a b zRise : Bool)
  | encoderFault (e : Fin 2)
  | speedValidAgain
  | offPulseStart (g : Fin 4) (chanB : Bool)
  | offPulseEnd (g : Fin 4)
  | readbackFailure (g : Fin 4) (chanB : Bool)
  | lrstPressAccepted (t : StartTests)
  | lrstPressIgnored
  | lrstDiscrepancy
  | heartbeatEdge (k : Fin 2) (level : Bool) (own : Nat)
  | heartbeatLost (k : Fin 2) (own : Bool)
  | heartbeatPersist (k : Fin 2)
  | pwrToRstExpiry (k : Fin 2)
  | rstToOffExpiry (k : Fin 2)
  | offBeatsExpiry (k : Fin 2)
  | taskPeriodEnd (task : Fin 16)
  | svcPeriodEnd
  | serviceCoreRestart
  | standbyWakeTimer
  | clockMonitorTrip (rc : Bool)
  | rcFreqCheck (dev : Int)
  | crystalStop
  | watchdogCopyMismatch (source : Fin 6) (inst : Fin 16)
  | lockstepMismatch (kind : Fin 4) (reg : Fin 32) (cycle : Fin 1100)
  | tcmEccError (uncorrected : Bool) (info : Word)
  | runtimeIntegrityFault (info : Word)
  | quietPeriodEnd
  | coreUnitFault (core : Fin 32) (engines : BitVec 4) (unit : Byte)
  | coreOff (core : Fin 32)
  | correctableSramError (core : Fin 32) (engine : Option (Fin 4))
  | windowOpen (core : Fin 32)
  | windowClose (core : Fin 32)
  | coreWakeDone (core : Fin 32)
  | avsTargetChange
  | runReady (graph : Fin 64)
  | descriptorDispatch (core : Fin 32)
  | microopIssue (engine : Fin 128) (graph : Fin 64) (copy : Fin 2) (desc : Nat) (op : MicroOp)
  | microopRetire (engine : Fin 128) (graph : Fin 64) (copy : Fin 2) (desc : Nat)
  | descriptorFail (graph : Fin 64) (copy : Fin 2) (desc : Nat)
  | compareExecute (graph : Fin 64) (desc : Nat)
  | barrierPass (graph : Fin 64) (copy : Fin 2) (desc : Nat)
  | checkerWrite (w : CheckerWrite)
  | writeBufferRoom
  | claimWrite
  | detectionListCommit (camera : Fin 64) (srcFrame : Nat) (graph : Fin 64) (ds : List (Int × Int × Nat × Nat))
  | objectMatch
  | objGraceExpiry
  | gridCellUe (plane1 : Bool) (cell : Fin 524288)
  | floorCycleStart
  | floorCycleComplete (engine1 : Bool) (cells : List FloorWrite)
  | floorEngineFault (engine1 : Bool) (unit : Fin 6)
  | floorCellUe (cell : Fin 8192)
  | csiFrameStart (port : Fin 16) (vc number : Nat) (hdr : HeaderState)
  | csiLongPacket (port : Fin 16) (p : LongPkt)
  | csiFrameEnd (port : Fin 16) (vc number : Nat) (hdr : HeaderState)
  | forwardFailure (port : Fin 16)
  | crocusStagingDone (port : Fin 16)
  | crocusInjectionStart (port : Fin 16)
  | crocusInjectionEnd (port : Fin 16)
  | crocusDeadline (port : Fin 16)
  | claimRecord (port : Fin 16) (p : LongPkt)
  | claimAgeExpiry (stream : Fin 4)
  | verdictBatchSend (sent : Bool)
  | eventRecord (engine : Option (Fin 128)) (code : BitVec 16) (data : BitVec 64)
  | journalFlush
  | nandProgramFail (block : Nat) (erase : Bool)
  | nandOpTimeout (block : Nat)
  | readDisturbRefresh (block : Nat)
  | retentionScrub (found : List (Nat × Option Nat))
  | haltSnapshot
  | gddrEdcRetry (chan : Fin 8) (ok : Bool)
  | gddrUe (chan : Fin 8) (unit : Nat) (consumer : Option (Fin 64 × Fin 2 × Nat))
  | testSliceStart (k : TestKind)
  | testSliceEnd (k : TestKind) (lengthOk : Bool) (signatureOk : Bool)
  | testSliceAbort (k : TestKind)
  | temperatureReading (conv : List (Int × Int))
  | sensorInvalidLimit
  | comparatorTrip125 (sensor : Fin 48)
  | railWarn (rail : Fin 9) (mv : Nat)
  | railTrip (rail : Fin 9) (mv : Nat)
  | avsbusRead (regs : List (Option (Nat × Nat))) (retries : Nat) (status : Bool)
  | powerOn (t : StartTests)
  | aonSupplyCollapse
  | ptpSync (port : Fin 2) (x : SyncSample)
  | ptpAnnounce (port : Fin 2) (a : Announce)
  | pdelayReq (port : Fin 2)
  | delayReqSend (port : Fin 2)
  | delayResponse (port : Fin 2) (pathDelay : Nat) (asCapable : Bool)
  | syncLoss
  | ethLinkChange (port : Fin 2) (up : Bool)
  | timestampLaneMismatch (port : Fin 2)
  | deviceTimeMismatch (intact : Nat)
  | linkTrained
  | helloMessage (m : HelloMsg)
  | beatMessage (m : BeatMsg)
  | frameSummaryMessage (m : SummaryMsg)
  | linkCrcRate
  | laneLost (lane : Fin 4)
  | partnerMessageLoss
  | stageEvent (s : Fin 4)
  | stageMissing (s : Fin 4)
  | crystalReturn
  | csiShortPacket (port : Fin 16) (vc dt number : Nat) (hdr : HeaderState)
  | csiRxLockChange (port : Fin 16) (locked : Bool)
  | ethFrameDiscarded (port : Fin 2) (fcs : Bool)
  | ethPcsFault (port : Fin 2)
  | standbyPowerDown
  | secOperationComplete
  | debuggerAttach
  | debuggerHalt (svc : Bool)
  | debuggerRelease (svc : Bool)
  | hdrExit
  deriving DecidableEq, Repr

end Sys2Proof
end

