-- ==== Sys2Proof/Config.lean ====
section
/-!
DEFINITION. What the spec leaves open. Every constant here is opaque: no proof can see its value, so a claim
holds whatever it is. `Config.freeNat` gives the free values that State.freeCtr numbers; the other constants
stand for functions that the spec names and does not compute (hashes, signatures, ciphers, random draws, the
trigonometry of the pose).
-/
namespace Sys2Proof.Config

/-- The free value number `n`. The spec states no value where the model takes one.
(DEDUCED, safe: notes/assumptions/7.md.) -/
opaque freeNat : Nat → Nat

/-- Byte `i` of the output of SHAKE256 on a byte string: the function's output goes on for as long as it is read.
(DESIGN CHOICE, safe: notes/assumptions/8.md.) -/
opaque shakeByte : List Byte → Nat → Byte

/-- SHAKE256 of a byte string, the first `n` bytes of its output (R379, R380, R378, R432). -/
def shake256 (d : List Byte) (n : Nat) : List Byte := (upto n).map fun i => shakeByte d i

/-- Verification of an SLH-DSA-SHAKE-256s signature: public key, context string, message, signature (R379).
(DESIGN CHOICE, safe: notes/assumptions/8.md.) -/
opaque slhDsaVerify : List Byte → List Byte → List Byte → List Byte → Bool

/-- An SLH-DSA-SHAKE-256f signature made with a private seed over a message (R434).
(DESIGN CHOICE, safe: notes/assumptions/8.md.) -/
opaque slhDsaSign : List Byte → List Byte → List Byte → List Byte

/-- The SLH-DSA-SHAKE-256f public key of a seed (R427).
(DESIGN CHOICE, safe: notes/assumptions/8.md.) -/
opaque slhDsaPublic : List Byte → List Byte

/-- The GCM tag of a journal page: key, IV, additional data, plain text (R360).
(DESIGN CHOICE, safe: notes/assumptions/8.md.) -/
opaque gcmTag : List Byte → List Byte → List Byte → List Byte → List Byte

/-- The check of the runtime package that Moadar signs, whose content the spec does not document (R378): its
signature and that it names this device, stepping and version.
(DESIGN CHOICE, safe: notes/assumptions/8.md.) -/
opaque runtimePackageOk : List Byte → Nat → Bool

/-- The task table of a runtime package: the enabled task numbers with period, open, close, phase and clock,
which the spec does not lay out (R317, R329).
(DESIGN CHOICE, safe: notes/assumptions/8.md.) -/
opaque runtimeTasks : List Byte → List (List Nat)

/-- The SHAKE256 hash of Moadar life-cycle key 0 to 3 that the island boot ROM holds (R422, R428).
(DESIGN CHOICE, safe: notes/assumptions/8.md.) -/
opaque romKey : Nat → List Byte

/-- Byte `i` of the random draw number `n` of the true random number generator (R427, R499).
(DESIGN CHOICE, safe: notes/assumptions/8.md.) -/
opaque trng : Nat → Nat → Byte

/-- The cosine of a heading in units of 2⁻³³ turn, as the grid engine computes it (R59, R62).
(DESIGN CHOICE, safe: notes/assumptions/8.md.) -/
opaque cosTurn : Nat → Rat

/-- The sine of a heading in units of 2⁻³³ turn.
(DESIGN CHOICE, safe: notes/assumptions/8.md.) -/
opaque sinTurn : Nat → Rat

/-- The change of heading of R59 in units of 2⁻³² turn, for a yaw rate in 0.001 rad/s over a number of beats.
(DESIGN CHOICE, safe: notes/assumptions/8.md.) -/
opaque yawTurn : Int → Nat → Int

/-- The square root that a ground distance takes (R55), in mm.
(DESIGN CHOICE, safe: notes/assumptions/8.md.) -/
opaque sqrtMm : Rat → Rat

/-- The INT8 value that the special-function unit's table gives for a function code at a quantised input; the spec
bounds it to 1 LSB of the exact value and states no more (R96).
(DESIGN CHOICE, safe: notes/assumptions/8.md.) -/
opaque sfu : Nat → Int → Int

/-- The special-function unit on a floating-point input: format code, function code, raw bits; the raw bits of the result,
which the spec bounds to a relative error of 2⁻⁸ and does not state (R96).
(DESIGN CHOICE, safe: notes/assumptions/8.md.) -/
opaque sfuFp : Nat → Nat → Nat → Nat

/-- The quantised input at which SiLU, GELU or hard-swish has its single minimum (R115); it depends on the scale.
(DESIGN CHOICE, safe: notes/assumptions/8.md.) -/
opaque sfuMin : Nat → Int

/-- The usable GDDR6 address of the private region that the loader allocates to a copy of a graph at placement (R133):
graph and copy. The spec states no allocation.
(DESIGN CHOICE, safe: notes/assumptions/8.md.) -/
opaque gddrBase : Nat → Nat → Nat

/-- The number of slices of one GDDR6 scrub pass of a channel, which the spec does not give (R105, R409).
(DESIGN CHOICE, safe: notes/assumptions/8.md.) -/
opaque scrubSlices : Nat

end Sys2Proof.Config
end

