-- ==== Sys2Proof/Machine/StateCompute.lean ====
section
/-!
DEFINITION. The pieces of State that belong to the scheduler and to the compute units: frames, credit and runs
(R192 to R223), cores and engines (R87 to R126), descriptors in flight (R127 to R157), redundancy, alternate
placements and the golden test (R158 to R191). Plain data.
-/
namespace Sys2Proof.Machine

/-! ### Runs (R129, R130, R150, R153, R163, R199) -/

/-- A descriptor of one copy of a graph, by its index in the graph's own list. -/
structure DescRef where
  graph : Nat
  copy : Nat
  desc : Nat
  deriving DecidableEq, Repr

/-- The run of one graph in the frame in progress. -/
structure RunState where
  /-- The run is ready (R199). -/
  ready : Bool
  /-- A copy of the run has started (R130). -/
  started : Bool
  /-- The source frame bound at the start, by the count of its context (R130, R159). -/
  src : Option Nat
  /-- Descriptors that have retired, as copy and index. -/
  retired : List (Nat × Nat)
  /-- Descriptors that failed or are skipped (R153, R171). -/
  skipped : List (Nat × Nat)
  /-- COMPAREs of the run that have compared equal, by index. -/
  equal : List Nat
  /-- A COMPARE of the run has not compared equal (R171). -/
  unequal : Bool
  /-- BARRIERs reached: copy, descriptor and core (R150). -/
  barrier : List (Nat × Nat × Nat)
  /-- The run fails: a check of R150 failed, or a descriptor did. -/
  failed : Bool
  /-- The outstanding micro-operations are to be cancelled by this beat (R209). -/
  cancelBy : Option Nat
  deriving DecidableEq, Repr

/-- What is left of a core's credit in the present beat, in nJ, by the pool it came from (R203). -/
structure Credit where
  res : Rat
  gen : Rat
  deriving DecidableEq, Repr

/-- The scheduler (R192 to R223). -/
structure SchedState where
  /-- The tick origin of the running image; none while ticks do not run (R193). -/
  origin : Option Nat
  /-- The frame counter. -/
  frame : Nat
  /-- The beat within the frame. -/
  frameBeat : Nat
  /-- A frame tick falls in the present beat and FRAME_TICK has not yet been taken. -/
  tickDue : Bool
  /-- Graphs whose run of the frame in progress counts as not completed (R150, R209). -/
  failed : BitVec 64
  /-- The field check of the frame in progress counts as not completed (R60, R559). -/
  fieldFailed : Bool
  /-- ARM has been accepted and the classes of R194 wait for the next tick. -/
  classesFrom : Option Nat
  /-- The table set in use (R198). -/
  set : Nat
  /-- The pools, in nJ (R202); the reserve pool may be negative (R204). -/
  poolRes : Rat
  poolGen : Rat
  alloc : Vector Credit 32
  /-- SAFETY overdraw of the present beat, and that of the beat before (R204). -/
  overdraw : Rat
  ceilCut : Rat
  /-- The core index from which service of a level starts (R203). -/
  startCore : Nat
  costScale : Rat
  /-- STATIC_EFF, nJ per beat. -/
  staticEff : Rat
  shed : BitVec 64
  ovr : BitVec 64
  ovrFrames : Nat
  shedFrames : Nat
  /-- CHECK is shed by temperature until a tick at 115 °C or less (R207). -/
  checkShed : Bool
  scaleLimit : Bool
  /-- Charges of the frame in progress, scaled and unscaled, in nJ. -/
  charged : Rat
  unscaled : Rat
  /-- `SCHED_ENERGY_CHG` and `SCHED_ENERGY_MEAS`. -/
  lastCharged : Nat
  lastMeasured : Option Nat
  runs : Vector RunState 64
  /-- The frame of each graph's last completed run (R199). -/
  lastDone : Vector (Option Nat) 64
  /-- The frame of its context that each graph used last (R130). -/
  lastUsed : Vector (Option Nat) 64
  /-- FSYNC pins that are active (R195). -/
  fsync : Vector Bool 4
  deriving DecidableEq, Repr

/-! ### Cores and engines (R87 to R126) -/

/-- The power states of a core (R99, `CORE_STAT_n.PWR`). -/
inductive CorePwr where
  | off | retain | active | waking
  deriving DecidableEq, Repr

/-- The code of a power state (R124). -/
def CorePwr.code : CorePwr → Nat
  | .off => 0 | .retain => 1 | .active => 2 | .waking => 3

/-- One entry of a core sequencer: a dispatched, unretired descriptor (R152), with the micro-operations that each
engine has still to issue and those it has in flight. -/
structure SeqEntry where
  ref : DescRef
  cls : Nat
  left : Vector Nat 4
  fly : Vector Nat 4
  deriving DecidableEq, Repr

/-- One core (R92 to R100, R120, R124). -/
structure CoreState where
  pwr : CorePwr
  /-- The beat at which a waking core is ACTIVE (R99). -/
  wakeEnd : Option Nat
  /-- The clock point in use, and the one its window asks for (R97, R447). -/
  clk : Nat
  wantClk : Nat
  /-- The classes its window allows: bits SAFETY, CHECK, OPTIONAL, TEST (R196). -/
  classes : Nat
  slot : Nat
  retired : Bool
  cause : Nat
  engFault : BitVec 4
  ceShared : Nat
  /-- Its NoC port is closed to new writes (R120). -/
  portClosed : Bool
  /-- The beat by which a faulted core is OFF (R120). -/
  offBy : Option Nat
  seq : List SeqEntry
  sram : Mem
  deriving DecidableEq, Repr

/-- One engine (R94, R95, R110, R112, R125). The accumulators hold the 32 bits of an INT32 or an FP32 number. -/
structure EngState where
  inflight : Nat
  hwm : Nat
  dma : Nat
  flags : BitVec 8
  /-- Flags set since the last frame tick (R112). -/
  frameFlags : BitVec 8
  seed : BitVec 32
  lfsr : BitVec 32
  ceLocal : Nat
  acc : Sparse (BitVec 32)
  /-- The radius accumulators of envelope work (R115). -/
  racc : Sparse (BitVec 32)
  sram : Mem
  deriving DecidableEq, Repr

/-- The mesh (R126). -/
structure NocState where
  waitMax : Nat
  stop : Nat
  timeout : Bool
  route : Bool
  hdrParity : Bool
  deriving DecidableEq, Repr

/-- One GDDR6 channel (R101 to R105, R126). -/
structure GddrChan where
  trained : Bool
  ueSeen : Bool
  scrub : Nat
  ce : Nat
  retryFail : Nat
  retryOk : Nat
  ueAddr : Nat
  deriving DecidableEq, Repr

/-- The lockstep controller pair (R172 to R178, R189). -/
structure CtrlState where
  split : Bool
  lockstepOk : Bool
  kind : Nat
  reg : Nat
  cycle : Nat
  passBeats : Nat
  tcmCe : Nat
  halted : Bool
  deriving DecidableEq, Repr

/-- Alternate placements (R181 to R185, R190). -/
structure AltState where
  active : Bool
  switching : Bool
  secondLoss : Bool
  noAlt : Bool
  lostCore : Nat
  switchFrame : Nat
  /-- A switch is due at the next tick, to the entry of this core (R182). -/
  due : Option Nat
  /-- Moved copies whose constants are still being copied: graph, copy and core index (R182). -/
  copying : List (Nat × Nat × Nat)
  /-- Cores lost in this power-on period (R183). -/
  losses : Nat
  deriving DecidableEq, Repr

/-- The golden-frame test (R186, R187, R190). -/
structure GoldenState where
  lastFail : Nat
  fails : Nat
  runs : Nat
  /-- Cores whose golden run of this frame has retired. -/
  done : BitVec 32
  deriving DecidableEq, Repr

/-- The compare log (R188, R191). -/
structure CmpLog where
  checkpoint : Nat
  mode : Nat
  graph : Nat
  element : Nat
  a : Nat
  b : Nat
  runs : Nat
  elems : Nat
  deriving DecidableEq, Repr

end Sys2Proof.Machine
end

