-- ==== Sys2Proof/Machine/StateStream.lean ====
section
/-!
DEFINITION. The pieces of State that belong to the camera, claim and verdict streams (spec/07_camera_claim_streams.md):
ports, contexts and frame stores, claim streams, Crocus, the verdict stream, BULK and the check-value units. Plain data.
-/
namespace Sys2Proof.Machine

/-- A packet that a transmit port sends (R232, R234, R246, R251). A short packet carries its number and no payload;
`crcInverted` marks the inverted CRC of R232. -/
structure TxPkt where
  vc : Nat
  dt : Nat
  number : Nat
  payload : List Byte
  crcInverted : Bool
  deriving DecidableEq, Repr

/-- One port (R226 to R235, R260). -/
structure PortState where
  rxLock : Bool
  fwdStopped : Bool
  /-- `CSI_PORT_ERR_p`: PHY, UNK_DT, CRC, HDR_CORR, HDR_UNCORR, FWD_FAIL from bit 0. -/
  err : BitVec 6
  crcErrs : Nat
  hdrCorr : Nat
  /-- The fixed forwarding latency (R233). -/
  fwdLat : Nat
  /-- VCs with an open forwarded frame, each with the number of its frame start (R235). -/
  openVcs : List (Nat × Nat)
  /-- The packets that the port sent at the last command that made it send. -/
  out : List TxPkt
  deriving DecidableEq, Repr

/-- One stream context (R228 to R231, R261). -/
structure CtxState where
  complete : Bool
  newest : Nat
  frameNo : Nat
  fsBeat : Nat
  fsTime : Nat
  badFrames : Nat
  /-- `CTX_ERR_x`: CRC, FRAME_NO, LINE_COUNT, NO_FE, FS_LATE from bit 0. -/
  err : BitVec 5
  /-- A frame is open, with its errors and its lines so far. -/
  isOpen : Bool
  curErr : BitVec 5
  lines : Nat
  /-- The frame number of the frame before, once one has arrived. -/
  prevNo : Option Nat
  /-- The buffer being written (R229). -/
  writing : Nat
  bufs : Vector (List Byte) 4
  /-- How many complete frames the context has delivered: the newest complete frame is number `delivered`. -/
  delivered : Nat
  /-- The beat in which the newest complete frame was complete, and its tick frame. -/
  doneBeat : Nat
  doneFrame : Nat
  deriving DecidableEq, Repr

/-- A claim frame that is open (R239): its source frame and beat, what it has brought, and whether a record of it
failed. -/
structure OpenClaim where
  srcFrame : Nat
  srcBeat : Nat
  objects : Nat
  frees : Nat
  /-- The items of a Crocus answer, 16 bytes each, OBJECT items first flagged true. -/
  items : List (Bool × List Byte)
  bad : Bool
  deriving DecidableEq, Repr

/-- The claim bookkeeping of one camera (R239 to R242, R325). -/
structure ClaimCam where
  /-- ref(c) of R242. -/
  ref : Nat
  real : Option OpenClaim
  crocus : Option OpenClaim
  /-- SRC_FRAME of the last completed real and Crocus claim frame. -/
  doneReal : Option Nat
  doneCrocus : Option Nat
  /-- The stamps sent for the camera's last 8 frames, newest first: whether of a Crocus frame, frame and beat. -/
  stamps : List (Bool × Nat × Nat)
  /-- Claim frames that a failed record named while they were not open: CROCUS and source frame (R239). -/
  broken : List (Bool × Nat)
  /-- The frame counter at which a real claim frame last completed. -/
  doneAt : Option Nat
  deriving DecidableEq, Repr

/-- One claim stream (R236 to R243, R262). -/
structure ClaimStream where
  overAge : Bool
  aliveLast : Nat
  /-- No record has come since entry to ARMING (R240). -/
  fresh : Bool
  formatCode : Nat
  /-- `CLAIM_ERR_s`: PKT, CRC, ALIVE, FORMAT from bit 0. -/
  err : BitVec 4
  badRecords : Nat
  frames : Nat
  deriving DecidableEq, Repr

/-- The Crocus injector of one port (R244 to R249, R260). -/
structure CrocusState where
  pending : Bool
  wrong : Bool
  late : Bool
  hashFail : Bool
  aborted : Bool
  skip : Nat
  injected : Nat
  /-- Camera frames begun since the last injection; none while due at once from ARMING (R245). -/
  since : Option Nat
  /-- The next frame of the rotation. -/
  next : Nat
  /-- The stored frame whose staging runs, and the one staged with a matching hash (R244). -/
  staging : Option Nat
  staged : Option Nat
  /-- The present camera frame was due and has been neither injected nor counted. -/
  owed : Bool
  /-- The beat and frame number of the present camera frame's start. -/
  camFs : Nat
  /-- The beat in which the camera frame end was forwarded (R246). -/
  camFe : Option Nat
  /-- The beat in which the injection in progress began. -/
  injecting : Option Nat
  /-- The stored frame whose answer is awaited, with the deadline, and the source frame of its stamp. -/
  answerTo : Option Nat
  deadline : Option Nat
  stampFrame : Nat
  /-- A wrong or late answer has come since ARMING and no correct one after it (R20, D3). -/
  affected : Bool
  deriving DecidableEq, Repr

/-- The verdict stream (R251, R252, R262). -/
structure VStream where
  txFault : Bool
  /-- ALIVE of the last batch sent. -/
  alive : Nat
  /-- The next batch to send. -/
  next : Nat
  /-- The committed words of the last beats, newest first: beat, word and device time. -/
  words : List (Nat × Nat × Nat)
  deriving DecidableEq, Repr

/-- BULK transfer (R253, R262). -/
structure BulkState where
  seqErr : Bool
  crcErr : Bool
  discarded : Nat
  /-- SEQ of the next chunk. -/
  seq : Nat
  deriving DecidableEq, Repr

/-- One check-value unit (R254 to R257, R263). -/
structure CvuState where
  gap : Nat
  width : Nat
  xorOut : Bool
  reflect : Bool
  poly : Nat
  value : BitVec 64
  primed : Bool
  last : Nat
  laneErr : Bool
  aliveErr : Bool
  aliveErrs : Nat
  deriving DecidableEq, Repr

/-- The streams. -/
structure StreamState where
  ports : Vector PortState 16
  ctx : Vector CtxState 64
  cams : Vector ClaimCam 64
  claims : Vector ClaimStream 4
  crocus : Vector CrocusState 16
  v : VStream
  bulk : BulkState
  cvu : Vector CvuState 16
  /-- A claim record has failed in the frame in progress (R20, D2). -/
  claimFail : Bool
  deriving DecidableEq, Repr

end Sys2Proof.Machine
end

