-- ==== Sys2Proof/Machine/ResetParts.lean ====
section
/-!
DEFINITION. The reset value of every piece of State: the value that the register tables of spec/ give, and zero,
"none" or an empty list where they give none (notes/assumptions/1.md).
-/
namespace Sys2Proof.Machine

/-- Fault collection at reset: FAULT_N is low and held low (R305, R331). -/
def FaultState.reset : FaultState :=
  { latch := none, ffOvf := false, firstFt := none, escalated := false, activeUc := 0, activeFt := 0
    faultNLow := true, faultNHold := true, releaseDue := false, quietEnd := none, lastUc := 0, recoveries := []
    recTotal := 0, info := vrep 128 0, cnt := vrep 128 ⟨0, 0, 0⟩ }

def HbMon.reset : HbMon := ⟨false, false, 0, 0, none, 0, 0, 0, false⟩
def TaskWd.reset : TaskWd := ⟨none, false, false, false⟩

/-- The watchdogs at reset (R321, R334 to R336). -/
def WdState.reset : WdState :=
  { tasks := vrep 16 TaskWd.reset, svc := ⟨none, false, false, none, 0⟩, hb := vrep 2 HbMon.reset, wakeSrc := 0
    wakePending := false, standbySince := 0, taskFrozen := false, svcFrozen := false, xtalStopFlag := false
    ircStopFlag := false, ircFreqFlag := false, ircDev := 0 }

/-- The recorder at reset (R366). -/
def RecState.reset : RecState :=
  { seqNext := 0, last := [], first := [], waiting := 0, ports := [], folds := [], firstRestored := false, area := 0
    cursor := 0, empty := false, gone := false, window := [], limited := 0, folded := 0 }

/-- The watch at reset: STOPPED, the verdict word 0x0000_000E, INTENT age 255, speed invalid (R28, R43 to R49). -/
def WatchState.reset : WatchState :=
  { wstate := .stopped, doubt := 0, causes := 0, clears := 0, trig := [], d1Claim := 0, d1Intent := false, sticky := 0
    cleanCnt := 0, partialFrame := false, frameClean := false, armTicks := 0, countBeat := none, floorEntries := []
    retrustBlocked := false, blockedUntilReset := false, floorVEntry := 0, floorSince := 0, ss1Since := 0
    ss1VEntry := none, frozen := none, verdict := 0x0000000E, verdictBeat := 0, lastFrom := .stopped
    lastTo := .stopped, lastCause := 0, lastBeat := 0, intentNext := none, intent := ⟨0, 0, 0⟩, intentAge := 255
    speed := none, irqPinEn := true, ibiDoubtEn := true, ibiStateEn := true, stops := 0, floorEntryCount := 0 }

def SafeChan.reset : SafeChan := ⟨false, false, 0, 0, false, false, 0, 0, false⟩
/-- A safe input at reset: OFF and unlocked (R296). -/
def SafeInput.reset : SafeInput :=
  { a := SafeChan.reset, b := SafeChan.reset, on := false, locked := false, unlockArmed := false, lockCause := 0
    disc := 0, discDone := false, chat := 0, chatDue := false, demands := 0 }

def TestPulse.reset : TestPulse := ⟨false, none, false, false, false⟩

def LrstState.reset : LrstState :=
  { a := false, b := false, pressed := false, onA := none, onB := none, offA := none, offB := none, invalid := false
    diffRun := 0, discDue := false, discDone := false, acceptAt := none, stoOn := false, ignoreDue := none
    fAccepted := false, fShort := false, fLong := false, fDisc := false, fRefused := false, fInvalid := false
    count := 0 }

def Encoder.reset : Encoder :=
  { a := false, b := false, pos := 0, sum := 0, count := 0, curRate := false, curIllegal := false, curIndex := false
    dueRate := false, dueIllegal := false, dueIndex := false, bins := [], zCount := none, frameSum := 0
    fRate := false, fIllegal := false, fIndex := false, v := none }

/-- The encoders at reset: no speed is valid (R277, R297). -/
def EncState.reset : EncState :=
  { enc := vrep 2 Encoder.reset, validFrom := none, xchkRun := 0, xchkDone := false, xchkFault := false, distRem := 0 }

def OutChan.reset : OutChan := ⟨false, false, 0, false, false, false, false⟩
def OutGroup.reset : OutGroup := ⟨OutChan.reset, OutChan.reset, false, none, false, false, 0, 0⟩
/-- Every safe output is low at reset (R280). -/
def OutState.reset : OutState := ⟨vrep 4 OutGroup.reset, false⟩

/-- The I3C target at reset (R500, R521). -/
def I3cState.reset : I3cState :=
  { daValid := false, dynAddr := 0, mwl := 4099, mrl := 4096, ibiSize := 8, enint := true, hdr := false, readAddr := 0
    protoErr := false, irqStatus := 0, ibiEn := 0x7E, pinEn := 0x02, ibi := vrep 7 none, nacked := 0, hdrCrc := 0
    parity := 0, nackedReads := 0, beatHi := 0, pidLo := 0, resp := [], ack := false }

/-- The mailbox at reset: `CMD_ALIVE_LAST` 0xFFFF (R515, R522). -/
def CmdState.reset : CmdState :=
  { words := vrep 8 0, alive := 0, crc := 0, busy := false, code := 0, result := 0, aliveLast := 0xFFFF, refused := 0
    accepted := 0, results := [], waiting := none }

def Slot.reset : Slot := ⟨false, 0, [], []⟩
def ProfileVals.reset : ProfileVals := ⟨0, 0, 0, 0, 0, 0, 0⟩

/-- The loader at reset: SERVICE, no image, both slots empty, 255 counter advances left (R384, R396). -/
def LoaderState.reset : LoaderState :=
  { running := false, service := true, loading := false, fallback := false, runSlot := false, prefSlot := false
    slotA := Slot.reset, slotB := Slot.reset, image := none, keySlot := 0, xferOpen := false, target := false
    busy := false, overrun := false, aborted := false, advLeft := 255, srcBulk := false, bulkPort := 15, length := 0
    received := [], stagedRefusal := none, resultA := (0, 0), resultB := (0, 0), detail := ⟨0, 0, 0, 0, 0, 0⟩, otpCtr := 0, profile := 0
    vals := ProfileVals.reset, modified := 0 }

def AccState.reset : AccState := ⟨0, false, false, false, 0, [], 0, false, 0⟩

/-- Power at reset: every main rail off (R443, R461). -/
def PwrState.reset : PwrState :=
  { mainOn := false, standby := false, waking := false, entering := none, wakeHeld := none, overcurrent := false
    railWarn := 0, inWindow := 0, armed := 0, mv := vrep 9 0, pen := 0, i10ma := 0, vMv := 0, target := 0
    oldTarget := 0, targetBeat := 0, point := 0, hold := false, mUnavail := false, errors := 0, unread := vrep 2 0
    overRun := 0, energy := 0, frameUnread := false, acc := vrep 2 AccState.reset }

def Sensor.reset : Sensor := ⟨false, false, 0, 0⟩
def ThermState.reset : ThermState := { sens := vrep 48 Sensor.reset, t := 0, hot := 0, lostPairs := 0, tNow := 0 }

def EthPort.reset : EthPort :=
  { link := false, ptpState := 0, asCapable := false, err := 0, discarded := 0, fcsErrs := 0, swTs := false
    best := none, pathDelay := 0, asked := none, sent := 0, answered := 0 }

/-- Device time at reset: 0, not valid, no SLAVE port (R463, R481). -/
def TimeState.reset : TimeState :=
  { now := 0, frac := 0, set := false, holdover := false, holdLoss := false, jump := false, slave := 3, steps := 0, offset := 0, r := 0
    f := 0, good := 0, master := 0, refused := 0, samples := 0, sample := none, nowHi := 0, nowBeat := 0
    eth := vrep 2 EthPort.reset }

def TelState.reset : TelState :=
  { dropped := 0, alive := 0, queue := [], lastChange := none, held := 0, lastSent := none, out := [], prevWord := 0 }

def RunState.reset : RunState :=
  { ready := false, started := false, src := none, retired := [], skipped := [], equal := [], unequal := false
    barrier := [], failed := false, cancelBy := none }

/-- The scheduler at reset: no ticks, COST_SCALE 1.0 (R193, R222). -/
def SchedState.reset : SchedState :=
  { origin := none, frame := 0, frameBeat := 0, tickDue := false, failed := 0, fieldFailed := false
    classesFrom := none, set := 0, poolRes := 0, poolGen := 0, alloc := vrep 32 ⟨0, 0⟩, overdraw := 0, ceilCut := 0
    startCore := 0, costScale := 1, staticEff := 0, shed := 0, ovr := 0, ovrFrames := 0, shedFrames := 0
    checkShed := false, scaleLimit := false, charged := 0, unscaled := 0, lastCharged := 0, lastMeasured := some 0
    runs := vrep 64 RunState.reset, lastDone := vrep 64 none, lastUsed := vrep 64 none, fsync := vrep 4 false }

/-- A core at reset: OFF (R124). -/
def CoreState.reset : CoreState :=
  { pwr := .off, wakeEnd := none, clk := 0, wantClk := 0, classes := 0, slot := 0, retired := false, cause := 0
    engFault := 0, ceShared := 0, portClosed := false, offBy := none, seq := [], sram := [] }

def EngState.reset : EngState :=
  { inflight := 0, hwm := 0, dma := 0, flags := 0, frameFlags := 0, seed := 0, lfsr := 0, ceLocal := 0, acc := []
    racc := [], sram := [] }

def NocState.reset : NocState := ⟨0, 0, false, false, false⟩
def GddrChan.reset : GddrChan := ⟨false, false, 0, 0, 0, 0, 0⟩

def CtrlState.reset : CtrlState :=
  { split := false, lockstepOk := false, kind := 0, reg := 0, cycle := 0, passBeats := 0, tcmCe := 0, halted := false }

def AltState.reset : AltState :=
  { active := false, switching := false, secondLoss := false, noAlt := false, lostCore := 0, switchFrame := 0
    due := none, copying := [], losses := 0 }

def GoldenState.reset : GoldenState := ⟨0, 0, 0, 0⟩
def CmpLog.reset : CmpLog := ⟨0, 0, 0, 0, 0, 0, 0, 0⟩

/-- The scene grid at reset: cleared (R52, R83 to R85). -/
def GridState.reset : GridState :=
  { plane0 := [], plane1 := [], psi := 0, offX := 0, offY := 0, nx := 0, ny := 0, poses := [], objs := [], claims := []
    matchDue := none, wbuf := 0, stalled := [], claimQ := [], sweepSince := none, err := 0, addrPlane := false
    addrRow := 0, addrCol := 0 }

/-- The floor grid at reset: cleared, and no floor engine has passed its self-test (R44, R71). -/
def FloorState.reset : FloorState :=
  { cells := [], remX := 0, remY := 0, f0Ok := false, f1Ok := false, f0Lost := false, f1Lost := false, cycle := false, res0 := none, res1 := none
    lastCycle := none }

def EvalState.reset : EvalState :=
  { mainField := 0, floorField := 0, maskPsi := 0, nextField := 0, nextFloor := 0, nextPsi := 0, maskDue := none
    maskNew := false, band := 0, floorBand := 0, bandRuns := vrep 8 0, floorBandRuns := vrep 8 0, closing := (0, 0, 0)
    c := 0, u := 0, phantom := 0, run := 0, cellRule := false, objRule := false, mainClear := false, fCount := 0
    floorRun := 0, floorOcc := false, floorClear := false, got := false, d0 := false, floorAvail := false }

def PortState.reset : PortState :=
  { rxLock := false, fwdStopped := false, err := 0, crcErrs := 0, hdrCorr := 0, fwdLat := 0, openVcs := [], out := [] }

def CtxState.reset : CtxState :=
  { complete := false, newest := 0, frameNo := 0, fsBeat := 0, fsTime := 0, badFrames := 0, err := 0, isOpen := false
    curErr := 0, lines := 0, prevNo := none, writing := 0, bufs := vrep 4 [], delivered := 0, doneBeat := 0
    doneFrame := 0 }

def ClaimCam.reset : ClaimCam := ⟨0, none, none, none, none, [], [], none⟩
def ClaimStream.reset : ClaimStream := ⟨false, 0, true, 0, 0, 0, 0⟩

def CrocusState.reset : CrocusState :=
  { pending := false, wrong := false, late := false, hashFail := false, aborted := false, skip := 0, injected := 0
    since := some 0, next := 0, staging := none, staged := none, owed := false, camFs := 0, camFe := none
    injecting := none, answerTo := none, deadline := none, stampFrame := 0, affected := false }

def CvuState.reset : CvuState :=
  { gap := 0, width := 0, xorOut := false, reflect := false, poly := 0, value := 0, primed := false, last := 0
    laneErr := false, aliveErr := false, aliveErrs := 0 }

/-- The streams at reset (R260 to R263). -/
def StreamState.reset : StreamState :=
  { ports := vrep 16 PortState.reset, ctx := vrep 64 CtxState.reset, cams := vrep 64 ClaimCam.reset
    claims := vrep 4 ClaimStream.reset, crocus := vrep 16 CrocusState.reset, v := ⟨false, 0, 0, []⟩
    bulk := ⟨false, false, 0, 0⟩, cvu := vrep 16 CvuState.reset, claimFail := false }

/-- The journal at reset: no device has answered (R368, R369). -/
def JnlState.reset : JnlState :=
  { lost := 0, lostNew := 0, flushDue := false, present := false, formatted := false, ready := false, stopped := false
    scrubBusy := false, rdBusy := false, rdOk := false, rdFail := false, twoCe := false, mode := 0, page := 0
    pagesPerBlock := 0, blocks := [], nextSeq := 0, lastSeq := 0, ring := [], evid := [], head := none, headOpen := false
    evidHead := none, evidOpen := false, firstCopy := none, spareRaised := false, snapDue := false, sysCopy := false, copied := 0
    rewrites := 0, scrubBeats := 0, highCw := 0, maxBits := 0, slotMib := 0, evidMib := 0, rdSeqLo := 0, rdSeqHi := 0
    powerOn := 0, buffer := [] }

def TestCov.reset : TestCov := ⟨none, 0, 0, none⟩

/-- Self-test at reset: the power-up steps run (R418, R419). -/
def StState.reset : StState :=
  { running := true, unit := 0, step := 0, outcome := 0, stoppedBeat := 0, coreFail := 0, misr := 0, len := 0
    lbistCore := 0, nextLink := 0, expired := 0, incomplete := 0, aborts := 0, cores := vrep 32 TestCov.reset
    links := vrep 76 TestCov.reset, chans := vrep 8 TestCov.reset, slices := [] }

def KeySlot.reset : KeySlot := ⟨[], false, false⟩

/-- The life cycle of a new part: MANUFACTURE, no identity, no keys (R421, R427). -/
def LcState.reset : LcState :=
  { fuses := vrep 4 0, bootState := 0, bootCounter := 0, keys := vrep 4 KeySlot.reset, seed := none, seedBad := false, cert := none
    debugSeen := false, again := none, pending := none }

def SecState.reset : SecState :=
  { buf := [], ptr := 0, len := 0, reportValid := false, result := 0, lastOp := 0, op := none, nonce := vrep 8 0
    attCount := 0, draws := 0 }

def StageState.reset : StageState := ⟨false, false, false⟩

/-- The pair link at reset: DOWN (R497). -/
def LkState.reset : LkState :=
  { state := 0, lanes := 0, cause := 0, delta := 0, phi0 := 0, latency := 0, skew := 0, skewMax := 0, skewBad := 0
    partner := [], msgBeat := 0, partnerCMax := 0, crcErrs := 0, crcBeats := [], aligns := 0, helloRun := 0, mismatched := false
    hashRun := 0, fieldRun := 0, clearRun := 0, condBeat := none, condCode := 0, cleanMet := false, summaryIn := false
    stages := vrep 4 StageState.reset, lastStage := 0, lastCode := 0, cMax := 0, ruleBeats := 0, summary := none, sumC := 0
    sumRule := 0, sent := [] }

end Sys2Proof.Machine
end

