-- ==== Sys2Proof/Machine/State.lean ====
section
/-!
DEFINITION. State: everything the spec gives the 7832, as plain data, with the queue of waiting commands; the
faults and refusals that a step may end in.
-/
namespace Sys2Proof.Machine

/-- How a command may stop. No command of the model stops with a fault: every fault of the 7832 is an effect on
State. -/
inductive Fault where
  /-- Nobody raises it. Safe: it states nothing about a next state. -/
  | unused
  deriving DecidableEq, Repr

/-- How a command may be refused. -/
inductive Refusal where
  /-- An arm of Dispatch.lean without a meaning raises it. Safe: the model stops where the hardware goes on. -/
  | notModelled (mnemonic : String)
  deriving DecidableEq, Repr

/-- The machine. -/
structure State where
  /-- The commands that wait, first in, first out: the model's own field. -/
  pending : List Instr
  /-- The 48-bit beat counter (R10, R192). -/
  beat : Nat
  /-- Every always-on supply is in window and the island runs (R311, R400). -/
  powered : Bool
  /-- The crystal runs (R312). -/
  xtalOk : Bool
  /-- `ST_STATUS.SELFTEST_FAIL` (R406). -/
  selftestFail : Bool
  fc : FaultState
  wd : WdState
  evr : RecState
  watch : WatchState
  si : Vector SafeInput 8
  tp : Vector TestPulse 4
  lrst : LrstState
  enc : EncState
  so : OutState
  i3c : I3cState
  cmd : CmdState
  ldr : LoaderState
  pwr : PwrState
  therm : ThermState
  time : TimeState
  tel : TelState
  sched : SchedState
  cores : Vector CoreState 32
  engs : Vector EngState 128
  noc : NocState
  gddr : Vector GddrChan 8
  gddrMem : Mem
  /-- 32-byte units of GDDR6 whose data is poisoned (R104). -/
  poison : List Nat
  ctrl : CtrlState
  alt : AltState
  golden : GoldenState
  cmp : CmpLog
  grid : GridState
  flr : FloorState
  /-- `FLOOR_PAIR.DISAGREE_CYCLES` (R179). -/
  floorPair : Nat
  ev : EvalState
  io : StreamState
  jnl : JnlState
  st : StState
  lc : LcState
  secu : SecState
  lk : LkState
  /-- The number of the next free value: the model's own field. -/
  freeCtr : Nat
  deriving DecidableEq, Repr

/-- The 7832 at the release of the island power-on reset: every register at its reset value, the watch in STOPPED,
every safe output low, FAULT_N low, memories empty, no command waiting (R398 to R400).
(DESIGN CHOICE, unsafe: notes/assumptions/1.md.)
(DEDUCED, safe: notes/assumptions/9.md.) -/
def State.reset : State :=
  { pending := [], beat := 0, powered := true, xtalOk := true, selftestFail := false
    fc := FaultState.reset, wd := WdState.reset, evr := RecState.reset, watch := WatchState.reset
    si := vrep 8 SafeInput.reset, tp := vrep 4 TestPulse.reset, lrst := LrstState.reset, enc := EncState.reset
    so := OutState.reset, i3c := I3cState.reset, cmd := CmdState.reset, ldr := LoaderState.reset
    pwr := PwrState.reset, therm := ThermState.reset, time := TimeState.reset, tel := TelState.reset
    sched := SchedState.reset, cores := vrep 32 CoreState.reset, engs := vrep 128 EngState.reset
    noc := NocState.reset, gddr := vrep 8 GddrChan.reset, gddrMem := [], poison := [], ctrl := CtrlState.reset
    alt := AltState.reset, golden := GoldenState.reset, cmp := CmpLog.reset, grid := GridState.reset
    flr := FloorState.reset, floorPair := 0, ev := EvalState.reset, io := StreamState.reset, jnl := JnlState.reset
    st := StState.reset, lc := LcState.reset, secu := SecState.reset, lk := LkState.reset, freeCtr := 0 }

end Sys2Proof.Machine
end

