-- ==== Sys2Proof/Machine/ImageFields.lean ====
section
/-!
DEFINITION. The settings that the running image gives, read from its sections at the offsets of the spec's
tables, with the default that the tables give for the time in which no image runs. Each name is the field's.
-/
namespace Sys2Proof.Machine

/-- The body of a section of an image; empty where the image lacks it. -/
def Image.sec (i : Image) (id : Nat) : List Byte :=
  match i.sections.find? (fun x => x.id == id) with
  | some x => x.body
  | none => []

/-- The image that runs (R381). -/
def State.img (s : State) : Option Image := if s.ldr.running then s.ldr.image else none

/-- A section of the running image; empty while none runs. -/
def State.sec (s : State) (id : Nat) : List Byte :=
  match s.img with
  | some i => i.sec id
  | none => []

/-- A field of the running image, or its default while no image runs. -/
def State.fld (s : State) (id : Nat) (f : List Byte → Nat) (dflt : Nat) : Nat :=
  match s.img with
  | some i => f (i.sec id)
  | none => dflt

/-- The image whose watchdog records are in force: the running one, and through STANDBY the one that ran before it (R326). -/
def State.keptImg (s : State) : Option Image :=
  if s.ldr.running || s.pwr.standby || s.pwr.entering.isSome then s.ldr.image else none

/-- A section of that image. -/
def State.keptSec (s : State) (id : Nat) : List Byte :=
  match s.keptImg with
  | some i => i.sec id
  | none => []

/-- A field of that image's section, or its default under the boot configuration (R321, R328). -/
def State.keptFld (s : State) (id : Nat) (f : List Byte → Nat) (dflt : Nat) : Nat :=
  match s.keptImg with
  | some i => f (i.sec id)
  | none => dflt

/-- A field of the image placed last, which the encoder and speed records follow through a load (R277). -/
def State.fldLast (s : State) (id : Nat) (f : List Byte → Nat) (dflt : Nat) : Nat :=
  match s.ldr.image with
  | some i => f (i.sec id)
  | none => dflt

/-! ### SAFETY (0x08): WATCH record (R39) -/

def State.armFrames (s : State) : Nat := s.fld 8 (u8 · 0x00) 2
def State.armTimeout (s : State) : Nat := s.fld 8 (u16 · 0x04) 300
def State.floorDecel (s : State) : Nat := s.fld 8 (u16 · 0x06) 1500
def State.floorSpeedTol (s : State) : Nat := s.fld 8 (u16 · 0x08) 200
def State.intentMaxAge (s : State) : Nat := s.fld 8 (u8 · 0x0A) 2
def State.floorEntryLimit (s : State) : Nat := s.fld 8 (u8 · 0x0B) 8
def State.floorEntryWindow (s : State) : Nat := s.fld 8 (u16 · 0x0C) 900
/-- Entry `n` of the active speed table (R26, R39). -/
def State.speedTable (s : State) (n : Nat) : Nat :=
  s.fld 8 (u16 · (0x10 + 32 * s.ldr.vals.speedTable + 2 * n)) 0

/-! ### SAFETY: inputs, test pulses, encoders, outputs, SS1 and lock-out reset (R293) -/

def State.siRole (s : State) (i : Nat) : Nat := s.fld 8 (u8 · (0x90 + 32 * i)) 0
def State.siAntivalent (s : State) (i : Nat) : Bool := bitAt (s.fld 8 (u8 · (0x91 + 32 * i)) 0) 0
/-- The test-pulse source of channel A (`b` false) or B of input `i`; 0xFF for none. -/
def State.siTp (s : State) (i : Nat) (b : Bool) : Nat := s.fld 8 (u8 · (0x92 + 32 * i + b2n b)) 0xFF
def State.siOffFilter (s : State) (i : Nat) : Nat := s.fld 8 (u8 · (0x94 + 32 * i)) 1
def State.siChatMax (s : State) (i : Nat) : Nat := s.fld 8 (u8 · (0x95 + 32 * i)) 16
def State.siOnFilter (s : State) (i : Nat) : Nat := s.fld 8 (u16 · (0x96 + 32 * i)) 5000
def State.siChatWindow (s : State) (i : Nat) : Nat := s.fld 8 (u32 · (0x98 + 32 * i)) 500000
/-- DISC_US entry selected by DISC_INDEX, µs (R268, R292). -/
def State.siDiscUs (s : State) (i : Nat) : Nat :=
  s.fld 8 (u32 · (0xA0 + 32 * i + 4 * s.ldr.vals.discIndex)) 50000
/-- N of R268: ceil(DISC_US / 2). -/
def State.siDiscN (s : State) (i : Nat) : Nat := (s.siDiscUs i + 1) / 2

def State.tpPeriod (s : State) : Nat := s.fld 8 (u32 · 0x190) 50000
def State.tpWidth (s : State) : Nat := s.fld 8 (u8 · 0x194) 2
def State.tpLag (s : State) : Nat := s.fld 8 (u8 · 0x195) 2
def State.tpEn (s : State) : Nat := s.fld 8 (u8 · 0x196) 0 % 16

def State.encEdgeNm (s : State) (e : Nat) : Nat := s.fldLast 8 (u32 · (0x1A0 + 16 * e)) 0
def State.encReverse (s : State) (e : Nat) : Bool := bitAt (s.fldLast 8 (u8 · (0x1A4 + 16 * e)) 0) 0
def State.encZTol (s : State) (e : Nat) : Nat := s.fldLast 8 (u16 · (0x1A6 + 16 * e)) 0
def State.encZEdges (s : State) (e : Nat) : Nat := s.fldLast 8 (u32 · (0x1A8 + 16 * e)) 0
def State.speedWin (s : State) : Nat := s.fldLast 8 (u16 · 0x1C0) 500
/-- (DEDUCED, unsafe: notes/assumptions/16.md.) -/
def State.standstillMmps (s : State) : Nat := s.fldLast 8 (u16 · 0x1C2) 50
def State.encTolMmps (s : State) : Nat := s.fldLast 8 (u16 · 0x1C4) 100
def State.encTolPct (s : State) : Nat := s.fldLast 8 (u8 · 0x1C6) 5
def State.encDiscBeats (s : State) : Nat := s.fldLast 8 (u32 · 0x1C8) 25000

def State.soRole (s : State) (g : Nat) : Nat := s.fld 8 (u8 · (0x1D0 + 16 * g)) 0
def State.soGenMode (s : State) (g : Nat) : Nat := s.fld 8 (u8 · (0x1D1 + 16 * g)) 0
def State.soPulseWidth (s : State) (g : Nat) : Nat := s.fld 8 (u16 · (0x1D2 + 16 * g)) 200
def State.soPulsePeriod (s : State) (g : Nat) : Nat := s.fld 8 (u32 · (0x1D4 + 16 * g)) 5000000
def State.soRbOn (s : State) (g : Nat) : Nat := s.fld 8 (u16 · (0x1D8 + 16 * g)) 500

/-- The offset of the SS1 record that SS1_INDEX selects. -/
def State.ss1Off (s : State) : Nat := 0x210 + 16 * s.ldr.vals.ss1Index
def State.ss1StartDelay (s : State) : Nat := s.fld 8 (u32 · s.ss1Off) 50000
def State.ss1Decel (s : State) : Nat := s.fld 8 (u16 · (s.ss1Off + 4)) 1500
def State.ss1Tol (s : State) : Nat := s.fld 8 (u16 · (s.ss1Off + 6)) 200
def State.ss1MaxTime (s : State) : Nat := s.fld 8 (u32 · (s.ss1Off + 8)) 2500000
def State.lrstMin (s : State) : Nat := s.fld 8 (u32 · 0x250) 50000
def State.lrstMax (s : State) : Nat := s.fld 8 (u32 · 0x254) 2500000
def State.lrstDisc (s : State) : Nat := s.fld 8 (u16 · 0x258) 25000

/-! ### WATCHDOG (0x09) (R328); before an image runs the boot configuration (R321, R322) -/

def State.quietBeats (s : State) : Nat := s.keptFld 9 (u32 · 0x00) 50000
def State.recWindow (s : State) : Nat := s.keptFld 9 (u32 · 0x04) 30000000
def State.recLimit (s : State) : Nat := s.keptFld 9 (u8 · 0x08) 4
/-- PROMOTE of the running image (R300). -/
def State.promote (s : State) (src : Nat) : Bool := bitAt (s.keptFld 9 (fun b => ofLe (slice b 0x10 16)) 0) src
def State.taskPeriod (s : State) (t : Nat) : Nat := s.keptFld 9 (u16 · (0x20 + 12 * t)) (if t = 0 then 5000 else 0)
def State.taskOpen (s : State) (t : Nat) : Nat := s.keptFld 9 (u16 · (0x22 + 12 * t)) 0
def State.taskClose (s : State) (t : Nat) : Nat := s.keptFld 9 (u16 · (0x24 + 12 * t)) (if t = 0 then 5000 else 0)
def State.taskPhase (s : State) (t : Nat) : Nat := s.keptFld 9 (u16 · (0x26 + 12 * t)) 0
def State.taskEn (s : State) (t : Nat) : Bool := bitAt (s.keptFld 9 (u8 · (0x28 + 12 * t)) (if t = 0 then 1 else 0)) 0
def State.taskRc (s : State) (t : Nat) : Bool := bitAt (s.keptFld 9 (u8 · (0x28 + 12 * t)) 0) 1
def State.svcPeriod (s : State) : Nat := s.keptFld 9 (u16 · 0xE0) 50000
def State.svcOpen (s : State) : Nat := s.keptFld 9 (u16 · 0xE2) 0
def State.svcClose (s : State) : Nat := s.keptFld 9 (u16 · 0xE4) 50000
def State.svcEn (s : State) : Bool := bitAt (s.keptFld 9 (u8 · 0xE6) 1) 0
def State.svcRc (s : State) : Bool := bitAt (s.keptFld 9 (u8 · 0xE6) 1) 1
def State.standbyPeriod (s : State) : Nat := s.fldLast 9 (u32 · 0xE8) 0
def State.hbMin (s : State) (k : Nat) : Nat := s.keptFld 9 (u16 · (0xF0 + 16 * k)) 0
def State.hbMax (s : State) (k : Nat) : Nat := s.keptFld 9 (u16 · (0xF2 + 16 * k)) 0
def State.hbAlive (s : State) (k : Nat) : Nat := s.keptFld 9 (u8 · (0xF4 + 16 * k)) 0
def State.hbFlags (s : State) (k : Nat) : Nat := s.keptFld 9 (u8 · (0xF5 + 16 * k)) 0
def State.hbEn (s : State) (k : Nat) : Bool := bitAt (s.hbFlags k) 0
def State.hbRc (s : State) (k : Nat) : Bool := bitAt (s.hbFlags k) 1
def State.hbRising (s : State) (k : Nat) : Bool := bitAt (s.hbFlags k) 2
def State.hbWakeEn (s : State) (k : Nat) : Bool := bitAt (s.hbFlags k) 3
def State.hbPersist (s : State) (k : Nat) : Nat := s.keptFld 9 (u32 · (0xF8 + 16 * k)) 0
def State.ageClk (s : State) : Nat := s.keptFld 9 (u8 · 0x110) 0

/-! ### RECORDER (0x0A) (R363) -/

def State.rateEv (s : State) : Nat := s.fld 0xA (u16 · 0x00) 500
def State.rateCe (s : State) : Nat := s.fld 0xA (u16 · 0x02) 500
def State.rateUc (s : State) : Nat := s.fld 0xA (u16 · 0x04) 50
def State.flushRecords (s : State) : Nat := s.fld 0xA (u16 · 0x06) 0
def State.flushBeats (s : State) : Nat := s.fld 0xA (u32 · 0x08) 500000
def State.scrubBits (s : State) : Nat := s.fld 0xA (u8 · 0x0C) 24
def State.wearDelta (s : State) : Nat := s.fld 0xA (u16 · 0x0E) 500
def State.rdLimit (s : State) : Nat := s.fld 0xA (u32 · 0x10) 200000

/-! ### GRID (0x07) (R80, R81) -/

def State.cellMm (s : State) : Nat := s.fld 7 (u16 · 0x00) 100
def State.egoCol (s : State) : Nat := s.fld 7 (u16 · 0x02) 512
def State.egoRow (s : State) : Nat := s.fld 7 (u16 · 0x04) 256
def State.heading (s : State) : Nat := s.fld 7 (u16 · 0x06) 0
def State.chkDecay (s : State) : Nat := s.fld 7 (u8 · 0x08) 8
def State.clmDecay (s : State) : Nat := s.fld 7 (u8 · 0x09) 16
def State.chkStale (s : State) : Nat := s.fld 7 (u8 · 0x0A) 3
def State.clmStale (s : State) : Nat := s.fld 7 (u8 · 0x0B) 3
def State.fieldCount (s : State) : Nat := s.fld 7 (u8 · 0x0C) 0
def State.fieldSetCount (s : State) : Nat := s.fld 7 (u8 · 0x0E) 1
def State.matchTol (s : State) : Nat := s.fld 7 (u8 · 0x0F) 3
def State.objGrace (s : State) : Nat := s.fld 7 (u16 · 0x10) 8000
def State.objConfMin (s : State) : Nat := s.fld 7 (u8 · 0x12) 128
def State.claimMatchAge (s : State) : Nat := s.fld 7 (u8 · 0x13) 1
def State.classCompat (s : State) (c : Nat) : Nat := s.fld 7 (u16 · (0x14 + 2 * c)) (2 ^ c)
def State.bandHyst (s : State) : Nat := s.fld 7 (u16 · 0x34) 200
def State.bandDownBeats (s : State) : Nat := s.fld 7 (u16 · 0x36) 25000
def State.clmOcc (s : State) : Int := s.fld 7 (u8 · 0x38) 64
def State.clmFree (s : State) : Int := toInt 8 (s.fld 7 (u8 · 0x39) 0xC0)
def State.claimDepth (s : State) : Nat := s.fld 7 (u8 · 0x3A) 2
def State.floorDecay (s : State) : Nat := s.fld 7 (u8 · 0x3B) 8
/-- MAIN_MAP and FLOOR_MAP of the field set in the active profile (R65, R81). -/
def State.mainMap (s : State) (dir : Nat) : Nat := s.fld 7 (u8 · (0x40 + 32 * s.ldr.vals.fieldSet + dir)) 0
def State.floorMap (s : State) (dir : Nat) : Nat := s.fld 7 (u8 · (0x50 + 32 * s.ldr.vals.fieldSet + dir)) 0
/-- The offset of a band record: main field or floor field, band number (R80, R81). -/
def State.bandOff (s : State) (flr : Bool) (field band : Nat) : Nat :=
  0x40 + 32 * s.fieldSetCount + 1152 * ((if flr then s.fieldCount else 0) + field) + 144 * band
def State.bandSpeedMax (s : State) (flr : Bool) (f b : Nat) : Nat := s.fld 7 (u16 · (s.bandOff flr f b)) 0xFFFF
def State.bandVcount (s : State) (flr : Bool) (f b : Nat) : Nat := s.fld 7 (u8 · (s.bandOff flr f b + 2)) 0
def State.bandOccT (s : State) (flr : Bool) (f b : Nat) : Int := toInt 8 (s.fld 7 (u8 · (s.bandOff flr f b + 4)) 0)
def State.bandFreeT (s : State) (flr : Bool) (f b : Nat) : Int := toInt 8 (s.fld 7 (u8 · (s.bandOff flr f b + 5)) 0)
def State.bandThresh (s : State) (flr : Bool) (f b : Nat) : Nat := s.fld 7 (u16 · (s.bandOff flr f b + 6)) 0
def State.bandPersist (s : State) (flr : Bool) (f b : Nat) : Nat := s.fld 7 (u16 · (s.bandOff flr f b + 8)) 1
/-- Vertex `v` of a band polygon, in quarter cells (R62). -/
def State.bandVertex (s : State) (flr : Bool) (f b v : Nat) : Int × Int :=
  let o := s.bandOff flr f b + 0x0C + 4 * v
  (toInt 16 (s.fld 7 (u16 · o) 0), toInt 16 (s.fld 7 (u16 · (o + 2)) 0))

/-! ### CAMERAS (0x06) (R56, R377) -/

def State.camCount (s : State) : Nat := s.fld 6 (u8 · 0) 0
/-- The offset of the model of a camera ID in CAMERAS; none without one. -/
def camRecOff (b : List Byte) (cam : Nat) : Option Nat :=
  ((upto (u8 b 0)).find? fun k => u8 b (16 + 80 * k + 0x44) == cam).map (16 + 80 * ·)
/-- The offset of the model of a camera ID of the running image. -/
def State.camOff (s : State) (cam : Nat) : Option Nat :=
  ((upto s.camCount).find? fun k => s.fld 6 (u8 · (16 + 80 * k + 0x44)) 0 == cam).map (16 + 80 * ·)
def State.camU (s : State) (off : Nat) : Nat := s.fld 6 (u32 · off) 0

end Sys2Proof.Machine
end

