-- ==== Sys2Proof/Machine/Ops.lean ====
section
/-!
DEFINITION. The shared operations: free values, triggers of the watch, interrupts, event records, and the one
reaction of fault collection to a fault.
-/
namespace Sys2Proof.Machine

/-- A free value of `n` possibilities, below `n`: the spec states none.
(DEDUCED, safe: notes/assumptions/7.md.) -/
def State.free (s : State) (n : Nat) : Nat := Config.freeNat s.freeCtr % n

/-- The next free value has another number.
(DEDUCED, safe: notes/assumptions/7.md.) -/
def State.freed (s : State) : State := { s with freeCtr := s.freeCtr + 1 }

/-! ### The watch's inputs (R15, R17, R20) -/

/-- A trigger of the table of R17, taken into the evaluation at the end of the present beat (R15). -/
def State.addTrig (s : State) (to' : WState) (cause : Nat) : State :=
  { s with watch := { s.watch with trig := s.watch.trig ++ [⟨to', cause⟩] } }

/-- The cause of doubt flag `n`, taken into the evaluation of the present beat (R20). -/
def State.addDoubt (s : State) (n : Nat) : State :=
  { s with watch := { s.watch with causes := s.watch.causes ||| BitVec.twoPow 8 n } }

/-- A clear condition of doubt flag `n` that holds at an event of the present beat (R20). -/
def State.addClear (s : State) (n : Nat) : State :=
  { s with watch := { s.watch with clears := s.watch.clears ||| BitVec.twoPow 8 n } }

/-! ### Interrupts (R510 to R513) -/

/-- Cause numbers of R510. -/
def irqWatch : Nat := 0
def irqFault : Nat := 1
def irqCmdDone : Nat := 2
def irqWake : Nat := 3
def irqRecovery : Nat := 4
def irqLoader : Nat := 5
def irqSecurity : Nat := 6

/-- The IBI of cause `n` is enabled: `WATCH_IBI_CTRL` decides for WATCH before the cause is set, `GLB_IRQ_EN`
for the others (R510). -/
def State.ibiEnabled (s : State) (n : Nat) : Bool := n == irqWatch || s.i3c.ibiEn.getLsbD n

/-- The pending payload after an event of cause `n`: WATCH takes the newest, every other cause keeps one that
is pending already (R512).
(DEDUCED, unsafe: notes/assumptions/29.md.) -/
def ibiNext (n : Nat) (old : Option (List Byte)) (payload : List Byte) : Option (List Byte) :=
  match old with
  | some p => if n = irqWatch then some payload else some p
  | none => some payload

/-- An event of interrupt cause `n`: its status bit is set and its IBI pends where enabled (R510, R512).
(DEDUCED, unsafe: notes/assumptions/29.md.) -/
def State.irqSet (s : State) (n : Nat) (payload : List Byte) : State :=
  { s with i3c := { s.i3c with
      irqStatus := s.i3c.irqStatus ||| BitVec.twoPow 7 n
      ibi := if s.ibiEnabled n then vset s.i3c.ibi n (ibiNext n (vget s.i3c.ibi n none) payload) else s.i3c.ibi } }

/-- The pin enables of all causes (R510). -/
def State.pinEnables (s : State) : BitVec 7 :=
  (s.i3c.pinEn &&& 0x7E) ||| (if s.watch.irqPinEn then 1 else 0)

/-- IRQ_N is driven low (R513). -/
def State.irqNLow (s : State) : Bool := s.powered && (s.i3c.irqStatus &&& s.pinEnables) != 0

/-! ### Event records (R337 to R346) -/

/-- The interval of a class (R342).
(DEDUCED, unsafe: notes/assumptions/62.md.) -/
def State.rateOf (s : State) : FaultClass → Nat
  | .event => s.rateEv
  | .ce => s.rateCe
  | .uc => s.rateUc
  | .ft => 0

/-- The folding point of a port: an engine's core, or the recorder, numbered 32 (R343).
(DEDUCED, unsafe: notes/assumptions/62.md.) -/
def foldPoint : EvPort → Nat
  | .engine g => g / 4
  | .block _ => 32

/-- The codes that a port tracks.
(DEDUCED, unsafe: notes/assumptions/62.md.) -/
def RecState.tracked (r : RecState) (p : EvPort) : List RateEntry :=
  match r.ports.find? (fun x => x.1 == p) with
  | some x => x.2
  | none => []

/-- The codes a port tracks, replaced. -/
def RecState.setTracked (r : RecState) (p : EvPort) (l : List RateEntry) : RecState :=
  { r with ports := (p, l) :: r.ports.filter (fun x => x.1 != p) }

/-- An append takes the next SEQ, displaces the oldest record of a full last area, and goes to the first area
while that has room (R338, R344). -/
def State.append (s : State) (fp : Nat) (e : EvRec) : State :=
  let r := s.evr
  let e' : EvRec := { e with seq := r.seqNext, timeValid := s.time.set, devTime := s.time.now }
  let full : Bool := 4096 ≤ r.last.length
  let lost := if full && 4096 ≤ r.waiting then 1 else 0
  { s with
    evr := { r with
      seqNext := (r.seqNext + 1) % 2 ^ 32
      last := (if full then r.last.drop 1 else r.last) ++ [e']
      first := if r.first.length < 256 then r.first ++ [e'] else r.first
      waiting := min 4096 (r.waiting + 1)
      folds := (fp, r.seqNext) :: r.folds.filter (fun x => x.1 != fp) }
    jnl := { s.jnl with
      lost := satAdd (2 ^ 32 - 1) s.jnl.lost lost
      lostNew := s.jnl.lostNew + lost
      flushDue := s.jnl.flushDue || e.cls == .uc || e.cls == .ft } }

/-- A record folded: REPEAT advanced in place, SAT set by the fold that makes it 65,535 (R343). -/
def EvRec.fold (e : EvRec) : EvRec := { e with rep := e.rep + 1, sat := e.sat || e.rep + 1 == 65535 }

/-- Folding applies to the last record that the same folding point appended (R343).
(DEDUCED, unsafe: notes/assumptions/62.md.) -/
def RecState.foldsInto (r : RecState) (fp code source seq : Nat) (wait : List EvRec) : Bool :=
  r.folds.any (fun x => x.1 == fp && x.2 == seq) &&
    wait.any (fun e => e.seq == seq && e.code == code && e.source == source && decide (e.rep < 65535))

/-- The SEQ of the last record that a folding point appended. -/
def RecState.lastOf (r : RecState) (fp : Nat) : Option Nat :=
  (r.folds.find? (fun x => x.1 == fp)).map (·.2)

/-- A record that a port has passed is folded or appended (R343, R344). -/
def State.passRecord (s : State) (port : EvPort) (e : EvRec) : State :=
  let r := s.evr
  let fp := foldPoint port
  let wait := r.last.drop (r.last.length - r.waiting)
  match r.lastOf fp with
  | some q =>
    if r.foldsInto fp e.code e.source q wait then
      let up := fun (x : EvRec) => if x.seq == q then x.fold else x
      { s with evr := { r with last := r.last.map up, first := r.first.map up, folded := satInc (2 ^ 32 - 1) r.folded } }
    else s.append fp e
  | none => s.append fp e

/-- A report at a port: rate-limited per code (R342), then folded or appended (R343, R344). Records of blocks 0x0
and 0xF and of class FT are never limited. -/
def State.record (s : State) (port : EvPort) (code source : Nat) (cls : FaultClass) (data : Nat) : State :=
  let e : EvRec := { beat := s.beat, rep := 0, code, source, cls, sat := false, limited := false, timeValid := false,
                     seq := 0, devTime := 0, data := data % 2 ^ 64 }
  if code / 4096 = 0 ∨ code / 4096 = 15 then s.passRecord port e
  else
    let l := s.evr.tracked port
    match l.find? (fun x => x.code == code) with
    | some x =>
      if s.beat - x.last ≥ s.rateOf cls then
        let s := { s with evr := s.evr.setTracked port (RateEntry.mk code s.beat false :: l.filter (fun y => y.code != code)) }
        s.passRecord port { e with limited := x.suppressed }
      else
        { s with evr := { s.evr.setTracked port
            (l.map fun y => if y.code == code then { y with suppressed := true } else y) with
              limited := satInc (2 ^ 32 - 1) s.evr.limited } }
    | none =>
      let s := { s with evr := s.evr.setTracked port ((RateEntry.mk code s.beat false :: l).take 16) }
      s.passRecord port e

/-- An event record of class 0 that is no fault, at its block's port (R339). -/
def State.event (s : State) (code data : Nat) : State :=
  s.record (.block (code / 4096)) code 0xFF .event data

/-- An ignored write is recorded as event 0x0103: 1 RWS outside STOPPED and SERVICE, 2 not the owner, 3 reserved
value or no live field (R341, R506).
(DEDUCED, unsafe: notes/assumptions/32.md.) -/
def State.ignoredWrite (s : State) (addr kind : Nat) : State := s.event 0x0103 (addr % 2 ^ 24 + kind * 2 ^ 24)

/-! ### Fault collection (R299 to R308) -/

/-- The block of a fault source's records (R339). -/
def blockOf (src : Nat) : Nat :=
  if src ≤ 3 then 3 else if src ≤ 11 then 1 else if src ≤ 19 then 2 else if src ≤ 27 then 3
  else if src ≤ 59 then 4 else if src ≤ 67 then 5 else if src ≤ 75 then 8 else if src ≤ 91 then 7
  else if src ≤ 99 then 9 else if src ≤ 103 then 0xB else if src ≤ 107 then 0xE else 0xA

/-- A UC or FT fault is active. -/
def State.anyActive (s : State) : Bool := (s.fc.activeUc ||| s.fc.activeFt) != 0

/-- An FT fault is active. -/
def State.ftActive (s : State) : Bool := s.fc.activeFt != 0

/-- The class a fault is handled as: a UC fault of a promoted source is FT (R300). -/
def State.classOf (s : State) (src : Nat) : FaultClass → FaultClass
  | .uc => if s.promote src then .ft else .uc
  | c => c

/-- The source counter of a class advanced (R304, R332). -/
def SrcCnt.count (c : SrcCnt) : FaultClass → SrcCnt
  | .ce => { c with ce := satInc 65535 c.ce }
  | .uc => { c with uc := satInc 4095 c.uc }
  | .ft => { c with ft := satInc 15 c.ft }
  | .event => c

/-- Every fault counts in its own source counter (R304, R307). -/
def State.countFault (s : State) (src : Nat) (c : FaultClass) : State :=
  { s with fc := { s.fc with cnt := vmod s.fc.cnt src (·.count c) } }

/-- The latch takes the first UC or FT fault; later ones set FF_OVF (R306). The first FT fault after a UC fault
has filled the latch is kept apart (R308).
(DESIGN CHOICE, safe: notes/assumptions/24.md.)
(DEDUCED, unsafe: notes/assumptions/26.md.) -/
def State.latchFault (s : State) (src : Nat) (c : FaultClass) (info cycle : Nat) : State :=
  match s.fc.latch with
  | none => { s with fc := { s.fc with latch := some ⟨src, c, info, s.beat, cycle⟩ } }
  | some l =>
    { s with fc := { s.fc with
        ffOvf := true
        firstFt := if c == .ft && l.cls == .uc && s.fc.firstFt.isNone then some (src, s.beat) else s.fc.firstFt } }

/-- FAULT_N is driven low; the FAULT interrupt is set when it goes low (R305, R510, R511). -/
def State.faultNDown (s : State) (src : Nat) (c : FaultClass) (info : Nat) : State :=
  if s.fc.faultNLow then s
  else ({ s with fc := { s.fc with faultNLow := true } } : State).irqSet irqFault
        (BitVec.ofNat 8 src :: BitVec.ofNat 8 c.code :: leBytes 4 info)

/-- The quiet period restarts at every UC or FT fault (R302). -/
def State.quietRestart (s : State) : State :=
  { s with fc := { s.fc with quietEnd := some (s.beat + s.quietBeats), releaseDue := false } }

/-- A channel driven low by the direct path (R16). -/
def OutChan.drop (c : OutChan) (beat : Nat) : OutChan :=
  { c with high := false, due := false, cmdOn := false,
           cmdBeat := if c.cmdOn then beat else c.cmdBeat,
           reached := if c.cmdOn then false else c.reached,
           faulted := if c.cmdOn then false else c.faulted }

/-- Both channels of a group driven low; a pulse in progress is interrupted (R16, R280, R285). -/
def OutGroup.drop (g : OutGroup) (beat : Nat) : OutGroup :=
  { g with a := g.a.drop beat, b := g.b.drop beat, on := false, pulse := none, latched := false }

/-- Every safe output is off, and held off until a lock-out reset leads to STOPPED (R16, R280). -/
def State.outputsOff (s : State) : State :=
  { s with so := { groups := vmap (·.drop s.beat) s.so.groups, held := true } }

/-- The record of a fault (R340): code 0x001 to 0x003, or 0x005 for an escalation, in the block of its source. -/
def State.faultRecord (s : State) (port : EvPort) (src : Nat) (c : FaultClass) (info : Nat) (esc : Bool) : State :=
  s.record port (blockOf src * 4096 + (if esc then 5 else c.code)) src c info

/-- The reaction to a UC fault (R299, R302, R304): counted, latched, active until recovery, the quiet period
restarted and FAULT_N low. While an FT fault is active it is counted and has no further effect.
(DEDUCED, unsafe: notes/assumptions/26.md.) -/
def State.ucReaction (s : State) (src info cycle : Nat) : State :=
  if s.ftActive then s
  else
    let s := (s.latchFault src .uc info cycle).quietRestart
    let s := { s with fc := { s.fc with activeUc := s.fc.activeUc ||| BitVec.twoPow 128 src, lastUc := src,
                                        info := vset s.fc.info src info } }
    s.faultNDown src .uc info

/-- The reaction to an FT fault (R299, R16, R17): latched, active until the reset sequence, every safe output off
at once, FAULT_N low, and the trigger of cause 0x22 to HALT. -/
def State.ftReaction (s : State) (src info cycle : Nat) : State :=
  let s := (s.latchFault src .ft info cycle).quietRestart
  let s := { s with fc := { s.fc with activeFt := s.fc.activeFt ||| BitVec.twoPow 128 src,
                                      info := vset s.fc.info src info } }
  ((s.faultNDown src .ft info).outputsOff).addTrig .halt 0x22

/-- A fault in a given island cycle (R299 to R308): its class after promotion, its count, its record and its
reaction. A CE fault is counted and recorded only. -/
def State.raiseAt (s : State) (src : Nat) (c : FaultClass) (info : Nat) (port : EvPort) (cycle : Nat) : State :=
  let c := s.classOf src c
  let s := (s.countFault src c).faultRecord port src c info false
  match c with
  | .uc => s.ucReaction src info cycle
  | .ft => s.ftReaction src info cycle
  | _ => s

/-- A fault whose island cycle within the beat is whatever it is: 0 to 1,099 (R306), a free value.
(DESIGN CHOICE, safe: notes/assumptions/24.md.)
(DESIGN CHOICE, safe: notes/assumptions/25.md.) -/
def State.raise (s : State) (src : Nat) (c : FaultClass) (info : Nat) : State :=
  s.freed.raiseAt src c info (.block (blockOf src)) (s.free 1100)

/-- A fault of a core, reported at the event port of one of its engines (R2, R342). -/
def State.raiseCore (s : State) (src : Nat) (c : FaultClass) (info engine : Nat) : State :=
  s.freed.raiseAt src c info (.engine engine) (s.free 1100)

/-- A fault judged in the last island cycle of the beat (R319).
(DESIGN CHOICE, safe: notes/assumptions/24.md.) -/
def State.raiseLast (s : State) (src : Nat) (c : FaultClass) (info : Nat) : State :=
  s.raiseAt src c info (.block (blockOf src)) 1099

/-- Recoveries within the last REC_WINDOW beats (R303). -/
def State.recoveriesIn (s : State) : List Nat :=
  s.fc.recoveries.filter fun b => decide (s.beat < b + s.recWindow)

/-- The sources whose bit is set, in rising order. -/
def sourcesOf (m : BitVec 128) : List Nat := (upto 128).filter fun i => m.getLsbD i

/-- The escalation of R303: an FT fault with the source of the most recent UC fault and info 0xFFFF_FFFF. -/
def State.escalate (s : State) : State :=
  let src := s.fc.lastUc
  let s1 : State := { s with fc := { s.fc with escalated := true, quietEnd := none } }
  let s1 := (s1.countFault src .ft).faultRecord (.block (blockOf src)) src .ft 0xFFFFFFFF true
  s1.ftReaction src 0xFFFFFFFF 1099

/-- Every active UC fault recovers (R302): records of code 0x004, the recovery counted, FAULT_N and D6 to follow in
the next beat.
(DEDUCED, unsafe: notes/assumptions/26.md.) -/
def State.recover (s : State) : State :=
  let srcs := sourcesOf s.fc.activeUc
  let s1 := srcs.foldl (fun (t : State) src =>
    t.record (.block (blockOf src)) (blockOf src * 4096 + 4) src .event (vget t.fc.info src 0)) s
  { s1 with
    fc := { s1.fc with activeUc := 0, quietEnd := none, releaseDue := true
                       recoveries := s.beat :: s.recoveriesIn, recTotal := satInc 65535 s1.fc.recTotal }
    enc := { s1.enc with xchkFault := false } }

end Sys2Proof.Machine
end

