-- ==== Sys2Proof/Machine/Watch.lean ====
section
/-!
DEFINITION. The watch (spec/01_watch.md): the doubt flags, the triggers and their order, entry to a state, the
speed limits, and the verdict word.
-/
namespace Sys2Proof.Machine

/-! ### Speed comparisons (R278): an invalid speed is above every limit and below no threshold -/

def State.speedBelow (s : State) (thr : Nat) : Bool :=
  match s.watch.speed with
  | some v => decide (v < thr)
  | none => false

/-- The speed code that a state publishes (R13). -/
def State.speedCode (s : State) (w : WState) : Nat :=
  match w with
  | .trust => s.ldr.vals.trustCode
  | .floor => s.ldr.vals.floorCode
  | _ => 0

/-- v_floor: the speed table entry of FLOOR_SPEED_CODE (R25).
(DEDUCED, unsafe: notes/assumptions/15.md.) -/
def State.vFloor (s : State) : Nat := s.speedTable s.ldr.vals.floorCode

/-- The decaying part of the floor limit in 1/500,000 mm/s, without the tolerance (R25): t counts beats of 2 µs. -/
def State.floorLimit500k (s : State) : Nat :=
  max (s.vFloor * 500000) (s.watch.floorVEntry * 500000 - s.floorDecel * (s.beat - s.watch.floorSince))

/-- The measured speed is above limit(t) of FLOOR (R25). -/
def State.floorSpeedBreach (s : State) : Bool :=
  match s.watch.speed with
  | some v => decide (v * 500000 > s.floorLimit500k + s.floorSpeedTol * 500000)
  | none => true

/-- The measured speed is above the TRUST limit plus FLOOR_SPEED_TOL (R17); code 15 sets no limit (R26). -/
def State.trustSpeedBreach (s : State) : Bool :=
  match s.watch.speed with
  | some v => s.ldr.vals.trustCode != 15 && decide (v > s.speedTable s.ldr.vals.trustCode + s.floorSpeedTol)
  | none => true

/-- The SS1 limit with TOL in steps of 2⁻¹⁶ mm/s, rounded down (R286); none where v_entry was invalid.
(DEDUCED, unsafe: notes/assumptions/15.md.) -/
def State.ss1Limit (s : State) : Option Nat :=
  match s.watch.ss1VEntry with
  | none => none
  | some ve =>
    let t := s.beat - s.watch.ss1Since
    if t < s.ss1StartDelay then some ((ve + s.ss1Tol) * 65536)
    else some ((ve * 500000 - s.ss1Decel * (t - s.ss1StartDelay)) * 65536 / 500000 + s.ss1Tol * 65536)

/-- The ramp is violated (R286): speed above the limit, or speed invalid (R278). Equal is no violation. -/
def State.rampViolated (s : State) : Bool :=
  match s.watch.speed, s.ss1Limit with
  | some v, some l => decide (v * 65536 > l)
  | some _, none => false
  | none, _ => true

/-! ### The governing field (R28, R36) -/

/-- Index of the governing field, and whether it is a floor field. -/
def State.governing (s : State) : Nat × Bool :=
  match s.watch.wstate with
  | .stopped | .halt => (0, false)
  | .floor => (s.ev.floorField, true)
  | .stopping | .standstill => s.watch.frozen.getD (s.ev.mainField, false)
  | .arming => s.watch.frozen.getD (s.ev.mainField, false)
  | .trust => (s.ev.mainField, false)

/-- FIELD_CLEAR of the present beat: the rule of the governing field (R28).
(DEDUCED, unsafe: notes/assumptions/14.md.) -/
def State.fieldClear (s : State) : Bool :=
  match s.watch.wstate with
  | .stopped | .halt => false
  | _ => if s.governing.2 then s.ev.floorClear else s.ev.mainClear

/-! ### The verdict word (R28, R29) -/

/-- CRC-8 of R29 over the three upper bytes of a word. -/
def verdictCrc (upper : Nat) : Nat :=
  (crcMsb (w := 8) 0x1D 0xFF [BitVec.ofNat 8 (upper / 65536), BitVec.ofNat 8 (upper / 256), BitVec.ofNat 8 upper]).toNat

/-- The DOUBT field: 0 in STOPPED, the flags elsewhere (R13). -/
def State.doubtField (s : State) : Nat := if s.watch.wstate = .stopped then 0 else s.watch.doubt.toNat

/-- Bits [31:8] of the verdict word of the present beat (R28). -/
def State.verdictUpper (s : State) : Nat :=
  packNat [(21, 3, s.watch.wstate.code), (17, 4, s.speedCode s.watch.wstate), (9, 8, s.doubtField),
           (5, 4, s.governing.1), (4, 1, b2n s.fieldClear), (0, 4, s.beat)]

/-- The verdict word of the present beat (R28). -/
def State.verdictWord (s : State) : Word :=
  BitVec.ofNat 32 (s.verdictUpper * 256 + verdictCrc s.verdictUpper)

/-! ### Lasting conditions behind the doubt flags (R20) -/

/-- Sources of the checking path: 28 to 65 and 67 to 91 (R301). -/
def checkingPath (src : Nat) : Bool := decide (28 ≤ src ∧ src ≤ 91 ∧ src ≠ 66)

/-- INTENT is older than INTENT_MAX_AGE frames (R20). -/
def State.intentOverAge (s : State) : Bool := decide (s.watch.intentAge > s.intentMaxAge)

/-- A heartbeat monitor that the image enables reports its primary LOST (R20, R324). -/
def State.heartbeatLost (s : State) : Bool :=
  (upto 2).any fun k => s.hbEn k && !(vget s.wd.hb k ⟨false, false, 0, 0, none, 0, 0, 0, false⟩).alive

/-! ### Triggers (R17, R19) -/

/-- The table of R17: which triggers, by target and cause, a state listens to. -/
def listed (f : WState) (t : Trigger) : Bool :=
  match f, t.target with
  | .stopped, .arming => t.cause == 0x01
  | .arming, .trust => t.cause == 0x02
  | .arming, .stopped => t.cause == 0x1B || t.cause == 0x1A
  | .arming, .stopping => t.cause == 0x14 || t.cause == 0x15
  | .trust, .stopped => t.cause == 0x1A
  | .trust, .floor => t.cause == 0x03 || t.cause == 0x05
  | .trust, .stopping => t.cause == 0x11 || t.cause == 0x13 || t.cause == 0x14 || t.cause == 0x15
  | .floor, .stopped => t.cause == 0x1A
  | .floor, .trust => t.cause == 0x04
  | .floor, .stopping =>
    t.cause == 0x10 || t.cause == 0x11 || t.cause == 0x12 || t.cause == 0x14 || t.cause == 0x15
  | .stopping, .standstill => t.cause == 0x18
  | .stopping, .halt => t.cause == 0x20 || t.cause == 0x22
  | .standstill, .arming => t.cause == 0x19
  | .standstill, .stopped => t.cause == 0x1A
  | .standstill, .halt => t.cause == 0x21 || t.cause == 0x22
  | .halt, _ => false
  | _, .halt => t.cause == 0x22
  | _, _ => false

/-- The order of R19, the highest target first. -/
def rank : WState → Nat
  | .halt => 0 | .stopping => 1 | .stopped => 2 | .floor => 3 | .standstill => 4 | .arming => 5 | .trust => 6

/-- The better of two triggers: the higher target, then the lower cause (R19). -/
def better (a b : Trigger) : Trigger :=
  if rank a.target < rank b.target then a
  else if rank b.target < rank a.target then b
  else if a.cause ≤ b.cause then a else b

/-- The one transition taken in a beat (R19): the best of the listed triggers. -/
def resolve (f : WState) (ts : List Trigger) : Option Trigger :=
  (ts.filter (listed f)).foldl (fun o t => some (match o with | some a => better a t | none => t)) none

/-- A trigger where a condition holds. -/
def trigIf (c : Bool) (to' : WState) (cause : Nat) : List Trigger := if c then [⟨to', cause⟩] else []

/-- The triggers that conditions at the end of the beat give (R17, R24, R25, R278), with the flags that the next
beat will carry. -/
def State.condTriggers (s : State) (doubt : BitVec 8) : List Trigger :=
  let w := s.watch.wstate
  let t := w == .trust
  let f := w == .floor
  let v := s.watch.speed.isSome
  trigIf (t && doubt != 0) .floor 0x03
    ++ trigIf (t && s.watch.intent.mode == 1) .floor 0x05
    ++ trigIf ((t || f) && !s.ev.floorAvail) .stopping 0x11
    ++ trigIf (f && v && s.floorSpeedBreach) .stopping 0x12
    ++ trigIf (t && v && s.trustSpeedBreach) .stopping 0x13
    ++ trigIf ((w == .arming || t || f) && (!v || s.enc.xchkFault)) .stopping 0x15
    ++ trigIf (w == .stopping && s.speedBelow s.standstillMmps) .standstill 0x18

/-- The transition of the beat: the triggers collected in it and those of its conditions, less a return to TRUST
while a flag appears (R19, R21). -/
def State.chosen (s : State) (doubt : BitVec 8) : Option Trigger :=
  resolve s.watch.wstate
    ((s.watch.trig ++ s.condTriggers doubt).filter fun t => !(t.target == .trust && doubt != 0))

/-! ### Entry to a state -/

/-- Entries to FLOOR within the last FLOOR_ENTRY_WINDOW frames (R23). -/
def State.floorEntriesIn (s : State) : List Nat :=
  s.watch.floorEntries.filter fun f => decide (s.sched.frame < f + s.floorEntryWindow)

/-- What the watch itself changes on entry to a state, at the start of its first beat.
(DEDUCED, unsafe: notes/assumptions/15.md.) -/
def State.enterWatch (s : State) (to' : WState) (cause : Nat) : WatchState :=
  let w := s.watch
  let w := { w with wstate := to', lastFrom := s.watch.wstate, lastTo := to', lastCause := cause, lastBeat := s.beat }
  match to' with
  | .arming => { w with cleanCnt := 0, partialFrame := true, armTicks := 0, countBeat := none }
  | .trust => { w with cleanCnt := 0, countBeat := none, frozen := none }
  | .floor => { w with cleanCnt := 0, partialFrame := true, countBeat := none, frozen := none
                       floorEntries := s.sched.frame :: s.floorEntriesIn
                       floorSince := s.beat
                       floorEntryCount := satInc 65535 w.floorEntryCount }
  | .stopping => { w with cleanCnt := 0, frozen := some s.governing, ss1Since := s.beat
                          stops := satInc 65535 w.stops }
  | .standstill => w
  | .stopped => { w with cleanCnt := 0, doubt := 0, frozen := none, floorEntries := []
                         retrustBlocked := w.blockedUntilReset, d1Claim := 0, d1Intent := false }
  | .halt => { w with cleanCnt := 0, frozen := none }

/-- Entry to a state (R17), at the start of its first beat. -/
def State.enter (s : State) (t : Trigger) : State := { s with watch := s.enterWatch t.target t.cause }

/-- The latch copy that the entry to HALT appends (R349, R341). -/
def State.haltRecord (s : State) : State :=
  match s.fc.latch with
  | some l => s.event 0x2103 (l.info % 2 ^ 32 + l.source * 2 ^ 32 + l.cls.code * 2 ^ 40)
  | none => s.event 0x2103 0

/-- The records of a beat's commit: a transition (0x0100) with the word of the new state, the latch copy at HALT
entry, and a change of the flags (0x0101) (R341, R349, R350). -/
def State.commitRecords (s : State) (t : Option Trigger) (oldDoubt : BitVec 8) : State :=
  let s1 := match t with
    | some t =>
      let s := s.event 0x0100 (s.watch.lastFrom.code + 16 * t.target.code + 256 * t.cause + 2 ^ 32 * s.watch.verdict.toNat)
      if t.target = .halt then
        let s := s.haltRecord
        { s with jnl := { s.jnl with flushDue := true } }
      else s
    | none => s
  if s1.watch.doubt ≠ oldDoubt then s1.event 0x0101 (oldDoubt.toNat + 256 * s1.watch.doubt.toNat) else s1

/-- The WATCH interrupt of a change of WSTATE or DOUBT, as `WATCH_IBI_CTRL` enables it (R30, R31, R48).
(DEDUCED, unsafe: notes/assumptions/14.md.) -/
def State.watchIrq (s : State) (stateChange doubtChange : Bool) : State :=
  if (stateChange && s.watch.ibiStateEn) || (doubtChange && s.watch.ibiDoubtEn) then
    s.irqSet irqWatch (leBytes 4 s.watch.verdict.toNat ++ leBytes 4 s.beat)
  else s

/-! ### Steps of the watch -/

/-- WATCH_STATUS.RETRUST_BLOCKED follows the number of entries to FLOOR within the window (R23); a limit of 0
disables the count. -/
def State.retrustBlock (s : State) : State :=
  if s.floorEntryLimit ≠ 0 ∧ s.floorEntriesIn.length > s.floorEntryLimit ∧ s.watch.wstate ≠ .stopped then
    { s with watch := { s.watch with retrustBlocked := true } }
  else s

/-- ARMING reaches TRUST at the tick at which the clean-frame counter has reached ARM_FRAMES (R21). -/
def State.armFramesReached (s : State) : State :=
  if s.watch.wstate = .arming ∧ s.watch.countBeat = some s.beat ∧ s.watch.cleanCnt ≥ s.armFrames
      ∧ s.ev.floorAvail = true then s.addTrig .trust 0x02
  else s

/-- FLOOR returns to TRUST after RETRUST_FRAMES clean frames at a tick (R22); FLOOR_REQUEST withholds it (R37). -/
def State.retrust (s : State) : State :=
  if s.watch.wstate = .floor ∧ s.watch.countBeat = some s.beat ∧ s.watch.cleanCnt ≥ s.ldr.vals.retrustFrames
      ∧ s.ev.floorAvail = true ∧ s.watch.retrustBlocked = false ∧ s.watch.intent.mode ≠ 1 then s.addTrig .trust 0x04
  else s

/-- The tick that ends the ARM_TIMEOUT-th whole frame: the (ARM_TIMEOUT + 1)-th tick after ARM (R558). -/
def State.armTimeoutDue (s : State) : State :=
  if s.watch.wstate = .arming ∧ s.watch.countBeat = some s.beat ∧ s.watch.armTicks = s.armTimeout + 1 then
    s.addTrig .stopped 0x1B
  else s

/-- Reaching MAX_TIME in STOPPING without standstill (R287): standstill is judged first. -/
def State.ss1MaxTimeDue (s : State) : State :=
  if s.watch.wstate = .stopping ∧ s.beat ≥ s.watch.ss1Since + s.ss1MaxTime
      ∧ s.speedBelow s.standstillMmps = false ∧ s.fc.activeFt.getLsbD 11 = false then
    (s.raise 11 .ft 0x02).addTrig .halt 0x20
  else s

/-- The ramp of STOPPING (R286) and motion in STANDSTILL (R287), judged at the end of a beat. A speed below the
threshold reaches STANDSTILL and cannot be above a limit. -/
def State.rampCheck (s : State) : State :=
  if s.watch.wstate = .stopping ∧ s.rampViolated = true then (s.raise 11 .ft 0x01).addTrig .halt 0x20
  else if s.watch.wstate = .standstill ∧ s.speedBelow s.standstillMmps = false then
    (s.raise 11 .ft 0x04).addTrig .halt 0x21
  else s

end Sys2Proof.Machine
end

