-- ==== Sys2Proof/Machine/SafeIo.lean ====
section
/-!
DEFINITION. Safe inputs, test pulses and the lock-out reset input (spec/08_safe_io.md, R264 to R273, R288, R289).
-/
namespace Sys2Proof.Machine

/-! ### Test-pulse sources (R270 to R272) -/

def State.tpEnabled (s : State) (k : Nat) : Bool := bitAt s.tpEn k

/-- Beat `b` starts a pulse of source `k` (R270). -/
def State.tpDueAt (s : State) (k b : Nat) : Bool :=
  s.tpEnabled k && decide (0 < s.tpPeriod ∧ ((b : Int) - (k * (s.tpPeriod / 4) : Nat)) % s.tpPeriod = 0)

def TestPulse.default : TestPulse := ⟨false, none, false, false, false⟩

/-- The offset of sample `b` from the newest pulse start of source `k`: none before the first. -/
def State.tpOffset (s : State) (k : Nat) : Option Nat :=
  if s.tpEnabled k then (vget s.tp k TestPulse.default).start.map (s.beat - ·) else none

/-- The present sample lies in the mask window of source `k` (R271). -/
def State.tpMasked (s : State) (k : Nat) : Bool :=
  match s.tpOffset k with
  | some o => decide (1 ≤ o ∧ o ≤ s.tpWidth + s.tpLag)
  | none => false

/-- The present sample is the first after the mask window of source `k`. -/
def State.tpAfter (s : State) (k : Nat) : Bool :=
  match s.tpOffset k with
  | some o => o == s.tpWidth + s.tpLag + 1
  | none => false

/-- The level that source pin `k` must read back at the present sample (R272). -/
def State.tpExpected (s : State) (k : Nat) : Bool :=
  match s.tpOffset k with
  | some o => !decide (1 ≤ o ∧ o ≤ s.tpWidth)
  | none => true

/-- The sample of a test-pulse pin (R264, R272): a wrong level is due as a fault once per pulse period. -/
def State.sampleTp (s : State) (k : Nat) (t : TestPulse) (level : Bool) : TestPulse :=
  let newPeriod := s.tpOffset k == some 1
  let faulted := t.faulted && !newPeriod
  let wrong := s.tpEnabled k && level != s.tpExpected k && !faulted
  { t with level := level, wrongDue := wrong || (t.wrongDue && !newPeriod), faulted := faulted }

/-- A pulse starts at its due beat, after the sample (R270). -/
def State.tpStart (s : State) (k : Nat) : State :=
  if s.tpDueAt k s.beat then
    { s with tp := vmod s.tp k fun t => if t.start = some s.beat then t else { t with high := false, start := some s.beat } }
  else s

/-- A pulse ends TP_WIDTH beats after its start, after the sample (R270); a disabled source is held high. -/
def State.tpEnd (s : State) (k : Nat) : State :=
  { s with tp := vmod s.tp k fun t =>
      match t.start with
      | some p => if s.beat ≥ p + s.tpWidth ∨ s.tpEnabled k = false then { t with high := true } else t
      | none => if s.powered then { t with high := true } else t }

/-! ### Safe-input channels -/

def SafeChan.default : SafeChan := ⟨false, false, 0, 0, false, false, 0, 0, false⟩
def SafeInput.default : SafeInput :=
  ⟨SafeChan.default, SafeChan.default, false, false, false, 0, 0, false, 0, false, 0⟩

/-- The input `i`. -/
def State.inp (s : State) (i : Nat) : SafeInput := vget s.si i SafeInput.default

/-- The sample of a channel is masked: it lies in the mask window of the channel's own source (R271). -/
def State.chanMasked (s : State) (i : Nat) (b : Bool) : Bool := s.siTp i b < 4 && s.tpMasked (s.siTp i b)

/-- One sample of a channel (R264 to R272). -/
def State.sampleChan (s : State) (i : Nat) (b : Bool) (c : SafeChan) (on : Bool) : SafeChan :=
  let own := s.siTp i b
  let masked := s.chanMasked i b
  let c1 : SafeChan :=
    if masked then
      { c with sawOff := (c.sawOff && s.tpOffset own != some 1) || !on }
    else
      { c with offRun := if on then 0 else c.offRun + 1, onRun := if on then c.onRun + 1 else 0, prev := on
               stuckDue := c.stuckDue || (own < 4 && s.tpAfter own && !c.sawOff) }
  let others := (upto 4).filter fun k => k != own && s.tpEnabled k
  let c2 := others.foldl (fun (c : SafeChan) k =>
    if s.tpMasked k then
      if on then c else { c with xsOff := c.xsOff ||| BitVec.twoPow 4 k }
    else if s.tpAfter k then
      let followed := c.xsOff.getLsbD k && on
      { c with
        xsOff := c.xsOff &&& ~~~BitVec.twoPow 4 k
        xsPrev := if followed then c.xsPrev ||| BitVec.twoPow 4 k else c.xsPrev &&& ~~~BitVec.twoPow 4 k
        crossDue := c.crossDue || (followed && c.xsPrev.getLsbD k) }
    else c) c1
  { c2 with level := on }

/-- ON-to-OFF changes of a channel at this sample, counted for chatter (R273). -/
def chanFell (masked : Bool) (c : SafeChan) (on : Bool) : Nat := b2n (!masked && c.prev && !on)

/-- One sample of an input (R264 to R273); role OFF is not evaluated.
(DEDUCED, unsafe: notes/assumptions/55.md.) -/
def State.sampleInput (s : State) (i : Nat) (x : SafeInput) (pinA pinB : Bool) : SafeInput :=
  let onA := pinA
  let onB := pinB != s.siAntivalent i
  if s.siRole i = 0 then { x with a := { x.a with level := onA }, b := { x.b with level := onB } }
  else
    let mA := s.chanMasked i false
    let mB := s.chanMasked i true
    let chat0 := if s.siChatWindow i = 0 ∨ s.beat % s.siChatWindow i = 0 then 0 else x.chat
    let chat1 := chat0 + chanFell mA x.a onA + chanFell mB x.b onB
    let both := !mA && !mB
    let disc := if both then (if onA != onB then x.disc + 1 else 0) else x.disc
    { x with
      a := s.sampleChan i false x.a onA
      b := s.sampleChan i true x.b onB
      disc := disc
      discDone := x.discDone && disc != 0
      chat := chat1
      chatDue := x.chatDue || decide (chat0 ≤ s.siChatMax i ∧ s.siChatMax i < chat1)
      unlockArmed := x.unlockArmed || (x.locked && both && !onA && !onB) }

/-! ### Demands, return to ON and locks -/

/-- Source and instance of safe input `i` (R290). -/
def siSource (i : Nat) : Nat := 4 + i / 4
def siInfo (i code : Nat) : Nat := i % 4 * 256 + code

/-- The turn to OFF is a demand with the effect of the input's role (R265, R266). -/
def State.demand (s : State) (i : Nat) : State :=
  let s1 : State := { s with si := vmod s.si i fun x => { x with on := false, demands := satInc 65535 x.demands } }
  let s1 := s1.event 0x1100 i
  if s.siRole i = 1 then s1.addTrig .stopping 0x14
  else if s.siRole i = 2 then
    if s.watch.wstate = .halt then s1.countFault (siSource i) .ft
    else s1.raise (siSource i) .ft (siInfo i 0x06)
  else s1

/-- The run of OFF samples of R266 is complete on a channel. -/
def State.demandDue (s : State) (i : Nat) : Bool :=
  let x := s.inp i
  s.siRole i != 0 && x.on && decide (x.a.offRun > s.siOffFilter i ∨ x.b.offRun > s.siOffFilter i)

/-- (DEDUCED, unsafe: notes/assumptions/14.md.) -/
def State.safeInputDemand (s : State) (i : Nat) : State := if s.demandDue i then s.demand i else s

/-- Both channels have read ON on ON_FILTER consecutive unmasked samples and the input is not LOCKED (R267). -/
def State.onDue (s : State) (i : Nat) : Bool :=
  let x := s.inp i
  s.siRole i != 0 && !x.on && !x.locked &&
    decide (x.a.onRun ≥ s.siOnFilter i ∧ x.b.onRun ≥ s.siOnFilter i)

def State.safeInputOn (s : State) (i : Nat) : State :=
  if s.onDue i then { s with si := vmod s.si i fun x => { x with on := true } } else s

/-- Entry to LOCKED, or a further lock cause (R269): an input that is ON turns OFF, which is a demand. -/
def State.lock (s : State) (i cause : Nat) : State :=
  let wasOn := (s.inp i).on
  let s1 : State := { s with si := vmod s.si i fun x => { x with locked := true, unlockArmed := false, lockCause := cause } }
  if wasOn then s1.demand i else s1

/-- A UC fault of a safe input that locks it (R268 to R273, R290). -/
def State.lockFault (s : State) (i code cause : Nat) : State :=
  (s.raise (siSource i) .uc (siInfo i code)).lock i cause

/-- The discrepancy counter has reached N (R268). -/
def State.discDue (s : State) (i : Nat) : Bool :=
  let x := s.inp i
  s.siRole i != 0 && decide (0 < s.siDiscN i ∧ s.siDiscN i ≤ x.disc) && !x.discDone

def State.discrepancyFault (s : State) (i : Nat) : State :=
  if s.discDue i then
    ({ s with si := vmod s.si i fun x => { x with discDone := true } } : State).lockFault i 0x01 1
  else s

def SafeInput.chan (x : SafeInput) (b : Bool) : SafeChan := if b then x.b else x.a

def SafeInput.modChan (x : SafeInput) (b : Bool) (f : SafeChan → SafeChan) : SafeInput :=
  if b then { x with b := f x.b } else { x with a := f x.a }

def State.stuckOnFault (s : State) (i : Nat) (b : Bool) : State :=
  if ((s.inp i).chan b).stuckDue then
    ({ s with si := vmod s.si i fun x => x.modChan b fun c => { c with stuckDue := false } } : State).lockFault i
      (if b then 0x03 else 0x02) 2
  else s

def State.crossShortFault (s : State) (i : Nat) (b : Bool) : State :=
  if ((s.inp i).chan b).crossDue then
    ({ s with si := vmod s.si i fun x => x.modChan b fun c => { c with crossDue := false } } : State).lockFault i 0x05 4
  else s

def State.chatterFault (s : State) (i : Nat) : State :=
  if (s.inp i).chatDue then
    ({ s with si := vmod s.si i fun x => { x with chatDue := false } } : State).lockFault i 0x04 3
  else s

/-- A wrong level on a test-pulse pin locks every input wired to the source (R272). -/
def State.tpPinFault (s : State) (k : Nat) : State :=
  if (vget s.tp k TestPulse.default).wrongDue then
    let s1 : State := { s with tp := vmod s.tp k fun t => { t with wrongDue := false, faulted := true } }
    let s1 := s1.raise 6 .uc (k * 256 + 0x01)
    ((upto 8).filter fun i => s.siRole i != 0 && (s.siTp i false == k || s.siTp i true == k)).foldl
      (fun (t : State) i => t.lock i 5) s1
  else s

/-- A lock-out reset is pending: an input of role STOP or STO is LOCKED (R269). -/
def State.lockoutPending (s : State) : Bool :=
  (upto 8).any fun i => (s.siRole i == 1 || s.siRole i == 2) && (s.inp i).locked

/-- Every safe input of role STOP or STO is ON (R33, R35). -/
def State.stopInputsOn (s : State) : Bool :=
  (upto 8).all fun i => !(s.siRole i == 1 || s.siRole i == 2) || (s.inp i).on

/-! ### The lock-out reset input (R288, R289) -/

/-- Both channels of every input of role STO read ON at the present sample (R289). -/
def State.stoChannelsOn (s : State) : Bool :=
  (upto 8).all fun i => s.siRole i != 2 || ((s.inp i).a.level && (s.inp i).b.level)

/-- The hold time of a press: from the later channel's turn to ON to the first turn to OFF; 0 where the two were
never ON together (R288).
(DEDUCED, unsafe: notes/assumptions/57.md.) -/
def holdTime (onA onB offA offB : Option Nat) : Nat :=
  match onA, onB, offA, offB with
  | some a, some b, some x, some y => min x y - max a b
  | _, _, _, _ => 0

/-- What a finished press is: none where it is accepted, else the code of event 0x1102 (R288, R341).
(DEDUCED, unsafe: notes/assumptions/57.md.) -/
def State.judgePress (s : State) (l : LrstState) : Option Nat :=
  if l.invalid then some 5
  else
    let h := holdTime l.onA l.onB l.offA l.offB
    if h = 0 ∨ h < s.lrstMin then some 2 else if h > s.lrstMax then some 3 else none

/-- One sample of the two lock-out reset channels (R264, R288). -/
def State.sampleLrst (s : State) (l : LrstState) (a b : Bool) : LrstState :=
  let now := some s.beat
  let diff := if a != b then l.diffRun + 1 else 0
  if !l.pressed && !a && !b then { l with a := a, b := b, diffRun := 0 }
  else
    let onA := if a && l.onA.isNone then now else l.onA
    let onB := if b && l.onB.isNone then now else l.onB
    let invalid := l.invalid || (a && l.offA.isSome) || (b && l.offB.isSome)
    let offA := if !a && onA.isSome && l.offA.isNone then now else l.offA
    let offB := if !b && onB.isSome && l.offB.isNone then now else l.offB
    let tooLong := decide (diff > s.lrstDisc) && !l.discDone
    let l1 := { l with a := a, b := b, pressed := true, onA := onA, onB := onB, offA := offA, offB := offB
                       invalid := invalid, diffRun := diff, discDue := l.discDue || tooLong, discDone := l.discDone || tooLong }
    if a || b then l1
    else
      let verdict := s.judgePress l1
      { l1 with pressed := false, onA := none, onB := none, offA := none, offB := none, invalid := false, discDone := false
                ignoreDue := if l1.discDone then l1.ignoreDue else match verdict with | some k => some k | none => l1.ignoreDue
                acceptAt := if l1.discDone then l1.acceptAt else match verdict with | some _ => l1.acceptAt | none => some (s.beat + 1)
                stoOn := if l1.discDone || verdict.isSome then l1.stoOn else s.stoChannelsOn }

/-- An ignored press is flagged and recorded (R288, R341). -/
def State.lrstIgnored (s : State) : State :=
  match s.lrst.ignoreDue with
  | none => s
  | some k =>
    ({ s with lrst := { s.lrst with ignoreDue := none
                                    fShort := s.lrst.fShort || k == 2
                                    fLong := s.lrst.fLong || k == 3
                                    fInvalid := s.lrst.fInvalid || k == 5 } } : State).event 0x1102 k

/-- The lock-out reset channels differed for more than DISC_BEATS (R288). -/
def State.lrstDiscrepancy (s : State) : State :=
  if s.lrst.discDue then
    ({ s with lrst := { s.lrst with discDue := false, fDisc := true } } : State).raise 11 .uc 0x03
  else s

/-- Step 1 of R289: every input whose UNLOCK_ARMED bit is set is unlocked and recorded. -/
def State.unlockInputs (s : State) : State :=
  (upto 8).foldl (fun (t : State) i =>
    if (t.inp i).locked && (t.inp i).unlockArmed then
      ({ t with si := vmod t.si i fun x => { x with locked := false, unlockArmed := false, lockCause := 0 } } : State).event 0x1101 i
    else t) s

/-- Inputs LOCKED with UNLOCK_ARMED set. -/
def State.unlockable (s : State) : Bool := (upto 8).any fun i => (s.inp i).locked && (s.inp i).unlockArmed

/-- An accepted press takes effect outside HALT, or is refused in HALT: it unlocks, counts and is flagged (R289). -/
def State.lrstTake (s : State) (refused : Bool) : State :=
  let s1 : State := { s with lrst := { s.lrst with acceptAt := none, fAccepted := true, count := satInc 65535 s.lrst.count
                                                   fRefused := s.lrst.fRefused || refused } }
  (s1.unlockInputs).event 0x1102 (if refused then 4 else 1)

/-- A lock-out reset takes effect in the present beat (R288).
(DEDUCED, unsafe: notes/assumptions/57.md.) -/
def State.lrstDue (s : State) : Bool :=
  match s.lrst.acceptAt with
  | some b => decide (b ≤ s.beat)
  | none => false

end Sys2Proof.Machine
end

