-- ==== Sys2Proof/Machine/Geometry.lean ====
section
/-!
DEFINITION. Geometry of the scene grid (spec/02_scene_grid.md, R51, R55, R56, R59, R62): binary32 arithmetic, the
inverse camera model, rotation by the heading, polygons and claim footprints. Positions are exact rationals in mm.
-/
namespace Sys2Proof.Machine

/-! ### IEEE binary32 values as rationals (R56) -/

/-- 2 to an integer power. -/
def pow2 (e : Int) : Rat := if 0 ≤ e then (2 ^ e.toNat : Nat) else 1 / ((2 ^ (-e).toNat : Nat) : Rat)

/-- The value of a finite binary32 encoding. -/
def f32 (n : Nat) : Rat :=
  let ex := bits n 23 8
  let fr := bits n 0 23
  let mag : Rat := if ex = 0 then (fr : Rat) * pow2 (-149) else ((2 ^ 23 + fr : Nat) : Rat) * pow2 ((ex : Int) - 150)
  if bitAt n 31 then -mag else mag

/-- A finite binary32 encoding. -/
def f32Finite (n : Nat) : Bool := bits n 23 8 != 255

/-- The nearest integer, ties to even. -/
def nearestEven (q : Rat) : Int :=
  let f := q.floor
  let r := q - f
  if r < 1 / 2 then f else if 1 / 2 < r then f + 1 else if f % 2 = 0 then f else f + 1

/-- The binary32 exponent of a positive rational: the largest e ≥ −149 with q < 2^(e + 24). -/
def f32Exp (q : Rat) : Int := max (-149) ((Nat.log2 q.num.natAbs : Int) - Nat.log2 q.den - 24)

/-- A rational rounded to binary32, to nearest even; the range is not bounded above.
(DESIGN CHOICE, unsafe: notes/assumptions/18.md.) -/
def rnd32 (q : Rat) : Rat :=
  if q = 0 then 0
  else
    let e := f32Exp (if q < 0 then -q else q)
    let e := if (if q < 0 then -q else q) < pow2 (e + 24) then e else e + 1
    (nearestEven (q / pow2 e) : Rat) * pow2 e

def fadd (a b : Rat) : Rat := rnd32 (a + b)
def fsub (a b : Rat) : Rat := rnd32 (a - b)
def fmul (a b : Rat) : Rat := rnd32 (a * b)
def fdiv (a b : Rat) : Rat := rnd32 (a / b)

/-! ### Camera models (R56) -/

/-- A camera model. -/
structure CamModel where
  fx : Rat
  fy : Rat
  cx : Rat
  cy : Rat
  k1 : Rat
  k2 : Rat
  k3 : Rat
  p1 : Rat
  p2 : Rat
  qw : Rat
  qx : Rat
  qy : Rat
  qz : Rat
  tx : Rat
  ty : Rat
  tz : Rat
  width : Nat
  height : Nat
  maxRange : Nat
  deriving DecidableEq, Repr

/-- The model of a camera ID in the running image. -/
def State.camModel (s : State) (cam : Nat) : Option CamModel :=
  (s.camOff cam).map fun o =>
    let g := fun k => f32 (s.camU (o + 4 * k))
    ⟨g 0, g 1, g 2, g 3, g 4, g 5, g 6, g 7, g 8, g 9, g 10, g 11, g 12, g 13, g 14, g 15,
     bits (s.camU (o + 0x40)) 0 16, bits (s.camU (o + 0x40)) 16 16, s.camU (o + 0x48)⟩

/-- One step of the inversion of the distortion (R56), in binary32. -/
def CamModel.invStep (m : CamModel) (xd yd : Rat) (p : Rat × Rat) : Rat × Rat :=
  let (x, y) := p
  let r2 := fadd (fmul x x) (fmul y y)
  let r4 := fmul r2 r2
  let r6 := fmul r4 r2
  let den := fadd (fadd (fadd 1 (fmul m.k1 r2)) (fmul m.k2 r4)) (fmul m.k3 r6)
  let tx := fadd (fmul (fmul (fmul 2 m.p1) x) y) (fmul m.p2 (fadd r2 (fmul 2 (fmul x x))))
  let ty := fadd (fmul m.p1 (fadd r2 (fmul 2 (fmul y y)))) (fmul (fmul (fmul 2 m.p2) x) y)
  (fdiv (fsub xd tx) den, fdiv (fsub yd ty) den)

/-- The undistorted image point of a pixel position: exactly five steps from the distorted one (R56). -/
def CamModel.undistort (m : CamModel) (u v : Rat) : Rat × Rat :=
  let xd := fdiv (fsub u m.cx) m.fx
  let yd := fdiv (fsub v m.cy) m.fy
  let f := m.invStep xd yd
  f (f (f (f (f (xd, yd)))))

/-- The ray through a pixel position, in the machine frame (R51, R56). -/
def CamModel.ray (m : CamModel) (u v : Rat) : Rat × Rat × Rat :=
  let (x, y) := m.undistort u v
  let w := m.qw; let a := m.qx; let b := m.qy; let c := m.qz
  ((1 - 2 * (b * b + c * c)) * x + 2 * (a * b - w * c) * y + 2 * (a * c + w * b),
   2 * (a * b + w * c) * x + (1 - 2 * (a * a + c * c)) * y + 2 * (b * c - w * a),
   2 * (a * c - w * b) * x + 2 * (b * c + w * a) * y + (1 - 2 * (a * a + b * b)))

/-- Where the ray through a pixel position meets z = 0 in front of the camera, from the camera's ground point.
(DESIGN CHOICE, unsafe: notes/assumptions/18.md.) -/
def CamModel.ground (m : CamModel) (u v : Rat) : Option (Rat × Rat) :=
  let (dx, dy, dz) := m.ray u v
  if dz < 0 then some (dx * (m.tz / -dz), dy * (m.tz / -dz)) else none

/-- The ground distance of a vector (R55). -/
def groundDist (p : Rat × Rat) : Rat := Config.sqrtMm (p.1 * p.1 + p.2 * p.2)

/-- `w` lies between the azimuths of `l` (left) and `r` (right), or on one of them (R55). -/
def between (l r w : Rat × Rat) : Bool :=
  decide (0 ≤ r.1 * w.2 - r.2 * w.1 ∧ 0 ≤ w.1 * l.2 - w.2 * l.1 ∧ 0 ≤ w.1 * (l.1 + r.1) + w.2 * (l.2 + r.2))

/-! ### Heading (R51, R59, R62) -/

/-- The cosine of a heading in units of 2⁻³³ turn; exact at the quarter turns.
(DESIGN CHOICE, unsafe: notes/assumptions/18.md.) -/
def cosT (n : Nat) : Rat :=
  let n := n % 2 ^ 33
  if n = 0 then 1 else if n = 2 ^ 31 then 0 else if n = 2 ^ 32 then -1 else if n = 3 * 2 ^ 31 then 0 else Config.cosTurn n

/-- The sine of a heading in units of 2⁻³³ turn; exact at the quarter turns.
(DESIGN CHOICE, unsafe: notes/assumptions/18.md.) -/
def sinT (n : Nat) : Rat :=
  let n := n % 2 ^ 33
  if n = 0 then 0 else if n = 2 ^ 31 then 1 else if n = 2 ^ 32 then 0 else if n = 3 * 2 ^ 31 then -1 else Config.sinTurn n

/-- A vector of grid axes turned into machine axes: x forward, y left (R51).
(DESIGN CHOICE, unsafe: notes/assumptions/18.md.) -/
def toMachine (psi : Nat) (p : Rat × Rat) : Rat × Rat :=
  (cosT (2 * psi) * p.1 + sinT (2 * psi) * p.2, cosT (2 * psi) * p.2 - sinT (2 * psi) * p.1)

/-! ### Polygons (R62) -/

/-- Twice the signed area of the triangle a, b, p. -/
def cross3 (a b p : Rat × Rat) : Rat := (b.1 - a.1) * (p.2 - a.2) - (b.2 - a.2) * (p.1 - a.1)

/-- `p` lies on the segment from `a` to `b`. -/
def onEdge (p a b : Rat × Rat) : Bool :=
  decide (cross3 a b p = 0 ∧ min a.1 b.1 ≤ p.1 ∧ p.1 ≤ max a.1 b.1 ∧ min a.2 b.2 ≤ p.2 ∧ p.2 ≤ max a.2 b.2)

/-- The edge from `a` to `b` crosses the half line from `p` along x. -/
def crosses (p a b : Rat × Rat) : Bool :=
  (decide (a.2 ≤ p.2) != decide (b.2 ≤ p.2)) && (decide (0 < cross3 a b p) == decide (a.2 < b.2))

/-- The edges of a closed polygon. -/
def edgesOf (vs : List (Rat × Rat)) : List ((Rat × Rat) × (Rat × Rat)) :=
  match vs with
  | [] => []
  | v :: _ => vs.zip (vs.drop 1 ++ [v])

/-- `p` lies inside the polygon or on an edge (R62). -/
def inPolygon (vs : List (Rat × Rat)) (p : Rat × Rat) : Bool :=
  (edgesOf vs).any (fun e => onEdge p e.1 e.2) || ((edgesOf vs).filter (fun e => crosses p e.1 e.2)).length % 2 == 1

end Sys2Proof.Machine
end

