-- ==== Sys2Proof/Machine/ImagePlan.lean ====
section
/-!
DEFINITION. The sections that lay out the work: STRUCTURE (R161, R184, R374, R375), TIMEPLAN (R217), GRAPHS (R127 to
R135), POWER (R218), ALTPLACE (R184). Every accessor takes the body of its section, so that the loader reads a
candidate image with the same accessors as the running machine.
-/
namespace Sys2Proof.Machine

/-! ### GRAPHS (0x04): graph records (R127, R128) -/

def graphCount (b : List Byte) : Nat := u16 b 0
def descTotal (b : List Byte) : Nat := u32 b 4
def descOffset (b : List Byte) : Nat := u32 b 8
def graphOff (g : Nat) : Nat := 0x10 + 64 * g
def gId (b : List Byte) (g : Nat) : Nat := u8 b (graphOff g)
/-- 0 SAFETY, 1 CHECK, 2 OPTIONAL, 3 TEST. -/
def gClass (b : List Byte) (g : Nat) : Nat := u8 b (graphOff g + 0x01)
/-- 0 SINGLE, 1 DUAL, 2 DUAL_ENV. -/
def gRClass (b : List Byte) (g : Nat) : Nat := u8 b (graphOff g + 0x02)
def gClock (b : List Byte) (g : Nat) : Nat := u8 b (graphOff g + 0x03)
def gFirst (b : List Byte) (g : Nat) : Nat := u32 b (graphOff g + 0x04)
def gDescs (b : List Byte) (g : Nat) : Nat := u16 b (graphOff g + 0x08)
def gTensors (b : List Byte) (g : Nat) : Nat := u16 b (graphOff g + 0x0A)
def gTensorOff (b : List Byte) (g : Nat) : Nat := u32 b (graphOff g + 0x0C)
def gEngSram (b : List Byte) (g : Nat) : Nat := u32 b (graphOff g + 0x10)
def gCoreSram (b : List Byte) (g : Nat) : Nat := u32 b (graphOff g + 0x14)
def gGddrBytes (b : List Byte) (g : Nat) : Nat := u64 b (graphOff g + 0x18)
def gSlots (b : List Byte) (g : Nat) : Nat := u16 b (graphOff g + 0x20)
def gCores (b : List Byte) (g : Nat) : Nat := u16 b (graphOff g + 0x22)
def gBeats (b : List Byte) (g : Nat) : Nat := u32 b (graphOff g + 0x24)
def gEnergy (b : List Byte) (g : Nat) : Nat := u32 b (graphOff g + 0x28)
def gNocKib (b : List Byte) (g : Nat) : Nat := u32 b (graphOff g + 0x2C)
def gGddrKib (b : List Byte) (g : Nat) : Nat := u32 b (graphOff g + 0x30)
def gCtx (b : List Byte) (g : Nat) : Nat := u8 b (graphOff g + 0x34)
/-- Copies of a graph (R158). -/
def gCopies (b : List Byte) (g : Nat) : Nat := if gRClass b g = 0 then 1 else 2

/-! ### GRAPHS: descriptors (R135 to R149) -/

/-- The offset of descriptor `k` of graph `g`. -/
def descOff (b : List Byte) (g k : Nat) : Nat := descOffset b + 64 * (gFirst b g + k)
def dOp (b : List Byte) (g k : Nat) : Nat := u8 b (descOff b g k)
def dFlags (b : List Byte) (g k : Nat) : Nat := u8 b (descOff b g k + 1)
def dRound (b : List Byte) (g k : Nat) : Nat := bits (dFlags b g k) 2 2
def dEnv (b : List Byte) (g k : Nat) : Bool := bitAt (dFlags b g k) 4
def dSplit (b : List Byte) (g k : Nat) : Bool := bitAt (dFlags b g k) 5
def dEngine (b : List Byte) (g k : Nat) : Nat := bits (dFlags b g k) 6 2
def dRedund (b : List Byte) (g k : Nat) : Nat := u8 b (descOff b g k + 3)
def dDecision (b : List Byte) (g k : Nat) : Bool := bitAt (dRedund b g k) 2
/-- IN0, IN1, IN2 for `i` = 0, 1, 2. -/
def dIn (b : List Byte) (g k i : Nat) : Nat := u16 b (descOff b g k + 4 + 2 * i)
def dOut (b : List Byte) (g k : Nat) : Nat := u16 b (descOff b g k + 0x0A)
def dOut1 (b : List Byte) (g k : Nat) : Nat := u16 b (descOff b g k + 0x0C)
def dCost (b : List Byte) (g k : Nat) : Nat := u16 b (descOff b g k + 0x0E)
/-- Operator byte, half word and word at an offset within the descriptor (R142 to R149). -/
def dB (b : List Byte) (g k o : Nat) : Nat := u8 b (descOff b g k + o)
def dH (b : List Byte) (g k o : Nat) : Nat := u16 b (descOff b g k + o)
def dW (b : List Byte) (g k o : Nat) : Nat := u32 b (descOff b g k + o)

/-- No tensor (R136). -/
def noTensor : Nat := 0xFFFF

/-- EXTRA of layout D (R146). -/
def dExtra (b : List Byte) (g k : Nat) : List Nat := (upto 6).map fun i => dH b g k (0x24 + 2 * i)

/-- The tensors that a descriptor reads (R135, R144, R146). -/
def dInputs (b : List Byte) (g k : Nat) : List Nat :=
  (((upto 3).map fun i => dIn b g k i)
    ++ (if dOp b g k = 0x20 then dExtra b g k else [])
    ++ (if dOp b g k = 0x06 then [dH b g k 0x28] else [])).filter (· != noTensor)

/-- The tensors that a descriptor writes (R135, R146). -/
def dOutputs (b : List Byte) (g k : Nat) : List Nat :=
  ([dOut b g k, dOut1 b g k] ++ (if dOp b g k = 0x21 then dExtra b g k else [])).filter (· != noTensor)

/-- The descriptors that produce an input of a descriptor (R93, R129). -/
def producers (b : List Byte) (g k : Nat) : List Nat :=
  (upto k).filter fun j => (dOutputs b g j).any fun t => (dInputs b g k).contains t

/-! ### GRAPHS: tensors (R131, R132) -/

def tensorOff (b : List Byte) (g t : Nat) : Nat := gTensorOff b g + 32 * t
def tFormat (b : List Byte) (g t : Nat) : Nat := u8 b (tensorOff b g t)
def tRank (b : List Byte) (g t : Nat) : Nat := u8 b (tensorOff b g t + 1)
/-- 0 engine SRAM, 1 core SRAM, 2 GDDR6, 3 STREAM. -/
def tLoc (b : List Byte) (g t : Nat) : Nat := u8 b (tensorOff b g t + 2)
def tConst (b : List Byte) (g t : Nat) : Bool := bitAt (u8 b (tensorOff b g t + 3)) 0
def tDim (b : List Byte) (g t i : Nat) : Nat := u16 b (tensorOff b g t + 4 + 2 * i)
def tOffset (b : List Byte) (g t : Nat) : Nat := u32 b (tensorOff b g t + 0x0C)
def tScale (b : List Byte) (g t : Nat) : Nat := u32 b (tensorOff b g t + 0x10)
def tZp (b : List Byte) (g t : Nat) : Nat := u8 b (tensorOff b g t + 0x14)
def tPlace (b : List Byte) (g t : Nat) : Nat := u8 b (tensorOff b g t + 0x15)
def tCore (b : List Byte) (g t : Nat) : Nat := bits (tPlace b g t) 0 3
def tEngine (b : List Byte) (g t : Nat) : Nat := bits (tPlace b g t) 3 2
def tBytes (b : List Byte) (g t : Nat) : Nat := u32 b (tensorOff b g t + 0x18)
def tWeight (b : List Byte) (g t : Nat) : Nat := u32 b (tensorOff b g t + 0x1C)
/-- The number of elements. -/
def tElems (b : List Byte) (g t : Nat) : Nat := tDim b g t 0 * tDim b g t 1 * tDim b g t 2 * tDim b g t 3

/-- Storage of `n` elements whose innermost dimension is a multiple of 32 where the format is MX (R107, R132). -/
def formatBytes (f n : Nat) : Nat :=
  if f ∈ [0x00, 0x01, 0x03, 0x04] then n
  else if f = 0x02 then (n + 1) / 2
  else if f ∈ [0x05, 0x06, 0x07] then n + n / 32
  else if f ∈ [0x08, 0x09, 0x0D, 0x0C] then 2 * n
  else 4 * n

/-- BYTES as computed: storage rounded up to 64 (R131). -/
def tComputed (b : List Byte) (g t : Nat) : Nat := (formatBytes (tFormat b g t) (tElems b g t) + 63) / 64 * 64

/-- The byte range that a tensor takes at its location: GDDR6 offsets count in 32-byte units (R131). -/
def tStart (b : List Byte) (g t : Nat) : Nat := tOffset b g t * (if tLoc b g t = 2 then 32 else 1)

/-! ### Placement within a copy (R137, R138) -/

/-- The tensor whose PLACE places a descriptor: OUT, or IN0 where it has none; none for an EMIT without input. -/
def dAnchor (b : List Byte) (g k : Nat) : Option Nat :=
  if dOut b g k != noTensor then some (dOut b g k)
  else if dIn b g k 0 != noTensor then some (dIn b g k 0) else none

/-- The core indices of the copy on which a descriptor runs: one, or those of its CORE_MASK for a BARRIER. -/
def dIndices (b : List Byte) (g k : Nat) : List Nat :=
  if dOp b g k = 0x54 then (upto 8).filter fun i => bitAt (dH b g k 0x10) i
  else match dAnchor b g k with
    | some t => [if tLoc b g t = 2 then 0 else tCore b g t]
    | none => [0]

/-! ### STRUCTURE (0x02) (R161, R184, R374, R375) -/

def stochSeed (b : List Byte) : Nat := u32 b 0x00
def placeCount (b : List Byte) : Nat := u16 b 0x04
/-- (DEDUCED, unsafe: notes/assumptions/67.md.) -/
def ctrlMode (b : List Byte) : Nat := u8 b 0x20
def goldenEnable (b : List Byte) : Nat := u8 b 0x21
def goldenGraph (b : List Byte) : Nat := u8 b 0x22
def goldenCores (b : List Byte) : Nat := u32 b 0x24
def goldenBeats (b : List Byte) : Nat := u16 b 0x28
def claimMap (b : List Byte) (c : Nat) : Nat := u8 b (0x540 + c)
def floorGraph (b : List Byte) : Nat := u8 b 0x580
def floorCtx0 (b : List Byte) : Nat := u8 b 0x581
def floorCtx1 (b : List Byte) : Nat := u8 b 0x582
def placeOff (g : Nat) : Nat := 0x590 + 32 * g
def pFlags (b : List Byte) (g : Nat) : Nat := u8 b (placeOff g + 1)
def pSameQ (b : List Byte) (g : Nat) : Bool := bitAt (pFlags b g) 0
/-- WRITER: the copy whose GRID_WRITE changes the grid. -/
def pWriter (b : List Byte) (g : Nat) : Nat := b2n (bitAt (pFlags b g) 1)
def pGolden (b : List Byte) (g : Nat) : Bool := bitAt (pFlags b g) 2
/-- COPY0_CORE[i] and COPY1_CORE[i]. -/
def pCore (b : List Byte) (g copy i : Nat) : Nat := u8 b (placeOff g + 2 + 8 * copy + i)

/-! ### TIMEPLAN (0x03) (R217) -/

def frameLen (b : List Byte) : Nat := u32 b 0x00
def tableCount (b : List Byte) : Nat := u16 b 0x04
def setCount (b : List Byte) : Nat := u8 b 0x06
def entryTotal (b : List Byte) : Nat := u32 b 0x08
def runCount (b : List Byte) : Nat := u16 b 0x0C
def fsOffset (b : List Byte) (n : Nat) : Nat := u32 b (0x10 + 8 * n)
def fsWidth (b : List Byte) (n : Nat) : Nat := u8 b (0x14 + 8 * n)
def fsFlags (b : List Byte) (n : Nat) : Nat := u8 b (0x15 + 8 * n)
def fsEnable (b : List Byte) (n : Nat) : Bool := bitAt (fsFlags b n) 0
/-- The table index that a set gives a core; 0xFFFF for a core that holds no work (R198). -/
def setTable (b : List Byte) (set n : Nat) : Nat := u16 b (0x30 + 64 * set + 2 * n)
def dirOff (b : List Byte) (t : Nat) : Nat := 0x30 + 64 * setCount b + 8 * t
def dirFirst (b : List Byte) (t : Nat) : Nat := u32 b (dirOff b t)
def dirCount (b : List Byte) (t : Nat) : Nat := u16 b (dirOff b t + 4)
def slotOff (b : List Byte) (e : Nat) : Nat := 0x30 + 64 * setCount b + 8 * tableCount b + 8 * e
def slotStart (b : List Byte) (e : Nat) : Nat := u32 b (slotOff b e)
def slotWord (b : List Byte) (e : Nat) : Nat := u32 b (slotOff b e + 4)
def slotLength (b : List Byte) (e : Nat) : Nat := bits (slotWord b e) 0 21
def slotClasses (b : List Byte) (e : Nat) : Nat := bits (slotWord b e) 21 4
def slotClock (b : List Byte) (e : Nat) : Nat := bits (slotWord b e) 25 2
/-- 0 ACTIVE, 1 RETAIN, 2 OFF. -/
def slotPower (b : List Byte) (e : Nat) : Nat := bits (slotWord b e) 27 2
def runOff (b : List Byte) (g : Nat) : Nat :=
  0x30 + 64 * setCount b + 8 * tableCount b + 8 * entryTotal b + 8 * g
def runCover (b : List Byte) (g : Nat) : Nat := u16 b (runOff b g + 2)
def runEarliest (b : List Byte) (g : Nat) : Nat := u32 b (runOff b g + 4)

/-- The entries of a table that hold a beat of the frame, by their place in the table. -/
def entryAt (b : List Byte) (t fb : Nat) : Option Nat :=
  (upto (dirCount b t)).find? fun i =>
    let e := dirFirst b t + i
    decide (slotStart b e ≤ fb ∧ fb < slotStart b e + slotLength b e)

/-! ### POWER (0x0B): budget and costs (R218); 0x10 on, the cost entries -/

def budgetMw (b : List Byte) : Nat := u32 b 0x00
def reserveUj (b : List Byte) : Nat := u16 b 0x04
def staticUj (b : List Byte) : Nat := u16 b 0x06
def capBeats (b : List Byte) : Nat := u16 b 0x08
def scaleMaxQ (b : List Byte) : Nat := u16 b 0x0A
def costCount (b : List Byte) : Nat := u16 b 0x0C
def coreDraw (b : List Byte) : Nat := u8 b 0x0E
/-- E_UOP in pJ and E_DESC in nJ of a cost entry. -/
def costUop (b : List Byte) (c : Nat) : Nat := u32 b (0x10 + 8 * c)
def costDesc (b : List Byte) (c : Nat) : Nat := u32 b (0x14 + 8 * c)

/-! ### ALTPLACE (0x0E) (R184) -/

def altCount (b : List Byte) : Nat := u8 b 0x00
/-- The offsets of the entries, in order. -/
def altOffs (b : List Byte) : Nat → Nat → List Nat
  | 0, _ => []
  | n + 1, o => o :: altOffs b n (o + 16 + 8 * u16 b (o + 2))
def altEntries (b : List Byte) : List Nat := altOffs b (altCount b) 0x10
def altCore (b : List Byte) (o : Nat) : Nat := u8 b o
def altEmpty (b : List Byte) (o : Nat) : Bool := bitAt (u8 b (o + 1)) 0
def altMoves (b : List Byte) (o : Nat) : Nat := u16 b (o + 2)
def altSet (b : List Byte) (o : Nat) : Nat := u16 b (o + 4)
/-- One move: graph, copy, core index, new core, constant source. -/
structure AltMove where
  graph : Nat
  copy : Nat
  index : Nat
  core : Nat
  src : Nat
  deriving DecidableEq, Repr
def altMove (b : List Byte) (o i : Nat) : AltMove :=
  let m := o + 16 + 8 * i
  ⟨u8 b m, u8 b (m + 1), u8 b (m + 2), u8 b (m + 3), u8 b (m + 4)⟩
def altMoveList (b : List Byte) (o : Nat) : List AltMove := (upto (altMoves b o)).map fun i => altMove b o i
/-- The entry for the loss of a core. -/
def altFor (b : List Byte) (n : Nat) : Option Nat := (altEntries b).find? fun o => altCore b o == n

/-- The core of a copy's core index in the base placement or under an alternate entry (R182). -/
def placedOn (str alt : List Byte) (entry : Option Nat) (g copy i : Nat) : Nat :=
  match entry with
  | some o =>
    match (altMoveList alt o).find? fun m => m.graph == g && m.copy == copy && m.index == i with
    | some m => m.core
    | none => pCore str g copy i
  | none => pCore str g copy i

/-! ### Sections of the running image -/

def State.strB (s : State) : List Byte := s.sec 2
def State.planB (s : State) : List Byte := s.sec 3
def State.graB (s : State) : List Byte := s.sec 4
def State.powB (s : State) : List Byte := s.sec 0xB
def State.altB (s : State) : List Byte := s.sec 0xE

/-- FRAME_BEATS of the running image (R193). -/
def State.frameBeats (s : State) : Nat := frameLen s.planB

/-- The alternate entry in use. -/
def State.altEntry (s : State) : Option Nat := if s.alt.active then altFor s.altB s.alt.lostCore else none

/-- The core on which a core index of a copy runs now. -/
def State.coreOf (s : State) (g copy i : Nat) : Nat := placedOn s.strB s.altB s.altEntry g copy i

/-- The image runs the golden-frame test (R186).
(DEDUCED, unsafe: notes/assumptions/36.md.) -/
def State.goldenOn (s : State) : Bool := s.img.isSome && goldenEnable s.strB == 1

/-- A graph is the golden graph. -/
def State.isGolden (s : State) (g : Nat) : Bool := s.goldenOn && goldenGraph s.strB == g

/-- A graph is the floor network, which never runs on a core (R376). -/
def State.isFloorGraph (s : State) (g : Nat) : Bool := s.img.isSome && floorGraph s.strB == g

end Sys2Proof.Machine
end

