-- ==== Sys2Proof/Machine/Cores.lean ====
section
/-!
DEFINITION. Cores (spec/03_engines_numerics.md R97 to R100, R119 to R121, spec/06_time_plan_budget.md R196 to R198),
their loss and the alternate placements (spec/05_redundant_execution.md R181 to R183), the regulator's target (spec/14
R447), GDDR6 and mesh errors (R91, R103, R104), the controller pair (R173 to R176).
-/
namespace Sys2Proof.Machine

def CoreState.default : CoreState := ⟨.off, none, 0, 0, 0, 0, false, 0, 0, 0, false, none, [], []⟩
def EngState.default : EngState := ⟨0, 0, 0, 0, 0, 0, 0, 0, [], [], []⟩

def State.core (s : State) (n : Nat) : CoreState := vget s.cores n CoreState.default
def State.modCore (s : State) (n : Nat) (f : CoreState → CoreState) : State := { s with cores := vmod s.cores n f }
def State.eng (s : State) (g : Nat) : EngState := vget s.engs g EngState.default
def State.modEng (s : State) (g : Nat) (f : EngState → EngState) : State := { s with engs := vmod s.engs g f }

/-- The engines of a core, rewritten. -/
def State.modCoreEngs (s : State) (n : Nat) (f : EngState → EngState) : State :=
  { s with engs := vmapIdx (fun g e => if g / 4 = n then f e else e) s.engs }

/-- The mask of `CORES_RETIRED` (R123). -/
def State.retiredMask (s : State) : Nat := ofBits (s.cores.toList.map (·.retired))

/-- Frame ticks run (R193). -/
def State.ticksRun (s : State) : Bool := s.sched.origin.any (· ≤ s.beat) && s.img.isSome

/-! ### Power states (R99) -/

/-- Wake times in beats (R99). -/
def wakeBeats : CorePwr → Nat
  | .off => 16
  | .retain => 6
  | _ => 0

/-- A core takes the power state that its plan asks for (R99, R196): OFF loses its memories, ACTIVE starts a wake. A
retired core stays OFF. -/
def CoreState.setPower (c : CoreState) (beat ps : Nat) : CoreState :=
  if c.retired then { c with pwr := .off, wakeEnd := none }
  else match ps with
    | 0 => if c.pwr = .off ∨ c.pwr = .retain then { c with pwr := .waking, wakeEnd := some (beat + wakeBeats c.pwr) } else c
    | 1 => if c.pwr = .off then c else { c with pwr := .retain, wakeEnd := none }
    | _ => { c with pwr := .off, wakeEnd := none, sram := [] }

/-- The power state of a core and of its engines' memories: OFF wipes them (R99). -/
def State.setCorePower (s : State) (n ps : Nat) : State :=
  let s1 := s.modCore n (·.setPower s.beat ps)
  if (s1.core n).pwr = .off then s1.modCoreEngs n fun e => { e with sram := [] } else s1

/-- A waking core whose time is over is ACTIVE (R99). -/
def State.coreWakeDone (s : State) (n : Nat) : State :=
  match (s.core n).wakeEnd with
  | some b => if b ≤ s.beat ∧ (s.core n).pwr = .waking then s.modCore n fun c => { c with pwr := .active, wakeEnd := none } else s
  | none => s

/-! ### Clock points and the VDD_CORE target (R97, R98, R447) -/

/-- The offset of the regulator record in POWER (R458). -/
def regOff (b : List Byte) : Nat := 0x10 + 8 * costCount b
/-- VOLT[p] in mV. -/
def voltOf (b : List Byte) (p : Nat) : Nat := u16 b (regOff b + 4 + 2 * p)
def avsLead (b : List Byte) : Nat := u8 b (regOff b + 0x0D)

/-- The VDD_CORE monitor's reading. -/
def State.coreMv (s : State) : Nat := vget s.pwr.mv 0 0

/-- A core whose window asks for a faster point waits for its voltage (R447); a slower point takes effect at once
(R98). The smaller number is the faster point. -/
def State.clockCore (s : State) (n : Nat) : State :=
  let c := s.core n
  if c.wantClk = c.clk then s
  else if c.clk < c.wantClk ∨ voltOf s.powB c.wantClk ≤ s.coreMv then s.modCore n fun c => { c with clk := c.wantClk }
  else if s.pwr.hold then s
  else ({ s with pwr := { s.pwr with hold := true } } : State).event 0xA104 (n + 256 * c.wantClk)

/-- A core keeps its slower point (R447). -/
def State.anyHold (s : State) : Bool :=
  (upto 32).any fun n => (s.core n).pwr == .active && decide ((s.core n).wantClk < (s.core n).clk)

/-! ### Windows (R196 to R198, R214) -/

/-- What a core's plan says at a beat of the frame: none where the core holds no work, some none between windows. -/
def State.windowAt (s : State) (n fb : Nat) : Option (Option Nat) :=
  let t := setTable s.planB s.sched.set n
  if t = 0xFFFF then none else some (entryAt s.planB t fb)

/-- The slot entry that a table index and a place in it name. -/
def State.slotEntry (s : State) (n i : Nat) : Nat := dirFirst s.planB (setTable s.planB s.sched.set n) + i

/-- A window that covers the present beat sets the core's classes, clock point and power state (R196); a core without
work is OFF for the whole frame (R198). -/
def State.windowOpen (s : State) (n : Nat) : State :=
  if s.ticksRun ∧ s.pwr.mainOn = true then
    match s.windowAt n s.sched.frameBeat with
    | none => (s.setCorePower n 2).modCore n fun c => { c with classes := 0 }
    | some (some i) =>
      let e := s.slotEntry n i
      let s1 := (s.setCorePower n (slotPower s.planB e)).modCore n fun c =>
        { c with classes := if c.retired then 0 else slotClasses s.planB e, slot := i, wantClk := slotClock s.planB e }
      s1.clockCore n
    | some none => s
  else s

/-- Between windows a core is ACTIVE and idle at clock point 2 and takes no new descriptor (R196, R213). -/
def State.windowClose (s : State) (n : Nat) : State :=
  if s.ticksRun ∧ s.pwr.mainOn = true ∧ s.windowAt n s.sched.frameBeat = some none then
    ((s.setCorePower n 0).modCore n fun c => { c with classes := 0, wantClk := 2 }).clockCore n
  else s

/-- Every core at the start of a beat: wakes end, windows open and close (R99, R196), and the hold of R447 follows. -/
def State.windowsBeat (s : State) : State :=
  let s1 := (upto 32).foldl (fun (t : State) n => ((t.coreWakeDone n).windowOpen n).windowClose n) s
  { s1 with pwr := { s1.pwr with hold := s1.pwr.hold && s1.anyHold } }

/-- The fastest point that any core's plan uses ACTIVE in beat `b` of the frame: windows between slots use point 2. -/
def State.pointAt (s : State) (fb : Nat) : Nat :=
  ((upto 32).map fun n =>
    if (s.core n).retired then 2
    else match s.windowAt n (fb % max 1 s.frameBeats) with
      | some (some i) => let e := s.slotEntry n i
                         if slotPower s.planB e = 0 then slotClock s.planB e else 2
      | _ => 2).foldl min 2

/-- The target of R447: the fastest point of beats b to b + AVS_LEAD. -/
def State.avsPoint (s : State) : Nat :=
  ((upto (avsLead s.powB + 1)).map fun i => s.pointAt (s.sched.frameBeat + i)).foldl min 2

/-- The VDD_CORE target follows R447; a change starts the widened window of R445.
(DEDUCED, unsafe: notes/assumptions/43.md.) -/
def State.avsTargetChange (s : State) : State :=
  if s.ticksRun ∧ s.pwr.mainOn = true then
    let p := s.avsPoint
    let v := voltOf s.powB p
    if v = s.pwr.target then { s with pwr := { s.pwr with point := p } }
    else { s with pwr := { s.pwr with point := p, target := v, oldTarget := s.pwr.target, targetBeat := s.beat } }
  else s

/-! ### Loss of a core (R120, R181 to R183) -/

/-- A graph has a copy on a core now. -/
def State.graphOn (s : State) (g n : Nat) : Bool :=
  !s.isFloorGraph g && !s.isGolden g &&
    (upto (gCopies s.graB g)).any fun c => (upto (gCores s.graB g)).any fun i => s.coreOf g c i == n

/-- The graphs of the running image. -/
def State.graphs (s : State) : List Nat := upto (graphCount s.graB)

/-- A run fails: its check counts as not completed (R20, R150, R181). -/
def State.failRun (s : State) (g : Nat) : State :=
  let s1 : State := { s with sched := { s.sched with
    failed := s.sched.failed ||| BitVec.twoPow 64 g
    runs := vmod s.sched.runs g fun r => { r with failed := true } } }
  if gClass s.graB g ≤ 1 then s1.addDoubt 5 else s1

/-- The watch stays in FLOOR until reset (R183). -/
def State.blockUntilReset (s : State) : State :=
  { s with watch := { s.watch with retrustBlocked := true, blockedUntilReset := true } }

/-- What the loss of a core costs (R181 to R183): the runs with a copy on it, and the switch at the next tick or the
block of R183. -/
def State.loseCore (s : State) (n : Nat) : State :=
  let earlier := s.alt.losses != 0
  let s1 := (s.graphs.filter fun g => s.graphOn g n).foldl (fun (t : State) g => t.failRun g) s
  let s1 : State := { s1 with alt := { s1.alt with losses := s1.alt.losses + 1 } }
  if earlier then ({ s1 with alt := { s1.alt with secondLoss := true } } : State).blockUntilReset
  else match altFor s.altB n with
    | some o => if altEmpty s.altB o then s1 else { s1 with alt := { s1.alt with due := some n } }
    | none => if s.img.isSome then ({ s1 with alt := { s1.alt with noAlt := true } } : State).blockUntilReset else s1

/-- RETIRE_CAUSE of a unit code (R119, R124, R187). -/
def retireCause (unit : Nat) : Nat :=
  if unit ≤ 0x06 then 2
  else match unit with
    | 0x10 => 3
    | 0x14 => 5
    | 0x16 => 1
    | 0x17 => 6
    | _ => 4

/-- The lowest engine of a mask. -/
def lowestEngine (m : BitVec 4) : Nat := ((upto 4).find? fun e => m.getLsbD e).getD 0

/-- An uncorrected fault of a core or of engines of it (R119 to R121): UC from source 28 + n, its engines stop, its port
closes to new writes, and it is retired. -/
def State.coreFault (s : State) (n : Nat) (engines : BitVec 4) (unit : Nat) : State :=
  if (s.core n).retired then s
  else
    let e := lowestEngine engines
    let s1 := s.raiseCore (28 + n) .uc (e * 256 + unit) (4 * n + e)
    let s1 := (s1.modCore n fun c =>
      { c with retired := true, cause := retireCause unit, engFault := c.engFault ||| engines, portClosed := true
               offBy := some (s.beat + 2), classes := 0, seq := [] }).modCoreEngs n fun e => { e with inflight := 0, dma := 0 }
    s1.loseCore n

/-- A faulted core is OFF within 2 beats of the detection (R120). -/
def State.coreOff (s : State) (n : Nat) : State :=
  match (s.core n).offBy with
  | some _ => ((s.modCore n fun c => { c with offBy := none }).setCorePower n 2)
  | none => s

/-- The bound of `coreOff`: at the beat in which it ends. -/
def State.coreOffBound (s : State) (n : Nat) : State :=
  match (s.core n).offBy with
  | some b => if b ≤ s.beat then s.coreOff n else s
  | none => s

/-- A correctable SRAM error is counted where it occurred and is a CE (R121). -/
def State.sramCe (s : State) (n : Nat) (e : Option (Fin 4)) : State :=
  match e with
  | some e => (s.modEng (4 * n + e) fun x => { x with ceLocal := satInc 65535 x.ceLocal }).raiseCore (28 + n) .ce
      (e * 256 + 0x04) (4 * n + e)
  | none => (s.modCore n fun c => { c with ceShared := satInc 65535 c.ceShared }).raiseCore (28 + n) .ce 0x10 (4 * n)

/-- A NoC router fault shows at its stop (R119, R126): which of the two checks found it, the spec leaves open.
(DESIGN CHOICE, safe: notes/assumptions/40.md.) -/
def State.routerError (s : State) (n unit : Nat) : State :=
  if unit = 0x14 then
    { s.freed with noc := { s.noc with stop := n, hdrParity := s.noc.hdrParity || s.free 2 == 0, route := s.noc.route || s.free 2 == 1 } }
  else s

/-! ### Alternate placements (R182) -/

/-- A copy moves in the alternate entry in use. -/
def State.moved (s : State) (g c : Nat) : Bool :=
  match s.altEntry with
  | some o => (altMoveList s.altB o).any fun m => m.graph == g && m.copy == c
  | none => false

/-- A moved copy does not run: in its switch frame, and until its constants are complete (R182). -/
def State.moveWaits (s : State) (g : Nat) : Bool :=
  (upto 2).any fun c => (s.alt.switching && s.moved g c) || s.alt.copying.any fun x => x.1 == g && x.2.1 == c

/-- The switch of R182 at a tick: the alternate's tables take effect, and the constants of the moved copies begin
copying. -/
def State.altSwitch (s : State) : State :=
  let s1 : State := { s with alt := { s.alt with switching := false } }
  match s.alt.due with
  | none => s1
  | some n =>
    match altFor s.altB n with
    | none => s1
    | some o =>
      { s1 with
        sched := { s1.sched with set := altSet s.altB o }
        alt := { s1.alt with
          due := none, active := true, switching := true, lostCore := n, switchFrame := s.sched.frame % 65536
          copying := ((altMoveList s.altB o).filter fun m => m.src != 0xFF).map fun m => (m.graph, m.copy, m.index) } }

/-- The bytes of a constant tensor, copied between two cores at its location (R182, R185). -/
def State.copyConst (s : State) (g t src dst : Nat) : State :=
  let n := tBytes s.graB g t
  let a := tOffset s.graB g t
  if tLoc s.graB g t = 1 then s.modCore dst fun c => { c with sram := c.sram.writeN a ((s.core src).sram.readN a n) }
  else if tLoc s.graB g t = 0 then
    let e := tEngine s.graB g t
    s.modEng (4 * dst + e) fun x => { x with sram := x.sram.writeN a ((s.eng (4 * src + e)).sram.readN a n) }
  else s

/-- The constants of one moved core index are in its new core (R182). -/
def State.constantCopyDone (s : State) (g c i : Nat) : State :=
  if (g, c, i) ∈ s.alt.copying then
    match s.altEntry.bind fun o => (altMoveList s.altB o).find? fun m => m.graph == g && m.copy == c && m.index == i with
    | some m =>
      let ts := (upto (gTensors s.graB g)).filter fun t => tConst s.graB g t && tLoc s.graB g t ≤ 1 && tCore s.graB g t == i
      let s1 := ts.foldl (fun (u : State) t => u.copyConst g t m.src m.core) s
      { s1 with alt := { s1.alt with copying := s1.alt.copying.filter (· != (g, c, i)) } }
    | none => s
  else s

/-! ### GDDR6 (R102 to R104) -/

def GddrChan.default : GddrChan := ⟨false, false, 0, 0, 0, 0, 0⟩
def State.modChan (s : State) (c : Nat) (f : GddrChan → GddrChan) : State := { s with gddr := vmod s.gddr c f }

/-- An uncorrectable in-line ECC error at a 32-byte unit (R104): UC from source 68 + c, its address kept, its data
poisoned. The spec gives the source no info value: it is free.
(DESIGN CHOICE, safe: notes/assumptions/25.md.)
(DEDUCED, unsafe: notes/assumptions/39.md.)
(DEDUCED, unsafe: notes/assumptions/41.md.) -/
def State.gddrUe (s : State) (c unit : Nat) : State :=
  let s1 := s.modChan c fun x => { x with ueSeen := true, ueAddr := unit % 2 ^ 29 }
  let s1 : State := { s1 with poison := unit :: s1.poison.filter (· != unit) }
  s1.freed.raise (68 + c) .uc (s1.free (2 ^ 32))

/-- Retries of a link EDC failure (R103): one that succeeds is a CE; the fifth failure of an access is a UC fault.
(DESIGN CHOICE, safe: notes/assumptions/25.md.)
(DEDUCED, unsafe: notes/assumptions/39.md.) -/
def State.gddrEdc (s : State) (c : Nat) (ok : Bool) : State :=
  let s1 := s.freed
  if ok then (s1.modChan c fun x => { x with retryOk := x.retryOk + 1 }).raise (68 + c) .ce (s.free (2 ^ 32))
  else (s1.modChan c fun x => { x with retryFail := x.retryFail + 1, ueSeen := true }).raise (68 + c) .uc (s.free (2 ^ 32))

/-! ### The controller pair (R173 to R176) -/

/-- A lockstep mismatch is fatal, source 20 (R173, R174); in SPLIT it is not raised (R178). The spec gives the source no
info value: it is free.
(DEDUCED, unsafe: notes/assumptions/67.md.) -/
def State.lockstep (s : State) (kind reg cycle : Nat) : State :=
  if s.ctrl.split then s
  else
    let s1 : State := { s with ctrl := { s.ctrl with lockstepOk := false, kind := kind, reg := if kind = 1 then reg else 0, cycle := cycle } }
    s1.freed.raiseAt 20 .ft (s1.free (2 ^ 32)) (.block (blockOf 20)) cycle

/-- A comparator's rails in a beat (R176): what its test lane and its real lanes say. -/
def railsFaulty (r : CmpRails) : Bool := r.test != 2 || r.real == 0 || r.real == 3

/-- The comparators' codes of a beat (R176): a comparator fault is fatal, source 0, its info naming the comparator; the
real lanes' code 10 is a mismatch. -/
def State.comparators (s : State) (r0 r1 : CmpRails) : State :=
  if s.ctrl.split then s
  else
    let s1 := if railsFaulty r0 then s.raise 0 .ft 0 else s
    let s2 := if railsFaulty r1 then s1.raise 0 .ft 1 else s1
    if r0.test == 2 && r1.test == 2 then { s2 with ctrl := { s2.ctrl with passBeats := (s2.ctrl.passBeats + 1) % 2 ^ 32 } } else s2

/-- A corrected TCM error is a CE; an uncorrected one is fatal, source 21 (R175). -/
def State.tcmEcc (s : State) (uncorrected : Bool) (info : Nat) : State :=
  if uncorrected then s.raise 21 .ft info
  else ({ s with ctrl := { s.ctrl with tcmCe := satInc 65535 s.ctrl.tcmCe } } : State).raise 21 .ce info

end Sys2Proof.Machine
end

