-- ==== Sys2Proof/Machine/Numerics.lean ====
section
/-!
DEFINITION. Number formats, requantisation, rounding, special values and envelope arithmetic
(spec/03_engines_numerics.md, R106 to R117).
-/
namespace Sys2Proof.Machine

/-! ### Sticky numeric flags (R125) -/

def flagAccSat : Nat := 0
def flagOutSat : Nat := 1
def flagNan : Nat := 2
def flagInf : Nat := 3
def flagEnvSat : Nat := 4
def flagEnvRsat : Nat := 5
def flagConvNan : Nat := 6
def flagMxScaleNan : Nat := 7

/-- A result with the numbers of the sticky flags that it sets. -/
structure Flagged (α : Type) where
  val : α
  flags : List Nat
  deriving DecidableEq, Repr

/-! ### Rounding (R110) -/

/-- The rounding modes of R110; the loader refuses code 3. -/
inductive RoundMode where
  | nearestEven | stochastic | truncate
  deriving DecidableEq, Repr

/-- One advance of the LFSR with polynomial x³² + x²² + x² + x + 1 (R110).
(DEDUCED, unsafe: notes/assumptions/34.md.) -/
def lfsrNext (r : BitVec 32) : BitVec 32 :=
  let fb := xor (xor (r.getLsbD 31) (r.getLsbD 21)) (xor (r.getLsbD 1) (r.getLsbD 0))
  (r <<< 1) ||| (if fb then 1 else 0)

/-- The seed of engine `g` in frame `f` (R110). -/
def lfsrSeed (stoch f g : Nat) : BitVec 32 :=
  let x : BitVec 32 := BitVec.ofNat 32 stoch ^^^ BitVec.ofNat 32 (f % 65536 * 65536) ^^^ BitVec.ofNat 32 (g * 256) ^^^ 0x5A
  if x = 0 then 1 else x

/-- A value rounded to an integer in a mode; stochastic rounding takes the low 16 bits of the LFSR (R110).
(DEDUCED, unsafe: notes/assumptions/34.md.) -/
def roundTo (m : RoundMode) (r : BitVec 32) (q : Rat) : Int :=
  match m with
  | .nearestEven => nearestEven q
  | .stochastic => (q + ((r.toNat % 65536 : Nat) : Rat) / 65536).floor
  | .truncate => if q < 0 then -((-q).floor) else q.floor

/-- The LFSR after a value has been rounded: it advances once for each value rounded stochastically (R110). -/
def lfsrAfter (m : RoundMode) (r : BitVec 32) : BitVec 32 := if m = .stochastic then lfsrNext r else r

/-! ### Integer formats (R106 to R108, R111) -/

/-- A value held to a range, with a flag where it was outside. -/
def satFlag (lo hi v : Int) (flag : Nat) : Flagged Int := ⟨clampI lo hi v, if v < lo ∨ hi < v then [flag] else []⟩

/-- A multiply-accumulate on an INT32 accumulator, which saturates (R111). -/
def macInt (acc a w : Int) : Flagged Int := satFlag (-(2 ^ 31)) (2 ^ 31 - 1) (acc + a * w) flagAccSat

/-- The integer output formats: INT8, UINT8, INT4 (R106). -/
inductive IntFmt where
  | int8 | uint8 | int4
  deriving DecidableEq, Repr

def IntFmt.lo : IntFmt → Int
  | .int8 => -128 | .uint8 => 0 | .int4 => -8
def IntFmt.hi : IntFmt → Int
  | .int8 => 127 | .uint8 => 255 | .int4 => 7

/-- Requantisation: saturate(round(acc × M0 × 2⁻ˢ) + zp), exact up to the final round (R108).
(DEDUCED, unsafe: notes/assumptions/34.md.) -/
def requant (f : IntFmt) (m : RoundMode) (r : BitVec 32) (acc : Int) (m0 s : Nat) (zp : Int) : Flagged Int :=
  satFlag f.lo f.hi (roundTo m r ((acc : Rat) * m0 / ((2 ^ s : Nat) : Rat)) + zp) flagOutSat

/-! ### Floating-point formats (R106, R111) -/

/-- The floating-point formats of R106. -/
inductive FpFmt where
  | e4m3 | e5m2 | bf16 | fp16 | fp32
  deriving DecidableEq, Repr

def FpFmt.expBits : FpFmt → Nat
  | .e4m3 => 4 | .e5m2 => 5 | .bf16 => 8 | .fp16 => 5 | .fp32 => 8
def FpFmt.fracBits : FpFmt → Nat
  | .e4m3 => 3 | .e5m2 => 2 | .bf16 => 7 | .fp16 => 10 | .fp32 => 23
def FpFmt.bias (f : FpFmt) : Int := 2 ^ (f.expBits - 1) - 1
/-- The format has infinities. -/
def FpFmt.hasInf : FpFmt → Bool
  | .e4m3 => false
  | _ => true

/-- The largest finite value (R106): 448 for E4M3. -/
def FpFmt.maxFinite (f : FpFmt) : Rat :=
  match f with
  | .e4m3 => 448
  | _ => (2 - pow2 (-(f.fracBits : Int))) * pow2 (f.bias)

/-- A floating-point value. -/
inductive FVal where
  | fin (q : Rat)
  | inf (neg : Bool)
  | nan
  deriving DecidableEq, Repr

/-- The value of an encoding (R106). Subnormals are supported. -/
def FpFmt.decode (f : FpFmt) (n : Nat) : FVal :=
  let e := bits n f.fracBits f.expBits
  let m := bits n 0 f.fracBits
  let neg := bitAt n (f.fracBits + f.expBits)
  let top := 2 ^ f.expBits - 1
  if f.hasInf && e == top then (if m = 0 then .inf neg else .nan)
  else if !f.hasInf && e == top && m == 2 ^ f.fracBits - 1 then .nan
  else
    let mag : Rat := if e = 0 then (m : Rat) * pow2 (1 - f.bias - f.fracBits)
                     else ((2 ^ f.fracBits + m : Nat) : Rat) * pow2 ((e : Int) - f.bias - f.fracBits)
    .fin (if neg then -mag else mag)

/-- The unit in the last place at a magnitude. -/
def FpFmt.ulpExp (f : FpFmt) (q : Rat) : Int :=
  let l : Int := (Nat.log2 q.num.natAbs : Int) - Nat.log2 q.den
  let l := if q < pow2 l then l - 1 else if pow2 (l + 1) ≤ q then l + 1 else l
  max (1 - f.bias) l - f.fracBits

/-- A rational rounded to the format's grid, its range not yet applied. -/
def FpFmt.grid (f : FpFmt) (m : RoundMode) (r : BitVec 32) (q : Rat) : Rat :=
  if q = 0 then 0
  else
    let e := f.ulpExp (if q < 0 then -q else q)
    (roundTo m r (q / pow2 e) : Rat) * pow2 e

/-- Conversion to a floating-point format (R111): out of range gives the largest finite value of that sign, infinity
stays one where the format has it, NaN is the canonical quiet NaN. -/
def FpFmt.convert (f : FpFmt) (m : RoundMode) (r : BitVec 32) (v : FVal) : Flagged FVal :=
  match v with
  | .nan => ⟨.nan, [flagNan]⟩
  | .inf neg => if f.hasInf then ⟨.inf neg, [flagInf]⟩
                else ⟨.fin (if neg then -f.maxFinite else f.maxFinite), [flagOutSat, flagInf]⟩
  | .fin q =>
    let g := f.grid m r q
    if f.maxFinite < g then ⟨.fin f.maxFinite, [flagOutSat]⟩
    else if g < -f.maxFinite then ⟨.fin (-f.maxFinite), [flagOutSat]⟩
    else ⟨.fin g, []⟩

/-- The encoding of a value on the format's grid; the canonical quiet NaN has its top fraction bit set. -/
def FpFmt.encode (f : FpFmt) (v : FVal) : Nat :=
  let top := 2 ^ f.expBits - 1
  match v with
  | .nan => top * 2 ^ f.fracBits + (if f.hasInf then 2 ^ (f.fracBits - 1) else 2 ^ f.fracBits - 1)
  | .inf neg => b2n neg * 2 ^ (f.fracBits + f.expBits) + top * 2 ^ f.fracBits
  | .fin q =>
    let mag := if q < 0 then -q else q
    let sign := b2n (decide (q < 0)) * 2 ^ (f.fracBits + f.expBits)
    if mag = 0 then sign
    else
      let u := f.ulpExp mag
      let sig := (mag / pow2 u).floor.toNat
      if sig < 2 ^ f.fracBits then sign + sig
      else sign + (u + f.fracBits + f.bias).toNat * 2 ^ f.fracBits + (sig - 2 ^ f.fracBits)

/-- Conversion to an integer format (R111): NaN gives 0, out of range the largest finite value. -/
def toIntFmt (f : IntFmt) (m : RoundMode) (r : BitVec 32) (v : FVal) : Flagged Int :=
  match v with
  | .nan => ⟨0, [flagConvNan]⟩
  | .inf neg => ⟨if neg then f.lo else f.hi, [flagOutSat, flagInf]⟩
  | .fin q => satFlag f.lo f.hi (roundTo m r q) flagOutSat

/-- A multiply-accumulate in FP32 (R110, R111): nearest even, an overflow saturates at ±FLT_MAX. -/
def macFp (acc a b : FVal) : Flagged FVal :=
  match acc, a, b with
  | .fin x, .fin p, .fin q =>
    let g := FpFmt.fp32.grid .nearestEven 0 (x + p * q)
    if FpFmt.fp32.maxFinite < g then ⟨.fin FpFmt.fp32.maxFinite, [flagAccSat]⟩
    else if g < -FpFmt.fp32.maxFinite then ⟨.fin (-FpFmt.fp32.maxFinite), [flagAccSat]⟩
    else ⟨.fin g, []⟩
  | .inf n, .fin _, .fin _ => ⟨.inf n, [flagInf]⟩
  | .fin _, .inf n, .fin q | .fin _, .fin q, .inf n =>
    if q = 0 then ⟨.nan, [flagNan]⟩ else ⟨.inf (n != decide (q < 0)), [flagInf]⟩
  | _, _, _ => ⟨.nan, [flagNan]⟩

/-- The value of an E8M0 scale: 2^(e − 127); 255 is NaN (R109). -/
def e8m0 (e : Nat) : FVal := if e = 255 then .nan else .fin (pow2 ((e : Int) - 127))

/-- The shared exponent of an MX block: floor(log₂(max |x|)) less the largest exponent of the element format (R109). -/
def mxShared (xs : List Rat) (emax : Int) : Int :=
  let m := xs.foldl (fun a x => max a (if x < 0 then -x else x)) 0
  if m = 0 then -127
  else
    let l : Int := (Nat.log2 m.num.natAbs : Int) - Nat.log2 m.den
    (if m < pow2 l then l - 1 else if pow2 (l + 1) ≤ m then l + 1 else l) - emax

/-! ### Envelope arithmetic (R114 to R117) -/

/-- One envelope element: INT8 midpoint and radius (R114). -/
structure Env where
  m : Int
  rad : Nat
  deriving DecidableEq, Repr

def Env.lo (e : Env) : Int := e.m - e.rad
def Env.hi (e : Env) : Int := e.m + e.rad

/-- The hull of an interval, its ends held to −128 and 127 first (R115, R116). -/
def envHull (lo hi : Int) : Flagged Env :=
  let l := clampI (-128) 127 lo
  let h := clampI (-128) 127 hi
  let m := (l + h).fdiv 2
  ⟨⟨m, (h - m).toNat⟩, if l ≠ lo ∨ h ≠ hi then [flagEnvSat] else []⟩

/-- A radius above 255 is stored as 255 (R116). -/
def radStore (r : Nat) : Flagged Nat := if r > 255 then ⟨255, [flagEnvRsat]⟩ else ⟨r, []⟩

/-- The ceiling of a non-negative rational. -/
def ceilQ (q : Rat) : Nat := q.ceil.toNat

/-- An envelope result from a requantised midpoint and a radius (R115, R116). -/
def envOf (mid : Flagged Int) (rad : Nat) : Flagged Env :=
  let r := radStore rad
  ⟨⟨mid.val, r.val⟩, mid.flags ++ r.flags⟩

/-- Multiply-accumulate with bias, then requantise (R115): `acc` of midpoints, `racc` = Σ |w| × rad.
(DEDUCED, unsafe: notes/assumptions/34.md.) -/
def envRequant (mode : RoundMode) (r : BitVec 32) (acc : Int) (racc m0 s : Nat) : Flagged Env :=
  envOf (requant .int8 mode r acc m0 s 0) (ceilQ ((racc : Rat) * m0 / ((2 ^ s : Nat) : Rat)) + 1)

/-- The sum or difference of two envelope elements with their multipliers (R115). -/
def envAdd (mode : RoundMode) (r : BitVec 32) (sub : Bool) (a b : Env) (ma mb : Rat) : Flagged Env :=
  let mid := if sub then (a.m : Rat) * ma - b.m * mb else (a.m : Rat) * ma + b.m * mb
  envOf (satFlag (-128) 127 (roundTo mode r mid) flagOutSat) (ceilQ (ma * a.rad) + ceilQ (mb * b.rad) + 1)

/-- The product of two envelope elements (R115). -/
def envMul (mode : RoundMode) (r : BitVec 32) (a b : Env) (m : Rat) : Flagged Env :=
  envOf (satFlag (-128) 127 (roundTo mode r ((a.m : Rat) * b.m * m)) flagOutSat)
    (ceilQ (m * ((a.m.natAbs * b.rad + b.m.natAbs * a.rad + a.rad * b.rad : Nat) : Rat)) + 1)

/-- The maximum or minimum of two envelope elements (R115). -/
def envMaxMin (isMax : Bool) (a b : Env) : Flagged Env :=
  if isMax then envHull (max a.lo b.lo) (max a.hi b.hi) else envHull (min a.lo b.lo) (min a.hi b.hi)

/-- The activation of a function code at a quantised value (R142): identity, ReLU, or the unit's table (R96). -/
def actValue (f : Nat) (v : Int) : Int := if f = 0 then v else if f = 1 then max v 0 else Config.sfu f v

/-- A monotone activation of an envelope element: the hull of [f(lo) − 1, f(hi) + 1] (R115). -/
def envMonotone (f : Nat) (a : Env) : Flagged Env := envHull (actValue f a.lo - 1) (actValue f a.hi + 1)

/-- SiLU, GELU and hard-swish (R115): the minimum over the interval takes in the function's minimum point `p`.
(DEDUCED, unsafe: notes/assumptions/34.md.) -/
def envDip (f : Nat) (p : Int) (a : Env) : Flagged Env :=
  let ends := min (actValue f a.lo) (actValue f a.hi)
  let low := if a.lo ≤ p ∧ p ≤ a.hi then min ends (actValue f p) else ends
  envHull (low - 1) (max (actValue f a.lo) (actValue f a.hi) + 1)

/-- CONVERT into envelope mode from INT8 (R117). -/
def envFromInt (v : Int) (field : Nat) : Env := ⟨v, field⟩

/-- CONVERT into envelope mode from a floating-point value already in units of the scale (R117). -/
def envFromFp (mode : RoundMode) (r : BitVec 32) (v : FVal) (field : Nat) : Flagged Env :=
  envOf (toIntFmt .int8 mode r v) (field + 1)

end Sys2Proof.Machine
end

