-- ==== Sys2Proof/Machine/Tensors.lean ====
section
/-!
DEFINITION. Tensors in memory (spec/04_operators.md R131 to R134, R137): where a tensor of a copy lies, its bytes, and its
elements as values.
-/
namespace Sys2Proof.Machine

def RunState.default : RunState := ⟨false, false, none, [], [], [], false, [], false, none⟩
def State.run (s : State) (g : Nat) : RunState := vget s.sched.runs g RunState.default
def State.modRun (s : State) (g : Nat) (f : RunState → RunState) : State :=
  { s with sched := { s.sched with runs := vmod s.sched.runs g f } }

def CtxState.default : CtxState := ⟨false, 0, 0, 0, 0, 0, 0, false, 0, 0, none, 0, vrep 4 [], 0, 0, 0⟩
def State.ctxAt (s : State) (x : Nat) : CtxState := vget s.io.ctx x CtxState.default

/-- BUFS of a context (R228). -/
def State.ctxBufs (s : State) (x : Nat) : Nat := max 1 (u8 s.strB (0x140 + 16 * x + 8))

/-- Complete frame number `d` of a context is still in its frame store: it is not the frame being written, nor
overwritten (R159, R229). -/
def State.frameHeld (s : State) (x d : Nat) : Bool :=
  let c := s.ctxAt x
  decide (1 ≤ d ∧ d ≤ c.delivered) &&
    (decide (c.delivered + 1 < d + s.ctxBufs x) || (!c.isOpen && c.delivered + 1 == d + s.ctxBufs x))

/-- The bytes of a stored frame. -/
def State.frameData (s : State) (x d : Nat) : List Byte := vget (s.ctxAt x).bufs ((d - 1) % s.ctxBufs x) []

/-- The core of a tensor of a copy; a golden instance runs on the core that numbers it (R186). -/
def State.tensorCore (s : State) (g c t : Nat) : Nat :=
  if s.isGolden g then c else s.coreOf g c (tCore s.graB g t)

/-- `n` bytes of a tensor of a copy from a byte offset. -/
def State.tensorBytes (s : State) (g c t off n : Nat) : List Byte :=
  let a := tOffset s.graB g t
  match tLoc s.graB g t with
  | 0 => (s.eng (4 * s.tensorCore g c t + tEngine s.graB g t)).sram.readN (a + off) n
  | 1 => (s.core (s.tensorCore g c t)).sram.readN (a + off) n
  | 2 => s.gddrMem.readN (Config.gddrBase g c + 32 * a + off) n
  | _ => slice (s.frameData (gCtx s.graB g) ((s.run g).src.getD 0)) off n

/-- Bytes per element of the plain formats. -/
def elemBytes (f : Nat) : Nat :=
  if f ∈ [0x08, 0x09, 0x0D] then 2 else if f = 0x0A ∨ f = 0x0B then 4 else 1

/-- The raw bits of element `i` of a tensor (R107, R132): for an envelope element the radius in bits 15 to 8.
(DESIGN CHOICE, unsafe: notes/assumptions/64.md.) -/
def State.elemRaw (s : State) (g c t i : Nat) : Nat :=
  let f := tFormat s.graB g t
  if f = 0x02 then bits (u8 (s.tensorBytes g c t (i / 2) 1) 0) (4 * (i % 2)) 4
  else if f = 0x0C then
    u8 (s.tensorBytes g c t i 1) 0 + 256 * u8 (s.tensorBytes g c t (tElems s.graB g t + i) 1) 0
  else ofLe (s.tensorBytes g c t (i * elemBytes f) (elemBytes f))

/-- The E8M0 scale byte of the block of element `i` of an MX tensor (R109, R132). -/
def State.elemScale (s : State) (g c t i : Nat) : Nat :=
  u8 (s.tensorBytes g c t (tElems s.graB g t + i / 32) 1) 0

/-- The product of two values. -/
def FVal.mul (a b : FVal) : FVal :=
  match a, b with
  | .fin x, .fin y => .fin (x * y)
  | .inf n, .fin q | .fin q, .inf n => if q = 0 then .nan else .inf (n != decide (q < 0))
  | .inf n, .inf m => .inf (n != m)
  | _, _ => .nan

/-- The floating-point format of a code of R132; an MXINT8 element has none. -/
def fpOf (f : Nat) : Option FpFmt :=
  match f with
  | 0x03 | 0x06 => some .e4m3
  | 0x04 | 0x07 => some .e5m2
  | 0x08 => some .bf16
  | 0x09 => some .fp16
  | 0x0A => some .fp32
  | _ => none

/-- The value of raw bits in a plain format: integers as they are, a MXINT8 element in 1.6 fixed point (R106). -/
def rawValue (f raw : Nat) : FVal :=
  match fpOf f with
  | some p => p.decode raw
  | none =>
    if f = 0x00 ∨ f = 0x0C then .fin (toInt 8 raw : Rat)
    else if f = 0x02 then .fin (toInt 4 raw : Rat)
    else if f = 0x0B then .fin (toInt 32 raw : Rat)
    else if f = 0x05 then .fin ((toInt 8 raw : Rat) / 64)
    else .fin (raw : Rat)

/-- A MX format. -/
def isMx (f : Nat) : Bool := f == 0x05 || f == 0x06 || f == 0x07

/-- An integer format, whose zero point is subtracted (R167). -/
def isIntFmt (f : Nat) : Bool := f == 0x00 || f == 0x01 || f == 0x02 || f == 0x0B || f == 0x0D

/-- The value of element `i`: MX elements as decoded values, integers less their zero point (R164, R167). -/
def State.elemValue (s : State) (g c t i : Nat) : FVal :=
  let f := tFormat s.graB g t
  let v := rawValue f (s.elemRaw g c t i)
  if isMx f then v.mul (e8m0 (s.elemScale g c t i))
  else if isIntFmt f then
    match v with
    | .fin q => .fin (q - tZp s.graB g t)
    | v => v
  else v

end Sys2Proof.Machine
end

