-- ==== Sys2Proof/Machine/Compare.lean ====
section
/-!
DEFINITION. The tensor compare unit (spec/05_redundant_execution.md R164 to R170): the consumer mask, and agreement in the
three modes.
-/
namespace Sys2Proof.Machine

/-! ### The consumer mask (R164, R165) -/

/-- Input row or column `r` of a layout A reader is read: `stride`, `pad`, `dil`, kernel `kn`, outputs `n`. -/
def layoutReads (stride pad dil kn n r : Nat) : Bool :=
  (upto kn).any fun k => decide (k * dil ≤ r + pad) &&
    (let q := r + pad - k * dil
     decide (stride ≠ 0 ∧ q % stride = 0 ∧ q / stride < n))

/-- The coordinates of a linear element index, DIM[0] fastest. -/
def coord (b : List Byte) (g t i d : Nat) : Nat :=
  let d0 := tDim b g t 0
  let d1 := tDim b g t 1
  let d2 := tDim b g t 2
  match d with
  | 0 => i % d0
  | 1 => i / d0 % d1
  | 2 => i / (d0 * d1) % d2
  | _ => i / (d0 * d1 * d2)

/-- Descriptor `k` reads element `i` of tensor `t` (R164). -/
def readsElem (b : List Byte) (g k t i : Nat) : Bool :=
  let op := dOp b g k
  if op ∈ [0x01, 0x02, 0x10, 0x11] ∧ dIn b g k 0 = t ∧ dIn b g k 1 ≠ t ∧ dIn b g k 2 ≠ t then
    layoutReads (dB b g k 0x12) (dB b g k 0x16) (dB b g k 0x14) (dB b g k 0x10) (dH b g k 0x24) (coord b g t i 2)
      && layoutReads (dB b g k 0x13) (dB b g k 0x18) (dB b g k 0x15) (dB b g k 0x11) (dH b g k 0x26) (coord b g t i 1)
  else if op = 0x25 then
    (upto 4).all fun d => decide (dH b g k (0x14 + 2 * d) ≤ coord b g t i d ∧ coord b g t i d < dH b g k (0x1C + 2 * d))
  else true

/-- The descriptors that read a tensor, its COMPAREs apart. -/
def readers (b : List Byte) (g t : Nat) : List Nat :=
  (upto (gDescs b g)).filter fun k => dOp b g k != 0x50 && (dInputs b g k).contains t

/-- The derived mask: an element is consumed when at least one reader reads it. -/
def derivedMask (b : List Byte) (g t i : Nat) : Bool := (readers b g t).any fun k => readsElem b g k t i

/-- The consumer mask of COMPARE `k`: its IN1, or the derived one (R164, R165). -/
def State.consumed (s : State) (g k i : Nat) : Bool :=
  let b := s.graB
  if dIn b g k 1 = noTensor then derivedMask b g (dIn b g k 0) i
  else u8 (s.tensorBytes g 0 (dIn b g k 1) i 1) 0 == 1

/-! ### Agreement (R167, R168) -/

def absQ (q : Rat) : Rat := if q < 0 then -q else q

/-- |a − b| ≤ ABS + REL × max(|a|, |b|), evaluated in FP32. -/
def withinTol (absTol relTol a b : Rat) : Bool :=
  decide (absQ (fsub a b) ≤ fadd absTol (fmul relTol (max (absQ a) (absQ b))))

/-- MODE 0 on two values; a NaN never agrees, an infinity only with its like. -/
def tolAgree (absTol relTol : Rat) (a b : FVal) : Bool :=
  match a, b with
  | .fin x, .fin y => withinTol absTol relTol x y
  | .inf n, .inf m => n == m
  | _, _ => false

/-- MODE 2: equal, +0 and −0 alike; a NaN never agrees (R168). -/
def exactAgree (a b : FVal) (ra rb : Nat) : Bool :=
  match a, b with
  | .nan, _ | _, .nan => false
  | .fin x, .fin y => ra == rb || (decide (x = 0) && decide (y = 0))
  | _, _ => ra == rb

/-- MODE 1: the intervals overlap. -/
def overlapAgree (ra rb : Nat) : Bool :=
  decide ((toInt 8 ra - toInt 8 rb).natAbs ≤ ra / 256 + rb / 256)

/-- ABS_TOL of a COMPARE: LSBs for integer formats, FP32 otherwise (R167). -/
def absTolOf (b : List Byte) (g k : Nat) (int : Bool) : Rat :=
  if int then (dW b g k 0x14 : Rat) else f32 (dW b g k 0x14)

/-- The pair of element `i` agrees. -/
def State.pairAgrees (s : State) (g k i : Nat) : Bool :=
  let b := s.graB
  let t := dIn b g k 0
  let ra := s.elemRaw g 0 t i
  let rb := s.elemRaw g 1 t i
  let va := s.elemValue g 0 t i
  let vb := s.elemValue g 1 t i
  match dB b g k 0x12 with
  | 0 => tolAgree (absTolOf b g k (isIntFmt (tFormat b g t))) (f32 (dW b g k 0x18)) va vb
  | 1 => overlapAgree ra rb
  | _ => if isMx (tFormat b g t) then (match va, vb with | .fin x, .fin y => decide (x = y) | .inf n, .inf m => n == m | _, _ => false)
         else exactAgree va vb ra rb

/-! ### Detection lists (R170) -/

/-- IN0 of a COMPARE is a detection list: an NMS writes it. -/
def isDetections (b : List Byte) (g k : Nat) : Bool :=
  (upto (gDescs b g)).any fun j => dOp b g j == 0x32 && dOut b g j == dIn b g k 0

/-- Where a list terminates: its first record with confidence 0, or its end (R140). -/
def State.listEnd (s : State) (g c t : Nat) : Nat :=
  let n := tDim s.graB g t 1
  ((upto n).find? fun r => u8 (s.tensorBytes g c t (16 * r + 0x0B) 1) 0 == 0).getD n

/-- The disagreements of record `r`, as linear element indices. -/
def State.recordDiffs (s : State) (g k r : Nat) : List Nat :=
  let b := s.graB
  let t := dIn b g k 0
  let h := fun (c o : Nat) => u16 (s.tensorBytes g c t (16 * r + o) 2) 0
  let rel := f32 (dW b g k 0x18)
  let tol := f32 (dW b g k 0x14)
  let fp := [0x00, 0x02, 0x04, 0x06, 0x08, 0x0C].filter fun o =>
    !tolAgree tol rel (FpFmt.fp16.decode (h 0 o)) (FpFmt.fp16.decode (h 1 o))
  let cls := if h 0 0x0A % 256 = h 1 0x0A % 256 then [] else [0x0A]
  let src := if h 0 0x0E = h 1 0x0E then [] else [0x0E]
  (((upto 16).filter fun o => (fp ++ cls ++ src).contains o)).map (16 * r + ·)

/-- The disagreements of two lists in MODE 2: their terminating records must stand at the same position. -/
def State.listDiffs (s : State) (g k : Nat) : List Nat :=
  let t := dIn s.graB g k 0
  let e0 := s.listEnd g 0 t
  let e1 := s.listEnd g 1 t
  let n := min e0 e1
  ((upto (n + (if n < tDim s.graB g t 1 then 1 else 0))).flatMap fun r => s.recordDiffs g k r)
    ++ (if e0 = e1 then [] else [16 * n + 0x0B])

/-- The disagreeing consumed elements of a COMPARE, in rising order. -/
def State.compareDiffs (s : State) (g k : Nat) : List Nat :=
  let b := s.graB
  if dB b g k 0x12 = 2 ∧ isDetections b g k = true then s.listDiffs g k
  else (upto (tElems b g (dIn b g k 0))).filter fun i => s.consumed g k i && !s.pairAgrees g k i

end Sys2Proof.Machine
end

