-- ==== Sys2Proof/Machine/Outputs.lean ====
section
/-!
DEFINITION. Safe outputs, read-back and off-pulses (spec/08_safe_io.md, R280 to R285).
-/
namespace Sys2Proof.Machine

def OutChan.default : OutChan := ⟨false, false, 0, false, false, false, false⟩
def OutGroup.default : OutGroup := ⟨OutChan.default, OutChan.default, false, none, false, false, 0, 0⟩

def State.grp (s : State) (g : Nat) : OutGroup := vget s.so.groups g OutGroup.default

def State.modGrp (s : State) (g : Nat) (f : OutGroup → OutGroup) : State :=
  { s with so := { s.so with groups := vmod s.so.groups g f } }

def OutGroup.chan (x : OutGroup) (b : Bool) : OutChan := if b then x.b else x.a

def OutGroup.modChan (x : OutGroup) (b : Bool) (f : OutChan → OutChan) : OutGroup :=
  if b then { x with b := f x.b } else { x with a := f x.a }

/-- The level that a role gives a group in the state, verdict word and speed of the present beat (R13, R281). -/
def State.wanted (s : State) (g : Nat) : Bool :=
  let w := s.watch.wstate
  match s.soRole g with
  | 1 | 2 => w == .trust || w == .floor || w == .stopping
  | 3 => w == .trust || w == .floor
  | 4 => match s.soGenMode g with
    | 0 => w == .trust
    | 1 => w == .trust || w == .floor
    | 2 => w != .halt && s.speedBelow s.standstillMmps
    | _ => (w == .trust || w == .floor) && s.fieldClear
  | _ => false

/-- A channel under a new command (R282): a new command starts a new judgment. -/
def OutChan.command (c : OutChan) (beat : Nat) (on drive : Bool) : OutChan :=
  { c with high := drive, cmdOn := on, cmdBeat := beat, reached := false, faulted := false, due := c.due && on }

/-- A group commanded on (R285): a channel whose pulse window is still running under the latch stays low until it
ends. -/
def OutGroup.turnOn (x : OutGroup) (beat : Nat) : OutGroup :=
  let hold := x.latched && decide (beat < x.latchEnd)
  { x with on := true, latched := hold
           a := x.a.command beat true (!(hold && !x.latchChan))
           b := x.b.command beat true (!(hold && x.latchChan)) }

/-- A group commanded off (R285): during a pulse the command is latched, and the pulse is not evaluated. -/
def OutGroup.turnOff (x : OutGroup) (beat width : Nat) : OutGroup :=
  let y : OutGroup := match x.pulse with
    | some p => if p.returning then x else { x with latched := true, latchChan := p.chan, latchEnd := p.start + width }
    | none => x
  { y with on := false, pulse := none, a := y.a.command beat false false, b := y.b.command beat false false }

/-- The end of a latched pulse window: a channel that was commanded on meanwhile turns on (R285).
(DEDUCED, unsafe: notes/assumptions/56.md.) -/
def OutGroup.latchOver (x : OutGroup) (beat : Nat) : OutGroup :=
  if x.latched && decide (x.latchEnd ≤ beat) then
    let y := { x with latched := false }
    if x.on then y.modChan x.latchChan (fun c => { c.command beat true true with due := c.due }) else y
  else x

/-- A group follows the level wanted in the present beat (R280); a held group stays low, as every group does in SPLIT and in
SELFTEST_FAIL. -/
def State.driveGroup (s : State) (g : Nat) : State :=
  let want := s.wanted g && !s.so.held && !s.selftestFail && !s.ctrl.split
  s.modGrp g fun x =>
    let x := x.latchOver s.beat
    if want && !x.on then x.turnOn s.beat
    else if !want && x.on then x.turnOff s.beat (s.soPulseWidth g)
    else x

/-- The output groups are driven to the levels of the present beat (R15, R281).
(DEDUCED, unsafe: notes/assumptions/56.md.) -/
def State.driveGroups (s : State) : State := (upto 4).foldl (fun (t : State) g => t.driveGroup g) s

/-! ### Read-back (R282) and off-pulses (R283, R284) -/

/-- One sample of a group's read-backs (R264, R282, R284). -/
def OutGroup.sample (x : OutGroup) (beat width rbOn : Nat) (rbA rbB : Bool) : OutGroup :=
  let upd := fun (c : OutChan) (rb : Bool) => { c with rb := rb, reached := c.reached || rb == c.cmdOn }
  let rbOf := fun (b : Bool) => if b then rbB else rbA
  match x.pulse with
  | none => { x with a := upd x.a rbA, b := upd x.b rbB }
  | some p =>
    let o := beat - p.start
    let y := (x.modChan p.chan fun c => { c with rb := rbOf p.chan }).modChan (!p.chan) fun c => upd c (rbOf (!p.chan))
    { y with pulse := some { p with
        sawOff := p.sawOff || (decide (1 ≤ o ∧ o + 2 ≤ width) && !rbOf p.chan)
        otherDropped := p.otherDropped || (decide (1 ≤ o ∧ o ≤ width + rbOn) && !rbOf (!p.chan)) } }

/-- What a channel's read-back breaches at the present sample, outside its own off-pulses (R282): 0x01 not OFF, 0x02
not ON; none for an unused group.
(DEDUCED, unsafe: notes/assumptions/56.md.) -/
def State.rbBreach (s : State) (g : Nat) (b : Bool) : Option Nat :=
  let x := s.grp g
  let c := x.chan b
  let own := match x.pulse with | some _ => true | none => false
  if s.soRole g = 0 ∨ own = true ∨ c.faulted = true ∨ c.rb = c.cmdOn ∨ s.beat ≤ c.cmdBeat then none
  else if c.cmdOn then
    if c.high && (c.reached || decide (s.beat ≥ c.cmdBeat + s.soRbOn g)) then some 0x02 else none
  else if c.reached || decide (s.beat + 2 ≥ c.cmdBeat + s.soPulseWidth g) then some 0x01 else none

/-- Source and info of a channel of group `g` (R290). -/
def soSource (g : Nat) : Nat := 9 + g / 2
def soInfo (g : Nat) (b : Bool) (code : Nat) : Nat := (2 * (g % 2) + b2n b) * 256 + code

/-- A read-back breach is a fatal fault, at most once per command (R282). -/
def State.readbackFailure (s : State) (g : Nat) (b : Bool) : State :=
  match s.rbBreach g b with
  | some code =>
    (s.modGrp g fun x => x.modChan b fun c => { c with faulted := true }).raise (soSource g) .ft (soInfo g b code)
  | none => s

/-- Beat `p` is a due beat of channel `b` of group `g` (R283). -/
def State.pulseDueAt (s : State) (g : Nat) (b : Bool) : Bool :=
  let per := s.soPulsePeriod g
  let shift : Nat := 8192 * g + (if b then per / 2 else 0)
  decide (0 < per ∧ ((s.beat : Int) - shift) % per = 0) && s.soRole g != 0

/-- Due off-pulses of the present beat: one that falls due while the group is off is dropped (R283). -/
def State.pulsesFallDue (s : State) : State :=
  (upto 4).foldl (fun (t : State) g =>
    t.modGrp g fun x =>
      { x with a := if t.pulseDueAt g false then { x.a with due := x.on } else x.a
               b := if t.pulseDueAt g true then { x.b with due := x.on } else x.b }) s

/-- A due pulse may start on channel `b` (R283): the group is on and the other channel is neither in a pulse nor
waiting for its read-back to show ON. -/
def State.pulseMayStart (s : State) (g : Nat) (b : Bool) : Bool :=
  let x := s.grp g
  (x.chan b).due && x.on && x.pulse.isNone && !x.latched && (x.chan (!b)).reached && !s.so.held

def State.offPulseStart (s : State) (g : Nat) (b : Bool) : State :=
  if s.pulseMayStart g b then
    s.modGrp g fun x =>
      { x.modChan b (fun c => { c with high := false, due := false }) with
        pulse := some ⟨b, s.beat, false, false, false⟩ }
  else s

/-- How the pulse in progress stands at the present sample (R284): none while it may still pass, some none where it
has passed, some a code where it has failed.
(DEDUCED, unsafe: notes/assumptions/55.md.) -/
def State.pulseVerdict (s : State) (g : Nat) (p : OffPulse) (rb : Bool) : Option (Option Nat) :=
  let o := s.beat - p.start
  if p.otherDropped then some (some 0x03)
  else if decide (o + 2 ≥ s.soPulseWidth g) && !p.sawOff then some (some 0x01)
  else if p.returning && rb && decide (o > s.soPulseWidth g) then some none
  else if p.returning && !rb && decide (o ≥ s.soPulseWidth g + s.soRbOn g) then some (some 0x02)
  else none

/-- The end of an off-pulse: the channel is driven again PULSE_WIDTH beats after its start (R283). -/
def State.pulseReturn (s : State) (g : Nat) : State :=
  s.modGrp g fun x => match x.pulse with
    | some p => if decide (s.beat ≥ p.start + s.soPulseWidth g) && !p.returning then
        { x.modChan p.chan (fun c => { c with high := true }) with pulse := some { p with returning := true } }
      else x
    | none => x

/-- An off-pulse ends and is judged (R284).
(DEDUCED, unsafe: notes/assumptions/56.md.) -/
def State.offPulseEnd (s : State) (g : Nat) : State :=
  let s1 := s.pulseReturn g
  match (s1.grp g).pulse with
  | none => s1
  | some p =>
    match s1.pulseVerdict g p ((s1.grp g).chan p.chan).rb with
    | none => s1
    | some none => s1.modGrp g fun x =>
        { x.modChan p.chan (fun c => { c with reached := true }) with pulse := none, pulsesOk := (x.pulsesOk + 1) % 65536 }
    | some (some code) => (s1.modGrp g fun x => { x with pulse := none }).raise (soSource g) .ft (soInfo g p.chan code)

end Sys2Proof.Machine
end

