-- ==== Sys2Proof/Machine/Faults.lean ====
section
/-!
DEFINITION. The steps of fault collection and of the watchdogs (spec/09_faults_watchdogs.md).
-/
namespace Sys2Proof.Machine

/-! ### Fault collection (R302, R303, R309) -/

/-- The end of the quiet period: recovery of every active UC fault, or escalation (R302, R303).
(DEDUCED, unsafe: notes/assumptions/26.md.) -/
def State.quietPeriodEnd (s : State) : State :=
  if s.fc.quietEnd = some s.beat then
    if s.fc.activeUc = 0 then { s with fc := { s.fc with quietEnd := none } }
    else if s.recoveriesIn.length + 1 > s.recLimit then s.escalate
    else s.recover
  else s

/-- FAULT_N in the beat after a recovery: released unless a fault is active or it is held low (R302, R305). -/
def State.faultNRelease (s : State) : State :=
  if s.fc.releaseDue then
    let s1 : State := { s with fc := { s.fc with releaseDue := false } }
    if s.anyActive ∨ s.fc.faultNHold = true ∨ s.fc.faultNLow = false then s1
    else ({ s1 with fc := { s1.fc with faultNLow := false } } : State).irqSet irqRecovery []
  else s

/-- A write of 1 to `FC_FF_CTRL.CLEAR` (R309): ignored and recorded while a UC or FT fault is active. -/
def State.ffClear (s : State) : State :=
  if s.anyActive then s.ignoredWrite 0x080014 3
  else ({ s with fc := { s.fc with latch := none, ffOvf := false, firstFt := none } } : State).event 0x2102 0

/-! ### Wake requests (R326) -/

/-- A wake request of a watchdog in STANDBY (R326): the wake starts, event 0xA103, and WAKE_PENDING, WAKE_SRC and the WAKE
interrupt (R510, R511). One that arrives during the entry to STANDBY is held until the entry completes (R453).
(DEDUCED, unsafe: notes/assumptions/13.md.) -/
def State.wakeRequest (s : State) (src : Nat) : State :=
  if s.pwr.entering.isSome then { s with pwr := { s.pwr with wakeHeld := some (s.pwr.wakeHeld.getD src) } }
  else if s.pwr.standby ∧ s.pwr.waking = false then
    let s1 := ({ s with pwr := { s.pwr with waking := true } } : State).event 0xA103 (1 + src * 256)
    let s2 : State := { s1 with wd := { s1.wd with wakePending := true, wakeSrc := src } }
    if s.wd.wakePending then s2 else s2.irqSet irqWake [BitVec.ofNat 8 src]
  else s

/-! ### Task watchdog (R317 to R321) -/

def TaskWd.default : TaskWd := ⟨none, false, false, false⟩

def State.task (s : State) (t : Nat) : TaskWd := vget s.wd.tasks t TaskWd.default

def State.modTask (s : State) (t : Nat) (f : TaskWd → TaskWd) : State :=
  { s with wd := { s.wd with tasks := vmod s.wd.tasks t f } }

/-- A fault of task `t` (R316, R318, R319); in STANDBY it also requests a wake (R326). -/
def State.taskFault (s : State) (t code : Nat) (last : Bool) : State :=
  let s1 := s.modTask t fun x => { x with faulted := true }
  let info := t * 256 + code
  (if last then s1.raiseLast 12 .ft info else s1.raise 12 .ft info).wakeRequest 1

/-- How a check-in at offset `o` is judged: none valid, else the code (R318). -/
def judgeKick (checked : Bool) (o op cl : Nat) : Option Nat :=
  if checked then some 0x02 else if o < op then some 0x01 else if o < cl then none else some 0x03

/-- A check-in of task `t` (R317, R318, R321). `own` is the offset in the task's own beats where it counts on the RC
oscillator, whose beats no command of the model carries.
(DEDUCED, unsafe: notes/assumptions/27.md.)
(DESIGN CHOICE, safe: notes/assumptions/28.md.) -/
def State.taskKick (s : State) (t own : Nat) : State :=
  if s.taskEn t = false then
    s.event 0x2104 (t + (if s.img.isNone then 0 else 256))
  else if s.wd.taskFrozen then s
  else match (s.task t).off with
    | none => s.event 0x2104 (t + 256)
    | some o =>
      let o := if s.taskRc t then own else o
      let s1 := s.modTask t fun x => { x with checked := true }
      if (s.task t).noJudge then s1
      else match judgeKick (s.task t).checked o (s.taskOpen t) (s.taskClose t) with
        | none => s1
        | some code => s1.taskFault t code false

/-- The period of task `t` ends with the present beat (crystal), or with the own beat that now ends (RC) (R317). -/
def State.taskPeriodDue (s : State) (t : Nat) : Bool :=
  s.taskEn t && !s.wd.taskFrozen &&
    match (s.task t).off with
    | some o => s.taskRc t || o + 1 == s.taskPeriod t
    | none => false

/-- The judgment at the end of a period (R319): a task with no check-in is missing. On the RC oscillator the next
period begins at once. -/
def State.taskPeriodEnd (s : State) (t : Nat) : State :=
  if s.taskPeriodDue t then
    let x := s.task t
    let s1 := if x.checked || x.noJudge then s else s.taskFault t 0x04 true
    s1.modTask t fun y =>
      if s.taskRc t then { y with off := some 0, checked := false, noJudge := false } else { y with noJudge := true }
  else s

/-- Period 0 of task `t` begins in beat `b` (R317, R321): under the boot configuration at multiples of PERIOD, under
an image's at the tick origin plus PHASE. -/
def State.taskBegins (s : State) (t b : Nat) : Bool :=
  s.taskEn t &&
    match s.keptImg, s.sched.origin with
    | none, _ => b % s.taskPeriod t == 0
    | some _, some o => b == o + s.taskPhase t
    | some _, none => false

/-- The offsets of the task watchdog move on to beat `b` (R317, R327). -/
def State.taskBeat (s : State) : State :=
  let move := fun (t : Nat) (x : TaskWd) =>
      match x.off with
      | some o =>
        if s.wd.taskFrozen || s.taskRc t || !s.taskEn t then x
        else if o + 1 < s.taskPeriod t then { x with off := some (o + 1) }
        else { x with off := some 0, checked := false, noJudge := false }
      | none => if s.taskBegins t s.beat then { x with off := some 0, checked := false, noJudge := false } else x
  { s with wd := { s.wd with tasks := vmapIdx move s.wd.tasks } }

/-! ### Service-core watchdog (R322) -/

/-- A fault of the service-core watchdog: UC from source 13, and the service core held in reset (R322).
(DEDUCED, unsafe: notes/assumptions/27.md.) -/
def State.svcFault (s : State) (code : Nat) (last : Bool) : State :=
  let s1 := if last then s.raiseLast 13 .uc code else s.raise 13 .uc code
  { s1 with wd := { s1.wd with svc := { s1.wd.svc with downSince := some s.beat, noJudge := true, off := none } } }

/-- The service core runs: it is powered and not held in reset (R322). -/
def State.svcUp (s : State) : Bool := s.pwr.mainOn && s.wd.svc.downSince.isNone

/-- A check-in of the service core; `own` as for tasks on the RC oscillator (R322, R335).
(DESIGN CHOICE, safe: notes/assumptions/28.md.) -/
def State.svcKick (s : State) (own : Nat) : State :=
  if s.svcEn = false ∨ s.wd.svcFrozen = true ∨ s.wd.svc.downSince.isSome ∨ s.pwr.standby = true then s
  else match s.wd.svc.off with
    | none => s
    | some o =>
      let o := if s.svcRc then own else o
      let s1 : State := { s with wd := { s.wd with svc := { s.wd.svc with checked := true } } }
      if s.wd.svc.noJudge then s1
      else match judgeKick s.wd.svc.checked o s.svcOpen s.svcClose with
        | none => s1
        | some code => s1.svcFault code false

def State.svcPeriodDue (s : State) : Bool :=
  s.svcEn && !s.wd.svcFrozen && s.wd.svc.downSince.isNone && !s.pwr.standby &&
    match s.wd.svc.off with
    | some o => s.svcRc || o + 1 == s.svcPeriod
    | none => false

/-- The end of a service-core period (R322): no check-in is a UC fault that restarts the core. -/
def State.svcPeriodEnd (s : State) : State :=
  if s.svcPeriodDue then
    if s.wd.svc.checked || s.wd.svc.noJudge then
      { s with wd := { s.wd with svc :=
          if s.svcRc then { s.wd.svc with off := some 0, checked := false, noJudge := false }
          else { s.wd.svc with noJudge := true } } }
    else s.svcFault 0x04 true
  else s

/-- The service core leaves reset no sooner than 16 beats after the fault, and period 0 begins (R322).
(DEDUCED, unsafe: notes/assumptions/27.md.) -/
def State.svcRestart (s : State) : State :=
  match s.wd.svc.downSince with
  | some d =>
    if d + 16 ≤ s.beat then
      { s with wd := { s.wd with svc := { s.wd.svc with downSince := none, off := some 0, checked := false, noJudge := false, restarts := satInc 65535 s.wd.svc.restarts } } }
    else s
  | none => s

/-- The service core has restarted by 16 + 2,500 beats after the fault (R322).
(DEDUCED, unsafe: notes/assumptions/27.md.) -/
def State.svcRestartBound (s : State) : State :=
  match s.wd.svc.downSince with
  | some d => if d + 16 + 2500 ≤ s.beat then s.svcRestart else s
  | none => s

/-- The first service-core period begins (R322): at the tick origin, or at multiples of PERIOD before an image. -/
def State.svcBegins (s : State) (b : Nat) : Bool :=
  match s.img, s.sched.origin with
  | none, _ => b % s.svcPeriod == 0
  | some _, some o => b == o
  | some _, none => false

def State.svcBeat (s : State) : State :=
  let x := s.wd.svc
  if x.downSince.isSome || s.wd.svcFrozen || !s.svcEn || s.pwr.standby then s
  else
    let y : SvcWd := match x.off with
      | some o =>
        if s.svcRc then x
        else if o + 1 < s.svcPeriod then { x with off := some (o + 1) }
        else { x with off := some 0, checked := false, noJudge := false }
      | none => if s.svcBegins s.beat then { x with off := some 0, checked := false, noJudge := false } else x
    { s with wd := { s.wd with svc := y } }

/-! ### Heartbeat monitors (R323, R324) -/

def HbMon.default : HbMon := ⟨false, false, 0, 0, none, 0, 0, 0, false⟩

def State.hbAt (s : State) (k : Nat) : HbMon := vget s.wd.hb k HbMon.default

def State.modHb (s : State) (k : Nat) (f : HbMon → HbMon) : State :=
  { s with wd := { s.wd with hb := vmod s.wd.hb k f } }

/-- The monitor becomes LOST; a change from ALIVE is counted and recorded (R324, R341), and in STANDBY it requests a
wake where WAKE_EN is set (R326). -/
def State.hbLose (s : State) (k : Nat) : State :=
  if (s.hbAt k).alive then
    let s1 := s.modHb k fun x => { x with alive := false, run := 0, lostSince := s.beat, losses := satInc 65535 x.losses }
    let s1 := s1.event 0x2100 k
    if s.hbWakeEn k then s1.wakeRequest (3 + k) else s1
  else s.modHb k fun x => { x with run := 0 }

/-- A sample of ACCk_HB that differs from the last one (R323, R324). `own` is the interval in the monitor's own beats
where it counts on the RC oscillator; `powered` is ACCk_PWR_EN.
(DESIGN CHOICE, safe: notes/assumptions/28.md.) -/
def State.hbEdge (s : State) (k : Nat) (level : Bool) (own : Nat) (powered : Bool) : State :=
  let x := s.hbAt k
  let s1 := s.modHb k fun y => { y with level := level }
  if s.hbEn k = false ∨ powered = false ∨ x.level = level ∨ (s.hbRising k = true ∧ level = false) then s1
  else match x.lastEdge with
    | none => s1.modHb k fun y => { y with lastEdge := some s.beat }
    | some p =>
      let i := if s.hbRc k then own else s.beat - p
      let s2 := s1.modHb k fun y => { y with lastEdge := some s.beat, lastInterval := min 65535 i }
      if i < s.hbMin k then
        (s2.modHb k fun y => { y with lastEdge := none, early := satInc 65535 y.early }).hbLose k
      else if i > s.hbMax k then s2.hbLose k
      else
        let run := satInc 255 x.run
        let s3 := s2.modHb k fun y => { y with run := run }
        if x.alive = false ∧ run ≥ s.hbAlive k then
          (s3.modHb k fun y => { y with alive := true, persist := false }).event 0x2100 (k + 256)
        else s3

/-- No edge has come by HB_MAX + 1 beats after the last (R324). On the RC oscillator the own beats are the
command's word. -/
def State.hbLostDue (s : State) (k : Nat) (own : Bool) : Bool :=
  let x := s.hbAt k
  s.hbEn k && x.alive &&
    match x.lastEdge with
    | some p => if s.hbRc k then own else decide (s.beat ≥ p + s.hbMax k + 1)
    | none => false

/-- (DESIGN CHOICE, safe: notes/assumptions/28.md.) -/
def State.hbLost (s : State) (k : Nat) (own : Bool) : State := if s.hbLostDue k own then s.hbLose k else s

/-- The monitor has been LOST for HB_PERSIST consecutive beats (R324). -/
def State.hbPersistDue (s : State) (k : Nat) : Bool :=
  let x := s.hbAt k
  s.hbEn k && !x.alive && !x.persist && decide (s.hbPersist k ≠ 0 ∧ x.lostSince + s.hbPersist k ≤ s.beat + 1)

/-! ### Clock monitors and self-check (R314, R315) -/

/-- A selected watchdog clock shows no edge: FT from source 18 (R314, R316).
(DEDUCED, unsafe: notes/assumptions/17.md.) -/
def State.clockTrip (s : State) (rc : Bool) : State :=
  let s1 : State := { s with wd := { s.wd with xtalStopFlag := s.wd.xtalStopFlag || !rc, ircStopFlag := s.wd.ircStopFlag || rc } }
  (s1.raise 18 .ft (b2n rc * 256 + 0x01)).wakeRequest 7

/-- The RC oscillator measured against the crystal, in 0.01 % (R314): beyond ±5 % trips the monitor. -/
def State.rcFreq (s : State) (dev : Int) : State :=
  let s1 : State := { s with wd := { s.wd with ircDev := dev } }
  if dev.natAbs > 500 then
    (({ s1 with wd := { s1.wd with ircFreqFlag := true } } : State).raise 18 .ft (256 + 0x02)).wakeRequest 7
  else s1

/-- The two copies of a watchdog differ (R315). -/
def State.wdMismatch (s : State) (src inst : Nat) : State :=
  s.raise src .ft (inst * 256 + 0x10)

/-- STANDBY_PERIOD beats have passed since entry to STANDBY (R326); 0 disables the timer. -/
def State.standbyTimer (s : State) : State :=
  if s.pwr.standby ∧ s.standbyPeriod ≠ 0 ∧ s.beat ≥ s.wd.standbySince + s.standbyPeriod then s.wakeRequest 2 else s

end Sys2Proof.Machine
end

