-- ==== Sys2Proof/Machine/Grid.lean ====
section
/-!
DEFINITION. The scene grid (spec/02_scene_grid.md, R50 to R70): writes, scroll, sweep, fields and bands, the beat
evaluation, the object cross-check, and the grid's fault steps.
-/
namespace Sys2Proof.Machine

/-! ### Cells (R52, R54) -/

/-- A cleared cell (R52). -/
def Cell.zero : Cell := ⟨0, 0, 0, 0, 0, 0, 0, 0, false, false, false, false, false, false, false⟩

/-- The record of a cell as the 128 bits of R52. -/
def Cell.record (c : Cell) : Nat :=
  packNat [(0, 8, ofInt 8 c.chkLo), (8, 8, ofInt 8 c.clmLo), (16, 8, c.disAcc), (24, 8, c.margin), (32, 4, c.height),
    (36, 4, c.cls), (40, 16, c.chkFrame), (56, 16, c.clmFrame), (72, 1, b2n c.chkSeen), (73, 1, b2n c.clmSeen),
    (74, 1, b2n c.chkObj), (75, 1, b2n c.clmObj), (76, 1, b2n c.evalUndec), (77, 1, b2n c.evalDis), (78, 1, b2n c.clsSrc)]

/-- The checker layer cleared, with CLASS where that layer owns it (R52). -/
def Cell.clearChecker (c : Cell) : Cell :=
  { c with chkLo := 0, margin := 0, height := 0, chkFrame := 0, chkSeen := false, chkObj := false
           cls := if c.clsSrc then c.cls else 0 }

/-- The claim layer cleared, with CLASS and CLASS_SRC where that layer owns them (R52). -/
def Cell.clearClaim (c : Cell) : Cell :=
  { c with clmLo := 0, clmFrame := 0, clmSeen := false, clmObj := false
           cls := if c.clsSrc then 0 else c.cls, clsSrc := false }

/-- An interval stored as a midpoint and a radius rounded outward (R54).
(DEDUCED, unsafe: notes/assumptions/21.md.) -/
def midRadius (lo hi : Int) : Int × Nat :=
  let m := (lo + hi).fdiv 2
  (m, (min 255 (hi - m)).toNat)

/-- A checker write (R54): the first of a frame replaces the value, later ones take the upper envelope.
(DESIGN CHOICE, unsafe: notes/assumptions/19.md.) -/
def Cell.checkerWrite (x : Cell) (w : CheckerWrite) (frame : Nat) : Cell :=
  let same := x.chkSeen && x.chkFrame == frame
  let lo := w.c - w.r
  let hi := w.c + w.r
  let lo := if same then max lo (x.chkLo - x.margin) else lo
  let hi := if same then max hi (x.chkLo + x.margin) else hi
  let mr := midRadius (sat8 lo) (sat8 hi)
  { x with chkLo := mr.1, margin := mr.2, chkFrame := frame, chkSeen := true, height := w.height
           chkObj := x.chkObj || w.obj
           cls := if w.obj then w.cls else x.cls
           clsSrc := if w.obj then false else x.clsSrc }

/-- A claim write of value `v` (R55): the first of a frame replaces, later ones take the maximum. -/
def Cell.claimWrite (x : Cell) (v : Int) (obj : Option Nat) (frame : Nat) : Cell :=
  let same := x.clmSeen && x.clmFrame == frame
  { x with clmLo := if same then max x.clmLo v else v, clmFrame := frame, clmSeen := true
           clmObj := x.clmObj || obj.isSome
           cls := obj.getD x.cls
           clsSrc := x.clsSrc || obj.isSome }

/-- The frame number of the present frame, mod 65,536. -/
def State.frame16 (s : State) : Nat := s.sched.frame % 65536

/-- The number of a cell inside the grid. -/
def cellNo (x y : Int) : Option Nat :=
  if 0 ≤ x ∧ x < 1024 ∧ 0 ≤ y ∧ y < 512 then some (y.toNat * 1024 + x.toNat) else none

/-- The scroll applied since a source frame (R57): the shifts of the ticks that started later frames. -/
def State.scrollSince (s : State) (srcFrame : Nat) : Int × Int :=
  (s.grid.poses.filter (fun p => decide (srcFrame < p.frame))).foldl (fun a p => (a.1 + p.nx, a.2 + p.ny)) (0, 0)

/-- The source frame is more than 3 frames old (R57). -/
def State.lateWrite (s : State) (srcFrame : Nat) : Bool := decide (srcFrame + 3 < s.sched.frame)

/-- A bit of `GRID_ERR` is set, and an event names it when it is new (R84, R341). -/
def State.gridErr (s : State) (n : Nat) : State :=
  if s.grid.err.getLsbD n then s
  else ({ s with grid := { s.grid with err := s.grid.err ||| BitVec.twoPow 8 n } } : State).event 0x5100 (2 ^ n)

/-- One cell of plane 0 rewritten. -/
def State.modCell (s : State) (k : Nat) (f : Cell → Cell) : State :=
  { s with grid := { s.grid with plane0 := Sparse.put Cell.zero s.grid.plane0 k (f (Sparse.get Cell.zero s.grid.plane0 k)) } }

/-- The check that a graph performs in the frame in progress counts as not completed: D5 (R20, R57, R69). -/
def State.checkFailed (s : State) (graph : Nat) : State :=
  let s1 : State := { s with sched := { s.sched with failed := s.sched.failed ||| BitVec.twoPow 64 graph } }
  s1.addDoubt 5

/-- The field check of the frame counts as not completed (R60, R559). -/
def State.fieldCheckFailed (s : State) : State :=
  ({ s with sched := { s.sched with fieldFailed := true } } : State).addDoubt 5

/-- A checker write reaches the grid engine (R54, R57). -/
def State.applyChecker (s : State) (w : CheckerWrite) : State :=
  if s.lateWrite w.srcFrame then (s.gridErr 2).checkFailed w.graph
  else
    let d := s.scrollSince w.srcFrame
    match cellNo (w.x - d.1) (w.y - d.2) with
    | some k => ({ s with grid := { s.grid with wbuf := s.grid.wbuf + 1 } } : State).modCell k fun c => c.checkerWrite w s.frame16
    | none => s

/-- The write buffer has room (R58).
(DEDUCED, unsafe: notes/assumptions/20.md.) -/
def State.bufferRoom (s : State) : Bool := decide (s.grid.wbuf < 4096)

/-- A checker write: applied, or its agent stalls on a full buffer (R58).
(DEDUCED, unsafe: notes/assumptions/20.md.) -/
def State.checkerWrite (s : State) (w : CheckerWrite) : State :=
  if s.bufferRoom ∧ s.grid.stalled = [] then s.applyChecker w
  else ({ s with grid := { s.grid with stalled := s.grid.stalled ++ [w] } } : State).gridErr 3

/-- The buffer gains room and the stalled writer that came first resumes (R58).
(DEDUCED, unsafe: notes/assumptions/20.md.) -/
def State.writeBufferRoom (s : State) : State :=
  match s.grid.stalled with
  | w :: ws => if s.bufferRoom then ({ s with grid := { s.grid with stalled := ws } } : State).applyChecker w else s
  | [] => s

/-! ### Claim writes (R55) -/

/-- The pose of a frame among the last 4 ticks (R57). -/
def State.poseOf (s : State) (srcFrame : Nat) : Option PoseRec := s.grid.poses.find? fun p => p.frame == srcFrame

/-- A cell's centre seen from the machine reference point, in machine axes, under a pose (R51). -/
def State.cellAt (s : State) (p : PoseRec) (x y : Int) : Rat × Rat :=
  let mm : Rat := s.cellMm
  toMachine p.psi (((x - s.egoCol : Int) : Rat) * mm + mm / 2 - p.offX, ((y - s.egoRow : Int) : Rat) * mm + mm / 2 - p.offY)

/-- What a claim item writes at a ground vector `w` seen from the camera's ground point (R55): a value, and the class
of an object. -/
def State.claimAt (s : State) (m : CamModel) (it : ClaimItem) (w : Rat × Rat) : Option (Int × Option Nat) :=
  let dist := groundDist w
  if dist > m.maxRange then none
  else match it with
    | .object cls x0 x1 y1 range =>
      let base := match range with
        | some r => some (r : Rat)
        | none => (m.ground (((x0 : Rat) + x1) / 2) y1).map groundDist
      match base with
      | none => none
      | some d0 =>
        let l := m.ray x0 y1
        let r := m.ray x1 y1
        if between (l.1, l.2.1) (r.1, r.2.1) w ∧ d0 ≤ dist ∧ dist ≤ d0 + s.claimDepth * s.cellMm then
          some (s.clmOcc, some cls) else none
    | .bin left right free =>
      let l := m.ray left m.height
      let r := m.ray right m.height
      if between (l.1, l.2.1) (r.1, r.2.1) w then
        match free with
        | none => some (s.clmFree, none)
        | some d => if dist < d then some (s.clmFree, none)
                    else if dist ≤ (d : Rat) + s.cellMm then some (s.clmOcc, none) else none
      else none

/-- The cells of the source frame's grid that a claim item writes, with what it writes.
(DEDUCED, safe: notes/assumptions/22.md.) -/
def State.claimCells (s : State) (p : PoseRec) (m : CamModel) (it : ClaimItem) : List (Int × Int × Int × Option Nat) :=
  (upto 524288).filterMap fun k =>
    let x : Int := (k % 1024 : Nat)
    let y : Int := (k / 1024 : Nat)
    let q := s.cellAt p x y
    (s.claimAt m it (q.1 - m.tx, q.2 - m.ty)).map fun v => (x, y, v.1, v.2)

/-- The footprint centre of an object claim, in the source frame's grid: on the azimuth of its bottom centre, half of
CLAIM_DEPTH behind its ground point (R55, R69).
(DESIGN CHOICE, unsafe: notes/assumptions/18.md.) -/
def State.claimCentre (s : State) (p : PoseRec) (m : CamModel) (it : ClaimItem) : Option (Int × Int) :=
  match it with
  | .bin _ _ _ => none
  | .object _ x0 x1 y1 range =>
    let u := ((x0 : Rat) + x1) / 2
    let d := m.ray u y1
    let len := groundDist (d.1, d.2.1)
    let base := match range with
      | some r => some (r : Rat)
      | none => (m.ground u y1).map groundDist
    base.map fun d0 =>
      let t := (d0 + s.claimDepth * s.cellMm / 2) / len
      let mx := m.tx + d.1 * t
      let my := m.ty + d.2.1 * t
      let gx := cosT (2 * p.psi) * mx - sinT (2 * p.psi) * my + p.offX
      let gy := sinT (2 * p.psi) * mx + cosT (2 * p.psi) * my + p.offY
      (s.egoCol + (gx / s.cellMm).floor, s.egoRow + (gy / s.cellMm).floor)

/-- A claim item reaches the grid (R55, R57); one more than 3 frames old is discarded and counts against no check. -/
def State.applyClaim (s : State) (w : ClaimWrite) : State :=
  if s.lateWrite w.srcFrame then s.gridErr 2
  else match s.poseOf w.srcFrame, s.camModel w.cam with
    | some p, some m =>
      let d := s.scrollSince w.srcFrame
      let cells := s.claimCells p m w.item
      let s1 := cells.foldl (fun (t : State) c =>
        match cellNo (c.1 - d.1) (c.2.1 - d.2) with
        | some k => t.modCell k fun x => x.claimWrite c.2.2.1 c.2.2.2 t.frame16
        | none => t) s
      let s1 : State := { s1 with grid := { s1.grid with wbuf := s1.grid.wbuf + cells.length } }
      match w.item, s.claimCentre p m w.item with
      | .object cls _ _ _ _, some c =>
        { s1 with grid := { s1.grid with claims := ⟨c.1 - d.1, c.2 - d.2, cls, w.srcFrame⟩ :: s1.grid.claims } }
      | _, _ => s1
    | _, _ => s

/-- The grid engine takes the next claim item, in arrival order (R243); a full buffer stalls it (R58). -/
def State.claimWrite (s : State) : State :=
  match s.grid.claimQ with
  | [] => s
  | w :: ws =>
    if s.bufferRoom then ({ s with grid := { s.grid with claimQ := ws } } : State).applyClaim w
    else s.gridErr 3

/-! ### Scroll (R59, R60) and sweep (R61) -/

/-- Cells moved by (−nx, −ny); what leaves the grid is dropped, and the exposed strips read as cleared (R59). -/
def shiftCells (m : Sparse Cell) (nx ny : Int) : Sparse Cell :=
  m.foldl (fun a kv =>
    match cellNo ((kv.1 % 1024 : Nat) - nx) ((kv.1 / 1024 : Nat) - ny) with
    | some k => Sparse.put Cell.zero a k kv.2
    | none => a) []

/-- The advance of the pose at a tick (R59): d in mm, the yaw rate, the frame length in beats.
(DEDUCED, unsafe: notes/assumptions/17.md.)
(DESIGN CHOICE, unsafe: notes/assumptions/18.md.) -/
def State.poseStep (s : State) (d : Int) (yaw : Int) (frameBeats : Nat) : PoseRec :=
  let g := s.grid
  let mm : Rat := s.cellMm
  let dpsi := Config.yawTurn yaw frameBeats
  let mid := ((2 * (g.psi : Int) + dpsi) % 2 ^ 33).toNat
  let ox := g.offX + d * cosT mid
  let oy := g.offY + d * sinT mid
  let nx := (ox / mm).floor
  let ny := (oy / mm).floor
  ⟨s.sched.frame, (((g.psi : Int) + dpsi) % 2 ^ 32).toNat, ox - nx * mm, oy - ny * mm, nx, ny⟩

/-- A scroll beyond 64 cells (R60). -/
def scrollTooFar (p : PoseRec) : Bool := decide (p.nx.natAbs > 64 ∨ p.ny.natAbs > 64)

/-- The scroll at a frame tick (R59, R60): pose, content, object table and claims move; the sweep begins.
(DEDUCED, unsafe: notes/assumptions/17.md.)
(DESIGN CHOICE, unsafe: notes/assumptions/18.md.) -/
def State.scroll (s : State) (p : PoseRec) : State :=
  let g := s.grid
  let lost := scrollTooFar p
  let s1 : State := { s with grid := { g with
    psi := p.psi, offX := p.offX, offY := p.offY, nx := p.nx, ny := p.ny
    poses := (p :: g.poses).take 4
    plane0 := if lost then [] else shiftCells g.plane0 p.nx p.ny
    plane1 := shiftCells g.plane1 p.nx p.ny
    objs := g.objs.map fun o => { o with x := o.x - p.nx, y := o.y - p.ny }
    claims := (g.claims.filter fun c => decide (s.sched.frame ≤ c.srcFrame + 8)).map fun c =>
      { c with x := c.x - p.nx, y := c.y - p.ny }
    sweepSince := some s.beat } }
  if lost then (s1.gridErr 1).fieldCheckFailed else s1

/-- age(v) of R61. -/
def ageI (decay : Nat) (v : Int) : Int := if 0 ≤ v then max (v - decay) 0 else min (v + decay) 0

/-- What R66 finds of a cell. -/
inductive CellClass where
  | disagree | undecided | phantom | agree
  deriving DecidableEq, Repr

/-- The classification of R66.
(DESIGN CHOICE, unsafe: notes/assumptions/19.md.) -/
def Cell.classify (c : Cell) (occT freeT : Int) : CellClass :=
  let lo := c.chkLo - c.margin
  let hi := c.chkLo + c.margin
  let free := c.clmSeen && decide (c.clmLo ≤ freeT)
  if c.chkSeen && decide (occT ≤ lo) && free then .disagree
  else if c.chkSeen && decide (lo < occT ∧ occT ≤ hi) && free then .undecided
  else if (!c.chkSeen || decide (hi < occT)) && c.clmSeen && decide (occT ≤ c.clmLo) then .phantom
  else .agree

/-- The polygon of a band, in quarter cells, and whether a cell offset from the ego cell lies in its mask at a
heading (R62). -/
def State.inMask (s : State) (flr : Bool) (field band psi : Nat) (dx dy : Rat) : Bool :=
  let vs := (upto (s.bandVcount flr field band)).map fun v =>
    let p := s.bandVertex flr field band v
    ((p.1 : Rat), (p.2 : Rat))
  inPolygon vs (toMachine psi (4 * dx, 4 * dy))

/-- Cell number `k` lies in a main mask. -/
def State.inMainMask (s : State) (field band psi k : Nat) : Bool :=
  s.inMask false field band psi (((k % 1024 : Nat) : Rat) - s.egoCol) (((k / 1024 : Nat) : Rat) - s.egoRow)

/-- Steps 2 to 5 of the sweep on one cell (R61).
(DESIGN CHOICE, unsafe: notes/assumptions/19.md.) -/
def State.sweepCell (s : State) (k : Nat) (c : Cell) : Cell :=
  let f := s.frame16
  let newChk := c.chkSeen && c.chkFrame == f
  let newClm := c.clmSeen && c.clmFrame == f
  let c1 := if newChk then c
            else if c.chkSeen && decide (((f : Int) - c.chkFrame) % 65536 > s.chkStale) then c.clearChecker
            else
              let mr := midRadius (ageI s.chkDecay (c.chkLo - c.margin)) (ageI s.chkDecay (c.chkLo + c.margin))
              { c with chkLo := mr.1, margin := mr.2 }
  let c2 := if newClm then c1
            else if c.clmSeen && decide (((f : Int) - c.clmFrame) % 65536 > s.clmStale) then c1.clearClaim
            else { c1 with clmLo := ageI s.clmDecay c1.clmLo }
  let (field, band, psi) := s.ev.closing
  let cl := if s.inMainMask field band psi k then c2.classify (s.bandOccT false field band) (s.bandFreeT false field band)
            else .agree
  { c2 with evalUndec := cl == .undecided, evalDis := cl == .disagree
            disAcc := if cl == .disagree then satInc 255 c2.disAcc else 0
            chkObj := newChk && c2.chkObj, clmObj := newClm && c2.clmObj }

/-- The frame sweep (R61): plane 1 takes plane 0, and every cell of plane 0 is aged and classified.
(DESIGN CHOICE, unsafe: notes/assumptions/19.md.) -/
def State.sweepComplete (s : State) : State :=
  match s.grid.sweepSince with
  | none => s
  | some _ =>
    { s with grid := { s.grid with
        plane1 := s.grid.plane0
        plane0 := s.grid.plane0.foldl (fun a kv => Sparse.put Cell.zero a kv.1 (s.sweepCell kv.1 kv.2)) []
        sweepSince := none } }

/-! ### Fields, masks and bands (R62 to R65) -/

/-- The masks of the coming frame are rasterised (R62, R65): the fields of the INTENT direction, or those in use while
the watch is in STOPPING or STANDSTILL (R77). -/
def State.rasterise (s : State) : State :=
  let hold := s.watch.wstate == .stopping || s.watch.wstate == .standstill
  { s with ev := { s.ev with
      closing := (s.ev.mainField, s.ev.band, s.ev.maskPsi)
      nextField := if hold then s.ev.mainField else s.mainMap s.watch.intent.dir
      nextFloor := if hold then s.ev.floorField else s.floorMap s.watch.intent.dir
      nextPsi := s.grid.psi
      maskDue := some s.beat, maskNew := false } }

/-- The new frame's masks come into use (R65). -/
def State.masksReady (s : State) : State :=
  match s.ev.maskDue with
  | none => s
  | some _ => { s with ev := { s.ev with mainField := s.ev.nextField, floorField := s.ev.nextFloor, maskPsi := s.ev.nextPsi
                                         maskDue := none, maskNew := true } }

/-- The lowest band whose SPEED_MAX is at least a speed (R64). -/
def State.bandFor (s : State) (flr : Bool) (field v : Nat) : Nat :=
  ((upto 8).find? fun b => decide (v ≤ s.bandSpeedMax flr field b)).getD 7

/-- The runs of R64 after a beat at speed `v`: one per band. -/
def State.bandRunsNext (s : State) (flr : Bool) (field v : Nat) (runs : Vector Nat 8) : Vector Nat 8 :=
  vmapIdx (fun b r => if v + s.bandHyst ≤ s.bandSpeedMax flr field b then satInc 65535 r else 0) runs

/-- The lowest band below `cur` whose run has reached BAND_DOWN_BEATS (R64). -/
def State.bandBelow (s : State) (cur : Nat) (runs : Vector Nat 8) : Option Nat :=
  (upto cur).find? fun b => decide (s.bandDownBeats ≤ vget runs b 0)

/-- The end of a beat for the bands (R64): runs counted, and the move up for the next beat; nothing moves while
speed is invalid. -/
def State.bandBeat (s : State) : State :=
  match s.watch.speed with
  | none => { s with ev := { s.ev with bandRuns := vrep 8 0, floorBandRuns := vrep 8 0 } }
  | some v =>
    { s with ev := { s.ev with
        bandRuns := s.bandRunsNext false s.ev.mainField v s.ev.bandRuns
        floorBandRuns := s.bandRunsNext true s.ev.floorField v s.ev.floorBandRuns
        band := max s.ev.band (s.bandFor false s.ev.mainField v)
        floorBand := max s.ev.floorBand (s.bandFor true s.ev.floorField v) } }

/-- The move down of a band whose run is complete (R64). -/
def State.bandDown (s : State) : State :=
  { s with ev := { s.ev with
      band := (s.bandBelow s.ev.band s.ev.bandRuns).getD s.ev.band
      floorBand := (s.bandBelow s.ev.floorBand s.ev.floorBandRuns).getD s.ev.floorBand } }

/-! ### Evaluation (R66 to R68, R559) -/

/-- The listed cells of plane 0 in the main mask in use; every other cell is cleared and agrees. -/
def State.maskCells (s : State) : List Cell :=
  (s.grid.plane0.filter fun kv => s.inMainMask s.ev.mainField s.ev.band s.ev.maskPsi kv.1).map (·.2)

/-- The number of cells of a class among some. -/
def countClass (cs : List Cell) (occT freeT : Int) (k : CellClass) : Nat :=
  (cs.filter fun c => c.classify occT freeT == k).length

/-- No cell is occupied in either layer (R67). -/
def clearOf (cs : List Cell) (occT : Int) : Bool :=
  cs.all fun c => !(c.chkSeen && decide (occT ≤ c.chkLo + c.margin)) && !(c.clmSeen && decide (occT ≤ c.clmLo))

/-- The run of R68 after a beat: extended by C above the threshold, ended otherwise. -/
def runNext (run c thresh : Nat) : Nat := if thresh < c then satInc 65535 run else 0

/-- The evaluation of the main field in the present beat (R66, R67, R70). A lane mismatch makes the beat not clear and
extends the run.
(DESIGN CHOICE, unsafe: notes/assumptions/19.md.) -/
def State.evaluateMain (s : State) (mismatch : Bool) : State :=
  let cs := s.maskCells
  let o := s.bandOccT false s.ev.mainField s.ev.band
  let f := s.bandFreeT false s.ev.mainField s.ev.band
  let c := countClass cs o f .disagree
  { s with ev := { s.ev with
      c := c, u := countClass cs o f .undecided, phantom := min 65535 (countClass cs o f .phantom)
      mainClear := clearOf cs o && !mismatch
      run := if mismatch then satInc 65535 s.ev.run else runNext s.ev.run c (s.bandThresh false s.ev.mainField s.ev.band) } }

/-- A beat for which the island receives no evaluation (R559). -/
def State.noEvaluation (s : State) : State :=
  ({ s with ev := { s.ev with c := 0, u := 0, phantom := 0, mainClear := false } } : State).fieldCheckFailed

/-- The two counting lanes differ (R70): UC from source 62. -/
def State.laneMismatch (s : State) : State := (s.gridErr 5).raise 62 .uc 0

/-- The cell rule holds once the run has reached PERSIST (R68); a beat without an evaluation leaves it (R559). -/
def State.cellRulePersist (s : State) : State :=
  if s.ev.got = false then s
  else { s with ev := { s.ev with cellRule := decide (s.bandPersist false s.ev.mainField s.ev.band ≤ s.ev.run) } }

/-! ### The object cross-check (R69, R76) -/

/-- A detection is subject to the check (R69). -/
def State.subject (s : State) (o : ObjEntry) : Bool :=
  decide (s.objConfMin ≤ o.conf) &&
    match cellNo o.x o.y with
    | some k => s.inMainMask s.ev.mainField s.ev.band s.ev.maskPsi k
    | none => false

/-- An object claim matches a detection (R69). -/
def State.matches (s : State) (o : ObjEntry) (c : ObjClaim) : Bool :=
  decide (((o.srcFrame : Int) - c.srcFrame).natAbs ≤ s.claimMatchAge) && bitAt (s.classCompat o.cls) c.cls &&
    decide ((o.x - c.x).natAbs ≤ s.matchTol ∧ (o.y - c.y).natAbs ≤ s.matchTol)

/-- Matching of every detection against the object claims (R69). -/
def State.objectMatch (s : State) : State :=
  match s.grid.matchDue with
  | none => s
  | some _ =>
    { s with grid := { s.grid with
        matchDue := none
        objs := s.grid.objs.map fun o => { o with matched := o.matched || s.grid.claims.any (s.matches o) } } }

/-- The detections of a list as they enter the table (R69): positions corrected by the scroll since the source frame.
(DEDUCED, safe: notes/assumptions/22.md.) -/
def State.entriesOf (s : State) (cam srcFrame : Nat) (ds : List (Int × Int × Nat × Nat)) : List ObjEntry :=
  let d := s.scrollSince srcFrame
  ds.map fun x => ⟨cam, x.1 - d.1, x.2.1 - d.2, x.2.2.1, x.2.2.2, srcFrame, s.beat, false⟩

/-- A detection list replaces its camera's previous one, or is discarded in full past 1,024 entries (R69). -/
def State.detectionCommit (s : State) (cam srcFrame graph : Nat) (ds : List (Int × Int × Nat × Nat)) : State :=
  let rest := s.grid.objs.filter fun o => o.cam != cam
  if rest.length + ds.length > 1024 then (s.gridErr 0).checkFailed graph
  else { s with grid := { s.grid with objs := rest ++ s.entriesOf cam srcFrame ds, matchDue := some s.beat } }

/-- The object rule (R69): a subject detection is unmatched OBJ_GRACE beats after its commit. -/
def State.objGraceExpiry (s : State) : State :=
  if s.ev.got = false then s
  else { s with ev := { s.ev with
      objRule := s.grid.objs.any fun o => s.subject o && !o.matched && decide (o.commit + s.objGrace ≤ s.beat) } }

/-- D0's rules in the present beat (R69). -/
def State.d0Rules (s : State) : State := { s with ev := { s.ev with d0 := s.ev.cellRule || s.ev.objRule } }

/-! ### Cell errors, ARMING entry and read-out -/

/-- An uncorrectable error in a cell record (R70): the cell is cleared, UC from source 60 or 61. -/
def State.cellUe (s : State) (plane1 : Bool) (k : Nat) : State :=
  let g := s.grid
  let s1 : State := if plane1 then { s with grid := { g with plane1 := Sparse.put Cell.zero g.plane1 k Cell.zero } }
            else { s with grid := { g with plane0 := Sparse.put Cell.zero g.plane0 k Cell.zero } }
  (s1.gridErr 4).raise (if plane1 then 61 else 60) .uc k

/-- What the grid engine does on entry to ARMING (R51). -/
def State.gridOnArming (s : State) : State :=
  { s with
    grid := { s.grid with plane0 := [], plane1 := [], objs := [], claims := [], matchDue := none
                          psi := s.heading * 65536, offX := ((s.cellMm / 2 : Nat) : Rat), offY := ((s.cellMm / 2 : Nat) : Rat)
                          poses := [⟨s.sched.frame, s.heading * 65536, ((s.cellMm / 2 : Nat) : Rat), ((s.cellMm / 2 : Nat) : Rat), 0, 0⟩] }
    flr := { s.flr with cells := [], remX := ((2 * s.cellMm : Nat) : Rat), remY := ((2 * s.cellMm : Nat) : Rat) } }

/-- The record that the read-out registers show (R85). -/
def State.readoutRecord (s : State) : Nat :=
  (Sparse.get Cell.zero (if s.grid.addrPlane then s.grid.plane1 else s.grid.plane0) (s.grid.addrRow * 1024 + s.grid.addrCol)).record

/-- Reading `GRID_CELL_DATA_3` advances COL by one, wrapping within the row (R85). -/
def State.advanceCol (s : State) : State :=
  { s with grid := { s.grid with addrCol := (s.grid.addrCol + 1) % 1024 } }

end Sys2Proof.Machine
end

