-- ==== Sys2Proof/Machine/Floor.lean ====
section
/-!
DEFINITION. Snowdrop: the floor grid, the floor engines and the floor evaluation (spec/02_scene_grid.md R71 to R73,
spec/05_redundant_execution.md R179, R180, spec/11_reneb_image.md R376, spec/01_watch.md R24).
-/
namespace Sys2Proof.Machine

/-- A cleared floor cell (R71). -/
def FloorCell.zero : FloorCell := ⟨0, 0, 0, 0, 0, false⟩

/-- The 64 bits of a floor cell (R71). -/
def FloorCell.record (c : FloorCell) : Nat :=
  packNat [(0, 8, ofInt 8 c.lo), (8, 8, c.margin), (16, 16, c.frame), (32, 4, c.height), (36, 4, c.cls), (40, 1, b2n c.seen)]

/-- At least one floor engine is healthy. -/
def State.floorEngineOk (s : State) : Bool := s.flr.f0Ok || s.flr.f1Ok

/-- The two results of a cell as one interval: the hull (R72). -/
def hullOf (a : FloorWrite) (b : Option FloorWrite) : FloorWrite :=
  match b with
  | some b => { a with lo := min a.lo b.lo, hi := max a.hi b.hi }
  | none => a

/-- The result for a cell in a list. -/
def atCell (l : List FloorWrite) (x y : Nat) : Option FloorWrite := l.find? fun w => w.x == x && w.y == y

/-- The hull of both engines' results; a cell that one of them alone names takes that one's interval. -/
def hullAll (a b : List FloorWrite) : List FloorWrite :=
  a.map (fun w => hullOf w (atCell b w.x w.y)) ++ b.filter (fun w => (atCell a w.x w.y).isNone)

/-- Cells whose two intervals do not overlap (R179). -/
def disagreeing (a b : List FloorWrite) : List FloorWrite :=
  a.filter fun w => match atCell b w.x w.y with
    | some v => decide (w.hi < v.lo ∨ v.hi < w.lo)
    | none => false

/-- The lowest of some cells in row-major order, as row × 128 + column. -/
def lowestCell (l : List FloorWrite) : Nat := (l.map fun w => w.y * 128 + w.x).foldl min 8191

/-- One floor cell written (R71, R72). -/
def State.floorCellWrite (s : State) (w : FloorWrite) : State :=
  let mr := midRadius (sat8 w.lo) (sat8 w.hi)
  if w.x < 128 ∧ w.y < 64 then
    { s with flr := { s.flr with
        cells := Sparse.put FloorCell.zero s.flr.cells (w.y * 128 + w.x) ⟨mr.1, mr.2, s.frame16, w.height, w.cls, true⟩ } }
  else s

/-- A floor cycle is complete: its cells are written and its frame is the last completed one (R24, R72).
(DEDUCED, safe: notes/assumptions/66.md.) -/
def State.floorCommit (s : State) (ws : List FloorWrite) : State :=
  let s1 := ws.foldl (fun (t : State) w => t.floorCellWrite w) s
  { s1 with flr := { s1.flr with cycle := false, res0 := none, res1 := none, lastCycle := some s.sched.frame } }

/-- Non-overlapping intervals of a cycle: one UC fault from source 3, and the count of such cycles (R179).
(DEDUCED, safe: notes/assumptions/66.md.) -/
def State.floorDisagree (s : State) (a b : List FloorWrite) : State :=
  let d := disagreeing a b
  if d = [] then s
  else
    let k := lowestCell d
    let s1 : State := { s with floorPair := satInc 65535 s.floorPair }
    s1.raise 3 .uc (0x01000000 + k % 128 * 256 + k / 128)

/-- A floor engine delivers its results for the cycle (R72): with both healthy the first is held, and the hull is
written when both have delivered.
(DEDUCED, safe: notes/assumptions/66.md.) -/
def State.floorDeliver (s : State) (e1 : Bool) (ws : List FloorWrite) : State :=
  if s.flr.cycle = false ∨ (if e1 then s.flr.f1Ok else s.flr.f0Ok) = false then s
  else
    let f := if e1 then { s.flr with res1 := some ws } else { s.flr with res0 := some ws }
    let s1 : State := { s with flr := f }
    if s.flr.f0Ok && s.flr.f1Ok then
      match f.res0, f.res1 with
      | some a, some b => (s1.floorDisagree a b).floorCommit (hullAll a b)
      | _, _ => s1
    else s1.floorCommit ws

/-- A floor engine is removed for the power-on period (R180): UC from source 3; a delivery that the other had made
completes the cycle alone.
(DEDUCED, unsafe: notes/assumptions/23.md.) -/
def State.floorEngineFault (s : State) (e1 : Bool) (unit : Nat) : State :=
  if (if e1 then s.flr.f1Ok else s.flr.f0Ok) = false then s
  else
    let f := if e1 then { s.flr with f1Ok := false, f1Lost := true, res1 := none } else { s.flr with f0Ok := false, f0Lost := true, res0 := none }
    let s1 := ({ s with flr := f } : State).raise 3 .uc (0x02000000 + b2n e1 * 65536 + unit % 256)
    match (if e1 then f.res0 else f.res1) with
    | some ws => if s.flr.cycle then s1.floorCommit ws else s1
    | none => s1

/-- An uncorrectable floor-cell error (R72): the cell is cleared, UC from source 66. -/
def State.floorCellUe (s : State) (k : Nat) : State :=
  let s1 : State := { s with flr := { s.flr with cells := Sparse.put FloorCell.zero s.flr.cells k FloorCell.zero } }
  (s1.gridErr 7).raise 66 .uc k

/-! ### Scroll, ageing and the frame's end (R72) -/

/-- Floor cells moved by (−nx, −ny). -/
def shiftFloor (m : Sparse FloorCell) (nx ny : Int) : Sparse FloorCell :=
  m.foldl (fun a kv =>
    let x : Int := (kv.1 % 128 : Nat) - nx
    let y : Int := (kv.1 / 128 : Nat) - ny
    if 0 ≤ x ∧ x < 128 ∧ 0 ≤ y ∧ y < 64 then Sparse.put FloorCell.zero a (y.toNat * 128 + x.toNat) kv.2 else a) []

/-- A floor cell aged by FLOOR_DECAY (R72, R61). -/
def FloorCell.age (c : FloorCell) (decay : Nat) : FloorCell :=
  let mr := midRadius (ageI decay (c.lo - c.margin)) (ageI decay (c.lo + c.margin))
  { c with lo := mr.1, margin := mr.2 }

/-- The floor grid at a tick (R72): it scrolls by the same travel with its own remainder, and ages; a cycle that only
one engine delivered is dropped. -/
def State.floorTick (s : State) (dx dy : Rat) : State :=
  let size : Rat := 4 * s.cellMm
  let ox := s.flr.remX + dx
  let oy := s.flr.remY + dy
  let nx := (ox / size).floor
  let ny := (oy / size).floor
  let moved := shiftFloor s.flr.cells nx ny
  { s with flr := { s.flr with
      remX := ox - nx * size, remY := oy - ny * size
      cells := moved.foldl (fun a kv => Sparse.put FloorCell.zero a kv.1 (kv.2.age s.floorDecay)) []
      cycle := false, res0 := none, res1 := none } }

/-! ### Evaluation (R73) and availability (R24) -/

/-- Floor cell number `k` lies in the floor mask in use (R62): vertices are quarters of a floor cell from the centre of
the main ego cell, on which the floor grid is centred.
(DEDUCED, unsafe: notes/assumptions/21.md.) -/
def State.inFloorMask (s : State) (k : Nat) : Bool :=
  s.inMask true s.ev.floorField s.ev.floorBand s.ev.maskPsi
    (((k % 128 : Nat) : Rat) + 1 / 2 - 64) (((k / 128 : Nat) : Rat) + 1 / 2 - 32)

/-- A floor cell counts in F (R73): occupied up to hi, unknown, or not updated within 2 frames. -/
def State.floorCounts (s : State) (occT : Int) (c : FloorCell) : Bool :=
  !c.seen || decide (occT ≤ c.lo + c.margin) || decide (((s.frame16 : Int) - c.frame) % 65536 > 2)

/-- F of the present beat (R73). -/
def State.floorCount (s : State) : Nat :=
  let o := s.bandOccT true s.ev.floorField s.ev.floorBand
  ((upto 8192).filter fun k => s.inFloorMask k && s.floorCounts o (Sparse.get FloorCell.zero s.flr.cells k)).length

/-- The floor evaluation of the present beat (R73). -/
def State.evaluateFloor (s : State) : State :=
  let f := s.floorCount
  { s with ev := { s.ev with
      fCount := f, floorClear := f == 0
      floorRun := runNext s.ev.floorRun f (s.bandThresh true s.ev.floorField s.ev.floorBand) } }

/-- Occupancy is confirmed on PERSIST consecutive beats (R73); in FLOOR it is the trigger of cause 0x10. -/
def State.floorOccupancy (s : State) : State :=
  let occ := decide (s.bandPersist true s.ev.floorField s.ev.floorBand ≤ s.ev.floorRun)
  let s1 : State := { s with ev := { s.ev with floorOcc := occ } }
  if occ && s.watch.wstate == .floor then s1.addTrig .stopping 0x10 else s1

/-- A floor cycle has completed within the last 2 frames (R24).
(DEDUCED, unsafe: notes/assumptions/21.md.) -/
def State.floorRecent (s : State) : Bool :=
  match s.flr.lastCycle with
  | some f => decide (s.sched.frame ≤ f + 2)
  | none => false

end Sys2Proof.Machine
end

