-- ==== Sys2Proof/Machine/Energy.lean ====
section
/-!
DEFINITION. Energy credit (spec/06_time_plan_budget.md, R202 to R208): grants, charges, reconciliation and the thermal
factor. Energies are exact rationals in nJ; the registers show them rounded down.
-/
namespace Sys2Proof.Machine

/-! ### Grants (R202, R207) -/

/-- T of the scheduler's steps, in 0.125 °C: 100, 115 and 118 °C (R207). -/
def t100 : Int := 800
def t115 : Int := 920
def t118 : Int := 944

/-- The thermal factor of R207.
(DEDUCED, unsafe: notes/assumptions/38.md.) -/
def thermalFactor (t : Int) : Rat := if t ≤ t100 then 1 else if t115 ≤ t then 0 else ((t115 - t : Int) : Rat) / 120

/-- The thermal step in force (R207, R462). -/
def thermalStep (t : Int) : Nat := if t118 ≤ t then 3 else if t115 ≤ t then 2 else if t100 < t then 1 else 0

/-- Budget per beat, nJ (R202). -/
def State.budgetNj (s : State) : Nat := budgetMw s.powB * 2

/-- R_g, nJ (R202). -/
def State.grantRes (s : State) : Nat := reserveUj s.powB * 1000

/-- G_g, nJ (R202); 0 while the overcurrent fault is active (R448). -/
def State.grantGen (s : State) : Nat :=
  if s.pwr.overcurrent then 0
  else (max 0 ((s.budgetNj : Rat) - s.sched.staticEff - s.grantRes) * thermalFactor s.therm.tNow).floor.toNat

/-- The beat ceiling (R202), less the overdraw carried from the beat before (R204). -/
def State.beatCeiling (s : State) : Rat := (s.budgetNj : Rat) - s.sched.staticEff - s.sched.ceilCut

/-- The grant at the start of a beat (R202): each pool is filled up to its cap; what a negative pool is granted repays
its debt (R204). -/
def State.creditGrant (s : State) : State :=
  let cap := capBeats s.powB
  { s with sched := { s.sched with
      poolRes := min (s.sched.poolRes + s.grantRes) (s.grantRes * cap : Nat)
      poolGen := min (s.sched.poolGen + s.grantGen) (s.grantGen * cap : Nat) } }

/-! ### Allocation and charge (R203, R204) -/

def Credit.zero : Credit := ⟨0, 0⟩

def State.creditOf (s : State) (n : Nat) : Credit := vget s.sched.alloc n Credit.zero

/-- CORE_DRAW_UJ in nJ. -/
def State.drawNj (s : State) : Nat := coreDraw s.powB * 1000

/-- What a core at a level can be allocated (R203): SAFETY and CHECK from the reserve pool first, then from the general
pool; OPTIONAL and TEST from the general pool only. -/
def State.offer (s : State) (reserve : Bool) : Credit :=
  let draw : Rat := s.drawNj
  let r := if reserve then min draw (max 0 s.sched.poolRes) else 0
  ⟨r, min (draw - r) (max 0 s.sched.poolGen)⟩

/-- One core served. -/
def State.allocCore (s : State) (n : Nat) (c : Credit) : State :=
  { s with sched := { s.sched with
      poolRes := s.sched.poolRes - c.res, poolGen := s.sched.poolGen - c.gen
      alloc := vset s.sched.alloc n c } }

/-- Cores served in order until the next one's allocation would pass the ceiling (R203). -/
def State.allocate (s : State) (left : Rat) : List (Nat × Bool) → State
  | [] => s
  | (n, reserve) :: rest =>
    let c := s.offer reserve
    if c.res + c.gen ≤ left then (s.allocCore n c).allocate (left - (c.res + c.gen)) rest else s

/-- Unused allocation returns to its pool at the end of the beat (R203); the overdraw of the beat lowers the next
ceiling (R204). -/
def State.creditReturn (s : State) : State :=
  { s with sched := { s.sched with
      poolRes := s.sched.poolRes + (s.sched.alloc.toList.map (·.res)).foldl (· + ·) 0
      poolGen := s.sched.poolGen + (s.sched.alloc.toList.map (·.gen)).foldl (· + ·) 0
      alloc := vrep 32 Credit.zero
      ceilCut := s.sched.overdraw, overdraw := 0 } }

/-- A core's allocation covers a charge (R204); SAFETY never waits. -/
def State.covers (s : State) (n cls : Nat) (e : Rat) : Bool :=
  let a := s.creditOf n
  cls == 0 || decide (e ≤ if cls = 1 then a.res + a.gen else a.gen)

/-- A charge of `e` nJ before scaling (R204). SAFETY and CHECK take the reserve part first; what a SAFETY charge has
beyond the allocation comes from the reserve pool and is overdraw.
(DEDUCED, unsafe: notes/assumptions/38.md.) -/
def State.charge (s : State) (n cls : Nat) (e : Rat) : State :=
  let q := e * s.sched.costScale
  let a := s.creditOf n
  let r := if cls ≤ 1 then min q a.res else 0
  let g := min (q - r) a.gen
  { s with sched := { s.sched with
      alloc := vset s.sched.alloc n ⟨a.res - r, a.gen - g⟩
      poolRes := s.sched.poolRes - (q - r - g)
      overdraw := s.sched.overdraw + (q - r - g)
      charged := s.sched.charged + q, unscaled := s.sched.unscaled + e } }

/-- E_DESC and E_UOP of a cost entry, nJ (R204, R218). -/
def State.eDesc (s : State) (c : Nat) : Rat := (costDesc s.powB c : Rat)
def State.eUop (s : State) (c : Nat) : Rat := (costUop s.powB c : Rat) / 1000

/-! ### Reconciliation (R206) -/

/-- SCALE_MAX. -/
def State.scaleMax (s : State) : Rat := (scaleMaxQ s.powB : Rat) / 256

/-- COST_SCALE after a ratio (R206).
(DEDUCED, unsafe: notes/assumptions/38.md.) -/
def nextScale (scale ratio top : Rat) : Rat :=
  if scale < ratio then min ratio top else max 1 (scale - (scale - ratio) / 16)

/-- A / C0 (R206); a frame without a charge leaves the ratio open, and it is a free value.
(DEDUCED, unsafe: notes/assumptions/38.md.) -/
def State.energyRatio (s : State) (a : Nat) : Rat :=
  if s.sched.unscaled = 0 then (Config.freeNat s.freeCtr : Rat) / 256 else (a : Rat) * 1000 / s.sched.unscaled

/-- The update at a tick from A in µJ and the measured M (R206). The spec gives source 110 no info value: it is free.
(DEDUCED, unsafe: notes/assumptions/38.md.) -/
def State.reconcile (s : State) (a : Nat) : State :=
  let ratio := s.energyRatio a
  let m := if s.pwr.frameUnread then none else some ((s.pwr.energy / 1000).floor.toNat)
  let beyond := decide (s.scaleMax < ratio)
  let s1 := s.freed
  let s1 : State := { s1 with
    sched := { s1.sched with
      costScale := nextScale s.sched.costScale ratio s.scaleMax
      scaleLimit := beyond
      staticEff := match m with
        | some m => max ((staticUj s.powB : Rat) * 1000) (((m : Rat) - a) * 1000 / s.frameBeats)
        | none => s.sched.staticEff
      lastCharged := (s.sched.charged / 1000).floor.toNat, lastMeasured := m, charged := 0, unscaled := 0 }
    pwr := { s1.pwr with energy := 0, frameUnread := false } }
  let s1 := match m with
    | some _ => s1
    | none => s1.event 0x6101 (s.sched.frame % 2 ^ 32)
  if beyond then s1.freed.raise 110 .uc (s1.free (2 ^ 32)) else s1

end Sys2Proof.Machine
end

