-- ==== Sys2Proof/Machine/Runs.lean ====
section
/-!
DEFINITION. Runs and dispatch (spec/04_operators.md R129, R130, R150 to R153, spec/05_redundant_execution.md R159, R163, R171,
R186, R187, spec/06_time_plan_budget.md R194, R199 to R201, R209).
-/
namespace Sys2Proof.Machine

/-! ### Classes (R194) -/

/-- The classes dispatched in a watch state, bit per class; ARM's classes wait for the next tick. -/
def State.watchClasses (s : State) : Nat :=
  if s.img.isNone ∨ s.ldr.loading = true then 0
  else match s.watch.wstate with
    | .halt => 0
    | .stopped => 8
    | _ => if s.sched.classesFrom.isSome then 8 else 15

/-- A class is dispatched now: by the watch state (R194), and CHECK not while temperature sheds it (R210). -/
def State.classOn (s : State) (cls : Nat) : Bool := bitAt s.watchClasses cls && !(cls == 1 && s.sched.checkShed)

/-! ### Copies and cores (R137, R138, R158, R186) -/

/-- The copies of a graph: the instances of the golden graph are numbered by their cores. -/
def State.copiesOf (s : State) (g : Nat) : List Nat :=
  if s.isFloorGraph g then []
  else if s.isGolden g then (upto 32).filter fun n => bitAt (goldenCores s.strB) n && !(s.core n).retired
  else upto (gCopies s.graB g)

/-- The cores on which descriptor `k` of a copy runs. -/
def State.descCores (s : State) (g c k : Nat) : List Nat :=
  if s.isGolden g then [c] else (dIndices s.graB g k).map fun i => s.coreOf g c i

/-- The golden window is open on a core (R186).
(DEDUCED, unsafe: notes/assumptions/36.md.) -/
def State.goldenWindow (s : State) (n : Nat) : Bool :=
  s.goldenOn && s.ticksRun && bitAt (goldenCores s.strB) n && decide (s.sched.frameBeat < goldenBeats s.strB)

/-- A core takes new descriptors of a class of a graph now: in a window that allows it (R200), and in the golden window
the golden graph alone (R186, R187). -/
def State.coreAllows (s : State) (n g : Nat) : Bool :=
  let cls := gClass s.graB g
  (s.core n).pwr == .active && !(s.core n).retired && s.classOn cls &&
    if s.goldenWindow n then s.isGolden g else !s.isGolden g && bitAt (s.core n).classes cls

/-! ### A run becomes ready (R130, R199) -/

/-- A TEST graph is due in the frame in progress (R199). -/
def State.testDue (s : State) (g : Nat) : Bool :=
  match vget s.sched.lastDone g none with
  | some f => decide (s.sched.frame - f + 1 ≥ runCover s.planB g)
  | none => true

/-- A complete source frame that the graph has not yet used is there, or the graph needs none (R130, R199). -/
def State.sourceReady (s : State) (g : Nat) : Bool :=
  let x := gCtx s.graB g
  x == 0xFF || decide ((s.ctxAt x).delivered > (vget s.sched.lastUsed g none).getD 0)

/-- A run of the graph may become ready now. -/
def State.mayReady (s : State) (g : Nat) : Bool :=
  s.ticksRun && decide (g < graphCount s.graB) && !s.isFloorGraph g && !s.sched.shed.getLsbD g && !(s.run g).ready
    && s.classOn (gClass s.graB g) && !s.moveWaits g && decide (runEarliest s.planB g ≤ s.sched.frameBeat) && s.sourceReady g

/-- A run becomes ready, its STREAM tensors bound to the newest complete frame of its context (R199). -/
def State.runReady (s : State) (g : Nat) : State :=
  if s.mayReady g then
    s.modRun g fun r => { r with ready := true, src := if gCtx s.graB g = 0xFF then none else some (s.ctxAt (gCtx s.graB g)).delivered }
  else s

/-! ### Readiness of a descriptor (R93, R153, R171) -/

def State.retired? (s : State) (g c k : Nat) : Bool := (s.run g).retired.contains (c, k)
def State.skipped? (s : State) (g c k : Nat) : Bool := (s.run g).skipped.contains (c, k)

/-- A descriptor that writes the grid, or an EMIT. -/
def isOutput (op : Nat) : Bool := op == 0x41 || op == 0x53

/-- In the writer copy a GRID_WRITE, or an EMIT with DEST 1, waits until every COMPARE before it has compared equal
(R171). -/
def State.heldOutput (s : State) (g c k : Nat) : Bool :=
  let b := s.graB
  (dOp b g k == 0x41 || (dOp b g k == 0x53 && dH b g k 0x10 == 1)) && c == pWriter s.strB g &&
    (upto k).any fun j => dOp b g j == 0x50 && !(s.run g).equal.contains j

/-- A descriptor is in the sequencer of a core. -/
def State.inSeq (s : State) (n : Nat) (r : DescRef) : Bool := (s.core n).seq.any fun e => e.ref == r

/-- A descriptor of a copy is dispatched somewhere. -/
def State.dispatched (s : State) (g c k : Nat) : Bool := (upto 32).any fun n => s.inSeq n ⟨g, c, k⟩

/-- A descriptor is ready for a core (R93, R171). -/
def State.descReady (s : State) (n g c k : Nat) : Bool :=
  (s.run g).ready && (s.run g).cancelBy.isNone && !s.retired? g c k && !s.skipped? g c k && !s.inSeq n ⟨g, c, k⟩
    && !(dOp s.graB g k == 0x54 && (s.run g).barrier.contains (c, k, n))
    && (s.descCores g c k).contains n && !s.heldOutput g c k
    && (producers s.graB g k).all fun j => s.retired? g c j

/-- The level of a graph's work (R200): 0 SAFETY, 1 due TEST, 2 CHECK, 3 OPTIONAL, 4 TEST not due. -/
def State.level (s : State) (g : Nat) : Nat :=
  match gClass s.graB g with
  | 0 => 0
  | 1 => 2
  | 2 => 3
  | _ => if s.testDue g then 1 else 4

/-- The descriptors that are ready for a core in an open window, in the order of R200. -/
def State.readyOn (s : State) (n : Nat) : List DescRef :=
  (upto 5).flatMap fun l =>
    (s.graphs.filter fun g => s.level g == l && s.coreAllows n g).flatMap fun g =>
      (upto (gDescs s.graB g)).flatMap fun k => ((s.copiesOf g).filter fun c => s.descReady n g c k).map fun c => ⟨g, c, k⟩

/-- The level of a sequencer entry's work. -/
def State.entryLevel (s : State) (e : SeqEntry) : Nat := s.level e.ref.graph

/-- The highest-priority level that a core has ready (R203): in its sequencer or ready for it. -/
def State.coreLevel (s : State) (n : Nat) : Option Nat :=
  let ls := (((s.core n).seq.filter fun e => (e.left.toList.any (· != 0))).map fun e => s.entryLevel e)
    ++ ((s.readyOn n).take 1).map fun r => s.level r.graph
  ls.foldl (fun (o : Option Nat) l => some (match o with | some m => min m l | none => l)) none

/-- The cores in the order in which they are served (R203), with whether they may take from the reserve pool. -/
def State.serveOrder (s : State) : List (Nat × Bool) :=
  (upto 5).flatMap fun l =>
    ((upto 32).map fun i => (s.sched.startCore + i) % 32).filterMap fun n =>
      if s.coreLevel n = some l then some (n, l == 0 || l == 2) else none

/-- Allocation at the start of a beat (R203): the start index advances by one each beat. -/
def State.creditAllocate (s : State) : State :=
  let s1 := s.allocate s.beatCeiling s.serveOrder
  { s1 with sched := { s1.sched with startCore := (s1.sched.startCore + 1) % 32 } }

/-! ### Micro-operations of a descriptor (R151) -/

def cdiv (a b : Nat) : Nat := (a + b - 1) / b

/-- Units of up to 16 bytes of a pixel or cell in a tensor (R151). -/
def samplesOf (b : List Byte) (g t : Nat) : Nat :=
  let d0 := max 1 (tDim b g t 0)
  tElems b g t / d0 * cdiv (formatBytes (tFormat b g t) d0) 16

/-- Array operations of a convolution or matrix product: output channels and reduction length per group, positions.
(DEDUCED, unsafe: notes/assumptions/35.md.) -/
def arrayOps (groups co k v ktile : Nat) : Nat := groups * (cdiv co 32 * cdiv k ktile * cdiv v 32)

/-- The micro-operations of a descriptor (R151). COMPARE counts all pairs of its tensor.
(DEDUCED, unsafe: notes/assumptions/35.md.) -/
def uopCount (b : List Byte) (g k : Nat) : Nat :=
  let op := dOp b g k
  let t0 := dIn b g k 0
  let out := dOut b g k
  let elems := if out = noTensor then tElems b g t0 else tElems b g out
  let kh := dB b g k 0x10
  let kw := dB b g k 0x11
  let sh := max 1 (dB b g k 0x12)
  let sw := max 1 (dB b g k 0x13)
  let gr := max 1 (dH b g k 0x1A)
  let ci := dH b g k 0x1C
  let co := dH b g k 0x1E
  let v := dH b g k 0x28 * dH b g k 0x24 * dH b g k 0x26
  let ktile := if tFormat b g t0 = 0x02 ∧ tFormat b g (dIn b g k 1) = 0x02 then 64 else 32
  if op = 0x01 then arrayOps gr (co / gr) (kh * kw * (ci / gr)) v ktile
  else if op = 0x03 then arrayOps gr (co / gr) (cdiv kh sh * cdiv kw sw * (ci / gr)) v ktile
  else if op = 0x02 then cdiv ci 32 * (kh * kw) * cdiv v 32
  else if op = 0x04 then arrayOps 1 (dH b g k 0x14) (dH b g k 0x12) (dH b g k 0x10) ktile
  else if op = 0x05 then arrayOps 1 (dH b g k 0x14) (dH b g k 0x12) (dH b g k 0x10 * dH b g k 0x16) ktile
  else if op = 0x06 then
    dB b g k 0x19 * (2 * cdiv (dH b g k 0x1C) 32 * cdiv (dH b g k 0x1E) 32 * cdiv (dH b g k 0x1A) 32)
  else if op ∈ [0x10, 0x11, 0x13, 0x14, 0x15, 0x16, 0x17, 0x18, 0x28] then cdiv elems 4096
  else if op = 0x23 ∧ tLoc b g t0 = tLoc b g out ∧ tOffset b g t0 = tOffset b g out then 0
  else if op = 0x21 then cdiv (formatBytes (tFormat b g t0) (tElems b g t0)) 65536
  else if op ∈ [0x20, 0x22, 0x23, 0x24, 0x25, 0x26, 0x27] then cdiv (formatBytes (tFormat b g out) elems) 65536
  else if op = 0x30 ∨ op = 0x31 then cdiv (tElems b g t0) 4096
  else if op = 0x32 ∨ op = 0x33 then cdiv (dH b g k 0x16) 1024
  else if op = 0x41 then cdiv (samplesOf b g t0) 1024
  else if op ∈ [0x12, 0x40, 0x42] then cdiv (samplesOf b g out) 1024
  else if op = 0x50 ∨ op = 0x51 then cdiv (tElems b g t0) 4096
  else if op = 0x52 then cdiv (formatBytes (tFormat b g t0) (tElems b g t0)) 65536
  else if op = 0x53 then 1
  else 0

/-- The micro-operations of a descriptor by engine: SPLIT4 shares them over the four engines (R137, R151). Copy 1's
COMPARE does no work (R163).
(DEDUCED, unsafe: notes/assumptions/35.md.) -/
def uopShares (b : List Byte) (g c k : Nat) : Vector Nat 4 :=
  let n := if dOp b g k = 0x50 ∧ c = 1 then 0 else uopCount b g k
  vmapIdx (fun e _ => if dSplit b g k then (n + 3 - e) / 4 else if dEngine b g k = e then n else 0) (vrep 4 0)

/-! ### Completion (R150, R153) -/

def State.descs (s : State) (g : Nat) : List Nat := upto (gDescs s.graB g)

/-- Every descriptor of every copy has retired or is skipped. -/
def State.runOver (s : State) (g : Nat) : Bool :=
  (s.copiesOf g).all fun c => (s.descs g).all fun k => s.retired? g c k || s.skipped? g c k

/-- The run's check is complete (R150). -/
def State.checkComplete (s : State) (g : Nat) : Bool :=
  (s.run g).ready && !(s.run g).failed &&
    ((s.copiesOf g).all fun c => (s.descs g).all fun k => dOp s.graB g k != 0x53 || s.retired? g c k) &&
    ((s.descs g).all fun k => dOp s.graB g k != 0x50 || (s.run g).equal.contains k)

/-- A run that is over with its check complete is the graph's last completed one (R199). -/
def State.noteDone (s : State) (g : Nat) : State :=
  if s.runOver g && s.checkComplete g then
    { s with sched := { s.sched with lastDone := vset s.sched.lastDone g (some s.sched.frame) } }
  else s

/-- Descriptors of a copy that depend on one, directly or through others (R153). -/
def dependants (b : List Byte) (g k : Nat) : List Nat :=
  (upto (gDescs b g)).foldl (fun l j => if (producers b g j).any fun p => p == k || l.contains p then l ++ [j] else l) []

/-- A failed descriptor: it and its dependants are skipped, and the run fails (R153). -/
def State.descFail (s : State) (g c k : Nat) : State :=
  if (s.run g).ready && (s.copiesOf g).contains c && decide (k < gDescs s.graB g) && !s.retired? g c k then
    let ks := (k :: dependants s.graB g k).filter fun j => !s.retired? g c j
    let s1 := s.modRun g fun r => { r with skipped := r.skipped ++ ks.map fun j => (c, j) }
    let s1 : State := { s1 with cores := vmap (fun x => { x with seq := x.seq.filter fun e =>
      !(e.ref.graph == g && e.ref.copy == c && ks.contains e.ref.desc) }) s1.cores }
    s1.failRun g
  else s

/-- CRC-32C and CRC-64 as CHECKSUM computes them (R149, R237, R256). -/
def crc32c (bs : List Byte) : Nat := (crcLsb (w := 32) 0x1EDC6F41 0xFFFFFFFF bs ^^^ 0xFFFFFFFF).toNat
def crc64 (bs : List Byte) : Nat :=
  (crcLsb (w := 64) 0x42F0E1EBA9EA3693 0xFFFFFFFFFFFFFFFF bs ^^^ 0xFFFFFFFFFFFFFFFF).toNat

/-- CHECKSUM finds EXPECTED (R149, R150). -/
def State.checksumOk (s : State) (g c k : Nat) : Bool :=
  let b := s.graB
  let t := dIn b g k 0
  let bs := s.tensorBytes g c t 0 (formatBytes (tFormat b g t) (tElems b g t))
  if dH b g k 0x10 = 0 then crc32c bs == dW b g k 0x14 else crc64 bs == dW b g k 0x14 + 2 ^ 32 * dW b g k 0x18

/-- ENVELOPE_CHECK finds no more than COUNT_MAX elements above RAD_MAX (R150). -/
def State.envelopeOk (s : State) (g c k : Nat) : Bool :=
  let b := s.graB
  let t := dIn b g k 0
  decide (((upto (tElems b g t)).filter fun i => decide (dH b g k 0x10 < s.elemRaw g c t i / 256)).length ≤ dW b g k 0x14)

/-- A golden run has completed on a core (R186). -/
def State.goldenDone (s : State) (n : Nat) : State :=
  { s with golden := { s.golden with runs := (s.golden.runs + 1) % 65536, done := s.golden.done ||| BitVec.twoPow 32 n } }

/-- A descriptor retires (R95, R150): it leaves its sequencers; CHECKSUM and ENVELOPE_CHECK give their result; a run
that is over with its check complete is noted. -/
def State.retireDesc (s : State) (g c k : Nat) : State :=
  let s1 : State := { s with cores := vmap (fun x => { x with seq := x.seq.filter fun e => e.ref != ⟨g, c, k⟩ }) s.cores }
  let s1 := s1.modRun g fun r => { r with retired := (c, k) :: r.retired }
  let s1 :=
    if dOp s.graB g k = 0x52 ∧ s.checksumOk g c k = false then
      let s2 := s1.event 0x4101 (g + 256)
      if s.isGolden g then s2.modRun g fun r => { r with skipped := (c, k) :: r.skipped } else s2.failRun g
    else if dOp s.graB g k = 0x51 ∧ s.envelopeOk g c k = false then (s1.event 0x4101 g).failRun g
    else s1
  let over1 := s.isGolden g && (s1.descs g).all fun j => s1.retired? g c j && !s1.skipped? g c j
  (if over1 then s1.goldenDone c else s1).noteDone g

/-! ### Dispatch (R200, R201, R204) -/

/-- Room in a sequencer (R152, R201): 64 entries, four of them held for SAFETY. -/
def State.seqRoom (s : State) (n cls : Nat) : Bool := decide ((s.core n).seq.length < if cls = 0 then 64 else 60)

/-- The first descriptor that a core dispatches (R200). -/
def State.pick (s : State) (n : Nat) : Option DescRef :=
  (s.readyOn n).find? fun r =>
    let cls := gClass s.graB r.graph
    s.seqRoom n cls && s.covers n cls (s.eDesc (dCost s.graB r.graph r.desc) * s.sched.costScale)

/-- The start of a copy (R130, R159): the first binds the newest complete frame; the second needs that frame still in the
store. -/
def State.startCopy (s : State) (g : Nat) : State :=
  if (s.run g).started then s
  else
    let x := gCtx s.graB g
    let d := (s.ctxAt x).delivered
    let s1 := s.modRun g fun r => { r with started := true, src := if x = 0xFF then none else some d }
    if x = 0xFF then s1 else { s1 with sched := { s1.sched with lastUsed := vset s1.sched.lastUsed g (some d) } }

/-- A copy has begun: one of its descriptors has retired or is dispatched. -/
def State.copyBegun (s : State) (g c : Nat) : Bool :=
  (s.run g).retired.any (·.1 == c) || (upto 32).any fun n => (s.core n).seq.any fun e => e.ref.graph == g && e.ref.copy == c

/-- The bound frame of a run is gone before a copy of it could begin (R159). -/
def State.sourceLost (s : State) (g c : Nat) : Bool :=
  (s.run g).started && !s.copyBegun g c &&
    match (s.run g).src with
    | some d => !s.frameHeld (gCtx s.graB g) d
    | none => false

/-- A core dispatches the first ready descriptor in the order of R200: charged E_DESC, and entered in its sequencer
(R152, R204). A descriptor without micro-operations retires at once, COMPARE and BARRIER apart.
(DEDUCED, unsafe: notes/assumptions/35.md.) -/
def State.dispatch (s : State) (n : Nat) : State :=
  match s.pick n with
  | none => s
  | some r =>
    let b := s.graB
    if s.sourceLost r.graph r.copy then
      (s.modRun r.graph fun u => { u with skipped := u.skipped ++ (s.descs r.graph).map fun k => (r.copy, k) }).failRun r.graph
    else
      let cls := gClass b r.graph
      let s1 := (s.startCopy r.graph).charge n cls (s.eDesc (dCost b r.graph r.desc))
      let shares := uopShares b r.graph r.copy r.desc
      let s1 := s1.modCore n fun c => { c with seq := c.seq ++ [⟨r, cls, shares, vrep 4 0⟩] }
      let s1 := if dOp b r.graph r.desc = 0x54 then s1.modRun r.graph fun u => { u with barrier := (r.copy, r.desc, n) :: u.barrier } else s1
      if dOp b r.graph r.desc ≠ 0x50 ∧ dOp b r.graph r.desc ≠ 0x54 ∧ shares.toList.all (· == 0) then
        s1.retireDesc r.graph r.copy r.desc
      else s1

/-! ### BARRIER (R138, R150) and COMPARE (R163, R171) -/

/-- A BARRIER is passed when every core of its mask has reached it (R150). -/
def State.barrierPass (s : State) (g c k : Nat) : State :=
  if dOp s.graB g k = 0x54 ∧ k < gDescs s.graB g ∧ s.retired? g c k = false ∧ s.descCores g c k ≠ []
      ∧ ((s.descCores g c k).all fun n => s.inSeq n ⟨g, c, k⟩) = true then s.retireDesc g c k
  else s

/-- A COMPARE that is not equal (R171): held and later GRID_WRITE and EMIT of the run are skipped in both copies, the
check counts as not completed, and the disagreement is recorded and logged (R188, R191). -/
def State.compareUnequal (s : State) (g k : Nat) (ds : List Nat) : State :=
  let b := s.graB
  let t := dIn b g k 0
  let e := ds.headD 0
  let list := dB b g k 0x12 = 2 ∧ isDetections b g k = true
  let raw := fun (c : Nat) => if list then u8 (s.tensorBytes g c t e 1) 0 else s.elemRaw g c t e
  let cut := ((s.descs g).filter fun j => decide (k < j) && isOutput (dOp b g j)).flatMap fun j =>
    ([0, 1].filter fun c => !s.retired? g c j && !s.dispatched g c j && !s.skipped? g c j).map fun c => (c, j)
  let first := !(s.run g).unequal
  let s1 := s.modRun g fun r => { r with skipped := r.skipped ++ cut, unequal := true }
  let s1 : State := { s1 with cmp := { s1.cmp with
    checkpoint := dH b g k 0x10, mode := dB b g k 0x12, graph := g, element := e, a := raw 0, b := raw 1
    elems := min 65535 ds.length, runs := if first then satInc 65535 s1.cmp.runs else s1.cmp.runs } }
  let s1 := s1.event 0x4102 (g + dH b g k 0x10 * 2 ^ 16 + ds.length % 2 ^ 32 * 2 ^ 32)
  let s1 : State := { s1 with sched := { s1.sched with failed := s1.sched.failed ||| BitVec.twoPow 64 g } }
  if gClass b g ≤ 1 then s1.addDoubt 5 else s1

/-- The comparison of a checkpoint once both copies have reached it and its pairs have been read (R163): it compares equal
when every consumed pair agrees, and both copies' descriptors retire. -/
def State.compareExecute (s : State) (g k : Nat) : State :=
  if dOp s.graB g k = 0x50 ∧ k < gDescs s.graB g ∧ s.dispatched g 0 k = true ∧ s.dispatched g 1 k = true
      ∧ ((upto 32).all fun n => (s.core n).seq.all fun e =>
          e.ref != ⟨g, 0, k⟩ || (e.left.toList.all (· == 0) && e.fly.toList.all (· == 0))) = true then
    let ds := s.compareDiffs g k
    let s1 := if ds = [] then s.modRun g fun r => { r with equal := k :: r.equal } else s.compareUnequal g k ds
    (s1.retireDesc g 0 k).retireDesc g 1 k
  else s

/-! ### The end of a frame (R112, R150, R208, R209) -/

/-- The mandatory checks of the frame in progress: SAFETY and CHECK graphs, where the watch state dispatches them. -/
def State.mandatory (s : State) : List Nat :=
  if bitAt s.watchClasses 0 then s.graphs.filter fun g => gClass s.graB g ≤ 1 && !s.isFloorGraph g else []

/-- Every check of the frame in progress is complete (R20): no mandatory check has failed or is unfinished, and the field
check has not failed. -/
def State.checksComplete (s : State) : Bool :=
  (s.mandatory.all fun g => s.checkComplete g && !s.sched.failed.getLsbD g && s.runOver g) && !s.sched.fieldFailed

/-- Runs that were ready and have not retired at the tick (R209).
(DEDUCED, unsafe: notes/assumptions/37.md.) -/
def State.overruns (s : State) : List Nat := s.graphs.filter fun g => (s.run g).ready && !s.runOver g

/-- The descriptors of a graph leave the sequencers and its outstanding micro-operations take no further credit (R209). -/
def State.cancelRun (s : State) (g : Nat) : State :=
  let gone := fun (n e : Nat) => (((s.core n).seq.filter fun x => x.ref.graph == g).map fun x => vget x.fly e 0).foldl (· + ·) 0
  let s1 : State := { s with
    cores := vmap (fun x => { x with seq := x.seq.filter fun e => e.ref.graph != g }) s.cores
    engs := vmapIdx (fun i e => { e with inflight := e.inflight - gone (i / 4) (i % 4) }) s.engs }
  s1.modRun g fun r => { r with cancelBy := none }

/-- The cancellation of an overrun or shed run is complete (R209, R210). -/
def State.microopsCancelled (s : State) (g : Nat) : State := if (s.run g).cancelBy.isSome then s.cancelRun g else s

/-- Cancellations whose 4 beats are over. -/
def State.cancelBound (s : State) : State :=
  (upto 64).foldl (fun (t : State) g => match (t.run g).cancelBy with
    | some b => if b ≤ t.beat then t.cancelRun g else t
    | none => t) s

/-- A run is cancelled within 4 beats. -/
def State.startCancel (s : State) (g : Nat) : State := s.modRun g fun r => { r with cancelBy := some (s.beat + 4) }

/-- A BARRIER that some core reached and not all did by the frame's end fails its run (R150). -/
def State.barrierFailures (s : State) : State :=
  s.graphs.foldl (fun (t : State) g =>
    if (t.run g).barrier.any fun x => !t.retired? g x.1 x.2.1 && !t.skipped? g x.1 x.2.1 then t.event 0x4101 (g + 2 * 256) else t) s

/-- The overruns of the closing frame (R209): marked, cancelled, and D5 for a mandatory check. -/
def State.markOverruns (s : State) : State :=
  let over' := s.overruns
  let mand := s.mandatory
  let s1 := over'.foldl (fun (t : State) g =>
    let t := t.startCancel g
    if gClass s.graB g ≤ 1 then t else t.event 0x6100 (g + 256)) s
  let bad := over'.any fun g => mand.contains g
  let s1 : State := { s1 with sched := { s1.sched with
    ovr := over'.foldl (fun m g => m ||| BitVec.twoPow 64 g) 0
    ovrFrames := if bad then satInc 65535 s1.sched.ovrFrames else s1.sched.ovrFrames } }
  if s.checksComplete then s1 else s1.addDoubt 5

/-- A new frame's runs: nothing ready; a run whose cancellation is under way keeps its deadline. -/
def State.newRuns (s : State) : State :=
  { s with sched := { s.sched with
      runs := vmap (fun r => { RunState.default with cancelBy := r.cancelBy }) s.sched.runs
      failed := 0, fieldFailed := false } }

/-! ### The forecast (R208) -/

/-- ENERGY × copies × COST_SCALE of a graph; copies that move in this frame do not run (R182). -/
def State.runEnergy (s : State) (g : Nat) : Rat :=
  (gEnergy s.graB g : Rat) * ((s.copiesOf g).filter fun c => !(s.alt.switching && s.moved g c)).length * s.sched.costScale

def State.sumEnergy (s : State) (gs : List Nat) : Rat := (gs.map s.runEnergy).foldl (· + ·) 0

/-- Graphs shed in order while the need exceeds what there is. -/
def State.shedWhile (s : State) (gs : List Nat) (need : Rat) (ok : Rat → Bool) : List Nat × Rat :=
  match gs with
  | [] => ([], need)
  | g :: rest =>
    if ok need then ([], need)
    else
      let r := s.shedWhile rest (need - s.runEnergy g) ok
      (g :: r.1, r.2)

/-- The graphs that the forecast sheds (R208). -/
def State.forecast (s : State) : List Nat :=
  let fb : Rat := s.frameBeats
  let res : Rat := reserveUj s.powB * fb
  let gen : Rat := s.grantGen * fb / 1000
  let gs := s.graphs.filter fun g => !s.isFloorGraph g
  let of := fun (c : Nat) => gs.filter fun g => gClass s.graB g == c
  let check := s.shedWhile (of 1) (s.sumEnergy (of 0 ++ of 1)) fun need => decide (need ≤ res + gen) && decide (s.therm.tNow < t118)
  let gen2 := gen - max 0 (check.2 - res)
  let due := (of 3).filter s.testDue
  let notDue := (of 3).filter fun g => !s.testDue g
  let rest := s.shedWhile (of 2 ++ notDue) (s.sumEnergy (due ++ of 2 ++ notDue)) fun need => decide (need ≤ gen2)
  check.1 ++ rest.1

/-- The forecast at a tick takes effect (R208, R209): a shed mandatory check raises D5, every other shed run is an event. -/
def State.applyForecast (s : State) : State :=
  let gs := s.forecast
  let active := bitAt s.watchClasses 0
  let bad := active && gs.any fun g => gClass s.graB g ≤ 1
  let s1 := gs.foldl (fun (t : State) g => if gClass s.graB g ≤ 1 then t else t.event 0x6100 g) s
  let s1 : State := { s1 with sched := { s1.sched with
    shed := gs.foldl (fun m g => m ||| BitVec.twoPow 64 g) 0
    failed := gs.foldl (fun m g => if gClass s.graB g ≤ 1 then m ||| BitVec.twoPow 64 g else m) s1.sched.failed
    shedFrames := if bad then satInc 65535 s1.sched.shedFrames else s1.sched.shedFrames } }
  if bad then s1.addDoubt 5 else s1

/-- T of 118 °C or above stops all CHECK work (R207, R210): every CHECK run of the frame counts as not completed. -/
def State.shedCheck (s : State) : State :=
  if t118 ≤ s.therm.tNow ∧ s.sched.checkShed = false ∧ s.ticksRun then
    let gs := s.graphs.filter fun g => gClass s.graB g == 1
    let s1 := gs.foldl (fun (t : State) g => (if (t.run g).ready then t.startCancel g else t).failRun g) s
    let s1 : State := { s1 with sched := { s1.sched with checkShed := true } }
    if bitAt s.watchClasses 0 then s1.addDoubt 5 else s1
  else s

/-- Numeric flags of the closing frame (R112): one event per core, and each engine's LFSR is seeded (R110). -/
def State.numericFlags (s : State) : State :=
  let s1 := (upto 32).foldl (fun (t : State) n =>
    let f := (upto 4).foldl (fun (m : BitVec 8) e => m ||| (t.eng (4 * n + e)).frameFlags) 0
    if f = 0 then t else t.record (.engine (4 * n)) 0x4100 0xFF .event (n + 256 * f.toNat)) s
  let seed := fun (g : Nat) => lfsrSeed (stochSeed s.strB) s.sched.frame g
  { s1 with engs := vmapIdx (fun g e => { e with frameFlags := 0, seed := seed g, lfsr := seed g, hwm := e.inflight }) s1.engs }

/-! ### The golden-frame test (R186, R187) -/

/-- An engine of a core has set ACC_SAT in the frame (R112, R186). -/
def State.accSat (s : State) (n : Nat) : Bool := (upto 4).any fun e => (s.eng (4 * n + e)).frameFlags.getLsbD 0

/-- The golden run of a core has failed, or has not finished within GOLDEN_BEATS.
(DEDUCED, unsafe: notes/assumptions/36.md.) -/
def State.goldenBad (s : State) (n : Nat) : Bool :=
  s.goldenOn && s.ticksRun && bitAt (goldenCores s.strB) n && !(s.core n).retired && s.classOn 3 &&
    !s.golden.done.getLsbD n &&
    ((s.run (goldenGraph s.strB)).skipped.any (·.1 == n) || (s.run (goldenGraph s.strB)).failed || s.accSat n || decide (goldenBeats s.strB ≤ s.sched.frameBeat + 1))

/-- A golden failure is UC from source 28 + n, unit code 0x18, and retires the core (R187). -/
def State.goldenFail (s : State) (n : Nat) : State :=
  if s.goldenBad n then
    ({ s with golden := { s.golden with lastFail := n, fails := satInc 255 s.golden.fails } } : State).coreFault n 0 0x18
  else s

end Sys2Proof.Machine
end

