-- ==== Sys2Proof/Machine/Streams.lean ====
section
/-!
DEFINITION. Camera streams (spec/07_camera_claim_streams.md R224 to R235): ports, contexts and the frame store,
forwarding and stamps; the Crocus injector (R244 to R248); the floor cycle and floor availability (R24, R376).
-/
namespace Sys2Proof.Machine

/-! ### Port and context records (R226 to R228, R374) -/

def portByte (b : List Byte) (p o : Nat) : Nat := u8 b (0x40 + 16 * p + o)
def pRole (b : List Byte) (p : Nat) : Nat := portByte b p 0
def pRxPhy (b : List Byte) (p : Nat) : Nat := portByte b p 1
def pRxRate (b : List Byte) (p : Nat) : Nat := u16 b (0x42 + 16 * p)
def pTxRate (b : List Byte) (p : Nat) : Nat := u16 b (0x44 + 16 * p)
def pTxPhy (b : List Byte) (p : Nat) : Nat := portByte b p 6
/-- Lanes or trios of a PHY byte. -/
def phyLanes (x : Nat) : Nat := bits x 1 3
def pStamp (b : List Byte) (p : Nat) : Bool := bitAt (portByte b p 7) 0
def pVc (b : List Byte) (p : Nat) : Nat := portByte b p 8
def pClaimStream (b : List Byte) (p : Nat) : Nat := portByte b p 9
def pAliveGap (b : List Byte) (p : Nat) : Nat := portByte b p 10
def pMaxAge (b : List Byte) (p : Nat) : Nat := u32 b (0x4C + 16 * p)

def ctxOff (x : Nat) : Nat := 0x140 + 16 * x
def cPort (b : List Byte) (x : Nat) : Nat := u8 b (ctxOff x)
def cVc (b : List Byte) (x : Nat) : Nat := u8 b (ctxOff x + 1)
def cDt (b : List Byte) (x : Nat) : Nat := u8 b (ctxOff x + 2)
def cCam (b : List Byte) (x : Nat) : Nat := u8 b (ctxOff x + 3)
def cWidth (b : List Byte) (x : Nat) : Nat := u16 b (ctxOff x + 4)
def cLines (b : List Byte) (x : Nat) : Nat := u16 b (ctxOff x + 6)
def cBufs (b : List Byte) (x : Nat) : Nat := u8 b (ctxOff x + 8)
def cStore (b : List Byte) (x : Nat) : Bool := bitAt (u8 b (ctxOff x + 9)) 0
def cFloor (b : List Byte) (x : Nat) : Bool := bitAt (u8 b (ctxOff x + 9)) 1
def cFsWindow (b : List Byte) (x : Nat) : Nat := u16 b (ctxOff x + 10)
def cMaxAge (b : List Byte) (x : Nat) : Nat := u32 b (ctxOff x + 12)

/-- The role of a port: without a running image every port is off (R226, R253). -/
def State.role (s : State) (p : Nat) : Nat := if s.img.isSome then pRole s.strB p else 0

/-- The context is in use (R228). -/
def State.ctxUsed (s : State) (x : Nat) : Bool := s.img.isSome && cPort s.strB x != 0xFF

def State.port (s : State) (p : Nat) : PortState := vget s.io.ports p PortState.reset
def State.modPort (s : State) (p : Nat) (f : PortState → PortState) : State :=
  { s with io := { s.io with ports := vmod s.io.ports p f } }
def State.modCtx (s : State) (x : Nat) (f : CtxState → CtxState) : State :=
  { s with io := { s.io with ctx := vmod s.io.ctx x f } }
def State.camClaims (s : State) (c : Nat) : ClaimCam := vget s.io.cams c ClaimCam.reset
def State.modCam (s : State) (c : Nat) (f : ClaimCam → ClaimCam) : State :=
  { s with io := { s.io with cams := vmod s.io.cams c f } }
def State.crocus (s : State) (p : Nat) : CrocusState := vget s.io.crocus p CrocusState.reset
def State.modCrocus (s : State) (p : Nat) (f : CrocusState → CrocusState) : State :=
  { s with io := { s.io with crocus := vmod s.io.crocus p f } }

/-- The receiver of a camera port runs: CSI-RX0 and CSI-RX1 are powered from the island (R226). -/
def State.camRx (s : State) (p : Nat) : Bool := s.role p == 1 && (s.pwr.mainOn || decide (p ≤ 1))

/-- The transmitter of a camera port forwards (R226, R232). -/
def State.camTx (s : State) (p : Nat) : Bool := s.role p == 1 && s.pwr.mainOn && phyLanes (pTxPhy s.strB p) != 0

/-- What a port sends. -/
def State.sends (s : State) (p : Nat) (pkts : List TxPkt) : State := s.modPort p fun x => { x with out := pkts }

def shortPkt (vc dt number : Nat) : TxPkt := ⟨vc, dt, number, [], false⟩
def longPkt (vc dt : Nat) (payload : List Byte) (inv : Bool) : TxPkt := ⟨vc, dt, 0, payload, inv⟩

/-- The used contexts of a port and virtual channel. -/
def State.ctxOn (s : State) (p vc : Nat) : List Nat :=
  (upto 64).filter fun x => s.ctxUsed x && cPort s.strB x == p && cVc s.strB x == vc

/-! ### Crocus records (R250) -/

def State.crB (s : State) : List Byte := s.sec 0x0D
def crCount (b : List Byte) : Nat := u8 b 1
def crCam (k : Nat) : Nat := 16 + 24 * k
/-- The offset of a stored Crocus frame's record. -/
def crFrame (b : List Byte) (f : Nat) : Nat := 16 + 24 * crCount b + 64 * f
def frWidth (b : List Byte) (f : Nat) : Nat := u16 b (crFrame b f)
def frHeight (b : List Byte) (f : Nat) : Nat := u16 b (crFrame b f + 2)
def frDataOff (b : List Byte) (f : Nat) : Nat := u32 b (crFrame b f + 0x10)
def frBytes (b : List Byte) (f : Nat) : Nat := u32 b (crFrame b f + 0x14)
def frData (b : List Byte) (f : Nat) : List Byte := slice b (frDataOff b f) (frBytes b f)
def frHash (b : List Byte) (f : Nat) : List Byte := slice b (crFrame b f + 0x20) 32
/-- Bytes of one Crocus line. -/
def frLine (b : List Byte) (f : Nat) : Nat := frBytes b f / max 1 (frHeight b f)

/-- RX_PORT and FSYNC_GROUP of a camera's model (R56). -/
def State.camByte (s : State) (cam o : Nat) : Nat :=
  match s.camOff cam with
  | some off => u8 (s.sec 6) (off + o)
  | none => 0xFF

/-- The Crocus record of a port in MODE 1 or 2, by the offset of its camera record (R245); none in SERVICE (R390). -/
def State.crocusRec (s : State) (p : Nat) : Option Nat :=
  ((upto (crCount s.crB)).map crCam).find? fun o =>
    s.img.isSome && !s.ldr.service && u8 s.crB (o + 1) != 0 && s.camByte (u8 s.crB o) 0x45 == p

def State.crMode (s : State) (p : Nat) : Nat := (s.crocusRec p).elim 0 fun o => u8 s.crB (o + 1)
def State.crByte (s : State) (p o : Nat) : Nat := (s.crocusRec p).elim 0 fun r => u8 s.crB (r + o)
def State.crHalf (s : State) (p o : Nat) : Nat := (s.crocusRec p).elim 0 fun r => u16 s.crB (r + o)
def State.crDeadline (s : State) (p : Nat) : Nat := (s.crocusRec p).elim 0 fun r => u32 s.crB (r + 0x10)

/-- The frames, data types and channels of a port's Crocus camera are those of its contexts. -/
def State.crocusCtx (s : State) (p : Nat) : Option Nat :=
  (upto 64).find? fun x => s.ctxUsed x && cPort s.strB x == p && cCam s.strB x == s.crByte p 0

/-- The virtual channel is the Crocus camera's own. -/
def State.crocusVc (s : State) (p vc : Nat) : Bool :=
  (s.crocusRec p).isSome && (s.crocusCtx p).any fun x => cVc s.strB x == vc

/-- T_line of R246 in ns: line bytes, lanes or trios, rate, C-PHY. -/
def crTLine (line lanes rate : Nat) (cphy : Bool) : Nat :=
  (if cphy then cdiv ((line + 6) * 8000 * 7) (lanes * rate * 16) else cdiv ((line + 6) * 8000) (lanes * rate)) + 200

/-- T_inj of R246 in beats. -/
def State.crTInj (s : State) (p f : Nat) : Nat :=
  let phy := pTxPhy s.strB p
  cdiv ((frHeight s.crB f + 2) * crTLine (frLine s.crB f) (phyLanes phy) (pTxRate s.strB p) (bitAt phy 0)) 2000

/-! ### Stamps (R234) -/

/-- The stamps of a camera's last 8 frames; those of Crocus frames go with them. -/
def keepStamps : Nat → List (Bool × Nat × Nat) → List (Bool × Nat × Nat)
  | _, [] => []
  | n, (true, f, b) :: l => (true, f, b) :: keepStamps n l
  | 0, (false, _, _) :: _ => []
  | n + 1, (false, f, b) :: l => (false, f, b) :: keepStamps n l

/-- The payload of a stamp packet (R234). -/
def State.stampBytes (s : State) (ty cam number : Nat) : List Byte :=
  let b := leBytes 1 ty ++ leBytes 1 cam ++ leBytes 2 number ++ leBytes 4 s.sched.frame ++ leBytes 8 s.beat ++
    leBytes 8 s.time.now ++ leBytes 4 0
  b ++ leBytes 4 (crc32c b)

/-- A stamp of a camera is sent and remembered. -/
def State.noteStamp (s : State) (crocus : Bool) (cam : Nat) : State :=
  s.modCam cam fun c => { c with stamps := keepStamps 8 ((crocus, s.sched.frame, s.beat) :: c.stamps) }

/-! ### Deferrals and due injections (R244, R245) -/

/-- The camera is starved (R245). -/
def State.starved (s : State) (p : Nat) : Bool :=
  (s.crocusRec p).isSome && decide ((s.crocus p).skip > s.crByte p 3)

/-- A deferral (R245): SKIP, event 0x7102, and D3 past STARVE_LIMIT.
(DEDUCED, unsafe: notes/assumptions/50.md.) -/
def State.deferral (s : State) (p : Nat) : State :=
  let s1 := s.modCrocus p fun c => { c with skip := satInc 255 c.skip, owed := false, staging := none, staged := none }
  let s1 := s1.event 0x7102 (p + (s1.crocus p).skip * 65536)
  if s1.starved p then s1.addDoubt 3 else s1

/-- The Crocus bookkeeping at a frame start of the port's Crocus camera (R244, R245): the frame before is a deferral if
it owed an injection; the count goes on; a due frame starts its staging, or is a deferral while an answer is awaited. -/
def State.crocusFrameStart (s : State) (p : Nat) : State :=
  let s1 := if (s.crocus p).owed then s.deferral p else s
  let since := (s1.crocus p).since.map (· + 1)
  let due : Bool := match since with
    | some n => decide (s1.crByte p 2 ≤ n)
    | none => true
  let s1 := s1.modCrocus p fun c => { c with since := since, camFs := s.beat, camFe := none, staging := none, staged := none }
  if !due then s1
  else if (s1.crocus p).answerTo.isSome then s1.deferral p
  else s1.modCrocus p fun c => { c with owed := true, staging := some c.next }

/-- Staging ends and the hash is compared (R244).
(DEDUCED, unsafe: notes/assumptions/50.md.) -/
def State.crocusStagingDone (s : State) (p : Nat) : State :=
  match (s.crocus p).staging with
  | none => s
  | some f =>
    if Config.shake256 (frData s.crB f) 32 = frHash s.crB f then
      s.modCrocus p fun c => { c with staging := none, staged := some f }
    else
      let s1 := s.freed.raise (76 + p) .uc (s.free (2 ^ 32))
      (s1.modCrocus p fun c => { c with hashFail := true }).deferral p

/-- An injection is made (R245): SKIP 0, the next frame of the rotation, the count starts anew; its answer is awaited
for DEADLINE beats (R249). -/
def State.injectionMade (s : State) (p f : Nat) : State :=
  let first := s.crByte p 5
  let num := max 1 (s.crByte p 6)
  s.modCrocus p fun c => { c with
    injected := (c.injected + 1) % 65536, skip := 0, since := some 0, owed := false, injecting := none, staged := none
    next := first + (f + 1 - first) % num
    answerTo := some f, deadline := some (s.beat + s.crDeadline p), pending := true }

/-- The frame number of an injection (R246). -/
def State.crocusNumber (s : State) (p : Nat) : Nat := (s.crocus p).injected % 65535 + 1

/-- A blanking injection starts in the beat after the camera's frame end was forwarded, if it fits (R246); otherwise
it is a deferral.
(DEDUCED, unsafe: notes/assumptions/50.md.) -/
def State.crocusInjectionStart (s : State) (p : Nat) : State :=
  let c := s.crocus p
  match c.camFe, c.staged with
  | some fe, some f =>
    if s.crMode p = 1 ∧ c.owed = true ∧ c.injecting = none ∧ c.answerTo = none ∧ s.beat = fe + 1 ∧ s.camTx p = true then
      if s.beat + s.crTInj p f + s.crHalf p 8 ≤ c.camFs + s.frameBeats then
        let vc := s.crByte p 4
        let n := s.crocusNumber p
        let s1 := s.modCrocus p fun c => { c with injecting := some s.beat, stampFrame := s.sched.frame }
        let st := if pStamp s.strB p then [longPkt vc 0x37 (s.stampBytes 2 (s.crByte p 0) n) false] else []
        let s1 := s1.sends p (shortPkt vc 0 n :: st)
        if pStamp s.strB p then s1.noteStamp true (s.crByte p 0) else s1
      else s.deferral p
    else s
  | _, _ => s

/-- The lines of a stored Crocus frame as long packets of its data type. -/
def crLines (b : List Byte) (f vc : Nat) : List TxPkt :=
  (upto (frHeight b f)).map fun i =>
    longPkt vc (u8 b (crFrame b f + 4)) (slice (frData b f) (i * frLine b f) (frLine b f)) false

/-- The Crocus frame end is sent, T_inj beats from the start (R246), and the deadline starts (R249).
(DEDUCED, unsafe: notes/assumptions/50.md.) -/
def State.crocusInjectionEnd (s : State) (p : Nat) : State :=
  match (s.crocus p).injecting, (s.crocus p).staged with
  | some b, some f =>
    if s.crMode p = 1 ∧ b + s.crTInj p f ≤ s.beat + 1 then
      let vc := s.crByte p 4
      (s.sends p (crLines s.crB f vc ++ [shortPkt vc 1 (s.crocusNumber p)])).injectionMade p f
    else s
  | _, _ => s

/-- A camera frame start during an injection ends it at once (R247): a deferral, ABORTED, and no answer evaluated. The
frame end that is sent then. -/
def State.crocusAbort (s : State) (p : Nat) : State × List TxPkt :=
  if s.crMode p = 1 ∧ (s.crocus p).injecting.isSome then
    let fe := [shortPkt (s.crByte p 4) 1 (s.crocusNumber p)]
    let s1 := s.modCrocus p fun c => { c with injecting := none, aborted := true }
    (s1.deferral p, fe)
  else (s, [])

/-! ### Headers (R224, R232, R260) -/

/-- A received header is counted, and an uncorrectable one is an error of every frame open on the port (R231).
(DEDUCED, unsafe: notes/assumptions/49.md.) -/
def State.header (s : State) (p : Nat) (h : HeaderState) : State :=
  match h with
  | .good => s
  | .corrected => s.modPort p fun x => { x with err := x.err ||| 8, hdrCorr := satInc 65535 x.hdrCorr }
  | .uncorrectable =>
    let s1 := s.modPort p fun x => { x with err := x.err ||| 16 }
    ((upto 64).filter fun x => s.ctxUsed x && cPort s.strB x == p && (s.ctxAt x).isOpen).foldl (fun (t : State) x =>
      t.modCtx x fun c => { c with curErr := c.curErr ||| 1 }) s1

/-! ### Frames in contexts (R229 to R231) -/

/-- The beat of the newest FSYNC trigger of a camera (R195, R231). -/
def State.fsyncTrigger (s : State) (cam : Nat) : Option Nat :=
  let g := s.camByte cam 0x46
  if s.sched.origin.isSome ∧ fsEnable s.planB g = true then
    let t := s.beat - s.sched.frameBeat + fsOffset s.planB g
    some (if fsOffset s.planB g ≤ s.sched.frameBeat then t else t - s.frameBeats)
  else none

/-- The frame number continues the previous one (R231).
(DEDUCED, unsafe: notes/assumptions/54.md.) -/
def frameNoOk (prev : Option Nat) (n : Nat) : Bool :=
  match prev with
  | none => true
  | some 0 => n == 0
  | some p => n == (if p = 65535 then 1 else p + 1)

/-- A frame closed with a continuity error (R231): counted, recorded, never complete. -/
def State.badFrame (s : State) (x : Nat) : State :=
  let c := s.ctxAt x
  let s1 := s.modCtx x fun c => { c with isOpen := false, badFrames := satInc 65535 c.badFrames, err := c.err ||| c.curErr }
  s1.event 0x7100 (x + c.curErr.toNat * 256)

/-- A frame start in a context (R230, R231).
(DEDUCED, unsafe: notes/assumptions/54.md.) -/
def State.ctxFrameStart (s : State) (x n : Nat) : State :=
  let s1 := if (s.ctxAt x).isOpen then (s.modCtx x fun c => { c with curErr := c.curErr ||| 8 }).badFrame x else s
  let late := match s.fsyncTrigger (cCam s.strB x) with
    | some t => cFsWindow s.strB x != 0 && decide (t + cFsWindow s.strB x < s.beat)
    | none => false
  s1.modCtx x fun c => { c with
    isOpen := true, frameNo := n, prevNo := some n, fsBeat := s.beat, fsTime := s.time.now, lines := 0
    writing := c.delivered % max 1 (cBufs s.strB x)
    curErr := (if frameNoOk c.prevNo n then 0 else 2) ||| (if late then 16 else 0) }

/-- A frame end in a context (R229, R231): the frame becomes the newest complete one unless it has a continuity error.
(DEDUCED, unsafe: notes/assumptions/54.md.) -/
def State.ctxFrameEnd (s : State) (x n : Nat) : State :=
  if (s.ctxAt x).isOpen then
    let s1 := s.modCtx x fun c => { c with
      curErr := c.curErr ||| (if c.lines = cLines s.strB x then 0 else 4) ||| (if c.frameNo = n then 0 else 8) }
    if (s1.ctxAt x).curErr = 0 then
      s1.modCtx x fun c => { c with
        isOpen := false, complete := true, newest := c.writing, delivered := c.delivered + 1
        doneBeat := s.beat, doneFrame := s.sched.frame }
    else s1.badFrame x
  else s

/-- Bytes per stored sample of a data type (R229). -/
def storeBytes (dt : Nat) : Nat := if 0x2B ≤ dt ∧ dt ≤ 0x2F then 2 else 1

/-- The stored form of a sample (R229): RAW20 keeps its bits [19:4]. -/
def storeSample (dt v : Nat) : List Byte := leBytes (storeBytes dt) (if dt = 0x2F then v / 16 else v)

/-- A buffer with bytes written at an offset. -/
def patch (buf : List Byte) (off : Nat) (bs : List Byte) : List Byte :=
  buf.take off ++ List.replicate (off - buf.length) 0 ++ bs ++ buf.drop (off + bs.length)

/-- A line of a context's data type (R229, R231); the frame stores are not written in SERVICE (R390).
(DEDUCED, unsafe: notes/assumptions/49.md.) -/
def State.ctxLine (s : State) (x : Nat) (samples : List Nat) : State :=
  let w := cWidth s.strB x
  let bs := (samples.take w).flatMap (storeSample (cDt s.strB x))
  let off := (s.ctxAt x).lines * w * storeBytes (cDt s.strB x)
  let keep := cStore s.strB x && !s.ldr.service && decide ((s.ctxAt x).lines < cLines s.strB x)
  s.modCtx x fun c => { c with
    lines := c.lines + 1
    bufs := if keep then vmod c.bufs c.writing fun b => patch b off bs else c.bufs }

/-! ### Packets (R224, R225, R232, R234) -/

/-- Long packet data types that are stored or checked (R224). -/
def storedDt (dt : Nat) : Bool :=
  decide (0x2A ≤ dt ∧ dt ≤ 0x2F) || dt == 0x1E || dt == 0x24 || dt == 0x12 || decide (0x30 ≤ dt ∧ dt ≤ 0x37)

/-- A frame start on a camera port (R230, R232, R234, R245, R247). -/
def State.csiFrameStart (s : State) (p vc n : Nat) (h : HeaderState) : State :=
  if s.camRx p then
    let s1 := s.header p h
    if h = .uncorrectable then s1
    else
      let xs := s1.ctxOn p vc
      let s2 := xs.foldl (fun (t : State) x => t.ctxFrameStart x n) s1
      let (s3, fe) := if s2.crocusVc p vc then s2.crocusAbort p else (s2, [])
      let s4 := if s3.crocusVc p vc then s3.crocusFrameStart p else s3
      if s4.camTx p then
        let s5 := s4.modPort p fun x => { x with fwdStopped := false, openVcs := (vc, n) :: x.openVcs.filter (·.1 != vc) }
        let margin := s5.crocusVc p vc && s5.crMode p == 2 && (s5.crocus p).owed
        match xs with
        | x :: _ =>
          if pStamp s.strB p then
            let cam := cCam s.strB x
            let s6 := if margin then s5.modCrocus p fun c => { c with stampFrame := s.sched.frame } else s5
            (s6.sends p (fe ++ [shortPkt vc 0 n, longPkt vc 0x37 (s.stampBytes (if margin then 3 else 1) cam n) false])).noteStamp
              false cam
          else s5.sends p (fe ++ [shortPkt vc 0 n])
        | [] => s5.sends p (fe ++ [shortPkt vc 0 n])
      else s4
  else s

/-- Line `i` of a margin frame with the Crocus line in its columns 0 to WIDTH − 1 (R248).
(DEDUCED, unsafe: notes/assumptions/49.md.) -/
def State.marginLine (s : State) (f i : Nat) (payload : List Byte) : List Byte :=
  patch payload 0 (slice (frData s.crB f) (i * frLine s.crB f) (frLine s.crB f))

/-- A line of the Crocus camera in MODE 2 (R244, R248): within the band the staged frame replaces it; a frame that is
not staged at its first line is a deferral. Answers the payload that is forwarded.
(DEDUCED, unsafe: notes/assumptions/49.md.) -/
def State.margin (s : State) (p vc dt line : Nat) (payload : List Byte) : State × List Byte :=
  if s.crocusVc p vc ∧ s.crMode p = 2 ∧ ((s.crocusCtx p).any fun x => cDt s.strB x == dt) then
    let first := s.crHalf p 0x0A
    match (s.crocus p).staged with
    | some f =>
      if first ≤ line ∧ line < first + frHeight s.crB f then
        if line = first ∧ (s.crocus p).owed = true then
          (s.modCrocus p fun c => { c with injecting := some s.beat }, s.marginLine f 0 payload)
        else if (s.crocus p).injecting.isSome then (s, s.marginLine f (line - first) payload)
        else (s, payload)
      else (s, payload)
    | none => if line = first ∧ (s.crocus p).owed = true then (s.deferral p, payload) else (s, payload)
  else (s, payload)

/-- A long packet on a camera port (R225, R229, R231, R232).
(DEDUCED, unsafe: notes/assumptions/49.md.) -/
def State.csiLong (s : State) (p : Nat) (k : LongPkt) : State :=
  if s.camRx p then
    let s1 := s.header p k.hdr
    if k.hdr = .uncorrectable then s1
    else
      let drop := k.dt == 0x37 && pStamp s.strB p
      let s2 := if drop || !storedDt k.dt then s1.modPort p fun x => { x with err := x.err ||| 2 } else s1
      let s2 := if k.crcOk then s2 else s2.modPort p fun x => { x with err := x.err ||| 4, crcErrs := satInc 65535 x.crcErrs }
      let xs := s2.ctxOn p k.vc
      let line := (xs.find? fun x => cDt s.strB x == k.dt).elim 0 fun x => (s2.ctxAt x).lines
      let s3 := xs.foldl (fun (t : State) x =>
        if (t.ctxAt x).isOpen then
          let t1 := if k.crcOk then t else t.modCtx x fun c => { c with curErr := c.curErr ||| 1 }
          if cDt s.strB x == k.dt then t1.ctxLine x k.samples else t1
        else t) s2
      if drop || !s3.camTx p || (s3.port p).fwdStopped then s3
      else
        let (s4, pay) := s3.margin p k.vc k.dt line k.payload
        s4.sends p [longPkt k.vc k.dt pay (!k.crcOk)]
  else s

/-- A frame end on a camera port (R231, R232, R244, R248). -/
def State.csiFrameEnd (s : State) (p vc n : Nat) (h : HeaderState) : State :=
  if s.camRx p then
    let s1 := s.header p h
    if h = .uncorrectable then s1
    else
      let s2 := (s1.ctxOn p vc).foldl (fun (t : State) x => t.ctxFrameEnd x n) s1
      if s2.camTx p ∧ (s2.port p).fwdStopped = false then
        let s3 := (s2.modPort p fun x => { x with openVcs := x.openVcs.filter (·.1 != vc) }).sends p [shortPkt vc 1 n]
        if s3.crocusVc p vc then
          let s4 := s3.modCrocus p fun c => { c with camFe := some s.beat }
          match (s4.crocus p).staged with
          | some f => if s4.crMode p = 2 ∧ (s4.crocus p).injecting.isSome then s4.injectionMade p f else s4
          | none => if (s4.crocus p).owed then s4.deferral p else s4
        else s3
      else s2
  else s

/-- Line starts, line ends and generic short packets are forwarded unchanged (R224, R232). -/
def State.csiShort (s : State) (p vc dt n : Nat) (h : HeaderState) : State :=
  if s.camRx p then
    let s1 := s.header p h
    if h = .uncorrectable then s1
    else if (dt = 2 ∨ dt = 3 ∨ (8 ≤ dt ∧ dt ≤ 15)) ∧ s1.camTx p = true ∧ (s1.port p).fwdStopped = false then
      s1.sends p [shortPkt vc dt n]
    else s1
  else s

/-- A receiver gains or loses synchronisation (R260). -/
def State.rxLockChange (s : State) (p : Nat) (locked : Bool) : State :=
  if s.role p ≠ 0 ∧ s.role p ≠ 3 then
    s.modPort p fun x => { x with rxLock := locked, err := if locked then x.err else x.err ||| 1 }
  else s

/-- A forwarding failure (R235): a UC fault, a frame end on each open VC, and nothing further until the next frame
start. On the VERDICT_OUT port it is a publication fault (R252). The fault's info is not stated.
(DESIGN CHOICE, safe: notes/assumptions/25.md.) -/
def State.forwardFail (s : State) (p : Nat) : State :=
  if s.camTx p then
    let s1 := s.freed.raise (76 + p) .uc (s.free (2 ^ 32))
    let cr := if (s1.crocus p).injecting.isSome ∧ s1.crMode p = 1 then [(s1.crByte p 4, s1.crocusNumber p)] else []
    let s2 := s1.sends p (((s1.port p).openVcs ++ cr).map fun v => shortPkt v.1 1 v.2)
    (s2.modPort p fun x => { x with fwdStopped := true, openVcs := [], err := x.err ||| 32 }).modCrocus p fun c =>
      { c with injecting := none, staged := none, staging := none }
  else if s.role p = 3 ∧ s.pwr.mainOn = true then
    (s.freed.raise (76 + p) .uc (s.free (2 ^ 32))).modPort p fun x => { x with err := x.err ||| 32 }
  else s

/-! ### The floor function's frames (R24, R376) -/

def State.floorRecB (s : State) (o : Nat) : Nat := u8 s.strB (0x580 + o)

/-- A context holds a complete frame that arrived within its MAX_AGE (R24, R376). -/
def State.ctxFresh (s : State) (x : Nat) : Bool :=
  (s.ctxAt x).complete && decide (s.beat ≤ (s.ctxAt x).doneBeat + cMaxAge s.strB x)

/-- A floor cycle starts (R376): FLOOR_CTX0 holds a complete frame not yet used, and FLOOR_CTX1, where used, one within
its age.
(DEDUCED, unsafe: notes/assumptions/21.md.) -/
def State.floorCycleStart (s : State) : State :=
  let g := s.floorRecB 0
  let c0 := s.floorRecB 1
  let c1 := s.floorRecB 2
  if s.img.isSome ∧ s.floorEngineOk = true ∧ s.flr.cycle = false ∧
      (s.ctxAt c0).delivered > (vget s.sched.lastUsed g none).getD 0 ∧ (c1 = 0xFF ∨ s.ctxFresh c1 = true) then
    { s with flr := { s.flr with cycle := true, res0 := none, res1 := none }
             sched := { s.sched with lastUsed := vset s.sched.lastUsed g (some (s.ctxAt c0).delivered) } }
  else s

/-- The floor is available (R24). -/
def State.floorAvailNow (s : State) : Bool :=
  s.img.isSome && s.floorEngineOk && s.floorRecent &&
    (upto 64).all fun x => !(s.ctxUsed x && cFloor s.strB x) || s.ctxFresh x

/-- Every context with STORE has completed a frame in this frame (R493, stage 0). -/
def State.capturesDone (s : State) : Bool :=
  (upto 64).all fun x => !(s.ctxUsed x && cStore s.strB x) || ((s.ctxAt x).complete && (s.ctxAt x).doneFrame == s.sched.frame)

end Sys2Proof.Machine
end

