-- ==== Sys2Proof/Machine/Claims.lean ====
section
/-!
DEFINITION. Claims (spec/07_camera_claim_streams.md R236 to R243), the answers to Crocus frames (R249), the verdict
stream (R251, R252) and the check-value units (R254 to R257).
-/
namespace Sys2Proof.Machine

/-! ### Claim records (R237, R238) -/

/-- A claim record header as received. -/
structure ClaimHdr where
  rtype : Nat
  cam : Nat
  crocus : Bool
  srcFrame : Nat
  srcBeat : Nat
  count : Nat
  alive : Nat
  /-- A reserved field of the header is not 0. -/
  reserved : Bool
  deriving DecidableEq, Repr

def claimHdr (b : List Byte) : ClaimHdr :=
  { rtype := u8 b 0, cam := u8 b 1, crocus := bitAt (u8 b 2) 0, srcFrame := u32 b 4, srcBeat := bits (u64 b 8) 0 48
    count := u16 b 0x10, alive := u16 b 0x12
    reserved := u8 b 2 / 2 != 0 || u8 b 3 != 0 || bits (u64 b 8) 48 16 != 0 || u64 b 0x14 != 0 }

/-- Item `i` of a record. -/
def claimItem (b : List Byte) (i : Nat) : List Byte := slice b (32 + 16 * i) 16

/-- The record's CRC-32C holds (R237). -/
def claimCrcOk (b : List Byte) : Bool := decide (u32 b 0x1C = crc32c (b.take 0x1C ++ b.drop 32))

/-- The fields of an OBJECT item are in range (R238). -/
def objectOk (w h : Nat) (it : List Byte) : Bool :=
  decide (u16 it 0 < u16 it 4 ∧ u16 it 4 ≤ w ∧ u16 it 2 < u16 it 6 ∧ u16 it 6 ≤ h ∧ u8 it 8 ≤ 15)

/-- DIST of bin `k` of a FREESPACE item. -/
def binDist (it : List Byte) (k : Nat) : Nat := u16 it (6 + 2 * k)

/-- The fields of a FREESPACE item are in range (R238). -/
def freeOk (w : Nat) (it : List Byte) : Bool :=
  decide (1 ≤ u16 it 2 ∧ u16 it 2 ≤ 8192 ∧ 1 ≤ u8 it 4 ∧ u8 it 4 ≤ 5 ∧ u16 it 0 + u8 it 4 * u16 it 2 ≤ w) &&
    (upto 5).all fun k => decide (k < u8 it 4) || binDist it k == 0

/-- A reserved field of an item is not 0. -/
def itemReserved (obj : Bool) (it : List Byte) : Bool := if obj then u32 it 0x0C != 0 else u8 it 5 != 0

/-! ### Streams and their cameras (R237, R374) -/

def State.claimStream (s : State) (n : Nat) : ClaimStream := vget s.io.claims n ClaimStream.reset
def State.modClaim (s : State) (n : Nat) (f : ClaimStream → ClaimStream) : State :=
  { s with io := { s.io with claims := vmod s.io.claims n f } }

/-- The CLAIM port of a stream; its age is counted through STANDBY as well (R326). -/
def State.claimPort (s : State) (n : Nat) : Option Nat :=
  (upto 16).find? fun p => s.keptImg.isSome && pRole (s.keptSec 2) p == 2 && pClaimStream (s.keptSec 2) p == n

/-- A camera is assigned to a stream (R237). -/
def State.camAssigned (s : State) (n cam : Nat) : Bool :=
  s.keptImg.isSome && decide (cam < 64) && (camRecOff (s.keptSec 6) cam).isSome && u8 (s.keptSec 2) (0x540 + cam) == n

/-- The cameras of a claim stream. -/
def State.camsOf (s : State) (n : Nat) : List Nat := (upto 64).filter (s.camAssigned n)

/-- The open frame of a camera for a CROCUS value. -/
def ClaimCam.opened (c : ClaimCam) (crocus : Bool) : Option OpenClaim := if crocus then c.crocus else c.real
def ClaimCam.setOpen (c : ClaimCam) (crocus : Bool) (o : Option OpenClaim) : ClaimCam :=
  if crocus then { c with crocus := o } else { c with real := o }
def ClaimCam.done (c : ClaimCam) (crocus : Bool) : Option Nat := if crocus then c.doneCrocus else c.doneReal

/-- The port whose Crocus record names a camera. -/
def State.crocusPortOf (s : State) (cam : Nat) : Option Nat :=
  (upto 16).find? fun p => (s.crocusRec p).isSome && s.crByte p 0 == cam

/-- Width and height of the frame that a record's coordinates belong to (R238, R248): the Crocus frame in a
blanking-mode answer, the camera's image otherwise. -/
def State.claimSize (s : State) (h : ClaimHdr) : Nat × Nat :=
  let cam := ((s.camModel h.cam).map fun m => (m.width, m.height)).getD (0, 0)
  match h.crocus, s.crocusPortOf h.cam with
  | true, some p =>
    match s.crMode p, (s.crocus p).answerTo with
    | 1, some f => (frWidth s.crB f, frHeight s.crB f)
    | _, _ => cam
  | _, _ => cam

/-- Items that an open frame has received of the record's type, and in all. -/
def itemsSoFar (o : Option OpenClaim) (h : ClaimHdr) : Nat × Nat :=
  match o with
  | some o => if o.srcFrame = h.srcFrame then (if h.rtype = 1 then o.objects else o.frees, o.objects + o.frees) else (0, 0)
  | none => (0, 0)

/-- The code of a format error, in the order of the table of R241; 0 for none.
(DEDUCED, unsafe: notes/assumptions/51.md.) -/
def State.claimFormat (s : State) (n dt : Nat) (b : List Byte) : Nat :=
  let h := claimHdr b
  let c := s.camClaims h.cam
  let o := c.opened h.crocus
  let wh := s.claimSize h
  let items := (upto h.count).map (claimItem b)
  let eof := h.rtype == 0x0F
  let openOther := match o with
    | some x => x.srcFrame != h.srcFrame && !x.bad
    | none => false
  if dt ≠ 0x30 ∨ ¬(h.rtype = 1 ∨ h.rtype = 2 ∨ h.rtype = 0x0F) then 1
  else if b.length ≠ 32 + (if eof then 0 else 16 * h.count) then 2
  else if !s.camAssigned n h.cam then 3
  else if !(c.stamps.any fun t => t.2 == (h.srcFrame, h.srcBeat)) then 4
  else if (c.done h.crocus).any (fun d => decide (h.srcFrame ≤ d)) ∨ o.any (fun x => decide (h.srcFrame < x.srcFrame)) then 5
  else if !eof && (h.count == 0 || !(items.all fun it => if h.rtype = 1 then objectOk wh.1 wh.2 it else freeOk wh.1 it)) then 6
  else if !eof && decide ((itemsSoFar o h).1 + h.count > 1024) then 7
  else if openOther || (eof && (itemsSoFar o h).2 != h.count) then 8
  else if h.reserved || (!eof && items.any (itemReserved (h.rtype == 1))) then 9
  else 0

/-- A record that fails (R239): discarded, counted, D2, and its claim frame can no longer complete. Kind 1 packet,
2 CRC, 3 alive, 4 format with its code (R341).
(DEDUCED, unsafe: notes/assumptions/51.md.) -/
def State.claimFails (s : State) (n kind code : Nat) (h : ClaimHdr) : State :=
  let s1 := s.modClaim n fun c => { c with
    err := c.err ||| BitVec.twoPow 4 (kind - 1), badRecords := satInc 65535 c.badRecords
    formatCode := if kind = 4 then code else c.formatCode }
  let s1 := s1.modCam h.cam fun c =>
    match c.opened h.crocus with
    | some o =>
      if o.srcFrame = h.srcFrame ∧ code ≠ 8 then c.setOpen h.crocus (some { o with bad := true })
      else { c.setOpen h.crocus (if code = 8 then none else some o) with broken := ((h.crocus, h.srcFrame) :: c.broken).take 16 }
    | none => { c with broken := ((h.crocus, h.srcFrame) :: c.broken).take 16 }
  let s1 : State := { s1 with io := { s1.io with claimFail := true } }
  (s1.event 0x7101 (n + kind * 256 + code * 65536)).addDoubt 2

/-! ### Answers to Crocus frames (R249) -/

/-- |a − b| of two numbers. -/
def distN (a b : Nat) : Nat := (a - b) + (b - a)

/-- A claimed object matches an expected one (R249). -/
def boxMatches (tol conf : Nat) (e c : List Byte) : Bool :=
  u8 e 8 == u8 c 8 && decide (conf ≤ u8 c 9) && [0, 2, 4, 6].all fun k => decide (distN (u16 e k) (u16 c k) ≤ tol)

/-- The claimed objects left after each expected one has taken its first match; none where one finds no match. -/
def takeMatches (tol conf : Nat) : List (List Byte) → List (List Byte) → Option (List (List Byte))
  | [], cs => some cs
  | e :: es, cs =>
    match cs.findIdx? (boxMatches tol conf e) with
    | some i => takeMatches tol conf es (cs.eraseIdx i)
    | none => none

/-- Two distances agree (R249). -/
def distAgrees (tol e c : Nat) : Bool :=
  if 0xFFFE ≤ e ∨ 0xFFFE ≤ c then e == c else decide (distN e c ≤ tol)

/-- A claimed bin covers a column with an agreeing distance. -/
def colCovered (tol d col : Nat) (cs : List (List Byte)) : Bool :=
  cs.any fun c => (upto (u8 c 4)).any fun k =>
    decide (u16 c 0 + k * u16 c 2 ≤ col ∧ col < u16 c 0 + (k + 1) * u16 c 2) && distAgrees tol d (binDist c k)

/-- The answer to a stored frame is correct (R249).
(DEDUCED, unsafe: notes/assumptions/50.md.) -/
def answerCorrect (b : List Byte) (f : Nat) (items : List (Bool × List Byte)) : Bool :=
  let r := crFrame b f
  let ex := u32 b (r + 0x18)
  let no := u16 b (r + 0x0A)
  let expObj := (upto no).map fun i => slice b (ex + 16 * i) 16
  let expFree := (upto (u16 b (r + 0x0C))).map fun i => slice b (ex + 16 * (no + i)) 16
  let objs := (items.filter (·.1)).map (·.2)
  let frees := (items.filter fun x => !x.1).map (·.2)
  (match takeMatches (u8 b (r + 5)) (u8 b (r + 7)) expObj objs with
    | some rest => decide (rest.length ≤ u8 b (r + 6))
    | none => false) &&
  expFree.all fun e => (upto (u8 e 4)).all fun k => (upto (u16 e 2)).all fun j =>
    colCovered (u16 b (r + 8)) (binDist e k) (u16 e 0 + k * u16 e 2 + j) frees

/-- A wrong or late answer (R249): D3, event 0x7102 (1 wrong, 2 late). -/
def State.answerBad (s : State) (p kind : Nat) : State :=
  let live := s.watch.wstate != .stopped && s.watch.wstate != .halt
  let s1 := s.modCrocus p fun c => { c with
    pending := false, answerTo := none, deadline := none, affected := c.affected || live
    wrong := c.wrong || kind == 1, late := c.late || kind == 2 }
  (s1.event 0x7102 (p + kind * 256 + (s1.crocus p).skip * 65536)).addDoubt 3

/-- A completed Crocus claim frame of a camera (R249): judged where it answers the injection that is awaited.
(DEDUCED, unsafe: notes/assumptions/50.md.) -/
def State.crocusAnswer (s : State) (cam srcFrame : Nat) (items : List (Bool × List Byte)) : State :=
  match s.crocusPortOf cam with
  | none => s
  | some p =>
    match (s.crocus p).answerTo with
    | some f =>
      if srcFrame = (s.crocus p).stampFrame then
        if answerCorrect s.crB f items then
          s.modCrocus p fun c => { c with pending := false, answerTo := none, deadline := none, affected := false }
        else s.answerBad p 1
      else s
    | none => s

/-- No answer by DEADLINE (R249). -/
def State.crocusDeadlineDue (s : State) (p : Nat) : State :=
  match (s.crocus p).answerTo, (s.crocus p).deadline with
  | some _, some d => if d ≤ s.beat then s.answerBad p 2 else s
  | _, _ => s

/-- D3 may clear (R20): no affected camera and none over its starvation limit. -/
def State.canaryClear (s : State) : Bool := (upto 16).all fun p => !(s.crocus p).affected && !s.starved p

/-! ### Records that pass (R239, R243) -/

/-- The claim items of a record as the grid engine takes them (R55, R238); a bin marked 0xFFFE writes nothing. -/
def gridItems (h : ClaimHdr) (it : List Byte) : List ClaimWrite :=
  if h.rtype = 1 then
    [⟨h.cam, h.srcFrame, .object (u8 it 8) (u16 it 0) (u16 it 4) (u16 it 6)
      (if u16 it 0x0A = 0 then none else some (u16 it 0x0A * 10))⟩]
  else
    ((upto (u8 it 4)).filter fun k => binDist it k != 0xFFFE).map fun k =>
      ⟨h.cam, h.srcFrame, .bin (u16 it 0 + k * u16 it 2) (u16 it 0 + (k + 1) * u16 it 2)
        (if binDist it k = 0xFFFF then none else some (binDist it k * 10))⟩

/-- The open frame that a passing record belongs to, opened by its first record.
(DEDUCED, unsafe: notes/assumptions/51.md.) -/
def ClaimCam.frameFor (c : ClaimCam) (h : ClaimHdr) : OpenClaim :=
  match c.opened h.crocus with
  | some o =>
    if o.srcFrame = h.srcFrame then o
    else ⟨h.srcFrame, h.srcBeat, 0, 0, [], c.broken.contains (h.crocus, h.srcFrame)⟩
  | none => ⟨h.srcFrame, h.srcBeat, 0, 0, [], c.broken.contains (h.crocus, h.srcFrame)⟩

/-- An OBJECT or FREESPACE record that passes (R239, R243). -/
def State.claimItems (s : State) (h : ClaimHdr) (b : List Byte) : State :=
  let items := (upto h.count).map (claimItem b)
  let obj := h.rtype == 1
  let s1 := s.modCam h.cam fun c =>
    let o := c.frameFor h
    c.setOpen h.crocus (some { o with
      objects := o.objects + (if obj then h.count else 0), frees := o.frees + (if obj then 0 else h.count)
      items := if h.crocus then o.items ++ items.map fun it => (obj, it) else o.items })
  if h.crocus then s1
  else { s1 with grid := { s1.grid with claimQ := s1.grid.claimQ ++ items.flatMap (gridItems h) } }

/-- An END_OF_FRAME that passes closes its frame (R239, R242, R243, R249). -/
def State.claimFrameEnd (s : State) (n : Nat) (h : ClaimHdr) : State :=
  let o := (s.camClaims h.cam).frameFor h
  let s1 := s.modCam h.cam fun c => { c.setOpen h.crocus none with
    broken := c.broken.filter fun x => !(x.1 == h.crocus && decide (x.2 ≤ h.srcFrame)) }
  if o.bad then s1
  else
    let s2 := s1.modClaim n fun c => { c with frames := satInc 65535 c.frames }
    if h.crocus then
      (s2.modCam h.cam fun c => { c with doneCrocus := some h.srcFrame }).crocusAnswer h.cam h.srcFrame o.items
    else
      let s3 := s2.modCam h.cam fun c => { c with
        doneReal := some h.srcFrame, ref := max c.ref h.srcBeat, doneAt := some s.sched.frame }
      { s3 with grid := { s3.grid with matchDue := some (s3.grid.matchDue.getD s.beat) } }

/-- A long packet on a claim port's channel (R236, R239 to R241): checked in the order packet, CRC, alive, format. -/
def State.claimRecord (s : State) (p : Nat) (k : LongPkt) : State :=
  if s.role p = 2 ∧ s.pwr.mainOn = true ∧ k.vc = pVc s.strB p then
    let n := pClaimStream s.strB p
    let h := claimHdr k.payload
    let s1 := s.header p k.hdr
    let s1 := if k.crcOk || k.hdr == .uncorrectable then s1
      else s1.modPort p fun x => { x with err := x.err ||| 4, crcErrs := satInc 65535 x.crcErrs }
    if k.hdr = .uncorrectable ∨ k.crcOk = false then s1.claimFails n 1 0 h
    else if k.dt = 0x30 ∧ claimCrcOk k.payload = false then s1.claimFails n 2 0 h
    else if k.dt ≠ 0x30 then s1.claimFails n 4 1 h
    else
      let c := s1.claimStream n
      let gap := (h.alive + 65536 - c.aliveLast) % 65536
      let s2 := s1.modClaim n fun c => { c with aliveLast := h.alive, fresh := false }
      if !c.fresh && !(decide (1 ≤ gap ∧ gap ≤ pAliveGap s.strB p + 1)) then s2.claimFails n 3 0 h
      else
        let code := s2.claimFormat n k.dt k.payload
        if code ≠ 0 then s2.claimFails n 4 code h
        else if h.rtype = 0x0F then s2.claimFrameEnd n h
        else s2.claimItems h k.payload
  else s

/-! ### Claim age (R242) -/

/-- The largest age of a stream's cameras. -/
def State.claimAge (s : State) (n : Nat) : Nat :=
  (s.camsOf n).foldl (fun m c => max m (s.beat - (s.camClaims c).ref)) 0

/-- A pair image runs (R483). -/
def State.pairImage (s : State) : Bool := s.img.isSome && s.sec 0x0F != []

/-- A claim stream is over age (R242); in pair images the fuse stage judges age instead (R492).
(DESIGN CHOICE, safe: notes/assumptions/28.md.) -/
def State.overAge (s : State) (n : Nat) : Bool :=
  match s.claimPort n with
  | some p => s.keptSec 0x0F == [] && decide (s.claimAge n > pMaxAge (s.keptSec 2) p)
  | none => false

/-- The age of a stream is judged (R242): a change is event 0x2101, over age is a cause of D1; in STANDBY the expiry is a
wake request (R326). -/
def State.claimAgeExpiry (s : State) (n : Nat) : State :=
  let over' := s.overAge n
  let s1 := if over' = (s.claimStream n).overAge then s
    else
      let e := (s.modClaim n fun c => { c with overAge := over' }).event 0x2101 (n + b2n over' * 256)
      if over' then e.wakeRequest 5 else e
  if over' then s1.addDoubt 1 else s1

/-- Entry to ARMING (R240, R242, R245, R20): every age counts from here, the first record of each stream is taken without
an alive check, every Crocus camera is due at once and none is affected. -/
def State.claimsOnArming (s : State) : State :=
  { s with io := { s.io with
      cams := vmap (fun c => { c with ref := max c.ref s.beat }) s.io.cams
      claims := vmap (fun c => { c with fresh := true }) s.io.claims
      crocus := vmap (fun c => { c with since := none, affected := false }) s.io.crocus } }

/-- Every camera with a claim stream has completed a real claim frame in this frame (R493, stage 2). -/
def State.fusesDone (s : State) : Bool :=
  (upto 4).all fun n => (s.camsOf n).all fun c => (s.camClaims c).doneAt == some s.sched.frame

/-! ### Verdict stream (R251, R252) -/

/-- The VERDICT_OUT port. -/
def State.verdictPort (s : State) : Option Nat := (upto 16).find? fun p => s.role p == 3

/-- The stream runs. -/
def State.verdictOn (s : State) : Bool := s.pwr.mainOn && s.verdictPort.any fun p => phyLanes (pTxPhy s.strB p) != 0

/-- The word committed in a beat, with the device time of its commit. -/
def State.wordOf (s : State) (b : Nat) : Nat × Nat := ((s.io.v.words.find? fun w => w.1 == b).map (·.2)).getD (0, 0)

/-- The payload of batch `b` (R251).
(DEDUCED, unsafe: notes/assumptions/53.md.) -/
def State.batchBytes (s : State) (b : Nat) : List Byte :=
  let d := leBytes 6 (64 * b) ++ leBytes 2 b ++ leBytes 8 (s.wordOf (64 * b)).2 ++
    (upto 64).flatMap fun i => leBytes 4 (s.wordOf (64 * b + i)).1
  d ++ leBytes 4 (crc32c d) ++ leBytes 4 0

/-- The word of the present beat joins the stream. -/
def State.verdictWordIn (s : State) : State :=
  if s.verdictOn then
    { s with io := { s.io with v := { s.io.v with
        words := ((s.beat, s.watch.verdict.toNat, s.time.now) :: s.io.v.words).take 130 } } }
  else s

/-- The batch whose turn it is: sent in beat 64b + 64 or 64b + 65, or dropped (R252).
(DEDUCED, unsafe: notes/assumptions/53.md.) -/
def State.verdictBatch (s : State) (sent : Bool) : State :=
  let b := s.io.v.next
  match s.verdictPort with
  | some p =>
    if s.verdictOn ∧ 64 * b + 64 ≤ s.beat then
      if sent = true ∧ s.beat ≤ 64 * b + 65 then
        let n := b % 65536 % 65535 + 1
        let vc := pVc s.strB p
        let s1 := s.sends p [shortPkt vc 0 n, longPkt vc 0x31 (s.batchBytes b) false, shortPkt vc 1 n]
        { s1 with io := { s1.io with v := { s1.io.v with alive := b % 65536, next := b + 1 } } }
      else { s with io := { s.io with v := { s.io.v with txFault := true, next := b + 1 } } }
    else s
  | none => s

/-- A batch that has not been sent by the end of beat 64b + 65 is dropped (R252).
(DEDUCED, unsafe: notes/assumptions/53.md.) -/
def State.verdictExpire (s : State) : State := if 64 * s.io.v.next + 65 ≤ s.beat then s.verdictBatch false else s

/-! ### Check-value units (R254 to R257) -/

def State.cvu (s : State) (n : Nat) : CvuState := vget s.io.cvu n CvuState.reset
def State.modCvu (s : State) (n : Nat) (f : CvuState → CvuState) : State :=
  { s with io := { s.io with cvu := vmod s.io.cvu n f } }

/-- The register width that a polynomial code selects (R254). -/
def cvuWidth (poly : Nat) : Nat :=
  match poly with
  | 0 => 8 | 1 => 16 | 2 => 32 | 3 => 32 | _ => 64

/-- The polynomial of a code (R254). -/
def cvuPoly (poly : Nat) : Nat :=
  match poly with
  | 0 => 0x1D | 1 => 0x1021 | 2 => 0x04C11DB7 | 3 => 0x1EDC6F41 | _ => 0x42F0E1EBA9EA3693

/-- The register after bytes have passed through it (R254). -/
def cvuRun (poly : Nat) (refl : Bool) (v : Nat) (bs : List Byte) : Nat :=
  let w := cvuWidth poly
  let p := BitVec.ofNat w (cvuPoly poly)
  let r := BitVec.ofNat w v
  (if refl then crcLsb p r bs else crcMsb p r bs).toNat

/-- `CVU_RESULT` (R254).
(DEDUCED, unsafe: notes/assumptions/52.md.) -/
def CvuState.result (c : CvuState) : Nat :=
  let w := cvuWidth c.poly
  let v := c.value.toNat % 2 ^ w
  if c.xorOut then 2 ^ w - 1 - v else v

/-- The address of a register of a unit (R263).
(DEDUCED, unsafe: notes/assumptions/52.md.) -/
def cvuAddr (n off : Nat) : Nat := 0x060000 + 0x40 * n + off

/-- The feed register for a number of bytes (R255, R263). -/
def feedOff (k : Nat) : Nat := if k = 1 then 0x14 else if k = 2 then 0x18 else 0x1C

/-- A feed of 1, 2 or 4 bytes (R255). Units 0 to 7 belong to the safety runtime: an I3C write there is ignored and
recorded. Where the two lanes disagree, the register holds a value that the spec does not state; the runtime treats it
as an integrity failure of its own units.
(DESIGN CHOICE, safe: notes/assumptions/25.md.)
(DEDUCED, unsafe: notes/assumptions/52.md.) -/
def State.cvuFeed (s : State) (n : Nat) (bs : List Byte) (runtime agree : Bool) : State :=
  if s.pwr.mainOn = true ∧ bs.length ∈ [1, 2, 4] then
    if runtime = decide (n < 8) then
      let c := s.cvu n
      if agree then s.modCvu n fun c => { c with value := BitVec.ofNat 64 (cvuRun c.poly c.reflect c.value.toNat bs) }
      else
        let s1 := s.freed.modCvu n fun x => { x with
          value := BitVec.ofNat 64 (s.free (2 ^ cvuWidth c.poly)), laneErr := true }
        let s2 := s1.event 0x7103 n
        if runtime then s2.freed.raise 22 .ft (s2.free (2 ^ 32)) else s2
    else if runtime then s
    else s.ignoredWrite (cvuAddr n (feedOff bs.length)) 2
  else s

/-- The width of a unit's alive checker (R256, R263). -/
def aliveWidth (w : Nat) : Nat :=
  match w with
  | 1 => 4 | 2 => 8 | _ => 16

/-- A value written to `CVU_ALIVE_IN_n` (R256). -/
def CvuState.aliveIn (c : CvuState) (v : Nat) : CvuState :=
  if c.width = 0 then c
  else if c.primed then
    let m := 2 ^ aliveWidth c.width
    let d := (v % m + m - c.last % m) % m
    if 1 ≤ d ∧ d ≤ c.gap + 1 then { c with last := v }
    else { c with last := v, aliveErr := true, aliveErrs := satInc 65535 c.aliveErrs }
  else { c with last := v, primed := true }

/-- The alive check of a unit, by its owner (R254, R256).
(DEDUCED, unsafe: notes/assumptions/52.md.) -/
def State.cvuAlive (s : State) (n v : Nat) (runtime : Bool) : State :=
  if s.pwr.mainOn then
    if runtime = decide (n < 8) then s.modCvu n (·.aliveIn v)
    else if runtime then s
    else s.ignoredWrite (cvuAddr n 0x24) 2
  else s

end Sys2Proof.Machine
end

