-- ==== Sys2Proof/Machine/LoadFrame.lean ====
section
/-!
DEFINITION. The first steps of a load (spec/11_reneb_image.md R370 to R373, R378 to R381): what a refusal is, the framing
of an image into sections, its header, its signature, its rollback value and its runtime package.
-/
namespace Sys2Proof.Machine

/-! ### Refusals (R156, R383) -/

/-- A refusal that names a section and a record. -/
def refuse (code sect index : Nat) : Option Refused := some ⟨code, sect, index, 0, 0, 0⟩

/-- A refusal where a condition is broken. -/
def refuseIf (broken : Bool) (code sect index : Nat) : Option Refused := if broken then refuse code sect index else none

/-- The first refusal of a list of checks. -/
def firstOf (l : List (Option Refused)) : Option Refused := l.findSome? id

/-- The first refusal of a check over records. -/
def firstIn (l : List Nat) (f : Nat → Option Refused) : Option Refused := l.findSome? f

/-- A number lies in a range. -/
def inRange (lo hi x : Nat) : Bool := decide (lo ≤ x ∧ x ≤ hi)

/-- `n` bytes at an offset are 0. -/
def zeros (b : List Byte) (off n : Nat) : Bool := (slice b off n).all (· == 0)

/-! ### Framing (R370 to R372) -/

/-- The section IDs of R372. -/
def sectionIds : List Nat := [1, 2, 3, 4, 5, 6, 7, 8, 9, 0xA, 0xB, 0xC, 0xD, 0xE, 0xF, 0x10, 0x11, 0xFF]

/-- The mandatory ones. -/
def mandatoryIds : List Nat := [1, 2, 3, 4, 5, 6, 7, 8, 9, 0xA, 0xB, 0x10, 0x11, 0xFF]

/-- The first multiple of 64 at or after an offset. -/
def up64 (n : Nat) : Nat := (n + 63) / 64 * 64

/-- The sections of an image from an offset on, in ascending ID order, each with its framing and CRC checked (R370,
R371); the first argument bounds their number. -/
def readSections (b : List Byte) : Nat → Nat → Nat → Except Refused (List Section)
  | 0, _, prev => .error ⟨5, prev, 0, 0, 0, 0⟩
  | fuel + 1, o, prev =>
    let id := u8 b o
    let len := u32 b (o + 4)
    let stop := o + 16 + len
    let body := slice b (o + 16) len
    if b.length < o + 16 ∨ id ≤ prev ∨ !sectionIds.contains id ∨ u8 b (o + 1) ≠ 1 ∨ u16 b (o + 2) ≠ 0 ∨
        u32 b (o + 0xC) ≠ 0 ∨ b.length < stop then .error ⟨5, id, 0, 0, 0, 0⟩
    else if crc32c body ≠ u32 b (o + 8) then .error ⟨6, id, 0, 0, 0, 0⟩
    else if id = 0xFF then
      if stop = b.length then .ok [⟨id, body⟩] else .error ⟨5, id, 0, 0, 0, 0⟩
    else if !zeros b stop (up64 stop - stop) then .error ⟨5, id, 0, 0, 0, 0⟩
    else match readSections b fuel (up64 stop) id with
      | .ok l => .ok (⟨id, body⟩ :: l)
      | .error r => .error r

/-- The body of a section of a candidate. -/
def secOf (l : List Section) (id : Nat) : List Byte :=
  match l.find? (fun x => x.id == id) with
  | some x => x.body
  | none => []

/-- A section is present. -/
def hasSec (l : List Section) (id : Nat) : Bool := l.any fun x => x.id == id

/-- Step 3 of R381: the sections, none missing, SECTION_COUNT right, HEADER 64 and SIGNATURE 29,864 bytes. -/
def frameImage (b : List Byte) : Except Refused (List Section) :=
  match readSections b 18 0 0 with
  | .error r => .error r
  | .ok l =>
    match mandatoryIds.find? fun id => !hasSec l id with
    | some id => .error ⟨5, id, 0, 0, 0, 0⟩
    | none =>
      if l.length ≠ u16 b (16 + 0x0A) ∨ (secOf l 1).length ≠ 64 ∨ u32 b (16 + 0x0C) ≠ b.length then .error ⟨5, 1, 0, 0, 0, 0⟩
      else if (secOf l 0xFF).length ≠ 29864 then .error ⟨5, 0xFF, 0, 0, 0, 0⟩
      else .ok l

/-! ### Header (R373) -/

/-- The device's stepping, A1 (R12). -/
def stepping : Nat := 0x11

/-- The size of an image slot: SLOT_MIB, rounded up to whole blocks (R354).
(DEDUCED, unsafe: notes/assumptions/41.md.) -/
def State.slotBytes (s : State) : Nat :=
  (s.jnl.blocks.countP fun b => b.part == .slotA) * (s.jnl.pagesPerBlock * s.jnl.page * 8192)

/-- Step 2 of R381. -/
def State.headerCheck (s : State) (b : List Byte) : Option Refused :=
  let h := slice b 16 64
  firstOf [
    refuseIf (u32 h 0 != 0x42454E52) 1 1 0,
    refuseIf (u16 h 4 != 1 || u16 h 6 != 0x7832 || decide (stepping < u8 h 8)) 2 1 0,
    refuseIf (!bitAt (u8 h 9) s.lc.bootState || decide (16 ≤ u8 h 9)) 3 1 0,
    refuseIf (decide (536870912 < u32 h 0x0C) || decide (s.slotBytes < u32 h 0x0C)) 4 1 0,
    refuseIf (!zeros h 0x28 24) 5 1 0]

/-! ### Key, signature, rollback, runtime (R378 to R381, R384) -/

/-- The image digest D (R379). -/
def digestOf (b : List Byte) : List Byte := Config.shake256 (b.take (b.length - 29880)) 64

/-- The context string AHN-IMG (R379). -/
def imgContext : List Byte := [0x41, 0x48, 0x4E, 0x2D, 0x49, 0x4D, 0x47]

/-- An owner key slot is programmed, not revoked, and holds the hash of the public key (R380). -/
def State.ownerKey (s : State) (slot : Nat) (pub : List Byte) : Bool :=
  let k := vget s.lc.keys slot ⟨[], false, true⟩
  decide (slot < 4) && k.programmed && !k.revoked && k.hash == Config.shake256 pub 32

/-- Step 4 of R381 (R380). -/
def State.signatureCheck (s : State) (b sig : List Byte) : Option Refused :=
  let pub := slice sig 8 64
  firstOf [
    refuseIf (!s.ownerKey (u8 sig 0) pub) 7 0xFF 0,
    refuseIf (!zeros sig 1 7 || !Config.slhDsaVerify pub imgContext (digestOf b) (slice sig 0x48 29792)) 8 0xFF 0]

/-- Step 6 of R381 (R378). -/
def runtimeCheck (r : List Byte) : Option Refused :=
  let pkg := r.drop 0x50
  refuseIf (u32 r 0x44 != pkg.length || !zeros r 0x48 8 || r.length < 0x50 || Config.shake256 pkg 64 != slice r 0 64 ||
    !Config.runtimePackageOk pkg (u32 r 0x40)) 0x0A 0x10 0

end Sys2Proof.Machine
end

