-- ==== Sys2Proof/Machine/LoadOps.lean ====
section
/-!
DEFINITION. The loader's checks of one descriptor (spec/04_operators.md R135 to R149): operands, operator fields, formats
and shapes.
-/
namespace Sys2Proof.Machine

/-! ### Formats (R132, R139) -/

def fI8 : Nat := 0x00
def fU8 : Nat := 0x01
def fI4 : Nat := 0x02
def fBF : Nat := 0x08
def fH : Nat := 0x09
def fF32 : Nat := 0x0A
def fI32 : Nat := 0x0B
def fE : Nat := 0x0C
def fU16 : Nat := 0x0D

def isF8 (f : Nat) : Bool := f == 3 || f == 4
def isPlain8 (f : Nat) : Bool := f == fI8 || f == fU8

/-- The operator codes of R139. -/
def opcodes : List Nat :=
  [0x01, 0x02, 0x03, 0x04, 0x05, 0x06, 0x10, 0x11, 0x12, 0x13, 0x14, 0x15, 0x16, 0x17, 0x18, 0x20, 0x21, 0x22, 0x23, 0x24,
   0x25, 0x26, 0x27, 0x28, 0x30, 0x31, 0x32, 0x33, 0x40, 0x41, 0x42, 0x50, 0x51, 0x52, 0x53, 0x54]

/-- Operators marked Yes in the E column (R139). -/
def envOps : List Nat :=
  [0x01, 0x02, 0x03, 0x04, 0x05, 0x10, 0x11, 0x12, 0x13, 0x14, 0x17, 0x18, 0x20, 0x21, 0x22, 0x23, 0x24, 0x25, 0x26, 0x27,
   0x28, 0x40, 0x41, 0x42, 0x50, 0x51, 0x52, 0x53]

/-- Formats that an array operator may combine: data by weights (R139). -/
def arrayCombo (dw : Bool) (f w : Nat) : Bool :=
  if dw then (isPlain8 f && w == fI8) || (f == fBF && w == fBF) || (f == fH && w == fH)
  else (isPlain8 f && w == fI8) || (f == fI8 && w == fI4) || (f == fI4 && w == fI4) || (isF8 f && isF8 w) ||
    (isMx f && isMx w) || (f == fBF && w == fBF) || (f == fH && w == fH)

/-- Outputs of an array operator (R139). -/
def arrayOut (f : Nat) : Bool := f == fI8 || f == fU8 || f == fI32 || f == fF32 || f == fBF || f == fH

/-- A present handle's format; 0xFF for none. -/
def fmtOf (b : List Byte) (g t : Nat) : Nat := if t = noTensor then 0xFF else tFormat b g t

/-- A tensor of a descriptor carries constant data. -/
def constOrNone (b : List Byte) (g t : Nat) : Bool := t == noTensor || tConst b g t

/-- The format combination of a descriptor is one of R139, and ENV goes with envelope tensors. -/
def formatsOk (b : List Byte) (g k : Nat) : Bool :=
  let op := dOp b g k
  let env := dEnv b g k
  let f0 := fmtOf b g (dIn b g k 0)
  let f1 := fmtOf b g (dIn b g k 1)
  let fo := fmtOf b g (dOut b g k)
  let fo1 := fmtOf b g (dOut1 b g k)
  let numeric := fun f => isPlain8 f || f == fI32 || f == fBF || f == fH || f == fF32
  if env then
    envOps.contains op &&
      (if op = 0x28 then fo == fE
       else if op = 0x42 then fo == fE
       else if op = 0x18 then f0 == fE && fo == fU8
       else if op ∈ [0x01, 0x02, 0x03, 0x04, 0x05] then f0 == fE && f1 == fI8 && constOrNone b g (dIn b g k 1) && fo == fE
       else if op = 0x13 then f0 == fE && f1 == fE && fo == fE
       else if op ∈ [0x41, 0x50, 0x51, 0x52] then f0 == fE
       else if op = 0x53 then f0 == fE || f0 == 0xFF
       else if op = 0x40 ∨ op = 0x26 then f0 == fE && fo == fE
       else (dInputs b g k).all (fun t => tConst b g t || tFormat b g t == fE) &&
         (dOutputs b g k).all fun t => tFormat b g t == fE)
  else
    (if op = 0x28 then true
     else ((dInputs b g k ++ dOutputs b g k).all fun t => tFormat b g t != fE)) &&
    (if op ∈ [0x01, 0x03, 0x04, 0x05] then arrayCombo false f0 f1 && arrayOut fo
     else if op = 0x02 then arrayCombo true f0 f1 && arrayOut fo
     else if op = 0x06 then (f0 == fI8 || isF8 f0 || f0 == fBF || f0 == fH) && f1 == f0 && fmtOf b g (dIn b g k 2) == f0
     else if op ∈ [0x10, 0x11, 0x14] then (isPlain8 f0 || f0 == fBF || f0 == fH || f0 == fF32) && fo == f0
     else if op = 0x12 then (isPlain8 f0 || f0 == fBF || f0 == fH) && fo == f0
     else if op = 0x13 then numeric f0 && f1 == f0 && fo == f0
     else if op = 0x15 ∨ op = 0x16 then (f0 == fI8 || f0 == fBF || f0 == fH || f0 == fF32) && fo == f0
     else if op = 0x17 then numeric f0 && fo == f0
     else if op = 0x18 then (numeric f0 || f0 == fU16) && fo == fU8
     else if op = 0x20 ∨ op = 0x21 ∨ op = 0x27 then (dInputs b g k ++ dOutputs b g k).all fun t => tFormat b g t == f0
     else if op = 0x22 then !isMx f0 && f0 != fI4 && fo == f0
     else if op ∈ [0x23, 0x24, 0x25] then !isMx f0 && fo == f0
     else if op = 0x26 then !isMx f0 && f0 != fI4 && (f1 == fU16 || f1 == fI32) && fo == f0
     else if op = 0x30 then numeric f0 && fo == fU16
     else if op = 0x31 then numeric f0 && fo == f0 && fo1 == fU16
     else if op = 0x32 then (f0 == fH || f0 == fF32) && (f1 == fU8 || f1 == fH) && fo == fU8
     else if op = 0x33 then (f0 == fH || f0 == fF32) && f1 == f0 && fo == f0
     else if op = 0x40 then (isPlain8 f0 || f0 == fU16 || f0 == fBF || f0 == fH) && fo == f0
     else if op = 0x41 then (if dB b g k 0x10 = 2 then f0 == fU8 else f0 == fI8)
     else if op = 0x42 then fo == fI8
     else if op = 0x51 then false
     else true)

/-! ### Operator fields (R139, R142 to R149) -/

/-- The requantisation block is in range (R142); floating-point outputs ignore its multiplier. -/
def requantOk (b : List Byte) (g k : Nat) : Bool :=
  let q := dB b g k 0x3D
  let fo := fmtOf b g (dOut b g k)
  let float := fo == fBF || fo == fH || fo == fF32
  decide (q < 4) && dH b g k 0x3E == 0 && decide (dB b g k 0x36 ≤ 11) &&
    (float || bitAt q 0 || (inRange (2 ^ 30) (2 ^ 31 - 1) (dW b g k 0x30) && inRange 1 62 (dB b g k 0x34))) &&
    decide (toInt 16 (dH b g k 0x38) ≤ toInt 16 (dH b g k 0x3A)) &&
    (dB b g k 0x36 != 4 || decide (1 ≤ dB b g k 0x37))

/-- Bytes `o` to `o + n − 1` of a descriptor are 0. -/
def dZero (b : List Byte) (g k o n : Nat) : Bool := zeros b (descOff b g k + o) n

/-- Layout A (R143) with the limits of R139. -/
def convFieldsOk (b : List Byte) (g k : Nat) : Bool :=
  let op := dOp b g k
  let pool := op == 0x10 || op == 0x11
  let gr := dH b g k 0x1A
  let ci := dH b g k 0x1C
  let co := dH b g k 0x1E
  [0x10, 0x11].all (fun o => inRange 1 15 (dB b g k o)) && [0x12, 0x13].all (fun o => inRange 1 8 (dB b g k o)) &&
    [0x14, 0x15].all (fun o => if pool then dB b g k o == 1 else inRange 1 8 (dB b g k o)) &&
    [0x16, 0x17, 0x18, 0x19].all (fun o => inRange 0 15 (dB b g k o)) &&
    inRange 1 8192 ci && inRange 1 8192 co && decide (0 < gr) && ci % max 1 gr == 0 && co % max 1 gr == 0 &&
    [0x20, 0x22, 0x24, 0x26].all (fun o => inRange 1 4096 (dH b g k o)) && inRange 1 64 (dH b g k 0x28) &&
    (op != 0x02 || (gr == ci && ci == co)) && (!pool || ci == co) &&
    (if op = 0x03 then decide (dB b g k 0x2A < dB b g k 0x12 ∧ dB b g k 0x2B < dB b g k 0x13) else dZero b g k 0x2A 2) &&
    decide (dB b g k 0x2C < 2) && dZero b g k 0x2D 3

/-- Layout B (R144) with the limits of R139. -/
def matFieldsOk (b : List Byte) (g k : Nat) : Bool :=
  let op := dOp b g k
  dZero b g k 0x2A 6 && dZero b g k 0x21 3 && decide (dB b g k 0x18 < 4) &&
    (if op = 0x06 then
      inRange 1 64 (dB b g k 0x19) && inRange 16 256 (dH b g k 0x1A) && dH b g k 0x1A % 16 == 0 &&
      inRange 1 4096 (dH b g k 0x1C) && inRange 1 4096 (dH b g k 0x1E) && decide (dB b g k 0x20 ≤ 2)
    else
      [0x10, 0x12, 0x14].all (fun o => inRange 1 65535 (dH b g k o)) && (op != 0x05 || inRange 1 4096 (dH b g k 0x16)))

/-- Layout C (R145). -/
def vecFieldsOk (b : List Byte) (g k : Nat) : Bool :=
  let op := dOp b g k
  let fn := dB b g k 0x10
  let axis := tDim b g (dIn b g k 0) (dB b g k 0x11)
  decide (dB b g k 0x11 ≤ 3) && decide (dB b g k 0x12 ≤ 2) && dZero b g k 0x13 1 && dZero b g k 0x1E 2 && dZero b g k 0x28 8 &&
    decide (dB b g k 0x26 ≤ 3) && decide (dB b g k 0x27 ≤ 8) &&
    (if op = 0x13 then decide (fn ≤ 4) else if op = 0x14 then decide (fn ≤ 11) else if op = 0x17 then decide (fn ≤ 3)
     else true) &&
    (op != 0x18 || dDecision b g k) && (op != 0x16 || decide (axis ≤ 16384))

/-- Layout D (R146). -/
def moveFieldsOk (b : List Byte) (g k : Nat) : Bool :=
  let op := dOp b g k
  let ex := ((dExtra b g k).filter (· != noTensor)).length
  let nin := (((upto 3).map fun i => dIn b g k i).filter (· != noTensor)).length
  let nout := ([dOut b g k, dOut1 b g k].filter (· != noTensor)).length
  decide (dB b g k 0x10 ≤ 3) && decide (dB b g k 0x12 ≤ 2) && dZero b g k 0x13 1 && dZero b g k 0x34 12 &&
    (op == 0x20 || op == 0x21 || ex == 0 || (dExtra b g k).all (· == 0)) &&
    (op != 0x20 || inRange 2 9 (nin + ex)) && (op != 0x21 || inRange 2 8 (nout + ex)) &&
    (op != 0x22 || decide (((upto 4).map fun i => bits (dB b g k 0x11) (2 * i) 2).Nodup)) &&
    (op != 0x24 || (upto 8).all fun i => decide (dH b g k (0x14 + 2 * i) ≤ 4095))

/-- Layout E (R147). -/
def selFieldsOk (b : List Byte) (g k : Nat) : Bool :=
  let op := dOp b g k
  let axis := tDim b g (dIn b g k 0) (dB b g k 0x10)
  decide (dB b g k 0x10 ≤ 3) && decide (dB b g k 0x11 ≤ 1) && dZero b g k 0x25 27 && decide (dB b g k 0x24 ≤ 1) &&
    (op != 0x31 || (inRange 1 1024 (dH b g k 0x12) && decide (dH b g k 0x12 ≤ axis))) &&
    (op != 0x32 || (inRange 1 8192 (dH b g k 0x16) && inRange 1 1024 (dH b g k 0x12) && inRange 1 16 (dH b g k 0x14) &&
      f32Finite (dW b g k 0x18) && decide (0 ≤ f32 (dW b g k 0x18) ∧ f32 (dW b g k 0x18) ≤ 1))) &&
    (op != 0x33 || inRange 1 65535 (dH b g k 0x16))

/-- Layout F (R148). -/
def gridFieldsOk (b : List Byte) (g k : Nat) : Bool :=
  let op := dOp b g k
  if op = 0x40 ∨ op = 0x12 then
    decide (dB b g k 0x10 ≤ 1) && (op != 0x40 || decide (dB b g k 0x11 ≤ 2)) && inRange 1 4096 (dH b g k 0x12) &&
      inRange 1 4096 (dH b g k 0x14) && dZero b g k 0x16 2 && (op != 0x40 || dZero b g k 0x3C 4) &&
      (op != 0x40 || ((dB b g k 0x11 == 2) == (dIn b g k 1 != noTensor)))
  else if op = 0x41 then
    decide (dB b g k 0x10 ≤ 2) && decide (dH b g k 0x12 ≤ 255) && decide (dH b g k 0x14 ≤ 15) &&
      (if dB b g k 0x10 = 0 then inRange 50 400 (dH b g k 0x16) else decide (dB b g k 0x11 ≤ 63)) && dZero b g k 0x20 32
  else
    decide (dB b g k 0x10 ≤ 1) && dZero b g k 0x11 1 && inRange 1 1024 (dH b g k 0x16) && inRange 1 512 (dW b g k 0x18) &&
      dZero b g k 0x1C 36

/-- Layout G (R149). -/
def checkFieldsOk (b : List Byte) (g k : Nat) : Bool :=
  let op := dOp b g k
  if op = 0x50 then
    decide (dH b g k 0x10 ≤ 4095) && decide (dB b g k 0x12 ≤ 3) && dZero b g k 0x13 1 && f32Finite (dW b g k 0x18) &&
      dZero b g k 0x1C 36
  else if op = 0x51 then decide (dH b g k 0x10 ≤ 255) && dZero b g k 0x12 2 && dZero b g k 0x18 40
  else if op = 0x52 then
    decide (dH b g k 0x10 ≤ 1) && dZero b g k 0x12 2 && dZero b g k 0x1C 36 &&
      decide (tBytes b g (dIn b g k 0) ≤ 67108864)
  else if op = 0x53 then
    decide (dH b g k 0x10 ≤ 1) && dZero b g k 0x12 46 && (dIn b g k 0 == noTensor || decide (tBytes b g (dIn b g k 0) ≤ 256))
  else
    decide (dH b g k 0x10 < 2 ^ gCores b g) && dH b g k 0x10 != 0 && decide (dH b g k 0x12 ≤ 255) && dZero b g k 0x14 44

/-- The operator fields of a descriptor are in range. -/
def fieldsOk (b : List Byte) (g k : Nat) : Bool :=
  let op := dOp b g k
  if op ∈ [0x01, 0x02, 0x03, 0x10, 0x11] then convFieldsOk b g k && requantOk b g k
  else if op ∈ [0x04, 0x05, 0x06] then matFieldsOk b g k && requantOk b g k
  else if op ∈ [0x13, 0x14, 0x15, 0x16, 0x17, 0x18, 0x28] then vecFieldsOk b g k && (op == 0x18 || requantOk b g k)
  else if 0x20 ≤ op ∧ op ≤ 0x27 then moveFieldsOk b g k
  else if 0x30 ≤ op ∧ op ≤ 0x33 then selFieldsOk b g k
  else if op ∈ [0x12, 0x40, 0x41, 0x42] then gridFieldsOk b g k
  else checkFieldsOk b g k

/-! ### Handles (R136, R139) -/

/-- A handle names a tensor of the graph, or none. -/
def handleOk (b : List Byte) (g t : Nat) : Bool := t == noTensor || decide (t < gTensors b g)

/-- How many inputs an operator needs, and whether it has an output (R139). -/
def opNeeds (op : Nat) : Nat × Bool :=
  if op ∈ [0x01, 0x02, 0x03, 0x04, 0x05, 0x13, 0x20, 0x26, 0x32, 0x33] then (2, true)
  else if op ∈ [0x06, 0x16] then (3, true)
  else if op = 0x42 then (0, true)
  else if op ∈ [0x41, 0x50, 0x51, 0x52] then (1, false)
  else if op ∈ [0x53, 0x54] then (0, false)
  else (1, true)

/-- The handles of a descriptor are valid, and those that its operator needs are there. -/
def handlesOk (b : List Byte) (g k : Nat) : Bool :=
  let op := dOp b g k
  let hs := [dIn b g k 0, dIn b g k 1, dIn b g k 2, dOut b g k, dOut1 b g k] ++
    (if op = 0x20 ∨ op = 0x21 then dExtra b g k else []) ++ (if op = 0x06 then [dH b g k 0x28] else [])
  hs.all (handleOk b g) && ((upto (opNeeds op).1).all fun i => dIn b g k i != noTensor) &&
    ((opNeeds op).2 == (dOut b g k != noTensor)) && (op != 0x31 || dOut1 b g k != noTensor)

/-! ### Shapes (R139, R143 to R149) -/

def dims (b : List Byte) (g t : Nat) : List Nat := (upto 4).map (tDim b g t)

/-- Dimensions with one of them replaced. -/
def dimsWith (l : List Nat) (axis n : Nat) : List Nat := l.set axis n

/-- The output extent of a convolution or pooling axis (R143). -/
def convOut (i pa pb dil kk st : Nat) : Int := ((i : Int) + pa + pb - dil * (kk - 1) - 1).fdiv st + 1

/-- The output extent of a transposed convolution axis (R143). -/
def convTOut (i pa pb dil kk st op : Nat) : Int := ((i : Int) - 1) * st - pa - pb + dil * (kk - 1) + op + 1

/-- The tensor shapes of a descriptor agree with its fields. -/
def shapesOk (b : List Byte) (g k : Nat) : Bool :=
  let op := dOp b g k
  let i0 := dims b g (dIn b g k 0)
  let i1 := dims b g (dIn b g k 1)
  let o := dims b g (dOut b g k)
  let h := fun x => dH b g k x
  let c := fun x => dB b g k x
  if op ∈ [0x01, 0x02, 0x03, 0x10, 0x11] then
    let kh := c 0x10
    let kw := c 0x11
    i0 == [h 0x1C, h 0x22, h 0x20, h 0x28] && o == [h 0x1E, h 0x26, h 0x24, h 0x28] &&
      (if op = 0x03 then
        decide ((h 0x24 : Int) = convTOut (h 0x20) (c 0x16) (c 0x17) (c 0x14) kh (c 0x12) (c 0x2A) ∧
          (h 0x26 : Int) = convTOut (h 0x22) (c 0x18) (c 0x19) (c 0x15) kw (c 0x13) (c 0x2B))
       else
        decide ((h 0x24 : Int) = convOut (h 0x20) (c 0x16) (c 0x17) (c 0x14) kh (c 0x12) ∧
          (h 0x26 : Int) = convOut (h 0x22) (c 0x18) (c 0x19) (c 0x15) kw (c 0x13))) &&
      (op == 0x10 || op == 0x11 || i1.take 2 == [kh * kw * (h 0x1C / max 1 (h 0x1A)), h 0x1E])
  else if op = 0x04 ∨ op = 0x05 then
    let m := h 0x10
    let kk := h 0x12
    let n := h 0x14
    let bt := if op = 0x05 then h 0x16 else 1
    i0.take 3 == (if bitAt (c 0x18) 0 then [m, kk, bt] else [kk, m, bt]) &&
      i1.take 2 == (if bitAt (c 0x18) 1 then [n, kk] else [kk, n]) && o.take 3 == [n, m, bt]
  else if op = 0x06 then
    let d := c 0x19 * h 0x1A
    i0.take 2 == [d, h 0x1C] && i1.take 2 == [d, h 0x1E] && dims b g (dIn b g k 2) == i1 && o == i0
  else if op = 0x12 ∨ op = 0x40 then o.take 3 == [i0.getD 0 0, h 0x12, h 0x14]
  else if op = 0x13 then
    o == i0 && (i1 == i0 || (c 0x12 == 1 && i1 == dimsWith i0 0 1) || (c 0x12 == 2 && i1 == [i0.getD 0 0, 1, 1, 1]))
  else if op ∈ [0x14, 0x15, 0x16, 0x18, 0x27, 0x28] then o == i0
  else if op = 0x17 ∨ op = 0x30 then o == dimsWith i0 (if op = 0x17 then c 0x11 else c 0x10) 1
  else if op = 0x20 then
    let ax := c 0x10
    (dInputs b g k).all (fun t => dimsWith (dims b g t) ax 1 == dimsWith o ax 1) &&
      (((dInputs b g k).map fun t => tDim b g t ax).foldl (· + ·) 0 == tDim b g (dOut b g k) ax)
  else if op = 0x21 then
    let ax := c 0x10
    (dOutputs b g k).all (fun t => dimsWith (dims b g t) ax 1 == dimsWith i0 ax 1) &&
      (((dOutputs b g k).map fun t => tDim b g t ax).foldl (· + ·) 0 == tDim b g (dIn b g k 0) ax)
  else if op = 0x22 then o == (upto 4).map fun i => i0.getD (bits (c 0x11) (2 * i) 2) 0
  else if op = 0x23 then tElems b g (dIn b g k 0) == tElems b g (dOut b g k)
  else if op = 0x24 then o == (upto 4).map fun i => i0.getD i 0 + h (0x14 + 2 * i) + h (0x1C + 2 * i)
  else if op = 0x25 then
    o == ((upto 4).map fun i => h (0x1C + 2 * i) - h (0x14 + 2 * i)) &&
      (upto 4).all fun i => decide (h (0x14 + 2 * i) < h (0x1C + 2 * i) ∧ h (0x1C + 2 * i) ≤ i0.getD i 0)
  else if op = 0x26 then o == dimsWith i0 (c 0x10) (tElems b g (dIn b g k 1))
  else if op = 0x31 then o == dimsWith i0 (c 0x10) (h 0x12) && dims b g (dOut1 b g k) == o
  else if op = 0x32 then o.take 2 == [16, h 0x12]
  else if op = 0x33 then o == i0
  else if op = 0x42 then o.take 2 == [h 0x16, dW b g k 0x18] || o.take 3 == [1, h 0x16, dW b g k 0x18]
  else if op = 0x41 then dB b g k 0x10 != 2 || i0.getD 0 0 == 16
  else if op = 0x50 then dIn b g k 1 == noTensor || (i1 == i0 && tConst b g (dIn b g k 1) && fmtOf b g (dIn b g k 1) == fU8)
  else true

/-! ### Placement of a descriptor (R137, R138) -/

/-- Operators without an output tensor (R138). -/
def noOut (op : Nat) : Bool := op ∈ [0x41, 0x50, 0x51, 0x52, 0x53, 0x54]

/-- The descriptor is placed as R137 and R138 allow, and reads across cores only from core SRAM or GDDR6. -/
def placeOk (b : List Byte) (g k : Nat) : Bool :=
  let op := dOp b g k
  let out := dOut b g k
  let home := (dIndices b g k).getD 0 0
  let inOk := fun t => tLoc b g t != 0 || tCore b g t == home
  (!noOut op || !dSplit b g k) &&
    (out == noTensor || (if dSplit b g k then tLoc b g out == 1 else tLoc b g out != 0 || tEngine b g out == dEngine b g k)) &&
    (!(noOut op && dIn b g k 0 != noTensor && tLoc b g (dIn b g k 0) == 0) || tEngine b g (dIn b g k 0) == dEngine b g k) &&
    (dInputs b g k).all inOk

end Sys2Proof.Machine
end

