-- ==== Sys2Proof/Machine/LoadGraphs.lean ====
section
/-!
DEFINITION. The loader's checks of the GRAPHS section (spec/04_operators.md R127 to R138, R157; spec/05_redundant_execution.md
R158, R160, R163 to R169, R186; spec/11_reneb_image.md R376): header, graph records, tensors, descriptors, live ranges, shared
constants, redundancy, the golden graph and the floor graph.
-/
namespace Sys2Proof.Machine

/-! ### Header and graph records (R127, R128) -/

/-- The GRAPHS header and the extent of its tables. -/
def graphsHeaderCheck (b : List Byte) : Option Refused :=
  firstOf [
    refuseIf (!inRange 1 64 (graphCount b) || !zeros b 2 2 || descOffset b % 64 != 0 || !zeros b 0xC 4 ||
      decide (b.length < 0x10 + 64 * graphCount b)) 0x58 4 0,
    refuseIf (!inRange 1 65536 (descTotal b)) 0x47 4 0,
    refuseIf (decide (b.length < descOffset b + 64 * descTotal b)) 0x58 4 0]

/-- One graph record; `len` is FRAME_BEATS. -/
def graphRecordCheck (b : List Byte) (len g : Nat) : Option Refused :=
  firstOf [
    refuseIf (gId b g != g || decide (3 < gClass b g) || decide (2 < gRClass b g) || decide (2 < gClock b g) ||
      decide (descTotal b ≤ gFirst b g) || gTensorOff b g % 32 != 0 || decide (524288 < gEngSram b g) ||
      decide (4194304 < gCoreSram b g) || decide (16106127360 < gGddrBytes b g) || !inRange 1 4096 (gSlots b g) ||
      !inRange 1 8 (gCores b g) || !inRange 1 len (gBeats b g) || gEnergy b g == 0 ||
      decide (gNocKib b g < gGddrKib b g) || (decide (63 < gCtx b g) && gCtx b g != 0xFF) ||
      !zeros b (graphOff g + 0x35) 11) 0x58 4 g,
    refuseIf (!inRange 1 16384 (gDescs b g) || decide (descTotal b < gFirst b g + gDescs b g)) 0x47 4 g,
    refuseIf (!inRange 1 16384 (gTensors b g)) 0x48 4 g,
    refuseIf (decide (b.length < gTensorOff b g + 32 * gTensors b g)) 0x58 4 g]

/-- The descriptor ranges of two graphs overlap (R129). -/
def descOverlap (b : List Byte) (g h : Nat) : Bool :=
  decide (gFirst b g < gFirst b h + gDescs b h ∧ gFirst b h < gFirst b g + gDescs b g)

def graphOverlapCheck (b : List Byte) (g : Nat) : Option Refused :=
  refuseIf ((upto g).any fun h => descOverlap b g h) 0x55 4 g

/-! ### Tensors (R131, R132, R157) -/

/-- The size of a location: engine SRAM, core SRAM, GDDR6; the island SRAM that the floor graph has (R376). -/
def locSize (floor : Bool) (loc : Nat) : Nat :=
  if loc = 2 then 16106127360 else if floor then 7340032 else if loc = 0 then 524288 else 4194304

/-- The format in which the frame store of a context holds its samples (R132, R229). -/
def streamFormat (str : List Byte) (x : Nat) : Nat := if inRange 0x2B 0x2F (cDt str x) then fU16 else fU8

/-- The context that a STREAM tensor names: SOURCE_CTX, or for the floor graph FLOOR_CTX0 or FLOOR_CTX1 (R376). -/
def tensorCtx (str b : List Byte) (g t : Nat) : Nat :=
  if floorGraph str = g then (if tPlace b g t % 8 = 0 then floorCtx0 str else floorCtx1 str) else gCtx b g

/-- One tensor record. -/
def tensorCheck (str b : List Byte) (g t : Nat) : Option Refused :=
  let floor := floorGraph str == g
  let f := tFormat b g t
  let loc := tLoc b g t
  let o := tensorOff b g t
  let x := tensorCtx str b g t
  firstOf [
    refuseIf (decide (0xD < f)) 0x52 4 t,
    refuseIf (!inRange 1 4 (tRank b g t) || decide (3 < loc) || decide (1 < u8 b (o + 3)) ||
      !((upto 4).all fun i => decide (1 ≤ tDim b g t i) && (decide (i < tRank b g t) || tDim b g t i == 1)) ||
      !f32Finite (tScale b g t) || decide (f32 (tScale b g t) ≤ 0) || (f != fU8 && tZp b g t != 0) ||
      decide (32 ≤ tPlace b g t) ||
      (if floor && loc == 3 then decide (1 < tPlace b g t % 8) else decide (gCores b g ≤ tCore b g t)) ||
      !zeros b (o + 0x16) 2 || tBytes b g t != tComputed b g t || (isMx f && tDim b g t 0 % 32 != 0) ||
      (!tConst b g t && tWeight b g t != 0) ||
      (if loc = 3 then tOffset b g t != 0 else decide (locSize floor loc < tStart b g t + tBytes b g t))) 0x53 4 t,
    refuseIf (!floor && (gClass b g == 0 || gClass b g == 3) && decide (2 ≤ loc)) 0x4B 4 t,
    refuseIf (floor && loc == 2) 0x4B 4 t,
    refuseIf (loc == 3 && (decide (63 < x) || f != streamFormat str x)) 0x52 4 t]

/-! ### Descriptors (R129, R135 to R139) -/

/-- A tensor that needs no producer (R129). -/
def isSource (b : List Byte) (g t : Nat) : Bool := tConst b g t || tLoc b g t == 3

/-- Every input of a descriptor is a CONST or STREAM tensor or the output of an earlier one (R129). -/
def orderOk (b : List Byte) (g k : Nat) : Bool :=
  (dInputs b g k).all fun t => isSource b g t || (upto k).any fun j => (dOutputs b g j).contains t

/-- The header fields that repeat those of the graph, and ROUND (R110, R135, R136). -/
def repeatsOk (b : List Byte) (g k : Nat) : Bool :=
  bits (dFlags b g k) 0 2 == gClass b g && u8 b (descOff b g k + 2) == g && bits (dRedund b g k) 0 2 == gRClass b g &&
    decide (dRedund b g k < 8) && dRound b g k != 3

/-- In-place operation is for ELTWISE and ACT alone, with the same shapes and formats. -/
def inPlaceOk (b : List Byte) (g k : Nat) : Bool :=
  (dOutputs b g k).all fun t => !(dInputs b g k).contains t ||
    ((dOp b g k == 0x13 || dOp b g k == 0x14) && dOut b g k == t && dIn b g k 0 == t)

/-- One descriptor; the index reported is that in the descriptor array. -/
def descCheck (b pow : List Byte) (g k : Nat) : Option Refused :=
  let d := gFirst b g + k
  firstOf [
    refuseIf (!opcodes.contains (dOp b g k)) 0x50 4 d,
    refuseIf (!handlesOk b g k) 0x54 4 d,
    refuseIf (!formatsOk b g k) 0x52 4 d,
    refuseIf (!repeatsOk b g k || !fieldsOk b g k || !placeOk b g k) 0x51 4 d,
    refuseIf (!shapesOk b g k) 0x53 4 d,
    refuseIf (!orderOk b g k) 0x55 4 d,
    refuseIf (!inPlaceOk b g k) 0x56 4 d,
    refuseIf (decide (costCount pow ≤ dCost b g k)) 0x60 4 d]

/-! ### Live ranges and shared constants (R133, R134) -/

/-- The descriptors from the one that writes a tensor to the last one that reads it; none where it is not written. -/
def liveRange (b : List Byte) (g t : Nat) : Option (Nat × Nat) :=
  let ks := upto (gDescs b g)
  if isSource b g t then some (0, gDescs b g)
  else match ks.find? fun k => (dOutputs b g k).contains t with
    | none => none
    | some w => some (w, (ks.filter fun k => (dInputs b g k).contains t).foldl max w)

/-- A RESHAPE whose output takes the memory of its input (R151). -/
def reshapeAlias (b : List Byte) (g t u : Nat) : Bool :=
  (upto (gDescs b g)).any fun k => dOp b g k == 0x23 &&
    ((dIn b g k 0 == t && dOut b g k == u) || (dIn b g k 0 == u && dOut b g k == t)) && tOffset b g t == tOffset b g u

/-- Two tensors lie at the same location and place. -/
def samePlace (b : List Byte) (g t u : Nat) : Bool :=
  tLoc b g t == tLoc b g u && tLoc b g t != 3 &&
    (tLoc b g t == 2 || (tCore b g t == tCore b g u && (tLoc b g t == 1 || tEngine b g t == tEngine b g u)))

/-- Two CONST tensors in core SRAM at one OFFSET, which R134 judges. -/
def constPair (b : List Byte) (g t u : Nat) : Bool :=
  tConst b g t && tConst b g u && tLoc b g t == 1 && tOffset b g t == tOffset b g u

/-- Two tensors of a copy that live at once overlap in memory. -/
def liveOverlap (b : List Byte) (g t u : Nat) : Bool :=
  match liveRange b g t, liveRange b g u with
  | some (a, z), some (a', z') =>
    decide (a ≤ z' ∧ a' ≤ z) && samePlace b g t u && !constPair b g t u && !reshapeAlias b g t u &&
      decide (tStart b g t < tStart b g u + tBytes b g u ∧ tStart b g u < tStart b g t + tBytes b g t)
  | _, _ => false

def liveCheck (b : List Byte) (g : Nat) : Option Refused :=
  firstIn (upto (gTensors b g)) fun t => refuseIf ((upto t).any fun u => liveOverlap b g t u) 0x56 4 t

/-- A constant in core SRAM where it lies: core, graph, tensor. -/
structure PlacedConst where
  core : Nat
  graph : Nat
  tensor : Nat
  deriving DecidableEq, Repr

/-- The constants in core SRAM under the base placement, or an alternate one. -/
def coreConsts (str b alt : List Byte) (entry : Option Nat) : List PlacedConst :=
  (upto (graphCount b)).flatMap fun g =>
    if floorGraph str = g then []
    else (upto (gCopies b g)).flatMap fun c =>
      ((upto (gTensors b g)).filter fun t => tConst b g t && tLoc b g t == 1).map fun t =>
        PlacedConst.mk (placedOn str alt entry g c (tCore b g t)) g t

/-- Two constants are identical in FORMAT, DIM, OFFSET, BYTES and WEIGHT_OFFSET (R134). -/
def constSame (b : List Byte) (g t h u : Nat) : Bool :=
  tFormat b g t == tFormat b h u && dims b g t == dims b h u && tOffset b g t == tOffset b h u &&
    tBytes b g t == tBytes b h u && tWeight b g t == tWeight b h u

/-- Constants of one core that agree in OFFSET are identical (R134). -/
def constsCheck (str b alt : List Byte) (entry : Option Nat) : Option Refused :=
  let l := coreConsts str b alt entry
  l.findSome? fun x => refuseIf (l.any fun y => x.core == y.core &&
    tOffset b x.graph x.tensor == tOffset b y.graph y.tensor && !constSame b x.graph x.tensor y.graph y.tensor) 0x57 4 x.tensor

/-! ### Redundancy (R158, R160, R163, R165, R168, R169) -/

/-- The COMPARE descriptors of a graph. -/
def comparesOf (b : List Byte) (g : Nat) : List Nat := (upto (gDescs b g)).filter fun k => dOp b g k == 0x50

/-- MODE of a COMPARE is allowed for the class and the tensor (R158, R168). -/
def modeOk (b : List Byte) (g k : Nat) : Bool :=
  let env := tFormat b g (dIn b g k 0) == fE
  let m := dB b g k 0x12
  if m = 1 then gRClass b g == 2 && env else decide (m < 3) && !env

/-- The outputs of a DECISION descriptor that are decisions: the index output of TOPK (R169). -/
def decisionOuts (b : List Byte) (g k : Nat) : List Nat :=
  if dDecision b g k then (if dOp b g k = 0x31 then [dOut1 b g k] else [dOut b g k]).filter (· != noTensor) else []

/-- The rules of R158 to R169 for one descriptor. -/
def redundOk (b : List Byte) (g k : Nat) : Bool :=
  let t := dIn b g k 0
  let cs := comparesOf b g
  (dOp b g k != 0x50 ||
    (modeOk b g k && (tLoc b g t == 1 || tLoc b g t == 2) &&
      cs.all (fun j => j == k || dH b g j 0x10 != dH b g k 0x10) &&
      ((upto (gDescs b g)).all fun j => !(decisionOuts b g j).contains t || dB b g k 0x12 == 2))) &&
  ((dOp b g k != 0x41 && dOp b g k != 0x53) || gRClass b g == 0 ||
    (dInputs b g k).all fun u => cs.any fun j => decide (j < k) && dIn b g j 0 == u) &&
  ((decisionOuts b g k).all fun u => cs.any fun j => dIn b g j 0 == u && dB b g j 0x12 == 2)

/-- The supplied mask of a COMPARE excludes no element that the derived mask consumes (R165). -/
def maskOk (b wts : List Byte) (g k : Nat) : Bool :=
  let m := dIn b g k 1
  let t := dIn b g k 0
  dOp b g k != 0x50 || m == noTensor ||
    (upto (tElems b g t)).all fun i => u8 wts (tWeight b g m + i) == 1 || !derivedMask b g t i

def redundCheck (b wts : List Byte) (g : Nat) : Option Refused :=
  firstOf [
    refuseIf (if gRClass b g = 0 then !(comparesOf b g).isEmpty else (comparesOf b g).isEmpty) 0x18 4 g,
    firstIn (upto (gDescs b g)) fun k =>
      firstOf [refuseIf (!redundOk b g k) 0x18 4 (gFirst b g + k), refuseIf (!maskOk b wts g k) 0x51 4 (gFirst b g + k)]]

/-! ### The golden graph (R186) and the floor graph (R376) -/

/-- What R186 asks of the golden graph. -/
def goldenOk (str b : List Byte) : Bool :=
  let g := goldenGraph str
  let n := gDescs b g
  gClass b g == 3 && gRClass b g == 0 && pGolden str g &&
    (upto (gTensors b g)).all (fun t => [fI8, fU8, fI4, fI32].contains (tFormat b g t)) &&
    (upto (gTensors b g)).any (fun t => tConst b g t) &&
    (upto n).all (fun k => dRound b g k == 0 || dRound b g k == 2) &&
    dOp b g (n - 1) == 0x52 && (upto (n - 1)).any fun k => (dOutputs b g k).contains (dIn b g (n - 1) 0)

def goldenCheck (str b : List Byte) : Option Refused :=
  refuseIf (goldenEnable str == 1 && !goldenOk str b) 0x18 4 (goldenGraph str)

/-- What R376 asks of the floor graph. -/
def floorOk (str b : List Byte) (len : Nat) : Bool :=
  let g := floorGraph str
  let n := gDescs b g
  let local' := (upto (gTensors b g)).filter fun t => decide (tLoc b g t < 2)
  gClass b g == 0 && gRClass b g == 0 &&
    (upto 16).all (fun i => u8 str (placeOff g + 2 + i) == 0xFF) &&
    (upto (gTensors b g)).all (fun t => tFormat b g t == fE || isSource b g t) &&
    (upto n).all (fun k => envOps.contains (dOp b g k)) &&
    ((upto n).filter fun k => dOp b g k == 0x41 || dOp b g k == 0x53).length == 1 &&
    (upto n).any (fun k => dOp b g k == 0x41 && dB b g k 0x10 == 0) &&
    gCtx b g == floorCtx0 str &&
    (upto (gTensors b g)).all (fun t => tLoc b g t != 3 || tPlace b g t % 8 == 0 || floorCtx1 str != 0xFF) &&
    decide ((local'.map fun t => tBytes b g t).foldl (· + ·) 0 + 64 * n ≤ 7340032) &&
    decide (20 * gBeats b g ≤ 19 * len)

def floorGraphCheck (str b : List Byte) (len : Nat) : Option Refused :=
  refuseIf (!floorOk str b len) 0x15 4 (floorGraph str)

/-! ### The section -/

/-- The checks of GRAPHS: `len` is FRAME_BEATS.
(DEDUCED, unsafe: notes/assumptions/58.md.) -/
def graphsCheck (l : List Section) : Option Refused :=
  let str := secOf l 2
  let b := secOf l 4
  let len := frameLen (secOf l 3)
  let gs := upto (graphCount b)
  firstOf [
    graphsHeaderCheck b,
    firstIn gs (graphRecordCheck b len),
    firstIn gs (graphOverlapCheck b),
    firstIn gs fun g => firstIn (upto (gTensors b g)) (tensorCheck str b g),
    firstIn gs fun g => firstIn (upto (gDescs b g)) (descCheck b (secOf l 0xB) g),
    firstIn gs (liveCheck b),
    constsCheck str b [] none,
    firstIn gs (redundCheck b (secOf l 5)),
    goldenCheck str b,
    floorGraphCheck str b len]

end Sys2Proof.Machine
end

