-- ==== Sys2Proof/Machine/LoadFit.lean ====
section
/-!
DEFINITION. Whether an image fits (spec/04_operators.md R154 to R156; spec/05_redundant_execution.md R182 to R185): the amounts
that the tables need, the sums over the copies on each core, and the placement for a core retired at power-on.
-/
namespace Sys2Proof.Machine

/-! ### Amounts computed from the tables (R155) -/

/-- Ranges sorted by their starts. -/
def insertRange (r : Nat × Nat) : List (Nat × Nat) → List (Nat × Nat)
  | [] => [r]
  | x :: l => if r.1 ≤ x.1 then r :: x :: l else x :: insertRange r l

/-- The bytes that sorted ranges (start, length) cover beyond an address. -/
def coverBytes : Nat → List (Nat × Nat) → Nat
  | _, [] => 0
  | top, r :: l => (r.1 + r.2 - max top r.1) + coverBytes (max top (r.1 + r.2)) l

/-- The bytes that ranges cover together. -/
def unionBytes (l : List (Nat × Nat)) : Nat := coverBytes 0 (l.foldr insertRange [])

/-- The bytes that the tensors of a graph cover at a location, of those that a test picks. -/
def tensorCover (b : List Byte) (g loc : Nat) (here : Nat → Bool) : Nat :=
  unionBytes (((upto (gTensors b g)).filter fun t => tLoc b g t == loc && here t).map fun t => (tStart b g t, tBytes b g t))

def maxOf (l : List Nat) : Nat := l.foldl max 0
def sumOf (l : List Nat) : Nat := l.foldl (· + ·) 0

/-- ENG_SRAM as the tables need it. -/
def needEng (b : List Byte) (g : Nat) : Nat :=
  maxOf ((upto 32).map fun p => tensorCover b g 0 fun t => tPlace b g t % 32 == p)

/-- CORE_SRAM as the tables need it, the descriptor region with it. -/
def needCore (b : List Byte) (g : Nat) : Nat :=
  maxOf ((upto (gCores b g)).map fun i => tensorCover b g 1 fun t => tCore b g t == i) + 64 * gDescs b g

def needGddr (b : List Byte) (g : Nat) : Nat := tensorCover b g 2 fun _ => true

/-! ### Copies on cores -/

/-- A copy of a graph with its cores. -/
structure PlacedCopy where
  graph : Nat
  cores : List Nat
  deriving DecidableEq, Repr

/-- The cores of GOLDEN_CORES.
(DEDUCED, unsafe: notes/assumptions/36.md.) -/
def goldenSet (str : List Byte) : List Nat := (upto 32).filter fun n => bitAt (goldenCores str) n

/-- A graph is the golden graph of an image (R186). -/
def isGoldenGraph (str : List Byte) (g : Nat) : Bool := goldenEnable str == 1 && goldenGraph str == g

/-- The copies of an image on the cores; the golden graph has one instance on each golden core, and the floor network
none on a core. -/
def placedCopies (str b alt : List Byte) (entry : Option Nat) : List PlacedCopy :=
  (upto (graphCount b)).flatMap fun g =>
    if floorGraph str = g then []
    else if isGoldenGraph str g then
      ((goldenSet str).filter fun n => entry.all fun o => altCore alt o != n).map fun n => ⟨g, [n]⟩
    else (upto (gCopies b g)).map fun c => ⟨g, (upto (gCores b g)).map fun i => placedOn str alt entry g c i⟩

/-- The graphs of the copies on a core. -/
def graphsOn (l : List PlacedCopy) (n : Nat) : List Nat := (l.filter fun p => p.cores.contains n).map fun p => p.graph

/-! ### The seven conditions (R154) -/

/-- A refusal with need and availability, where a sum exceeds its limit. -/
def overLimit (code index core need avail : Nat) : Option Refused :=
  if avail < need then some ⟨code, 4, index, core, need, avail⟩ else none

/-- Bytes of constants that several copies on one core share (R134). -/
def sharedBytes (str b alt : List Byte) (entry : Option Nat) (n : Nat) : Nat :=
  let offs := fun g c => ((upto (gTensors b g)).filter fun t =>
    tConst b g t && tLoc b g t == 1 && placedOn str alt entry g c (tCore b g t) == n).map fun t => (tOffset b g t, tBytes b g t)
  let all := (upto (graphCount b)).flatMap fun g =>
    if floorGraph str = g ∨ isGoldenGraph str g = true then []
    else (upto (gCopies b g)).flatMap fun c => (offs g c).eraseDups
  sumOf (all.map (·.2)) - sumOf (all.eraseDups.map (·.2))

/-- The beats of a core's table that only TEST work may use (R197). -/
def testBeats (plan : List Byte) (set n : Nat) : Nat :=
  let t := setTable plan set n
  if t = 0xFFFF then 0
  else sumOf ((upto (dirCount plan t)).map fun i =>
    if slotClasses plan (dirFirst plan t + i) = 8 then slotLength plan (dirFirst plan t + i) else 0)

/-- Frame stores and Crocus frames in GDDR6 (R229, R250). -/
def frameStoreBytes (l : List Section) : Nat :=
  let str := secOf l 2
  let cr := secOf l 0xD
  sumOf ((upto 64).map fun x => if cPort str x != 0xFF && cStore str x then
      cWidth str x * cLines str x * (if streamFormat str x = fU16 then 2 else 1) * cBufs str x else 0) +
    sumOf ((upto (u8 cr 0)).map fun f => frBytes cr f)

/-- The set of tables of a placement. -/
def entrySet (alt : List Byte) (entry : Option Nat) : Nat :=
  match entry with
  | some o => if altEmpty alt o then 0 else altSet alt o
  | none => 0

/-- R154, on the base placement or an alternate one.
(DEDUCED, unsafe: notes/assumptions/58.md.) -/
def fitCheck (l : List Section) (entry : Option Nat) : Option Refused :=
  let str := secOf l 2
  let plan := secOf l 3
  let b := secOf l 4
  let alt := secOf l 0xE
  let len := frameLen plan
  let cs := placedCopies str b alt entry
  let perCore := fun (f : Nat → Nat) (n : Nat) => sumOf ((graphsOn cs n).map f)
  let lead := fun n => (graphsOn cs n).headD 0
  let gs := (upto (graphCount b)).filter fun g => floorGraph str != g
  let firm := cs.filter fun p => decide (gClass b p.graph < 2)
  let need := fun (code have_ need_ g : Nat) => if have_ < need_ then some (Refused.mk code 4 g 0 need_ have_) else none
  firstOf [
    firstIn gs fun g => firstOf [need 0x4C (gEngSram b g) (needEng b g) g, need 0x4C (gCoreSram b g) (needCore b g) g,
      need 0x4C (gGddrBytes b g) (needGddr b g) g],
    firstIn (upto 32) fun n => overLimit 0x40 (lead n) n (perCore (gEngSram b) n) 524288,
    firstIn (upto 32) fun n =>
      overLimit 0x41 (lead n) n (perCore (gCoreSram b) n - sharedBytes str b alt entry n) 4194304,
    overLimit 0x42 0 0 (sumOf (cs.map fun p => gGddrBytes b p.graph) + frameStoreBytes l) 16106127360,
    firstIn (upto 32) fun n => overLimit 0x44 (lead n) n (perCore (gSlots b) n) 4096,
    firstIn (upto 32) fun n =>
      let res := testBeats plan (entrySet alt entry) n +
        (if goldenEnable str == 1 && bitAt (goldenCores str) n then goldenBeats str else 0)
      overLimit 0x45 (lead n) n (20 * (perCore (gBeats b) n + res)) (19 * len),
    overLimit 0x46 ((firm.map (·.graph)).headD 0) 0 (11 * sumOf (firm.map fun p => gEnergy b p.graph))
      (10 * reserveUj (secOf l 0xB) * len),
    firstIn (upto 32) fun n => overLimit 0x49 (lead n) n (1024 * perCore (gNocKib b) n) (105600 * len),
    overLimit 0x43 0 0 (1024 * sumOf (cs.map fun p => gGddrKib b p.graph)) (480000 * len)]

/-! ### A core retired at power-on (R155, R183) -/

/-- A core holds work in the base placement. -/
def holdsWork (l : List Section) (n : Nat) : Bool :=
  (placedCopies (secOf l 2) (secOf l 4) [] none).any fun p => !isGoldenGraph (secOf l 2) p.graph && p.cores.contains n

/-- The placement entry for the retired cores: none for the base placement; refused where no alternate applies. -/
def retiredEntry (l : List Section) (cores : List Nat) : Except Refused (Option Nat) :=
  match cores with
  | [] => .ok none
  | [n] =>
    match altFor (secOf l 0xE) n with
    | some o => .ok (some o)
    | none => if holdsWork l n then .error ⟨0x4A, 0xE, 0, n, 0, 0⟩ else .ok none
  | _ :: n :: _ => .error ⟨0x4A, 0xE, 0, n, 0, 0⟩

end Sys2Proof.Machine
end

