-- ==== Sys2Proof/Machine/Power.lean ====
section
/-!
DEFINITION. Power and temperature (spec/14_power_thermal.md): rails, AVSBus, sensors, STANDBY entry, and the primaries.
-/
namespace Sys2Proof.Machine

/-! ### Records of POWER (R458) -/

/-- A section of the image placed last, which the primaries follow through a load and STANDBY (R452, R454). -/
def State.secLast (s : State) (id : Nat) : List Byte :=
  match s.ldr.image with
  | some i => i.sec id
  | none => []

/-- (DEDUCED, unsafe: notes/assumptions/43.md.) -/
def regCount (b : List Byte) : Nat := u8 b (regOff b)
def icoreTrip (b : List Byte) : Nat := u16 b (regOff b + 0x0A)
def readPeriod (b : List Byte) : Nat := u8 b (regOff b + 0x0E)
def primOff (b : List Byte) (k : Nat) : Nat := regOff b + 32 + 72 + 16 * k
def primFlags (b : List Byte) (k : Nat) : Nat := u8 b (primOff b k)
def primEn (b : List Byte) (k : Nat) : Bool := bitAt (primFlags b k) 0
def primCycleEn (b : List Byte) (k : Nat) : Bool := bitAt (primFlags b k) 1
def primKeep (b : List Byte) (k : Nat) : Bool := bitAt (primFlags b k) 2
def primCycleMax (b : List Byte) (k : Nat) : Nat := u8 b (primOff b k + 1)
def primPwrToRst (b : List Byte) (k : Nat) : Nat := u16 b (primOff b k + 2)
def primRstToOff (b : List Byte) (k : Nat) : Nat := u16 b (primOff b k + 4)
def primOffBeats (b : List Byte) (k : Nat) : Nat := u32 b (primOff b k + 8)
def primCycleWindow (b : List Byte) (k : Nat) : Nat := u32 b (primOff b k + 0x0C)

/-! ### Rails (R442, R444) -/

/-- A rail of the always-on domain (R442). -/
def aonRail (n : Nat) : Bool := n == 2 || n == 4 || n == 7 || n == 8

/-- The monitor of a rail acts: always on an always-on rail, armed on a main rail (R444).
(DEDUCED, unsafe: notes/assumptions/43.md.) -/
def State.railWatched (s : State) (n : Nat) : Bool := aonRail n || s.pwr.armed.getLsbD n

def State.setMv (s : State) (n mv : Nat) : State := { s with pwr := { s.pwr with mv := vset s.pwr.mv n mv } }

/-- A rail leaves ±WARN inside ±TRIP (R444). -/
def State.railWarnEvent (s : State) (n mv : Nat) : State :=
  if s.railWatched n then
    let s1 := s.setMv n mv
    ({ s1 with pwr := { s1.pwr with railWarn := s1.pwr.railWarn ||| BitVec.twoPow 9 n } } : State).event 0xA100
      (n + mv % 65536 * 65536)
  else s

/-- A rail leaves ±TRIP (R444, R457): fatal. -/
def State.railTripFault (s : State) (n mv : Nat) : State :=
  if s.railWatched n then
    let s1 := s.setMv n mv
    ({ s1 with pwr := { s1.pwr with inWindow := s1.pwr.inWindow &&& ~~~BitVec.twoPow 9 n } } : State).raise
      (if aonRail n then 2 else 108) .ft (n * 256 + 0x01)
  else s

/-! ### AVSBus readings (R448) -/

/-- One regulator unread in a period: the third in a row is a UC fault and makes M unavailable. -/
def State.regUnread (s : State) (i : Nat) : State :=
  let n := vget s.pwr.unread i 0 + 1
  let s1 : State := { s with pwr := { s.pwr with unread := vset s.pwr.unread i n } }
  if n ≥ 3 then
    let s1 : State := { s1 with pwr := { s1.pwr with frameUnread := true, mUnavail := true } }
    if n = 3 then s1.raise 109 .uc (i * 256 + 0x01) else s1
  else s1

/-- The energy of one reading over a period, in nJ: mV × 10 mA × beats × 2 µs (R448). -/
def readingNj (v i period : Nat) : Rat := (v * i * period : Nat) / 50

/-- One regulator read. -/
def State.regRead (s : State) (i v cur : Nat) : State :=
  { s with pwr := { s.pwr with unread := vset s.pwr.unread i 0, vMv := v, energy := s.pwr.energy + readingNj v cur (readPeriod s.powB) } }

/-- The summed current against ICORE_TRIP: above it on 4 consecutive readings is a UC fault (R448). -/
def State.currentCheck (s : State) (sum : Nat) : State :=
  let high := decide (icoreTrip s.powB * 100 < sum)
  let n := if high then s.pwr.overRun + 1 else 0
  let s1 : State := { s with pwr := { s.pwr with i10ma := sum, overRun := n } }
  if n = 4 then (({ s1 with pwr := { s1.pwr with overcurrent := true } } : State)).raise 109 .uc 0x03 else s1

/-- A commanded voltage must be read back within AVS_LEAD beats (R448).
(DEDUCED, unsafe: notes/assumptions/43.md.) -/
def State.voltageCheck (s : State) : State :=
  if s.pwr.oldTarget = s.pwr.target then s
  else if s.pwr.vMv = s.pwr.target then { s with pwr := { s.pwr with oldTarget := s.pwr.target } }
  else if s.beat ≥ s.pwr.targetBeat + avsLead s.powB then
    ({ s with pwr := { s.pwr with oldTarget := s.pwr.target } } : State).raise 109 .uc 0x04
  else s

/-- The readings of a period: each regulator's voltage in mV and current in 10 mA, or none; frame errors; and whether a
Status reports a regulator fault (R448).
(DEDUCED, unsafe: notes/assumptions/43.md.) -/
def State.avsRead (s : State) (regs : List (Option (Nat × Nat))) (retries : Nat) (status : Bool) : State :=
  if s.pwr.mainOn ∧ s.img.isSome then
    let s1 : State := { s with pwr := { s.pwr with errors := satAdd 255 s.pwr.errors retries } }
    let s1 := (upto (regCount s.powB)).foldl (fun (t : State) i => match regs.getD i none with
      | some r => t.regRead i r.1 r.2
      | none => t.regUnread i) s1
    let rs := (regs.take (regCount s.powB)).filterMap id
    let s1 : State := if rs.length = regCount s.powB then { s1 with pwr := { s1.pwr with mUnavail := false } } else s1
    let s1 := s1.currentCheck ((rs.map (·.2)).foldl (· + ·) 0)
    let s1 := s1.voltageCheck
    if status then s1.raise 109 .uc 0x02 else s1
  else s

/-- The overcurrent fault is over with its recovery (R302, R448). -/
def State.overcurrentEnd (s : State) : State :=
  { s with pwr := { s.pwr with overcurrent :=
      s.pwr.overcurrent && (s.fc.activeUc.getLsbD 109 || s.fc.activeFt.getLsbD 109) } }

/-! ### Temperature (R449 to R451) -/

def Sensor.default : Sensor := ⟨false, false, 0, 0⟩
def State.sens (s : State) (i : Nat) : Sensor := vget s.therm.sens i Sensor.default

/-- Two conversions of a sensor, in 0.125 °C (R449): valid when they lie within 2 °C and in −55 °C to 150 °C; the
reading is the higher of the two.
(DEDUCED, unsafe: notes/assumptions/42.md.) -/
def Sensor.convert (x : Sensor) (a b : Int) : Sensor :=
  let v := decide ((a - b).natAbs ≤ 16) && decide (-440 ≤ min a b ∧ max a b ≤ 1200)
  { x with valid := v, temp := if v then max a b else x.temp, bad := if v then 0 else x.bad + 1 }

/-- The sensors that are powered (R449, R452). -/
def State.sensorOn (s : State) (i : Nat) : Bool := s.pwr.mainOn || decide (44 ≤ i)

/-- Both sensors of pair p, 32 + 2p and 33 + 2p, are invalid. -/
def State.pairLost (s : State) (p : Nat) : Bool := !(s.sens (32 + 2 * p)).valid && !(s.sens (33 + 2 * p)).valid

/-- T, the highest valid reading, with its sensor (R449); while a pair is lost at least 118 °C (R450).
(DEDUCED, unsafe: notes/assumptions/42.md.) -/
def State.highest (s : State) : Option (Int × Nat) :=
  (upto 48).foldl (fun (o : Option (Int × Nat)) i =>
    if (s.sens i).valid then
      match o with
      | some x => if x.1 < (s.sens i).temp then some ((s.sens i).temp, i) else some x
      | none => some ((s.sens i).temp, i)
    else o) none

/-- A temperature reading (R449, R450): conversions of every sensor, and T.
(DEDUCED, unsafe: notes/assumptions/42.md.) -/
def State.temperature (s : State) (conv : List (Int × Int)) : State :=
  let sens := vmapIdx (fun i x => if s.sensorOn i then x.convert (conv.getD i (0, 0)).1 (conv.getD i (0, 0)).2 else x) s.therm.sens
  let s1 : State := { s with therm := { s.therm with sens := sens } }
  let s1 := (upto 48).foldl (fun (t : State) i => if s.sensorOn i && (t.sens i).bad == 1 then t.event 0xA105 i else t) s1
  let lost := (upto 8).filter fun p => s1.sensorOn (32 + 2 * p) && s1.pairLost p
  let onset := lost.filter fun p => !s.therm.lostPairs.getLsbD p
  let s1 := onset.foldl (fun (t : State) _ => t.raise 111 .uc 0x02) s1
  let h := s1.highest
  let t0 := match h with | some x => x.1 | none => s1.therm.t
  { s1 with therm := { s1.therm with
      lostPairs := lost.foldl (fun m p => m ||| BitVec.twoPow 8 p) 0
      t := if lost = [] then t0 else max t118 t0
      hot := match h with | some x => x.2 | none => s1.therm.hot } }

/-- A core whose sensor stays invalid on 4 consecutive readings is retired (R450).
(DEDUCED, unsafe: notes/assumptions/42.md.) -/
def State.sensorLimit (s : State) : State :=
  (upto 32).foldl (fun (t : State) n => if (t.sens n).bad ≥ 4 && !(t.core n).retired then t.coreFault n 0 0x15 else t) s

/-- A 125 °C comparator trips (R451): fatal. -/
def State.comparatorTrip (s : State) (i : Nat) : State :=
  ({ s with therm := { s.therm with sens := vmod s.therm.sens i fun x => { x with trip := true } } } : State).raise 111 .ft
    (i * 256 + 0x01)

/-- The scheduler applies T from the beat after the reading (R207); a change of step is recorded (R457). -/
def State.thermBeat (s : State) : State :=
  let s1 : State := { s with therm := { s.therm with tNow := s.therm.t } }
  if thermalStep s.therm.t = thermalStep s.therm.tNow then s1
  else s1.event 0xA101 (thermalStep s.therm.t + ofInt 16 s.therm.t * 65536)

/-! ### Primaries (R454 to R456) -/

def AccState.default : AccState := ⟨0, false, false, false, 0, [], 0, false, 0⟩
def State.prim (s : State) (k : Nat) : AccState := vget s.pwr.acc k AccState.default
def State.modPrim (s : State) (k : Nat) (f : AccState → AccState) : State :=
  { s with pwr := { s.pwr with acc := vmod s.pwr.acc k f } }
def State.primB (s : State) : List Byte := s.secLast 0xB

/-- Power-up (R454): ACCk_PWR_EN goes high. -/
def State.accPowerUp (s : State) (k : Nat) : State :=
  (s.modPrim k fun a => { a with seq := 1, pwrEn := true, since := s.beat, cycling := false }).event 0xA102 k

/-- Power-down (R454): ACCk_RST_N goes low; `cycle` goes on to the off period. -/
def State.accPowerDown (s : State) (k kind : Nat) (cycle : Bool) : State :=
  (s.modPrim k fun a => { a with seq := 3, rstN := false, since := s.beat, cycling := cycle }).event 0xA102 (k + kind * 256)

/-- A power cycle starts (R455, R456): an automatic one counts in its window.
(DEDUCED, unsafe: notes/assumptions/44.md.) -/
def State.accStartCycle (s : State) (k : Nat) (auto : Bool) : State :=
  (s.accPowerDown k (if auto then 2 else 3) true).modPrim k fun a =>
    { a with cycles := satInc 65535 a.cycles, starts := if auto then (s.beat :: a.starts).take 16 else a.starts }

/-- A request that conflicts with a sequence, or for a primary that the image does not enable, is ignored and recorded
(R456). -/
def State.accIgnored (s : State) : State := s.ignoredWrite 0x0C0014 3

/-- (DEDUCED, unsafe: notes/assumptions/44.md.) -/
def State.accOnReq (s : State) (k : Nat) : State :=
  if primEn s.primB k = false then s.accIgnored
  else match (s.prim k).seq with
    | 0 => s.accPowerUp k
    | 2 => s
    | _ => s.accIgnored

def State.accOffReq (s : State) (k : Nat) : State :=
  if primEn s.primB k = false then s.accIgnored
  else if (s.prim k).seq = 0 then s else s.accPowerDown k 1 false

def State.accCycleReq (s : State) (k : Nat) : State :=
  if primEn s.primB k = false then s.accIgnored
  else match (s.prim k).seq with
    | 0 | 2 => s.accStartCycle k false
    | _ => s.accIgnored

/-- PWR_TO_RST has elapsed (R454): ACCk_RST_N goes high. -/
def State.pwrToRst (s : State) (k : Nat) : State :=
  if (s.prim k).seq = 1 ∧ s.beat ≥ (s.prim k).since + primPwrToRst s.primB k then
    s.modPrim k fun a => { a with seq := 2, rstN := true, rstRise := s.beat }
  else s

/-- RST_TO_OFF has elapsed (R454): ACCk_PWR_EN goes low. -/
def State.rstToOff (s : State) (k : Nat) : State :=
  if (s.prim k).seq = 3 ∧ s.beat ≥ (s.prim k).since + primRstToOff s.primB k then
    s.modPrim k fun a => { a with seq := if a.cycling then 4 else 0, pwrEn := false, since := s.beat }
  else s

/-- OFF_BEATS have elapsed (R455): the cycle's power-up. -/
def State.offBeatsOver (s : State) (k : Nat) : State :=
  if (s.prim k).seq = 4 ∧ s.beat ≥ (s.prim k).since + primOffBeats s.primB k then s.accPowerUp k else s

/-- Automatic cycles that started within CYCLE_WINDOW (R455). -/
def State.accInWindow (s : State) (k : Nat) : Nat :=
  ((s.prim k).starts.filter fun b => decide (s.beat < b + primCycleWindow s.primB k)).length

/-- An automatic cycle is asked for (R455): PERSIST is set, and after a cycle HB_PERSIST beats have passed since
ACCk_RST_N rose. -/
def State.autoCycleAsked (s : State) (k : Nat) : Bool :=
  primEn s.primB k && primCycleEn s.primB k && (s.hbAt k).persist && !(s.hbAt k).alive && (s.prim k).seq == 2
    && ((s.prim k).starts.isEmpty || decide (s.beat ≥ (s.prim k).rstRise + s.hbPersist k))

/-- The automatic cycle of a beat (R455): it starts below CYCLE_MAX, else the limit is set and recorded.
(DEDUCED, unsafe: notes/assumptions/44.md.) -/
def State.autoCycle (s : State) (k : Nat) : State :=
  let below := decide (s.accInWindow k < primCycleMax s.primB k)
  let s1 := if below then s.modPrim k fun a => { a with limit := false } else s
  if s.autoCycleAsked k then
    if below then s1.accStartCycle k true
    else if (s.prim k).limit then s1
    else (s1.modPrim k fun a => { a with limit := true }).event 0xA102 (k + 4 * 256)
  else s1

/-- HB_PERSIST beats of LOST set PERSIST (R324); the cycle it may start follows in the next beat (R455).
(DEDUCED, unsafe: notes/assumptions/44.md.) -/
def State.hbPersistSet (s : State) (k : Nat) : State :=
  if s.hbPersistDue k then s.modHb k fun x => { x with persist := true } else s

/-- The steps of the two sequences that are due in a beat. -/
def State.accBeat (s : State) : State :=
  (upto 2).foldl (fun (t : State) k => (((t.pwrToRst k).offBeatsOver k).rstToOff k).autoCycle k) s

/-- Primaries that the image enables are powered up at its tick origin, unless running already (R454). -/
def State.accAtOrigin (s : State) : State :=
  (upto 2).foldl (fun (t : State) k => if primEn t.primB k && (t.prim k).seq == 0 then t.accPowerUp k else t) s

/-! ### The main domain off (R452) -/

/-- What the main domain holds is lost with its rails; what the registers mark AON stays. -/
def State.mainLost (s : State) : State :=
  { s with
    pwr := { s.pwr with
      mainOn := false, pen := 0, armed := s.pwr.armed &&& 0x194, inWindow := s.pwr.inWindow &&& 0x194
      overcurrent := false, i10ma := 0, vMv := 0, target := 0, oldTarget := 0, point := 0, hold := false
      mUnavail := false, errors := 0, unread := vrep 2 0, overRun := 0, energy := 0, frameUnread := false }
    therm := { s.therm with sens := vmapIdx (fun i x => if 44 ≤ i then x else Sensor.default) s.therm.sens
                            t := 0, hot := 0, lostPairs := 0, tNow := 0 }
    sched := { SchedState.reset with frame := s.sched.frame, frameBeat := s.sched.frameBeat }
    cores := vmap (fun (c : CoreState) => { CoreState.default with retired := c.retired, cause := c.cause, engFault := c.engFault }) s.cores
    engs := vrep 128 EngState.default
    noc := NocState.reset, gddr := vrep 8 GddrChan.default, gddrMem := [], poison := []
    golden := GoldenState.reset, cmp := CmpLog.reset, grid := GridState.reset
    ev := { EvalState.reset with run := s.ev.run, cellRule := s.ev.cellRule, objRule := s.ev.objRule, d0 := s.ev.d0
                                 floorField := s.ev.floorField, floorBand := s.ev.floorBand, fCount := s.ev.fCount
                                 floorRun := s.ev.floorRun, floorOcc := s.ev.floorOcc, floorClear := s.ev.floorClear }
    io := { StreamState.reset with cams := vmap (fun (c : ClaimCam) => { ClaimCam.reset with ref := c.ref }) s.io.cams
                                   claims := vmap (fun (c : ClaimStream) => { ClaimStream.reset with overAge := c.overAge }) s.io.claims }
    tel := TelState.reset
    secu := { SecState.reset with attCount := s.secu.attCount, draws := s.secu.draws }
    time := { s.time with holdover := false, jump := false, slave := 3, offset := 0, master := 0, refused := 0, samples := 0
                          sample := none, eth := TimeState.reset.eth }
    lk := { LkState.reset with stages := s.lk.stages, lastStage := s.lk.lastStage, lastCode := s.lk.lastCode }
    jnl := { s.jnl with
      present := false, ready := false, scrubBusy := false, rdOk := false, rdFail := false, buffer := [], copied := 0
      lost := 0, rewrites := 0, highCw := 0, maxBits := 0, slotMib := 0, evidMib := 0, rdSeqLo := 0, rdSeqHi := 0 } }

/-- A write of `PWR_CTRL.STANDBY_REQ` is accepted only in STOPPED with no transfer open and neither BUSY set (R452). -/
def State.standbyAllowed (s : State) : Bool :=
  s.watch.wstate == .stopped && !s.ldr.xferOpen && !s.ldr.busy && s.secu.op.isNone && s.pwr.mainOn && s.pwr.entering.isNone

/-- STANDBY is asked for (R452): ticks and FSYNC stop, the image stops running, a flush and the primaries' power-down
begin.
(DEDUCED, unsafe: notes/assumptions/13.md.) -/
def State.standbyReq (s : State) : State :=
  if s.standbyAllowed then
    let s1 : State := { s with
      pwr := { s.pwr with entering := some s.beat }
      ldr := { s.ldr with running := false, service := true }
      sched := { s.sched with origin := none, tickDue := false, fsync := vrep 4 false }
      jnl := { s.jnl with flushDue := true } }
    (upto 2).foldl (fun (t : State) k =>
      if primKeep t.primB k || (t.prim k).seq == 0 then t else t.accPowerDown k 1 false) s1
  else s.ignoredWrite 0x0C0004 1

/-- The entry may remove the rails (R452): the flush is complete or has had 25,000 beats, and the primaries to be powered
down are off. -/
def State.standbyDue (s : State) : Bool :=
  match s.pwr.entering with
  | some b => (s.evr.waiting == 0 || decide (s.beat ≥ b + 25000)) && (upto 2).all fun k => primKeep s.primB k || (s.prim k).seq == 0
  | none => false

/-- A write of `PWR_CTRL.WAKE` (R453): a wake starts, or is held through the entry. -/
def State.wakeWrite (s : State) : State :=
  if s.pwr.entering.isSome then { s with pwr := { s.pwr with wakeHeld := some (s.pwr.wakeHeld.getD 0) } }
  else if s.pwr.standby ∧ s.pwr.waking = false then
    ({ s with pwr := { s.pwr with waking := true } } : State).event 0xA103 1
  else s

/-- The rails are removed and the chip is in STANDBY (R452); a wake request held during the entry takes effect (R453).
(DEDUCED, unsafe: notes/assumptions/13.md.) -/
def State.standbyEnter (s : State) : State :=
  if s.standbyDue then
    let s1 := s.mainLost
    let s2 := (({ s1 with
      pwr := { s1.pwr with standby := true, entering := none, wakeHeld := none, waking := false }
      wd := { s1.wd with standbySince := s.beat, svc := { s1.wd.svc with off := none, noJudge := true } } } : State)).event 0xA103 0
    match s.pwr.wakeHeld with
    | some src => if src = 0 then s2.wakeWrite else s2.wakeRequest src
    | none => s2
  else s

end Sys2Proof.Machine
end

