-- ==== Sys2Proof/Machine/LoadPlan.lean ====
section
/-!
DEFINITION. The loader's checks of STRUCTURE, TIMEPLAN, WEIGHTS, ALTPLACE, POWER, TIME, CROCUS and PAIR
(spec/05_redundant_execution.md R161, R162, R178, R184, R185, R187; spec/06_time_plan_budget.md R205, R217 to R219;
spec/07_camera_claim_streams.md R226 to R228, R246, R248, R250, R258; spec/11_reneb_image.md R374 to R377;
spec/14_power_thermal.md R458, R459; spec/15_network_time.md R479; spec/16_pair_operation.md R483, R484).
-/
namespace Sys2Proof.Machine

/-! ### Camera models of a candidate (R56, R377) -/

def camTotal (cams : List Byte) : Nat := u8 cams 0
def camRec (k : Nat) : Nat := 16 + 80 * k
def camIdOf (cams : List Byte) (k : Nat) : Nat := u8 cams (camRec k + 0x44)
def camPortOf (cams : List Byte) (k : Nat) : Nat := u8 cams (camRec k + 0x45)
def camGroupOf (cams : List Byte) (k : Nat) : Nat := u8 cams (camRec k + 0x46)
/-- The record of a camera ID. -/
def camRecOf (cams : List Byte) (id : Nat) : Option Nat := (upto (camTotal cams)).find? fun k => camIdOf cams k == id

/-! ### STRUCTURE: ports (R224, R226, R227, R232, R258) -/

/-- A PHY byte is in range: 1 to 4 lanes of D-PHY, 1 to 3 trios of C-PHY; no lanes where allowed. -/
def phyOk (x : Nat) (none : Bool) : Bool :=
  decide (x < 16) && ((none && phyLanes x == 0) || inRange 1 (if bitAt x 0 then 3 else 4) (phyLanes x))

/-- A rate is in range for a PHY type. -/
def rateOk (x rate : Nat) : Bool := inRange 80 (if bitAt x 0 then 6000 else 4500) rate

/-- A virtual channel is in range for a PHY type. -/
def vcOk (x vc : Nat) : Bool := decide (vc < if bitAt x 0 then 32 else 16)

/-- The fields of a port record that its role uses are in range. -/
def portOk (b : List Byte) (p : Nat) : Bool :=
  let role := pRole b p
  decide (role ≤ 4) && (role < 2 || decide (2 ≤ p)) && decide (portByte b p 7 < 2) && portByte b p 11 == 0 &&
    (role != 1 || (phyOk (pRxPhy b p) false && rateOk (pRxPhy b p) (pRxRate b p) && phyOk (pTxPhy b p) true &&
      (phyLanes (pTxPhy b p) == 0 || rateOk (pTxPhy b p) (pTxRate b p)))) &&
    ((role != 2 && role != 4) || (phyOk (pRxPhy b p) false && rateOk (pRxPhy b p) (pRxRate b p) && vcOk (pRxPhy b p) (pVc b p))) &&
    (role != 2 || (decide (pClaimStream b p < 4) && decide (pAliveGap b p < 16) && inRange 2500 1048576 (pMaxAge b p))) &&
    (role != 3 || (phyOk (pTxPhy b p) false && rateOk (pTxPhy b p) (pTxRate b p) && vcOk (pTxPhy b p) (pVc b p)))

/-- A forwarding port's output carries less than its input, or differs in type (R232). -/
def forwardBad (b : List Byte) (p : Nat) : Bool :=
  pRole b p == 1 && phyLanes (pTxPhy b p) != 0 &&
    (decide (phyLanes (pTxPhy b p) * pTxRate b p < phyLanes (pRxPhy b p) * pRxRate b p) ||
      bitAt (pTxPhy b p) 0 != bitAt (pRxPhy b p) 0)

def portCheck (b : List Byte) (p : Nat) : Option Refused :=
  firstOf [
    refuseIf (!portOk b p) 0x70 2 p,
    refuseIf ((upto p).any fun q => (pRole b p == 3 && pRole b q == 3) ||
      (pRole b p == 2 && pRole b q == 2 && pClaimStream b p == pClaimStream b q)) 0x72 2 p,
    refuseIf (forwardBad b p) 0x73 2 p]

/-! ### STRUCTURE: contexts, claim map, floor record (R228, R258, R374, R375) -/

def contextOk (b cams : List Byte) (x : Nat) : Bool :=
  let p := cPort b x
  p == 0xFF ||
    (decide (p < 16) && pRole b p == 1 && vcOk (pRxPhy b p) (cVc b x) && storedDt (cDt b x) &&
      (camRecOf cams (cCam b x)).any (fun k => camPortOf cams k == p) && inRange 16 8192 (cWidth b x) &&
      inRange 1 8192 (cLines b x) && inRange 2 4 (cBufs b x) && decide (u8 b (ctxOff x + 9) < 4) &&
      (!cFloor b x || decide (p < 2)) && (if cFloor b x then inRange 2500 1048576 (cMaxAge b x) else cMaxAge b x == 0) &&
      (upto x).all fun y => cPort b y != p || cVc b y != cVc b x || cDt b y != cDt b x)

def claimMapCheck (b cams : List Byte) (c : Nat) : Option Refused :=
  let m := claimMap b c
  let carried := (upto 16).any fun p => pRole b p == 2 && pClaimStream b p == m
  match camRecOf cams c with
  | none => refuseIf (m != 0xFF) 0x10 2 c
  | some k =>
    firstOf [
      refuseIf (decide (3 < m) && m != 0xFF) 0x10 2 c,
      refuseIf (if m = 0xFF then phyLanes (pTxPhy b (camPortOf cams k)) != 0 else !carried) 0x72 2 c]

/-- A context is used and has FLOOR set (R375). -/
def isFloorCtx (b : List Byte) (x : Nat) : Bool := decide (x < 64) && cPort b x != 0xFF && cFloor b x

def floorRecordOk (b : List Byte) (graphs : Nat) : Bool :=
  decide (floorGraph b < graphs) && isFloorCtx b (floorCtx0 b) &&
    (floorCtx1 b == 0xFF || (isFloorCtx b (floorCtx1 b) && floorCtx1 b != floorCtx0 b)) && zeros b 0x583 13

/-- The redundancy record (R178, R184); `develop` is the life-cycle state DEVELOP. -/
def redundRecordOk (b : List Byte) (graphs : Nat) (develop : Bool) : Bool :=
  decide (ctrlMode b ≤ 1) && (ctrlMode b == 0 || develop) && decide (goldenEnable b ≤ 1) && zeros b 0x23 1 && zeros b 0x2A 22 &&
    (goldenEnable b == 0 || (decide (goldenGraph b < graphs) && goldenCores b != 0 && inRange 1 1000 (goldenBeats b)))

/-! ### STRUCTURE: placement (R161, R162) -/

/-- The cores of a copy under a placement. -/
def copyCores (str b alt : List Byte) (entry : Option Nat) (g c : Nat) : List Nat :=
  (upto (gCores b g)).map fun i => placedOn str alt entry g c i

/-- R162 for one graph under a placement. -/
def placementOk (str b alt : List Byte) (entry : Option Nat) (g : Nat) : Bool :=
  let c0 := copyCores str b alt entry g 0
  let c1 := if gRClass b g = 0 then [] else copyCores str b alt entry g 1
  decide c0.Nodup && decide c1.Nodup && c0.all (fun n => !c1.contains n) &&
    (pSameQ str g || c0.all fun n => c1.all fun m => n / 8 != m / 8)

/-- One placement record. -/
def placeRecordOk (str b : List Byte) (g : Nat) : Bool :=
  let n := gCores b g
  let single := gRClass b g == 0
  u8 str (placeOff g) == g && decide (pFlags str g < 8) && zeros str (placeOff g + 0x12) 14 &&
    (floorGraph str == g ||
      ((upto 8).all (fun i => if i < n then decide (pCore str g 0 i < 32) else pCore str g 0 i == 0xFF) &&
       (upto 8).all (fun i => if i < n ∧ single = false then decide (pCore str g 1 i < 32) else pCore str g 1 i == 0xFF) &&
       (!single || pWriter str g == 0) && placementOk str b [] none g))

/-- The checks of STRUCTURE (R374). -/
def structureCheck (l : List Section) (develop : Bool) : Option Refused :=
  let b := secOf l 2
  let gra := secOf l 4
  let cams := secOf l 6
  firstOf [
    refuseIf (b.length != 0x590 + 32 * placeCount b || placeCount b != graphCount gra || !zeros b 6 26) 0x10 2 0,
    refuseIf (!redundRecordOk b (graphCount gra) develop) 0x18 2 0,
    firstIn (upto 16) (portCheck b),
    firstIn (upto 64) fun x => refuseIf (!contextOk b cams x) 0x71 2 x,
    firstIn (upto 64) (claimMapCheck b cams),
    refuseIf (!floorRecordOk b (graphCount gra)) 0x15 2 0,
    firstIn (upto (placeCount b)) fun g => refuseIf (!placeRecordOk b gra g) 0x17 2 g]

/-! ### TIMEPLAN (R196 to R199, R217, R219) -/

def planLength (b : List Byte) : Nat := runOff b (runCount b)

def planHeaderOk (b : List Byte) (graphs : Nat) : Bool :=
  inRange 2500 1048576 (frameLen b) && inRange 1 2048 (tableCount b) && inRange 1 33 (setCount b) && zeros b 7 1 &&
    inRange 1 262144 (entryTotal b) && runCount b == graphs && zeros b 0xE 2 && b.length == planLength b

def fsyncOk (b : List Byte) (n : Nat) : Bool :=
  inRange 1 255 (fsWidth b n) && decide (fsOffset b n + fsWidth b n ≤ frameLen b) && decide (fsFlags b n < 4) &&
    zeros b (0x16 + 8 * n) 2

/-- The entries of a table, by their places in the pool. -/
def entriesOf (b : List Byte) (t : Nat) : List Nat := (upto (dirCount b t)).map fun i => dirFirst b t + i

def slotStop (b : List Byte) (e : Nat) : Nat := slotStart b e + slotLength b e

def dirOk (b : List Byte) (t : Nat) : Bool :=
  decide (dirFirst b t < entryTotal b) && inRange 1 4096 (dirCount b t) &&
    decide (dirFirst b t + dirCount b t ≤ entryTotal b) && zeros b (dirOff b t + 6) 2

/-- The entries of a table are in order and within the frame. -/
def tableOrderOk (b : List Byte) (t : Nat) : Bool :=
  (entriesOf b t).all (fun e => decide (1 ≤ slotLength b e ∧ slotStop b e ≤ frameLen b)) &&
    (upto (dirCount b t - 1)).all fun i => decide (slotStop b (dirFirst b t + i) ≤ slotStart b (dirFirst b t + i + 1))

def slotOk (b : List Byte) (e : Nat) : Bool :=
  slotPower b e != 3 && slotClock b e != 3 && bits (slotWord b e) 29 3 == 0 && (slotPower b e == 0 || slotClasses b e == 0)

/-- The beats from the end of one window to the start of another, across the frame end. -/
def gapBeats (b : List Byte) (v e : Nat) : Nat := (slotStart b e + frameLen b - slotStop b v) % frameLen b

/-- A window that allows a class begins at least the wake time after the preceding RETAIN or OFF window (R99, R100). -/
def wakeOk (b : List Byte) (t e : Nat) : Bool :=
  slotClasses b e == 0 ||
    (let offs := (entriesOf b t).filter fun v => slotPower b v != 0
     match offs.find? fun v => offs.all fun w => decide (gapBeats b v e ≤ gapBeats b w e) with
     | none => true
     | some v => decide ((if slotPower b v = 1 then 6 else 16) ≤ gapBeats b v e))

/-- Beats from `lo` on that a table gives a class at a clock point no slower than `clock`. -/
def classBeats (b : List Byte) (t cls clock lo : Nat) : Nat :=
  sumOf ((entriesOf b t).map fun e =>
    if bitAt (slotClasses b e) cls ∧ slotClock b e ≤ clock then slotStop b e - max lo (slotStart b e) else 0)

/-- The table of a core under a placement holds the beats of a graph on it. -/
def beatsOk (plan str b alt : List Byte) (entry : Option Nat) (g : Nat) : Bool :=
  floorGraph str == g || isGoldenGraph str g ||
    (placedCopies str b alt entry).all fun p => p.graph != g ||
      p.cores.all fun n =>
        let t := setTable plan (entrySet alt entry) n
        t == 0xFFFF || decide (gBeats b g ≤ classBeats plan t (gClass b g) (gClock b g) (runEarliest plan g))

/-- Every core that holds work has a table, and the lost core has none (R198). -/
def setOk (plan str b alt : List Byte) (entry : Option Nat) : Bool :=
  let set := entrySet alt entry
  decide (set < setCount plan) &&
    (placedCopies str b alt entry).all (fun p => p.cores.all fun n => setTable plan set n != 0xFFFF) &&
    entry.all fun o => altEmpty alt o || setTable plan set (altCore alt o) == 0xFFFF

/-- A window of a golden core's table overlaps the golden window (R187). -/
def goldenOverlap (plan str : List Byte) (set : Nat) : Bool :=
  goldenEnable str == 1 && (goldenSet str).any fun n =>
    let t := setTable plan set n
    t != 0xFFFF && (entriesOf plan t).any fun e => decide (slotStart plan e < goldenBeats str)

def runRecordOk (b gra : List Byte) (g : Nat) : Bool :=
  u8 b (runOff b g) == g && zeros b (runOff b g + 1) 1 && (if gClass gra g = 3 then runCover b g != 0 else runCover b g == 0) &&
    decide (runEarliest b g < frameLen b)

/-- The alternate entries that hold work, with the base placement first. -/
def placements (alt : List Byte) : List (Option Nat) := none :: (altEntries alt).map some

/-- The checks of TIMEPLAN. -/
def planCheck (l : List Section) : Option Refused :=
  let b := secOf l 3
  let str := secOf l 2
  let gra := secOf l 4
  let cams := secOf l 6
  let alt := secOf l 0xE
  let ts := upto (tableCount b)
  firstOf [
    refuseIf (!planHeaderOk b (graphCount gra)) 0x60 3 0,
    firstIn (upto 4) fun n => refuseIf (!fsyncOk b n) 0x67 3 n,
    firstIn (upto (camTotal cams)) fun k =>
      refuseIf (decide (camGroupOf cams k < 4) && !fsEnable b (camGroupOf cams k)) 0x67 3 k,
    firstIn (upto (setCount b)) fun k => refuseIf ((upto 32).any fun n =>
      decide (tableCount b ≤ setTable b k n) && setTable b k n != 0xFFFF) 0x60 3 k,
    firstIn ts fun t => refuseIf (!dirOk b t) 0x60 3 t,
    firstIn ts fun t => refuseIf (!tableOrderOk b t) 0x61 3 t,
    firstIn ts fun t => refuseIf (!(entriesOf b t).all (slotOk b)) 0x62 3 t,
    firstIn ts fun t => refuseIf (!(entriesOf b t).all (wakeOk b t)) 0x63 3 t,
    firstIn (upto (setCount b)) fun k => refuseIf (goldenOverlap b str k) 0x64 3 k,
    firstIn (upto (graphCount gra)) fun g => refuseIf (!runRecordOk b gra g) 0x60 3 g,
    (placements alt).findSome? fun e => refuseIf (!setOk b str gra alt e) 0x66 3 (entrySet alt e),
    (placements alt).findSome? fun e =>
      firstIn (upto (graphCount gra)) fun g => refuseIf (!beatsOk b str gra alt e g) 0x65 3 g]

/-! ### WEIGHTS (R377) -/

def weightsCheck (l : List Section) : Option Refused :=
  let w := secOf l 5
  let b := secOf l 4
  firstIn (upto (graphCount b)) fun g =>
    firstOf [
      firstIn (upto (gTensors b g)) fun t => refuseIf (tConst b g t && (tWeight b g t % 64 != 0 ||
        decide (w.length < tWeight b g t + formatBytes (tFormat b g t) (tElems b g t)))) 0x16 5 t,
      firstIn (upto (gDescs b g)) fun k =>
        let o := dW b g k 0x30
        refuseIf (dOp b g k ∈ [0x01, 0x02, 0x03, 0x04, 0x05, 0x06, 0x10, 0x11, 0x13, 0x14, 0x15, 0x16, 0x17, 0x28] &&
          bitAt (dB b g k 0x3D) 0 && (o % 8 != 0 || decide (w.length < o + 8 * tDim b g (dOut b g k) 0)))
          0x16 5 (gFirst b g + k)]

/-! ### ALTPLACE (R184, R185) -/

/-- CONST_SRC of a move holds every constant of the moved copy's core index (R185). -/
def constSrcOk (str b : List Byte) (m : AltMove) : Bool :=
  let ts := (upto (gTensors b m.graph)).filter fun t =>
    tConst b m.graph t && decide (tLoc b m.graph t < 2) && tCore b m.graph t == m.index
  if m.src = 0xFF then ts.isEmpty
  else ts.all fun t => (upto (graphCount b)).any fun h => floorGraph str != h &&
    (upto (gCopies b h)).any fun c => (upto (gTensors b h)).any fun u =>
      tConst b h u && placedOn str [] none h c (tCore b h u) == m.src && constSame b m.graph t h u &&
        tLoc b h u == tLoc b m.graph t && (tLoc b h u == 1 || tEngine b h u == tEngine b m.graph t)

def altMoveOk (str b alt : List Byte) (o i : Nat) : Bool :=
  let m := altMove alt o i
  let lost := altCore alt o
  decide (m.graph < graphCount b) && floorGraph str != m.graph && decide (m.copy < gCopies b m.graph) &&
    decide (m.index < gCores b m.graph) && decide (m.core < 32) && m.core != lost && m.src != lost &&
    (decide (m.src < 32) || m.src == 0xFF) && zeros alt (o + 16 + 8 * i + 5) 3 && constSrcOk str b m

/-- One entry, with the placement that results from it. -/
def altEntryOk (l : List Section) (o : Nat) : Bool :=
  let str := secOf l 2
  let b := secOf l 4
  let alt := secOf l 0xE
  decide (altCore alt o < 32) && ((altEntries alt).filter fun x => altCore alt x == altCore alt o).length == 1 &&
    decide (u8 alt (o + 1) < 2) && decide (altMoves alt o ≤ 512) && (!altEmpty alt o || altMoves alt o == 0) &&
    zeros alt (o + 6) 10 && (upto (altMoves alt o)).all (altMoveOk str b alt o) &&
    (upto (graphCount b)).all (fun g => floorGraph str == g || placementOk str b alt (some o) g) &&
    (placedCopies str b alt (some o)).all (fun p => !p.cores.contains (altCore alt o)) &&
    (constsCheck str b alt (some o)).isNone && (fitCheck l (some o)).isNone

def altCheck (l : List Section) : Option Refused :=
  let alt := secOf l 0xE
  if hasSec l 0xE then
    firstOf [
      refuseIf (decide (32 < altCount alt) || !zeros alt 1 15 ||
        alt.length != (altEntries alt).foldl (fun n o => n + 16 + 8 * altMoves alt o) 16) 0x17 0xE 0,
      (mapFrom (fun k o => (k, o)) 0 (altEntries alt)).findSome? fun x => refuseIf (!altEntryOk l x.2) 0x17 0xE x.1]
  else none

/-! ### POWER (R205, R218, R219, R458, R459) -/

/-- Where a rail record begins. -/
def railOff (b : List Byte) (r : Nat) : Nat := regOff b + 32 + 8 * r

def budgetOk (b : List Byte) : Bool :=
  inRange 10000 80000 (budgetMw b) && decide (1 ≤ reserveUj b) && decide (500 * (reserveUj b + staticUj b) ≤ budgetMw b) &&
    inRange 1 8192 (capBeats b) && inRange 0x100 0x400 (scaleMaxQ b) && inRange 1 4096 (costCount b) && inRange 1 16 (coreDraw b) &&
    zeros b 0xF 1 && b.length == primOff b 2

/-- E_UOP × SCALE_MAX and E_DESC × SCALE_MAX are at most CORE_DRAW_UJ (R205). -/
def costOk (b : List Byte) (c : Nat) : Bool :=
  decide (costUop b c * scaleMaxQ b ≤ coreDraw b * 256000000 ∧ costDesc b c * scaleMaxQ b ≤ coreDraw b * 256000)

def regulatorOk (b : List Byte) : Bool :=
  let o := regOff b
  inRange 1 2 (u8 b o) && inRange 1 20 (u8 b (o + 1)) && decide (u8 b (o + 2) ≤ 14) &&
    (if u8 b o = 1 then u8 b (o + 3) == 0xFF else decide (u8 b (o + 3) ≤ 14) && u8 b (o + 3) != u8 b (o + 2)) &&
    (upto 3).all (fun n => inRange 650 850 (voltOf b n)) && inRange 20 100 (u16 b (o + 0xA)) && inRange 1 50 (u8 b (o + 0xC)) &&
    decide (1 ≤ u8 b (o + 0xD)) && inRange 4 64 (u8 b (o + 0xE)) && zeros b (o + 0xF) 17

def voltOk (b : List Byte) : Bool :=
  decide (voltOf b 1 ≤ voltOf b 0 ∧ voltOf b 2 ≤ voltOf b 1 ∧
    voltOf b 0 - voltOf b 2 ≤ u8 b (regOff b + 0xD) * 2 * u8 b (regOff b + 0xC))

/-- TRIP maximum of each rail, mV (R442). -/
def tripMax : List Nat := [60, 60, 60, 96, 96, 80, 120, 120, 240]

def railFieldOk (b : List Byte) (r : Nat) : Bool := inRange 1 4 (u8 b (railOff b r + 4)) && zeros b (railOff b r + 5) 3

def railOk (b : List Byte) (r : Nat) : Bool :=
  let o := railOff b r
  decide (1 ≤ u16 b o ∧ u16 b o < u16 b (o + 2) ∧ u16 b (o + 2) ≤ tripMax.getD r 0)

def primaryOk (b : List Byte) (k : Nat) : Bool :=
  let o := primOff b k
  decide (u8 b o < 8) && inRange 1 15 (u8 b (o + 1)) && decide (1 ≤ u16 b (o + 2)) && zeros b (o + 6) 2 &&
    inRange 2500 5000000 (u32 b (o + 8)) && inRange 2500000 1000000000 (u32 b (o + 0xC))

/-- A primary is enabled. -/
def primaryOn (b : List Byte) (k : Nat) : Bool := bitAt (u8 b (primOff b k)) 0

def powerCheck (l : List Section) : Option Refused :=
  let b := secOf l 0xB
  firstOf [
    refuseIf (!budgetOk b) 0x60 0xB 0,
    firstIn (upto (costCount b)) fun c => refuseIf (!costOk b c) 0x60 0xB c,
    refuseIf (!regulatorOk b) 0xB0 0xB 0,
    firstIn (upto 9) fun r => refuseIf (!railFieldOk b r) 0xB0 0xB (1 + r),
    firstIn (upto 2) fun k => refuseIf (!primaryOk b k) 0xB0 0xB (10 + k),
    refuseIf (!voltOk b) 0xB1 0xB 0,
    firstIn (upto 9) fun r => refuseIf (!railOk b r) 0xB2 0xB (1 + r),
    firstIn (upto 2) fun k => refuseIf ((bitAt (u8 b (primOff b k)) 1 && !primaryOn b k) ||
      (primaryOn b k && !bitAt (u8 (secOf l 9) (0xF5 + 16 * k)) 0)) 0xB3 0xB (10 + k)]

/-! ### TIME (R479) -/

def macZero (b : List Byte) (m : Nat) : Bool := zeros b (0x18 + 6 * m) 6

def timeOk (b : List Byte) : Bool :=
  let f := u8 b 0
  b.length == 64 && decide (f < 32) && decide (u8 b 1 ≤ 127) && decide (u8 b 2 ≤ 3) && decide (u8 b 3 ≤ 3) && decide (u8 b 4 ≤ 3) &&
    decide (-4 ≤ toInt 8 (u8 b 5) ∧ toInt 8 (u8 b 5) ≤ 5) && decide (2 ≤ u8 b 6) && inRange 1 16 (u8 b 7) &&
    inRange 1000 1000000 (u32 b 8) && inRange 0x10 0x200 (u16 b 0xC) && inRange 1 0x100 (u16 b 0xE) &&
    decide (128 ≤ u16 b 0x10 ∧ 128 ≤ u16 b 0x12 ∧ 96 ≤ u16 b 0x14 ∧ 96 ≤ u16 b 0x16) && inRange 5 5000 (u16 b 0x2C) && zeros b 0x2E 18 &&
    (!bitAt f 1 || (bitAt f 2 && u8 b 1 == 0)) &&
    (upto 2).all fun m => !bitAt (u8 b (0x18 + 6 * m)) 0 && (!(bitAt (u8 b 2) m || bitAt (u8 b 3) m) || !macZero b m)

def timeCheck (l : List Section) : Option Refused := refuseIf (hasSec l 0xC && !timeOk (secOf l 0xC)) 0x19 0xC 0

/-! ### CROCUS (R246, R248, R250, R258) -/

/-- The contexts of a Crocus camera on its port. -/
def camContexts (str : List Byte) (p cam : Nat) : List Nat :=
  (upto 64).filter fun x => cPort str x == p && cCam str x == cam

def crCamOk (str cams b : List Byte) (len k : Nat) : Bool :=
  let o := crCam k
  let cam := u8 b o
  let n := u8 b 0
  match camRecOf cams cam with
  | none => false
  | some r =>
    let p := camPortOf cams r
    decide (p < 16) && pRole str p == 1 && phyLanes (pTxPhy str p) != 0 && decide (u8 b (o + 1) ≤ 2) && decide (1 ≤ u8 b (o + 2)) &&
      inRange 1 254 (u8 b (o + 3)) && vcOk (pTxPhy str p) (u8 b (o + 4)) &&
      (upto 64).all (fun x => cPort str x != p || cVc str x != u8 b (o + 4)) && decide (u8 b (o + 5) < n) &&
      inRange 1 (n - u8 b (o + 5)) (u8 b (o + 6)) && zeros b (o + 7) 1 && zeros b (o + 0xE) 2 && inRange 1 (4 * len) (u32 b (o + 0x10)) &&
      zeros b (o + 0x14) 4 &&
      (upto k).all fun j => (camRecOf cams (u8 b (crCam j))).all fun q => camPortOf cams q != p

def sampleBits (dt : Nat) : Nat := if dt = 0x2A then 8 else if dt = 0x2B then 10 else 12

def crFrameOk (b : List Byte) (f : Nat) : Bool :=
  let o := crFrame b f
  let items := u16 b (o + 0xA) + u16 b (o + 0xC)
  inRange 16 512 (frWidth b f) && inRange 1 512 (frHeight b f) && inRange 0x2A 0x2C (u8 b (o + 4)) && decide (u16 b (o + 0xA) ≤ 256) &&
    decide (u16 b (o + 0xC) ≤ 256) && zeros b (o + 0xE) 2 && frDataOff b f % 64 == 0 &&
    frBytes b f == frHeight b f * cdiv (frWidth b f * sampleBits (u8 b (o + 4))) 8 && u32 b (o + 0x18) % 16 == 0 && zeros b (o + 0x1C) 4 &&
    decide (frDataOff b f + frBytes b f ≤ b.length ∧ u32 b (o + 0x18) + 16 * items ≤ b.length)

/-- The line time of R246, and the limits of margin mode (R248), for the frames that a camera uses. -/
def crTimingOk (str cams b : List Byte) (k : Nat) : Bool :=
  let o := crCam k
  let p := ((camRecOf cams (u8 b o)).map (camPortOf cams)).getD 0
  let w := ((camRecOf cams (u8 b o)).map fun r => u16 cams (camRec r + 0x40)).getD 0
  let phy := pTxPhy str p
  (upto (u8 b (o + 6))).all fun i =>
    let f := u8 b (o + 5) + i
    (u8 b (o + 1) != 1 || decide (crTLine (frLine b f) (phyLanes phy) (pTxRate str p) (bitAt phy 0) ≤ 1000)) &&
    (u8 b (o + 1) != 2 || (decide (frHeight b f ≤ u16 b (o + 0xC) ∧ frWidth b f ≤ w) &&
      (camContexts str p (u8 b o)).any fun x => cDt str x == u8 b (crFrame b f + 4)))

def crocusCheck (l : List Section) : Option Refused :=
  let b := secOf l 0xD
  let str := secOf l 2
  let cams := secOf l 6
  if hasSec l 0xD then
    firstOf [
      refuseIf (decide (64 < u8 b 0) || decide (16 < crCount b) || !zeros b 2 14 || decide (b.length < crFrame b (u8 b 0))) 0x74 0xD 0,
      firstIn (upto (crCount b)) fun k => refuseIf (!crCamOk str cams b (frameLen (secOf l 3)) k) 0x74 0xD k,
      firstIn (upto (u8 b 0)) fun f => refuseIf (!crFrameOk b f) 0x74 0xD f,
      firstIn (upto (crCount b)) fun k => refuseIf (!crTimingOk str cams b k) 0x75 0xD k,
      firstIn (upto (u8 b 0)) fun f => refuseIf (Config.shake256 (frData b f) 32 != frHash b f) 0x76 0xD f]
  else none

/-! ### PAIR (R483, R484) -/

/-- STRUCT_DIGEST of an image. -/
def structDigest (l : List Section) : List Byte :=
  Config.shake256 (secOf l 7 ++ secOf l 8 ++ secOf l 0x11 ++ slice (secOf l 3) 0 4) 32

def pairOk (l : List Section) : Bool :=
  let b := secOf l 0xF
  b.length == 96 && decide (u8 b 0 ≤ 1) && zeros b 1 7 && !zeros b 8 8 && slice b 0x10 32 == structDigest l &&
    inRange 2 250 (u16 b 0x30) && decide (1 ≤ u16 b 0x32) && inRange 1 5000000 (u32 b 0x34) && zeros b 0x38 8 &&
    (upto 4).all (fun n => decide (u32 b (0x40 + 8 * n) < u32 b (0x44 + 8 * n) ∧ u32 b (0x44 + 8 * n) ≤ frameLen (secOf l 3))) &&
    !primaryOn (secOf l 0xB) 1 && (upto 16).any fun p => pRole (secOf l 2) p == 2

def pairCheck (l : List Section) : Option Refused := refuseIf (hasSec l 0xF && !pairOk l) 0x1A 0xF 0

end Sys2Proof.Machine
end

