-- ==== Sys2Proof/Machine/LoadSettings.lean ====
section
/-!
DEFINITION. The loader's checks of CAMERAS, GRID, SAFETY, WATCHDOG, RECORDER and PROFILES (spec/01_watch.md R26, R27, R39;
spec/02_scene_grid.md R56, R62 to R64, R80, R81; spec/08_safe_io.md R270, R271, R292 to R294; spec/09_faults_watchdogs.md R310,
R328, R329; spec/10_event_journal.md R363; spec/11_reneb_image.md R377, R385, R386).
-/
namespace Sys2Proof.Machine

/-! ### CAMERAS (R56, R258, R377) -/

def camF (b : List Byte) (k i : Nat) : Rat := f32 (u32 b (camRec k + 4 * i))

def camModelOf (b : List Byte) (k : Nat) : CamModel :=
  let g := camF b k
  ⟨g 0, g 1, g 2, g 3, g 4, g 5, g 6, g 7, g 8, g 9, g 10, g 11, g 12, g 13, g 14, g 15,
   u16 b (camRec k + 0x40), u16 b (camRec k + 0x42), u32 b (camRec k + 0x48)⟩

/-- A pixel position that an image point projects to, in exact arithmetic. -/
def CamModel.project (m : CamModel) (p : Rat × Rat) : Rat × Rat :=
  let (x, y) := p
  let r2 := x * x + y * y
  let rad := 1 + m.k1 * r2 + m.k2 * (r2 * r2) + m.k3 * (r2 * r2 * r2)
  (m.fx * (x * rad + 2 * m.p1 * x * y + m.p2 * (r2 + 2 * x * x)) + m.cx,
   m.fy * (y * rad + m.p1 * (r2 + 2 * y * y) + 2 * m.p2 * x * y) + m.cy)

/-- The inversion leaves an error of at most 0.05 pixel at a pixel position. -/
def CamModel.inverts (m : CamModel) (u v : Nat) : Bool :=
  let q := m.project (m.undistort u v)
  let du := q.1 - u
  let dv := q.2 - v
  decide (du * du + dv * dv ≤ 1 / 400)

def camOk (b : List Byte) (k : Nat) : Bool :=
  let o := camRec k
  let m := camModelOf b k
  let n := m.qw * m.qw + m.qx * m.qx + m.qy * m.qy + m.qz * m.qz
  let e : Rat := 1 / 100000
  (upto 16).all (fun i => f32Finite (u32 b (o + 4 * i))) && decide (0 < m.fx ∧ 0 < m.fy ∧ 0 < m.tz) &&
    decide ((1 - e) * (1 - e) ≤ n ∧ n ≤ (1 + e) * (1 + e)) && inRange 16 8192 m.width && inRange 16 8192 m.height &&
    decide (camIdOf b k < 64) && (upto k).all (fun j => camIdOf b j != camIdOf b k) && decide (camPortOf b k < 16) &&
    decide (camGroupOf b k < 4) && zeros b (o + 0x47) 1 && inRange 1000 200000 m.maxRange && zeros b (o + 0x4C) 4 &&
    (upto (m.width + 1)).all fun u => (upto (m.height + 1)).all fun v => m.inverts u v

def camerasCheck (l : List Section) : Option Refused :=
  let b := secOf l 6
  firstOf [
    refuseIf (!inRange 1 64 (camTotal b) || !zeros b 1 15 || b.length != camRec (camTotal b)) 0x13 6 0,
    firstIn (upto (camTotal b)) fun k => firstOf [refuseIf (!camOk b k) 0x13 6 k,
      refuseIf (pRole (secOf l 2) (camPortOf b k) != 1) 0x77 6 k]]

/-! ### GRID (R62 to R64, R80, R81) -/

def gFields (b : List Byte) : Nat := u8 b 0x0C
def gFloorFields (b : List Byte) : Nat := u8 b 0x0D
def gSets (b : List Byte) : Nat := u8 b 0x0E
/-- The offset of band `n` of field `f`, the floor fields after the main ones. -/
def gBand (b : List Byte) (f n : Nat) : Nat := 0x40 + 32 * gSets b + 1152 * f + 144 * n

def gridHeaderOk (b : List Byte) : Bool :=
  inRange 50 400 (u16 b 0) && inRange 64 959 (u16 b 2) && inRange 64 447 (u16 b 4) && decide (u8 b 8 ≤ 127) &&
    decide (u8 b 9 ≤ 127) && decide (1 ≤ u8 b 0xA) && decide (1 ≤ u8 b 0xB) && inRange 1 16 (gFields b) &&
    inRange 1 8 (gFloorFields b) && inRange 1 4 (gSets b) && decide (u8 b 0xF ≤ 15) && decide (u8 b 0x13 ≤ 3) &&
    (upto 16).all (fun i => bitAt (u16 b (0x14 + 2 * i)) i) && decide (u16 b 0x34 ≤ 5000) && decide (1 ≤ u16 b 0x36) &&
    inRange 1 127 (u8 b 0x38) && decide (-127 ≤ toInt 8 (u8 b 0x39) ∧ toInt 8 (u8 b 0x39) ≤ -1) && inRange 1 16 (u8 b 0x3A) &&
    decide (u8 b 0x3B ≤ 127) && inRange 50 2000 (u16 b 0x3C) && zeros b 0x3E 2 &&
    b.length == gBand b (gFields b + gFloorFields b) 0

def fieldSetOk (b : List Byte) (k : Nat) : Bool :=
  (upto 16).all fun d => decide (u8 b (0x40 + 32 * k + d) < gFields b ∧ u8 b (0x50 + 32 * k + d) < gFloorFields b)

/-- The vertices of a band, in quarter cells. -/
def bandVerts (b : List Byte) (o : Nat) : List (Rat × Rat) :=
  (upto (u8 b (o + 2))).map fun v => ((i16 b (o + 0xC + 4 * v) : Rat), (i16 b (o + 0xE + 4 * v) : Rat))

/-- Identical vertices in succession merged, the last with the first. -/
def mergeVerts (vs : List (Rat × Rat)) : List (Rat × Rat) :=
  let m := vs.foldr (fun v l => if l.head? = some v then l else v :: l) []
  if 1 < m.length ∧ m.head? = m.getLast? then m.dropLast else m

/-- Twice the signed area. -/
def area2 (vs : List (Rat × Rat)) : Rat := ((edgesOf vs).map fun e => e.1.1 * e.2.2 - e.2.1 * e.1.2).foldl (· + ·) 0

/-- Two segments meet. -/
def segMeet (a b c d : Rat × Rat) : Bool :=
  onEdge c a b || onEdge d a b || onEdge a c d || onEdge b c d ||
    (decide (cross3 a b c * cross3 a b d < 0) && decide (cross3 c d a * cross3 c d b < 0))

/-- Two edges of a polygon that are not neighbours meet, or two neighbours overlap. -/
def selfIntersects (vs : List (Rat × Rat)) : Bool :=
  let n := vs.length
  let es := edgesOf vs
  let z : (Rat × Rat) × (Rat × Rat) := ((0, 0), (0, 0))
  (upto n).any fun i => (upto i).any fun j =>
    let e := es.getD i z
    let f := es.getD j z
    if j + 1 = i then onEdge e.2 f.1 f.2 || onEdge f.1 e.1 e.2
    else if (i + 1) % n = j then onEdge e.1 f.1 f.2 || onEdge f.2 e.1 e.2
    else segMeet e.1 e.2 f.1 f.2

/-- A vertex turned from machine axes into grid axes at a heading (R62). -/
def toGrid (psi : Nat) (p : Rat × Rat) : Rat × Rat :=
  (cosT (2 * psi) * p.1 - sinT (2 * psi) * p.2, sinT (2 * psi) * p.1 + cosT (2 * psi) * p.2)

/-- A vertex lies within the grid onto which its field rasterises, in quarter cells from the ego cell (R63, R71). -/
def inGrid (b : List Byte) (flr : Bool) (p : Rat × Rat) : Bool :=
  if flr then decide (-256 ≤ p.1 ∧ p.1 ≤ 256 ∧ -128 ≤ p.2 ∧ p.2 ≤ 128)
  else
    decide (-4 * (u16 b 2 : Rat) - 2 ≤ p.1 ∧ p.1 ≤ 4 * (1024 - (u16 b 2 : Rat)) - 2 ∧
      -4 * (u16 b 4 : Rat) - 2 ≤ p.2 ∧ p.2 ≤ 4 * (512 - (u16 b 4 : Rat)) - 2)

/-- The cells of a mask at a heading, as column and row. -/
def maskOf (b : List Byte) (flr : Bool) (vs : List (Rat × Rat)) (psi : Nat) : List (Nat × Nat) :=
  let w := if flr then 128 else 1024
  let h := if flr then 64 else 512
  (upto (w * h)).filterMap fun k =>
    let x := k % w
    let y := k / w
    let d : Rat × Rat := if flr then ((x : Rat) - 127 / 2, (y : Rat) - 63 / 2) else ((x : Rat) - u16 b 2, (y : Rat) - u16 b 4)
    if inPolygon vs (toMachine psi (4 * d.1, 4 * d.2)) then some (x, y) else none

/-- The limits on a mask and on a bank's share of it (R58, R63). -/
def maskSizeOk (m : List (Nat × Nat)) : Bool :=
  decide (m.length ≤ 63488) &&
    (upto 32).all fun k => decide ((m.filter fun c => c.1 % 8 + 8 * (c.2 % 4) == k).length ≤ 1984)

def polygonOk (b : List Byte) (flr : Bool) (vs : List (Rat × Rat)) : Bool :=
  decide (3 ≤ vs.length) && decide (area2 vs ≠ 0) && !selfIntersects vs &&
    (upto 256).all fun k => vs.all (fun v => inGrid b flr (toGrid (2 ^ 24 * k) v)) && maskSizeOk (maskOf b flr vs (2 ^ 24 * k))

def bandOk (b : List Byte) (f n : Nat) : Bool :=
  let o := gBand b f n
  let flr := decide (gFields b ≤ f)
  let v := u8 b (o + 2)
  let freeT := toInt 8 (u8 b (o + 5))
  inRange 3 32 v && zeros b (o + 3) 1 && inRange 1 127 (u8 b (o + 4)) &&
    (if flr then freeT == 0 else decide (-127 ≤ freeT ∧ freeT ≤ -1)) && decide (u16 b (o + 6) ≤ 63487) && decide (1 ≤ u16 b (o + 8)) &&
    zeros b (o + 0xA) 2 && zeros b (o + 0xC + 4 * v) (4 * (32 - v)) && zeros b (o + 0x8C) 4 &&
    (if n = 7 then u16 b o == 0xFFFF else decide (u16 b o < u16 b (gBand b f (n + 1)))) &&
    polygonOk b flr (mergeVerts (bandVerts b o))

/-- The record reported is 8 × field + band. -/
def gridCheck (l : List Section) : Option Refused :=
  let b := secOf l 7
  firstOf [
    refuseIf (!gridHeaderOk b) 0x12 7 0,
    firstIn (upto (gSets b)) fun k => refuseIf (!fieldSetOk b k) 0x12 7 k,
    firstIn (upto (8 * (gFields b + gFloorFields b))) fun i => refuseIf (!bandOk b (i / 8) (i % 8)) 0x12 7 i]

/-! ### SAFETY (R26, R27, R39, R270, R271, R292 to R294) -/

/-- R27 on a pair of codes. -/
def codesOk (trust floor : Nat) : Bool := inRange 1 14 floor && (trust == 15 || decide (floor ≤ trust))

/-- Entry `n` of speed table `t`. -/
def tableEntry (b : List Byte) (t n : Nat) : Nat := u16 b (0x10 + 32 * t + 2 * n)

def speedTableOk (b : List Byte) (t : Nat) : Bool :=
  if t < u8 b 0xE then
    tableEntry b t 0 == 0 && tableEntry b t 15 == 0xFFFF && decide (1 ≤ tableEntry b t 1) && decide (tableEntry b t 14 ≤ 65000) &&
      (upto 13).all fun n => decide (tableEntry b t (n + 1) < tableEntry b t (n + 2))
  else zeros b (0x10 + 32 * t) 32

def watchOk (b : List Byte) : Bool :=
  decide (2 ≤ u8 b 0) && decide (2 ≤ u8 b 1) && inRange 1 15 (u8 b 2) && codesOk (u8 b 2) (u8 b 3) && decide (u8 b 0 < u16 b 4) &&
    inRange 100 10000 (u16 b 6) && decide (u16 b 8 ≤ 1000) && inRange 1 16 (u8 b 0xA) && decide (1 ≤ u16 b 0xC) &&
    inRange 1 4 (u8 b 0xE) && zeros b 0xF 1

def siO (i : Nat) : Nat := 0x90 + 32 * i
def discUs (b : List Byte) (i j : Nat) : Nat := u32 b (siO i + 0x10 + 4 * j)

def inputFieldsOk (b : List Byte) (i : Nat) : Bool :=
  let o := siO i
  decide (u8 b o ≤ 3) && decide (u8 b (o + 1) ≤ 1) && [2, 3].all (fun x => decide (u8 b (o + x) ≤ 3) || u8 b (o + x) == 0xFF) &&
    decide (u8 b (o + 4) ≤ 8) && decide (1 ≤ u8 b (o + 5)) && decide (1 ≤ u16 b (o + 6)) && inRange 500 5000000 (u32 b (o + 8)) &&
    zeros b (o + 0xC) 4 && (upto 4).all fun j => discUs b i j == 0 || inRange 1000 10000000 (discUs b i j)

/-- A test-pulse conflict of an input (R271). -/
def inputConflict (b : List Byte) (i : Nat) : Bool :=
  let ps := [u8 b (siO i + 2), u8 b (siO i + 3)].filter (· != 0xFF)
  (ps.length == 2 && ps.head? == ps.getLast?) || (bitAt (u8 b (siO i + 1)) 0 && !ps.isEmpty) || ps.any fun k => !bitAt (u8 b 0x196) k

/-- A used entry follows an unused one. -/
def gapped (l : List Nat) : Bool := (upto (l.length - 1)).any fun j => l.getD j 0 == 0 && l.getD (j + 1) 0 != 0

def discList (b : List Byte) (i : Nat) : List Nat := (upto 4).map (discUs b i)

def ss1Max (b : List Byte) (k : Nat) : Nat := u32 b (0x210 + 16 * k + 8)

def pulseOk (b : List Byte) : Bool :=
  inRange 2500 5000000 (u32 b 0x190) && inRange 1 16 (u8 b 0x194) && decide (u8 b 0x195 ≤ 8) && decide (u8 b 0x196 < 16) && zeros b 0x197 9

def encoderOk (b : List Byte) (e : Nat) : Bool :=
  let o := 0x1A0 + 16 * e
  inRange 1000 10000000 (u32 b o) && decide (u8 b (o + 4) ≤ 1) && inRange 1 3 (u8 b (o + 5)) && decide (u16 b (o + 6) ≤ 255) &&
    (u32 b (o + 8) == 0 || (e == 0 && inRange 16 16777215 (u32 b (o + 8)))) && zeros b (o + 0xC) 4

def speedOk (b : List Byte) : Bool :=
  inRange 1 5000 (u16 b 0x1C0) && inRange 1 1000 (u16 b 0x1C2) && decide (u16 b 0x1C4 ≤ 5000) && decide (u8 b 0x1C6 ≤ 50) && zeros b 0x1C7 1 &&
    inRange 1 5000000 (u32 b 0x1C8) && zeros b 0x1CC 4

def outputOk (b : List Byte) (g : Nat) : Bool :=
  let o := 0x1D0 + 16 * g
  decide (u8 b o ≤ 4) && (if u8 b o = 4 then decide (u8 b (o + 1) ≤ 3) else u8 b (o + 1) == 0) && inRange 50 500 (u16 b (o + 2)) &&
    inRange 500000 30000000 (u32 b (o + 4)) && inRange 1 5000 (u16 b (o + 8)) && zeros b (o + 0xA) 6

def ss1Ok (b : List Byte) (k : Nat) : Bool :=
  let o := 0x210 + 16 * k
  decide (u32 b o ≤ 5000000) && inRange 100 10000 (u16 b (o + 4)) && decide (u16 b (o + 6) ≤ 1000) &&
    (inRange 2500 30000000 (ss1Max b k) || (ss1Max b k == 0 && k != 0)) && zeros b (o + 0xC) 4

def lrstOk (b : List Byte) : Bool :=
  inRange 5000 2500000 (u32 b 0x250) && decide (u32 b 0x250 < u32 b 0x254 ∧ u32 b 0x254 ≤ 30000000) && inRange 1 50000 (u16 b 0x258) &&
    zeros b 0x25A 6

def safetyCheck (l : List Section) : Option Refused :=
  let b := secOf l 8
  firstOf [
    refuseIf (b.length != 0x260) 0x80 8 0,
    refuseIf (!watchOk b) 0x11 8 0,
    firstIn (upto 4) fun t => refuseIf (!speedTableOk b t) 0x11 8 t,
    refuseIf (!pulseOk b) 0x80 8 0,
    refuseIf (decide (u32 b 0x190 / 4 < u8 b 0x194 + u8 b 0x195 + 1)) 0x81 8 0,
    firstIn (upto 8) fun i => firstOf [refuseIf (!inputFieldsOk b i) 0x80 8 i, refuseIf (inputConflict b i) 0x81 8 i,
      refuseIf (gapped (discList b i)) 0x83 8 i],
    firstIn (upto 2) fun e => refuseIf (!encoderOk b e) 0x80 8 e,
    refuseIf (!speedOk b) 0x80 8 0,
    firstIn (upto 4) fun g => refuseIf (!outputOk b g) 0x80 8 g,
    refuseIf (!(upto 4).any fun g => u8 b (0x1D0 + 16 * g) == 1) 0x82 8 0,
    firstIn (upto 4) fun k => refuseIf (!ss1Ok b k) 0x80 8 k,
    refuseIf (gapped ((upto 4).map (ss1Max b))) 0x83 8 0,
    refuseIf (!lrstOk b) 0x80 8 0]

/-! ### WATCHDOG (R300, R310, R328, R329) -/

/-- Sources that raise UC faults (R310). -/
def ucSources : List Nat := [3] ++ (upto 16).map (4 + ·) ++ (upto 84).map (28 + ·)

/-- A window keeps OPEN < CLOSE ≤ PERIOD. -/
def windowOk (b : List Byte) (o : Nat) : Bool :=
  inRange 10 65535 (u16 b o) && decide (u16 b (o + 2) < u16 b (o + 4) ∧ u16 b (o + 4) ≤ u16 b o)

def taskRec (t : Nat) : Nat := 0x20 + 12 * t

/-- A task record that no task uses may be all 0. -/
def taskOk (b : List Byte) (t : Nat) : Bool :=
  let o := taskRec t
  zeros b o 12 || (windowOk b o && decide (u16 b (o + 6) ≤ min (u16 b o - 1) 16383) && decide (u8 b (o + 8) < 4) && zeros b (o + 9) 3)

def heartbeatOk (b : List Byte) (k : Nat) : Bool :=
  let o := 0xF0 + 16 * k
  zeros b o 16 ||
    (inRange 2 65534 (u16 b o) && decide (u16 b o ≤ u16 b (o + 2)) && decide (1 ≤ u8 b (o + 4)) && decide (u8 b (o + 5) < 16) &&
      zeros b (o + 6) 2 && (u32 b (o + 8) == 0 || inRange (u16 b (o + 2) + 1) 30000000 (u32 b (o + 8))) && zeros b (o + 0xC) 4)

/-- The enabled tasks of an image: number, PERIOD, OPEN, CLOSE, PHASE and TFLAGS. -/
def enabledTasks (b : List Byte) : List (List Nat) :=
  ((upto 16).filter fun t => bitAt (u8 b (taskRec t + 8)) 0).map fun t =>
    let o := taskRec t
    [t, u16 b o, u16 b (o + 2), u16 b (o + 4), u16 b (o + 6), u8 b (o + 8)]

def watchdogCheck (l : List Section) : Option Refused :=
  let b := secOf l 9
  firstOf [
    refuseIf (b.length != 0x118 || !inRange 2500 5000000 (u32 b 0) || !inRange 500000 500000000 (u32 b 4) || !inRange 1 32 (u8 b 8) ||
      !zeros b 9 7) 0x90 9 0,
    firstIn (upto 128) fun i => refuseIf (bitAt (ofLe (slice b 0x10 16)) i && !ucSources.contains i) 0x92 9 i,
    firstIn (upto 16) fun t => refuseIf (!taskOk b t) 0x90 9 t,
    refuseIf (enabledTasks b != Config.runtimeTasks ((secOf l 0x10).drop 0x50)) 0x91 9 0,
    refuseIf (!windowOk b 0xE0 || decide (4 ≤ u8 b 0xE6) || !zeros b 0xE7 1 ||
      !(u32 b 0xE8 == 0 || inRange 2500 1000000000 (u32 b 0xE8)) || !zeros b 0xEC 4) 0x90 9 16,
    firstIn (upto 2) fun k => refuseIf (!heartbeatOk b k) 0x90 9 (17 + k),
    refuseIf (decide (16 ≤ u8 b 0x110) || !zeros b 0x111 7) 0x90 9 19]

/-! ### RECORDER (R363) -/

/-- The section, with the records that a page of the NAND holds. -/
def recorderOk (b : List Byte) (perPage : Nat) : Bool :=
  b.length == 32 && decide (u16 b 6 ≤ perPage) && inRange 2500 5000000 (u32 b 8) && inRange 8 40 (u8 b 0xC) && zeros b 0xD 1 &&
    inRange 100 10000 (u16 b 0xE) && inRange 10000 10000000 (u32 b 0x10) && zeros b 0x14 12

def recorderCheck (l : List Section) (perPage : Nat) : Option Refused := refuseIf (!recorderOk (secOf l 0xA) perPage) 0xA0 0xA 0

/-! ### PROFILES (R292, R385, R386) -/

def profCount (b : List Byte) : Nat := u8 b 0
def profOff (k : Nat) : Nat := 48 + 32 * k

/-- The seven parameters of a profile: trust code, floor code, speed table, RETRUST_FRAMES, field set, DISC_INDEX,
SS1_INDEX; 0xFF takes the expert value. -/
def profileValue (b watch : List Byte) (k id : Nat) : Nat :=
  let v := u8 b (profOff k + 0x10 + id)
  if v ≠ 0xFF then v
  else if id = 0 then u8 watch 2 else if id = 1 then u8 watch 3 else if id = 3 then u8 watch 1 else 0

/-- RETRUST_LIST. -/
def retrustList (b : List Byte) : List Nat := (upto 8).map fun i => u8 b (0x14 + i)

/-- A value is allowed for a parameter (R385). -/
def valueAllowed (b : List Byte) (id v : Nat) : Bool :=
  if id = 0 then decide (v < 16) && bitAt (u16 b 0x10) v
  else if id = 1 then decide (v < 16) && bitAt (u16 b 0x12) v
  else if id = 3 then v != 0 && (retrustList b).contains v
  else decide (v < 8) && bitAt (u8 b (if id = 2 then 0x1C else if id = 4 then 0x1D else if id = 5 then 0x1E else 0x1F)) v

/-- Entry index `j` of the DISC_US lists is used (R292). -/
def discUsed (safety : List Byte) (j : Nat) : Bool :=
  decide (j < 4) && (upto 8).all fun i => u8 safety (siO i) == 0 || discUs safety i j != 0

/-- An SS1 record is used (R292). -/
def ss1Used (safety : List Byte) (k : Nat) : Bool := decide (k < 4) && ss1Max safety k != 0

def profilesCheck (l : List Section) : Option Refused :=
  let b := secOf l 0x11
  let w := secOf l 8
  let ps := upto (profCount b)
  let lst := retrustList b
  firstOf [
    refuseIf (!inRange 1 8 (profCount b) || decide (profCount b ≤ u8 b 1) || !zeros b 2 14 || b.length != profOff (profCount b) ||
      bitAt (u16 b 0x10) 0 || bitAt (u16 b 0x12) 0 || bitAt (u16 b 0x12) 15 || gapped lst || lst.contains 1 ||
      decide (2 ^ u8 w 0xE ≤ u8 b 0x1C) || decide (2 ^ gSets (secOf l 7) ≤ u8 b 0x1D) || !zeros b 0x20 16) 0x14 0x11 0,
    refuseIf ((upto 8).any fun j => (bitAt (u8 b 0x1E) j && !discUsed w j) || (bitAt (u8 b 0x1F) j && !ss1Used w j)) 0x83 0x11 0,
    firstIn ps fun k => refuseIf (u8 b (profOff k) == 0 || !(upto 16).all (fun i =>
      inRange 0x20 0x7E (u8 b (profOff k + i)) || zeros b (profOff k + i) (16 - i)) || !zeros b (profOff k + 0x17) 9) 0x14 0x11 k,
    firstIn ps fun k => refuseIf (!discUsed w (profileValue b w k 5) || !ss1Used w (profileValue b w k 6)) 0x83 0x11 k,
    firstIn ps fun k => refuseIf (!(upto 7).all (fun id => valueAllowed b id (profileValue b w k id)) ||
      !codesOk (profileValue b w k 0) (profileValue b w k 1)) 0x14 0x11 k]

end Sys2Proof.Machine
end

