-- ==== Sys2Proof/Machine/Journal.lean ====
section
/-!
DEFINITION. The recorder's read window and the NAND journal (spec/10_event_journal.md): pages, blocks and partitions, the
mount, flushes, refreshes, FORMAT, the HALT snapshot and RD_PAGE.
-/
namespace Sys2Proof.Machine

/-! ### Life-cycle fuses (R420, R421) -/

/-- A group counts as blown when two of its three fuses read blown. -/
def groupBlown (g : BitVec 3) : Bool := decide (2 ≤ b2n (g.getLsbD 0) + b2n (g.getLsbD 1) + b2n (g.getLsbD 2))

/-- The state of the fuses: the highest blown group, or MANUFACTURE. -/
def fuseState (f : Vector (BitVec 3) 4) : Nat :=
  (upto 4).foldl (fun r i => if groupBlown (vget f i 0) then i + 1 else r) 0

/-- The life-cycle counter: how many groups are blown. -/
def fuseCounter (f : Vector (BitVec 3) 4) : Nat := (upto 4).countP fun i => groupBlown (vget f i 0)

/-! ### Records as bytes (R337) -/

def EvRec.bytes (e : EvRec) : List Byte :=
  leBytes 6 e.beat ++ leBytes 2 e.rep ++ leBytes 2 e.code ++ leBytes 1 e.source ++
    leBytes 1 (packNat [(0, 2, e.cls.code), (2, 1, b2n e.sat), (3, 1, b2n e.limited), (4, 1, b2n e.timeValid)]) ++
    leBytes 4 e.seq ++ leBytes 8 e.devTime ++ leBytes 8 e.data

/-- The class of a code. -/
def classOfCode (n : Nat) : FaultClass := if n = 0 then .event else if n = 1 then .ce else if n = 2 then .uc else .ft

/-- The record that 32 bytes hold. -/
def recOf (b : List Byte) : EvRec :=
  { beat := ofLe (slice b 0 6), rep := u16 b 6, code := u16 b 8, source := u8 b 0x0A, cls := classOfCode (bits (u8 b 0x0B) 0 2)
    sat := bitAt (u8 b 0x0B) 2, limited := bitAt (u8 b 0x0B) 3, timeValid := bitAt (u8 b 0x0B) 4, seq := u32 b 0x0C
    devTime := u64 b 0x10, data := u64 b 0x18 }

/-- The records that a page's bytes hold. -/
def recsOf (b : List Byte) (n : Nat) : List EvRec := (upto n).map fun i => recOf (slice b (32 * i) 32)

/-! ### The recorder's window (R347) -/

/-- The record at the cursor, with the cursor and GONE as the read leaves them; none past the newest record. -/
def State.atCursor (s : State) : Option (List Byte) × Nat × Bool :=
  let r := s.evr
  let c := r.cursor
  if r.area = 0 then
    let oldest := (r.seqNext + 2 ^ 32 - r.last.length) % 2 ^ 32
    let i := (c + 2 ^ 32 - oldest) % 2 ^ 32
    if i < r.last.length then ((r.last[i]?).map (·.bytes), c, r.gone)
    else if (c + 2 ^ 32 - r.seqNext) % 2 ^ 32 < 2 ^ 31 ∨ r.last.isEmpty then (none, c, r.gone)
    else ((r.last.head?).map (·.bytes), oldest, true)
  else if r.area = 1 then ((r.first[c]?).map (·.bytes), c, r.gone)
  else if 32 * c < s.jnl.buffer.length then (some (slice s.jnl.buffer (32 * c) 32), c, r.gone)
  else (none, c, r.gone)

/-- A read of `REC_WIN_0` copies the record at the cursor into the window. -/
def State.readWin0 (s : State) : State :=
  match s.atCursor with
  | (some b, c, g) => { s with evr := { s.evr with window := b, cursor := c, gone := g, empty := false } }
  | (none, _, _) => { s with evr := { s.evr with window := [], empty := true } }

/-- A read of `REC_WIN_7` advances the cursor, unless EMPTY is set. -/
def State.readWin7 (s : State) : State :=
  if s.evr.empty then s else { s with evr := { s.evr with cursor := (s.evr.cursor + 1) % 2 ^ 32 } }

/-! ### Pages and blocks (R352 to R356, R360) -/

def NandBlock.blank : NandBlock := ⟨.none, false, false, 0, 0, []⟩

def State.nblk (s : State) (n : Nat) : NandBlock := s.jnl.blocks.getD n NandBlock.blank
def State.modNblk (s : State) (n : Nat) (f : NandBlock → NandBlock) : State :=
  { s with jnl := { s.jnl with blocks := s.jnl.blocks.modify n f } }

def NandBlock.bad (b : NandBlock) : Bool := b.factoryBad || b.grownBad

/-- Records of a page: 32 × P (R353). -/
def State.perPage (s : State) : Nat := 256 * s.jnl.page

/-- The journal key (R360): AHN-JNL over the identity seed, the state and the counter. -/
def State.jnlKey (s : State) : List Byte :=
  Config.shake256 (s.lc.seed.getD [] ++ [0x41, 0x48, 0x4E, 0x2D, 0x4A, 0x4E, 0x4C] ++ leBytes 1 s.lc.bootState
    ++ leBytes 1 s.lc.bootCounter) 32

/-- Header bytes 0x00 to 0x17 of a page (R353).
(DESIGN CHOICE, unsafe: notes/assumptions/64.md.) -/
def NandPage.header (p : NandPage) : List Byte :=
  leBytes 2 0x4A52 ++ leBytes 1 p.ptype ++ leBytes 1 p.epoch ++ leBytes 4 p.powerOn ++ leBytes 8 p.pageSeq ++
    leBytes 4 p.firstSeq ++ leBytes 2 p.count ++ leBytes 2 0

/-- The GCM tag of a page under the present key (R360): the data padded with zeros to the page.
(DESIGN CHOICE, unsafe: notes/assumptions/64.md.) -/
def State.pageTag (s : State) (p : NandPage) : List Byte :=
  Config.gcmTag s.jnlKey (leBytes 1 p.ptype ++ leBytes 3 0 ++ leBytes 8 p.pageSeq) p.header
    (p.data ++ List.replicate (8192 * s.jnl.page - p.data.length) 0)

/-- The next page to program (R353, R359). -/
def State.newPage (s : State) (ptype first count : Nat) (data : List Byte) : NandPage :=
  let p : NandPage := ⟨ptype, s.lc.bootCounter % 256, s.jnl.powerOn, s.jnl.nextSeq, first, count, [], data⟩
  { p with tag := s.pageTag p }

/-- The block that follows in a ring. -/
def nextIn (l : List Nat) (cur : Option Nat) : Option Nat :=
  match cur with
  | none => l.head?
  | some c =>
    match l.dropWhile (· != c) with
    | _ :: x :: _ => some x
    | _ => l.head?

/-- A block is erased (R354, R356): no pages, its reads counted anew. -/
def NandBlock.erased (b : NandBlock) : NandBlock := { b with erases := b.erases + 1, reads := 0, pages := [] }

/-- A block whose partition is static (R356). -/
def Part.static (p : Part) : Bool := p == .sys || p == .slotA || p == .slotB || p == .evidence

/-- The static block with the lowest erase count, the lowest block number first (R356). -/
def State.leastStatic (s : State) : Option Nat :=
  (upto s.jnl.blocks.length).foldl (fun (o : Option Nat) i =>
    if !(s.nblk i).part.static then o
    else match o with
      | some k => if (s.nblk i).erases < (s.nblk k).erases then some i else o
      | none => some i) none

def swapIn (x y : Nat) (l : List Nat) : List Nat := l.map fun i => if i == x then y else i

/-- Static wear levelling before ring block `x` is used (R356): the least-worn static block moves into it and joins the
ring in its place.
(DEDUCED, unsafe: notes/assumptions/61.md.) -/
def State.wearSwap (s : State) (x : Nat) : State :=
  match s.leastStatic with
  | some k =>
    if (s.nblk x).erases > (s.nblk k).erases + s.wearDelta then
      let bk := s.nblk k
      let s1 := (s.modNblk x fun b => { b.erased with part := bk.part, pages := bk.pages }).modNblk k fun b => { b with part := .ring }
      ({ s1 with jnl := { s1.jnl with
          ring := swapIn x k s1.jnl.ring
          evid := swapIn k x s1.jnl.evid
          evidHead := s1.jnl.evidHead.map fun i => if i == k then x else i } } : State).event 0x9101 (k + 2 * 65536)
    else s
  | none => s

/-- Room for another page in a block. -/
def State.pageRoom (s : State) (n : Nat) : Bool := decide ((s.nblk n).pages.length < s.jnl.pagesPerBlock)

/-- The ring is ready for a page: in the block being written, or in the next one, which is erased first (R356, R359). -/
def State.ringReady (s : State) : State :=
  if s.jnl.headOpen && s.jnl.head.any s.pageRoom then s
  else match nextIn s.jnl.ring s.jnl.head with
    | some x =>
      let s1 := s.wearSwap x
      match nextIn s1.jnl.ring s1.jnl.head with
      | some y =>
        let s2 := s1.modNblk y NandBlock.erased
        { s2 with jnl := { s2.jnl with head := some y, headOpen := true } }
      | none => s1
    | none => s

/-- The evidence area, a ring of its own, is ready for a page (R354). -/
def State.evidReady (s : State) : State :=
  if s.jnl.evidOpen && s.jnl.evidHead.any s.pageRoom then s
  else match nextIn s.jnl.evid s.jnl.evidHead with
    | some x =>
      let s1 := s.modNblk x NandBlock.erased
      { s1 with jnl := { s1.jnl with evidHead := some x, evidOpen := true } }
    | none => s

/-- A page is programmed into a block, under the next PAGE_SEQ (R359).
(DEDUCED, unsafe: notes/assumptions/61.md.) -/
def State.program (s : State) (n : Option Nat) (ptype first count : Nat) (data : List Byte) : State :=
  match n with
  | some k =>
    let s1 := s.modNblk k fun b => { b with pages := b.pages ++ [s.newPage ptype first count data] }
    { s1 with jnl := { s1.jnl with lastSeq := s.jnl.nextSeq, nextSeq := s.jnl.nextSeq + 1 } }
  | none => s

/-- A page of the journal ring, and one of the evidence area. -/
def State.ringPage (s : State) (first count : Nat) (data : List Byte) : State :=
  let s1 := s.ringReady
  s1.program s1.jnl.head 1 first count data

def State.evidPage (s : State) (ptype first count : Nat) (data : List Byte) : State :=
  let s1 := s.evidReady
  s1.program s1.jnl.evidHead ptype first count data

/-- The block and the page of a PAGE_SEQ. -/
def JnlState.pageAt (j : JnlState) (seq : Nat) : Option (Nat × NandPage) :=
  (upto j.blocks.length).findSome? fun n =>
    ((j.blocks.getD n NandBlock.blank).pages.find? fun p => p.pageSeq == seq).map fun p => (n, p)

/-- A fault of the journal: the block in info [15:0] and a code in [23:16], whose values the spec does not give (R362).
(DESIGN CHOICE, safe: notes/assumptions/25.md.)
(DEDUCED, unsafe: notes/assumptions/61.md.) -/
def State.nandFault (s : State) (src : Nat) (c : FaultClass) (block : Nat) : State :=
  s.freed.raise src c (block % 65536 + 65536 * s.free 256)

/-! ### Mount (R348, R351, R355, R359) -/

/-- A page of the present epoch whose tag passes (R360). -/
def State.epochPage (s : State) (p : NandPage) : Bool := p.epoch == s.lc.bootCounter % 256
def State.authentic (s : State) (p : NandPage) : Bool := p.tag == s.pageTag p

/-- The device as it answers (R351, R355): a device seen for the first time has its factory table and no partitions. -/
def State.identify (s : State) (d : NandDevice) : State :=
  let same := s.jnl.blocks.length == d.total && s.jnl.page == d.page && s.jnl.pagesPerBlock == d.pagesPerBlock
  let fresh := (upto d.total).map fun i => { NandBlock.blank with factoryBad := d.factoryBad.contains i }
  let j := { s.jnl with present := true, twoCe := d.twoCe, mode := d.mode, page := d.page, pagesPerBlock := d.pagesPerBlock }
  if same then { s with jnl := j }
  else { s with
    jnl := { j with blocks := fresh, ring := [], evid := [], head := none, evidHead := none, firstCopy := none, powerOn := 0 }
    ldr := { s.ldr with slotA := ⟨false, 0, [], []⟩, slotB := ⟨false, 0, [], []⟩, prefSlot := false } }

/-- A valid SYS is found: FORMAT has run on this device (R354, R359). -/
def JnlState.sysFound (j : JnlState) : Bool := j.blocks.any fun b => b.part == .sys

/-- The highest PAGE_SEQ on the device. -/
def JnlState.maxSeq (j : JnlState) : Nat := j.blocks.foldl (fun m b => b.pages.foldl (fun k p => max k p.pageSeq) m) j.lastSeq

/-- The mount (R359): the next PAGE_SEQ is the highest found plus 256, writing resumes in the next block, the power-on
count advances (R369), and a scrub pass is due (R358). Without a supported device, or without a valid SYS, it fails.
(DEDUCED, unsafe: notes/assumptions/11.md.)
(DEDUCED, unsafe: notes/assumptions/61.md.) -/
def State.mount (s : State) (dev : Option NandDevice) : State :=
  match dev with
  | some d =>
    if d.supported then
      let s1 := s.identify d
      if s1.jnl.sysFound then
        { s1 with jnl := { s1.jnl with
            formatted := true, ready := true, headOpen := false, evidOpen := false, scrubBusy := true
            lastSeq := s1.jnl.maxSeq, nextSeq := s1.jnl.maxSeq + 256, powerOn := (s1.jnl.powerOn + 1) % 2 ^ 32 } }
      else ({ s1 with jnl := { s1.jnl with formatted := false, ready := false } } : State).nandFault 97 .uc 0
    else s.nandFault 92 .uc 0
  | none => s.nandFault 92 .uc 0

/-- A page whose tag fails: UC from source 95, its records lost (R360). -/
def State.tagFailure (s : State) (block : Nat) (p : NandPage) : State :=
  let s1 := s.nandFault 95 .uc block
  { s1 with jnl := { s1.jnl with lost := satAdd (2 ^ 32 - 1) s1.jnl.lost p.count } }

/-- At power-on the first area is reloaded from its copy in NAND (R348). -/
def State.reloadFirst (s : State) : State :=
  if s.jnl.ready then
    match s.jnl.firstCopy.bind s.jnl.pageAt with
    | some (n, p) =>
      if !s.epochPage p then s
      else if s.authentic p then
        { s with evr := { s.evr with first := (recsOf p.data p.count ++ s.evr.first).take 256, firstRestored := true } }
      else s.tagFailure n p
    | none => s
  else s

/-! ### Flushes (R350) -/

/-- The service core can write to the medium (R322, R350, R355). -/
def State.canWrite (s : State) : Bool := s.svcUp && s.jnl.ready && !s.jnl.stopped

/-- The records that wait, oldest first. -/
def State.waitingRecs (s : State) : List EvRec := s.evr.last.drop (s.evr.last.length - s.evr.waiting)

/-- A flush has started (R350): `JNL_STATUS.FLUSH_BUSY`. -/
def State.flushStarted (s : State) : Bool :=
  s.canWrite && s.evr.waiting != 0 &&
    (s.jnl.flushDue || decide ((if s.flushRecords = 0 then s.perPage else s.flushRecords) ≤ s.evr.waiting)
      || s.waitingRecs.head?.any fun e => decide (e.beat + s.flushBeats ≤ s.beat))

/-- The first area is copied to the evidence area when it differs from its copy.
(DEDUCED, unsafe: notes/assumptions/61.md.) -/
def State.copyFirst (s : State) : State :=
  let data := s.evr.first.flatMap EvRec.bytes
  let old := (s.jnl.firstCopy.bind s.jnl.pageAt).map fun x => x.2.data
  match s.evr.first.head? with
  | some e =>
    if old == some data || s.jnl.evid.isEmpty then s
    else
      let s1 := s.evidPage 2 e.seq s.evr.first.length data
      { s1 with jnl := { s1.jnl with firstCopy := some s1.jnl.lastSeq } }
  | none => s

/-- Records lost before their copy are reported once (R350).
(DEDUCED, unsafe: notes/assumptions/61.md.) -/
def State.reportLost (s : State) : State :=
  if s.jnl.lostNew = 0 then s
  else ({ s with jnl := { s.jnl with lostNew := 0 } } : State).event 0x9102 (s.jnl.lostNew % 2 ^ 32)

/-- One page of waiting records is copied in SEQ order (R350).
(DEDUCED, unsafe: notes/assumptions/61.md.) -/
def State.copyPage (s : State) : State :=
  let recs := s.waitingRecs.take s.perPage
  match recs.head?, recs.getLast? with
  | some e, some l =>
    let s1 := s.ringPage e.seq recs.length (recs.flatMap EvRec.bytes)
    let left := s.evr.waiting - recs.length
    { s1 with
      evr := { s1.evr with waiting := s1.evr.waiting - recs.length }
      jnl := { s1.jnl with copied := l.seq, flushDue := s.jnl.flushDue && left != 0 } }
  | _, _ => s

/-- JOURNAL_FLUSH (R350).
(DEDUCED, unsafe: notes/assumptions/61.md.) -/
def State.flush (s : State) : State := if s.flushStarted then (s.copyPage.copyFirst).reportLost else s

/-- A FLUSH command (R350). -/
def State.flushCmd (s : State) : State := { s with jnl := { s.jnl with flushDue := true } }

/-! ### The HALT snapshot (R349) -/

/-- A list cut into pieces of `n`, at most `k` of them. -/
def pieces {α : Type} (n : Nat) : Nat → List α → List (List α)
  | 0, _ => []
  | k + 1, l => if l.isEmpty then [] else l.take n :: pieces n k (l.drop n)

def State.snapPage (s : State) (l : List EvRec) : State :=
  s.evidPage 3 ((l.head?.map (·.seq)).getD 0) l.length (l.flatMap EvRec.bytes)

/-- After a lock-out reset sequence the last area and the latch records go to the evidence area, and every waiting record
to the ring.
(DEDUCED, unsafe: notes/assumptions/61.md.) -/
def State.haltSnapshot (s : State) : State :=
  if s.jnl.snapDue && s.canWrite then
    let s0 : State := { s with jnl := { s.jnl with snapDue := false } }
    let s1 := (pieces s.perPage 16 s.evr.last).foldl (fun (t : State) l => t.snapPage l) s0
    let s2 := s1.snapPage (s.evr.last.filter fun e => e.code == 0x2103)
    (upto 17).foldl (fun (t : State) _ => t.copyPage) s2
  else s

/-! ### Bad blocks, refreshes and scrubbing (R355, R357, R358) -/

/-- Spare-pool blocks that are free. -/
def State.spares (s : State) : List Nat :=
  (upto s.jnl.blocks.length).filter fun i => (s.nblk i).part == .spare && !(s.nblk i).bad

/-- A spare-pool block takes the content and the place of a block. Which one, the spec does not say. -/
def State.moveToSpare (s : State) (n : Nat) (old : NandBlock → NandBlock) : State :=
  match s.spares[s.free s.spares.length]? with
  | some x =>
    let b := s.nblk n
    let s1 := ((s.freed.modNblk x fun y => { y with part := b.part, pages := b.pages }).modNblk n old)
    let up := fun i => if i == n then x else i
    { s1 with jnl := { s1.jnl with
        ring := swapIn n x s1.jnl.ring, evid := swapIn n x s1.jnl.evid
        head := s1.jnl.head.map up, evidHead := s1.jnl.evidHead.map up } }
  | none => s

/-- The spare pool is exhausted (R355): copying stops, UC from source 98 once per power-on. -/
def State.sparesGone (s : State) (n : Nat) : State :=
  let s1 : State := { s with jnl := { s.jnl with stopped := true, spareRaised := true } }
  if s.jnl.spareRaised then s1 else s1.nandFault 98 .uc n

/-- A program or erase failure (R355). -/
def State.programFail (s : State) (n : Nat) (erase : Bool) : State :=
  if s.jnl.present && decide (n < s.jnl.blocks.length) && !(s.nblk n).bad then
    let s1 := (s.modNblk n fun b => { b with grownBad := true, pages := if erase then [] else b.pages }).event 0x9100
      (n % 65536 + b2n erase * 65536)
    let gone := fun (b : NandBlock) => { b with part := .none, pages := [] }
    if (s.nblk n).part == .none then s1
    else if (s.nblk n).part == .spare then (s1.modNblk n gone).nandFault 94 .ce n
    else if s1.spares.isEmpty then s1.sparesGone n
    else (s1.moveToSpare n gone).nandFault 94 .ce n
  else s

/-- A NAND operation exceeds twice its maximum time (R351). -/
def State.nandTimeout (s : State) (n : Nat) : State := if s.pwr.mainOn then s.nandFault 92 .uc n else s

/-- A block is refreshed into a spare-pool block; the old one is erased and returns to the pool (R357, R358): kind 0 scrub,
1 read disturb. -/
def State.refresh (s : State) (n kind : Nat) : State :=
  if s.spares.isEmpty then s
  else
    let s1 := s.moveToSpare n fun b => { b.erased with part := .spare }
    ({ s1 with jnl := { s1.jnl with rewrites := satInc 65535 s1.jnl.rewrites } } : State).event 0x9101 (n % 65536 + kind * 65536)

/-- The block holds data that a refresh moves. -/
def State.refreshable (s : State) (n : Nat) : Bool :=
  s.jnl.ready && decide (n < s.jnl.blocks.length) && !(s.nblk n).bad && ((s.nblk n).part.static || (s.nblk n).part == .ring)

/-- READ_DISTURB_REFRESH (R357). Page reads of SYS and of the slots are not counted by the model: for them the command
itself says that the limit is reached. -/
def State.readDisturb (s : State) (n : Nat) : State :=
  let p := (s.nblk n).part
  if s.refreshable n && !s.jnl.stopped &&
      (decide (s.rdLimit ≤ (s.nblk n).reads) || p == .sys || p == .slotA || p == .slotB) then s.refresh n 1
  else s

/-- 168 hours in beats (R358). -/
def scrubPeriod : Nat := 168 * 3600 * 500000

/-- A codeword found in a scrub pass: its block and its corrected bits, none where it is uncorrectable. An uncorrectable
one loses its page; which page of the block the command does not name. -/
def State.scrubFound (s : State) (f : Nat × Option Nat) : State :=
  if !s.refreshable f.1 then s
  else match f.2 with
    | some k =>
      let s1 : State := { s with jnl := { s.jnl with maxBits := max s.jnl.maxBits (min k 63) } }
      if s.scrubBits ≤ k then
        ({ s1 with jnl := { s1.jnl with highCw := satInc 65535 s1.jnl.highCw } } : State).nandFault 93 .ce f.1
      else s1
    | none =>
      let b := s.nblk f.1
      let i := s.free b.pages.length
      let n := ((b.pages[i]?).map fun p => if p.ptype ≤ 3 then p.count else 0).getD 0
      let s1 := (s.freed.modNblk f.1 fun x => { x with pages := x.pages.eraseIdx i }).nandFault 93 .uc f.1
      { s1 with jnl := { s1.jnl with lost := satAdd (2 ^ 32 - 1) s1.jnl.lost n } }

/-- The blocks to refresh after a pass. -/
def State.weakBlocks (s : State) (found : List (Nat × Option Nat)) : List Nat :=
  ((found.filter fun f => s.refreshable f.1 && (f.2.elim true fun k => decide (s.scrubBits ≤ k))).map (·.1)).eraseDups

/-- A scrub pass is complete (R358): it was due at boot or after 168 powered hours; every programmed page has been read.
(DEDUCED, unsafe: notes/assumptions/61.md.) -/
def State.scrub (s : State) (found : List (Nat × Option Nat)) : State :=
  if s.jnl.ready && !s.st.running && (s.jnl.scrubBusy || decide (scrubPeriod ≤ s.jnl.scrubBeats)) then
    let read : State := { s with jnl := { s.jnl with
      scrubBusy := false, scrubBeats := 0, blocks := s.jnl.blocks.map fun b => { b with reads := b.reads + b.pages.length } } }
    let s1 := found.foldl (fun (t : State) f => t.scrubFound f) read
    (s.weakBlocks found).foldl (fun (t : State) n => t.refresh n 0) s1
  else s

/-- Powered time of a beat (R358): a pass is in progress from 168 hours after the last one. -/
def State.scrubBeat (s : State) : State :=
  if s.jnl.ready then
    { s with jnl := { s.jnl with scrubBeats := s.jnl.scrubBeats + 1
                                 scrubBusy := s.jnl.scrubBusy || decide (scrubPeriod ≤ s.jnl.scrubBeats + 1) } }
  else s

/-! ### FORMAT and RD_PAGE (R354, R369) -/

/-- Blocks for a number of MiB. -/
def State.blocksFor (s : State) (mib : Nat) : Nat := cdiv (mib * 1048576) (max 1 (s.jnl.pagesPerBlock * s.jnl.page * 8192))

/-- The partition of the `i`-th good block. -/
def partOf (slots evid spare i : Nat) : Part :=
  if i < 8 then .sys
  else if i < 8 + slots then .slotA
  else if i < 8 + 2 * slots then .slotB
  else if i < 8 + 2 * slots + evid then .evidence
  else if i < 8 + 2 * slots + evid + spare then .spare
  else .ring

/-- The blocks of a list, each good one with its partition and erased. -/
def layout (slots evid spare : Nat) : Nat → List NandBlock → List NandBlock
  | _, [] => []
  | i, b :: l =>
    if b.bad then { b with part := .none, pages := [] } :: layout slots evid spare i l
    else { b.erased with part := partOf slots evid spare i } :: layout slots evid spare (i + 1) l

/-- FORMAT (R354).
(DEDUCED, unsafe: notes/assumptions/61.md.) -/
def State.format (s : State) : State :=
  let j := s.jnl
  let permitted := (s.ldr.service || !s.ldr.running) && j.present && inRange 64 512 j.slotMib && inRange 16 256 j.evidMib
  let good := j.blocks.countP fun b => !b.bad
  let slots := s.blocksFor j.slotMib
  let evid := s.blocksFor j.evidMib
  let spare := max 16 (cdiv good 50)
  if !permitted then s.event 0x9103 1
  else if good < 8 + 2 * slots + evid + spare + 64 then s.event 0x9103 2
  else
    let bs := layout slots evid spare 0 j.blocks
    let idx := fun (p : Part) => (upto bs.length).filter fun i => (bs.getD i NandBlock.blank).part == p
    { s with
      jnl := { j with
        blocks := bs, ring := idx .ring, evid := idx .evidence, head := none, headOpen := false, evidHead := none
        evidOpen := false, firstCopy := none, formatted := true, ready := true, stopped := false }
      ldr := { s.ldr with slotA := ⟨false, 0, [], []⟩, slotB := ⟨false, 0, [], []⟩, prefSlot := false } }

/-- RD_PAGE (R369): the page with the PAGE_SEQ of `JNL_RD_SEQ`, authenticated and decrypted. -/
def State.rdPage (s : State) : State :=
  let failed := fun (t : State) => ({ t with jnl := { t.jnl with rdOk := false, rdFail := true, buffer := [] } } : State)
  if s.jnl.ready then
    match s.jnl.pageAt (s.jnl.rdSeqLo + 2 ^ 32 * s.jnl.rdSeqHi) with
    | some (n, p) =>
      let s1 := s.modNblk n fun b => { b with reads := b.reads + 1 }
      if !s.epochPage p then failed s1
      else if s.authentic p then
        { s1 with jnl := { s1.jnl with rdOk := true, rdFail := false, buffer := p.data } }
      else failed (s1.tagFailure n p)
    | none => failed s
  else failed s

/-- CLEAR_FIRST_AREA (R345). -/
def State.clearFirst (s : State) : State :=
  ({ s with evr := { s.evr with first := [] }, jnl := { s.jnl with firstCopy := none } } : State).event 0xF101 0

/-- EVENT_RECORD: an event of class 0 at an engine's port or at its block's (R339, R341, R342). Codes below 0x100 are those
of faults. -/
def State.report (s : State) (engine : Option Nat) (code data : Nat) : State :=
  if code % 4096 < 0x100 then s
  else match engine with
    | some g => if code / 4096 = 4 then s.record (.engine g) code 0xFF .event data else s
    | none => s.event code data

end Sys2Proof.Machine
end

