-- ==== Sys2Proof/Machine/Time.lean ====
section
/-!
DEFINITION. Network time and verdict telegrams (spec/15_network_time.md): device time, the PTP ports and the choice of
the master, the servo, and the telegrams to the machine controller.
-/
namespace Sys2Proof.Machine

/-! ### Settings (R479) -/

/-- The TIME section of the running image. -/
def State.timeB (s : State) : List Byte := s.sec 0x0C
def State.ptpOn (s : State) : Bool := s.pwr.mainOn && bitAt (u8 s.timeB 0) 0
def State.ptpGptp (s : State) : Bool := bitAt (u8 s.timeB 0) 1
def State.ptpPeer (s : State) : Bool := bitAt (u8 s.timeB 0) 2
def State.ptpInitStep (s : State) : Bool := bitAt (u8 s.timeB 0) 3
/-- Port `m` takes part in PTP. -/
def State.ptpPort (s : State) (m : Nat) : Bool := s.ptpOn && bitAt (u8 s.timeB 2) m
def State.telPorts (s : State) : Nat := u8 s.timeB 3
def State.telMinGap (s : State) : Nat := u16 s.timeB 0x2C
def State.eth (s : State) (m : Nat) : EthPort := vget s.time.eth m EthPort.reset
def State.modEth (s : State) (m : Nat) (f : EthPort → EthPort) : State :=
  { s with time := { s.time with eth := vmod s.time.eth m f } }

/-- Timestamps are taken in software (R470). -/
def State.swTs (s : State) : Bool :=
  bitAt (u8 s.timeB 0) 4 || (s.eth 0).swTs || (s.eth 1).swTs

/-! ### Device time (R463 to R465) -/

/-- What device time gains per crystal cycle, 40 ns × (1 + r), in units of 2⁻³² ns.
(DEDUCED, unsafe: notes/assumptions/45.md.) -/
def State.timeInc (s : State) : Nat :=
  (40 * (1 + s.time.r / 1000000000) * 4294967296 : Rat).floor.toNat

/-- Device time as one number of 96 bits: nanoseconds and their 32-bit fraction. -/
def State.timeRaw (s : State) : Nat := s.time.now * 2 ^ 32 + s.time.frac

def State.setTimeRaw (s : State) (n : Nat) : State :=
  { s with time := { s.time with now := n / 2 ^ 32 % 2 ^ 64, frac := n % 2 ^ 32 } }

/-- Device time over a number of crystal cycles. -/
def State.advanceTime (s : State) (cycles : Nat) : State := s.setTimeRaw (s.timeRaw + cycles * s.timeInc)

/-- A step of device time by `o` ns (R464): counted, VALID set, event 0xB102. -/
def State.stepTime (s : State) (o : Int) : State :=
  ({ s with time := { s.time with
      now := ofInt 64 (s.time.now + o), set := true, f := 0, steps := satInc 65535 s.time.steps } } : State).event
    0xB102 (ofInt 64 o)

/-- The two copies of device time differ (R465): a UC fault from source 103, both copies reloaded from the intact one,
and VALID clear until the next step. The info code is not stated.
(DESIGN CHOICE, safe: notes/assumptions/25.md.)
(DEDUCED, unsafe: notes/assumptions/45.md.) -/
def State.timeMismatch (s : State) (intact : Nat) : State :=
  let s1 := s.freed.raise 103 .uc (s.free 65536)
  { s1.setTimeRaw (intact % 2 ^ 96) with time := { (s1.setTimeRaw (intact % 2 ^ 96)).time with set := false } }

/-! ### The servo (R471, R472) -/

/-- Event 0xB101 for entry to holdover or exit from it (R477). -/
def State.holdEvent (s : State) (entered loss : Bool) : State := s.event 0xB101 (b2n entered + b2n loss * 256)

/-- Holdover begins: r is held at f (R471). -/
def State.enterHoldover (s : State) (loss : Bool) : State :=
  let s1 : State := { s with time := { s.time with good := 0, r := s.time.f } }
  if s.time.holdover then s1
  else ({ s1 with time := { s1.time with holdover := true, holdLoss := loss } } : State).holdEvent true loss

/-- Holdover ends (R471, R472).
(DEDUCED, unsafe: notes/assumptions/45.md.) -/
def State.leaveHoldover (s : State) : State :=
  if s.time.holdover then ({ s with time := { s.time with holdover := false, good := 0 } } : State).holdEvent false s.time.holdLoss
  else s

/-- A rational held to ±200 ppm (R463, R471). -/
def clampPpm (x : Rat) : Rat := if x < -200000 then -200000 else if 200000 < x then 200000 else x

/-- The Sync interval of a logSyncInterval, in seconds. -/
def syncSeconds (l : Int) : Rat := if l < 0 then 1 / (2 ^ l.natAbs : Nat) else ((2 ^ l.natAbs : Nat) : Rat)

/-- An offset as the signed 32 bits of `TIME_OFFSET` and of event 0xB100. -/
def sat32 (o : Int) : Nat := ofInt 32 (clampI (-2147483648) 2147483647 o)

/-- A sample beyond JUMP_NS is refused (R471). -/
def State.refuseSample (s : State) (o : Int) : State :=
  (({ s with time := { s.time with jump := true, refused := satInc 65535 s.time.refused } } : State).event
    0xB100 (sat32 o)).enterHoldover false

/-- The servo's correction by an accepted sample (R471). -/
def State.servo (s : State) (o : Int) (t : Rat) : State :=
  let ki : Rat := u16 s.timeB 0x0E / 256
  let kp : Rat := u16 s.timeB 0x0C / 256
  let f := clampPpm (s.time.f + ki * o / t)
  { s with time := { s.time with f := f, r := clampPpm (f + kp * o / t) } }

/-- An accepted sample (R471): applied, or in holdover counted until HOLD_EXIT good ones.
(DEDUCED, unsafe: notes/assumptions/45.md.) -/
def State.acceptSample (s : State) (o : Int) (t : Rat) : State :=
  let s1 : State := { s with time := { s.time with samples := satInc 65535 s.time.samples } }
  if s.time.holdover ∧ s.time.good + 1 < u8 s.timeB 7 then { s1 with time := { s1.time with good := s.time.good + 1 } }
  else s1.leaveHoldover.servo o t

/-- A Sync sample on a port (R471): only the SLAVE port feeds the servo (R468), and a logSyncInterval outside −7 to +1
is ignored (R467).
(DESIGN CHOICE, unsafe: notes/assumptions/46.md.) -/
def State.ptpSync (s : State) (m : Nat) (x : SyncSample) : State :=
  if s.ptpPort m ∧ (s.eth m).link ∧ s.time.slave = m ∧ -7 ≤ x.logInterval ∧ x.logInterval ≤ 1 then
    let t := syncSeconds x.logInterval
    let s1 : State := { s with time := { s.time with
      offset := x.offset, sample := some (x.offset, s.beat, (t * 500000).floor.toNat) } }
    if s.time.set = false ∧ s.ptpInitStep ∧ (s.watch.wstate = .stopped ∨ s.ldr.service = true) then
      let s2 := s1.stepTime x.offset
      { s2 with time := { s2.time with samples := satInc 65535 s2.time.samples } }
    else if u32 s.timeB 8 < x.offset.natAbs then s1.refuseSample x.offset
    else s1.acceptSample x.offset t
  else s

/-- SYNC_LOSS Sync intervals without a sample on the SLAVE port start holdover (R471). -/
def State.syncLossDue (s : State) : State :=
  match s.time.sample with
  | some (_, b, iv) =>
    if s.ptpOn ∧ s.time.slave ≠ 3 ∧ s.time.holdover = false ∧ b + u8 s.timeB 6 * iv ≤ s.beat then s.enterHoldover true else s
  | none => s

/-- A write of 1 to `TIME_CTRL.STEP` (R472): the newest sample, no older than two Sync intervals, steps device time
while the watch is in STOPPED or the chip in SERVICE; otherwise ignored and recorded. -/
def State.timeStepWrite (s : State) : State :=
  match s.time.sample with
  | some (o, b, iv) =>
    if s.beat ≤ b + 2 * iv ∧ (s.watch.wstate = .stopped ∨ s.ldr.service = true) then (s.leaveHoldover).stepTime o
    else s.ignoredWrite 0x0D0004 1
  | none => s.ignoredWrite 0x0D0004 1

/-! ### Ports and masters (R466 to R470, R477) -/

/-- A list of numbers orders before another: the comparison of R468, lower better. -/
def lexBefore : List Nat → List Nat → Bool
  | [], [] => false
  | [], _ :: _ => true
  | _ :: _, [] => false
  | a :: as', b :: bs => decide (a < b) || (a == b && lexBefore as' bs)

/-- The comparison data of a port's best master, with its identity as the last member. -/
def masterKey (m : List Nat × Nat) : List Nat := m.1 ++ [m.2]

/-- The port that is to be SLAVE (R468): the one that receives the better master; 3 for none. -/
def State.ptpChoice (s : State) : Nat :=
  let best := fun m => if s.ptpPort m && (s.eth m).link then (s.eth m).best else none
  match best 0, best 1 with
  | none, none => 3
  | some _, none => 0
  | none, some _ => 1
  | some a, some b => if lexBefore (masterKey b) (masterKey a) then 1 else 0

/-- The clock identity of a port's best master. -/
def State.masterOf (s : State) (m : Nat) : Nat :=
  match (s.eth m).best with
  | some b => b.2
  | none => s.time.master

/-- PTP_STATE of a port (R482). -/
def State.ptpStateOf (s : State) (choice m : Nat) : Nat :=
  if s.ptpPort m then
    if (s.eth m).best.isNone then 1 else if choice = m then 2 else 3
  else 0

/-- The SLAVE port is chosen anew (R468); a change of it or of the master's identity is event 0xB103.
(DESIGN CHOICE, unsafe: notes/assumptions/46.md.) -/
def State.ptpSelect (s : State) : State :=
  let c := s.ptpChoice
  let id := s.masterOf c
  let s1 := (s.modEth 0 fun p => { p with ptpState := s.ptpStateOf c 0 }).modEth 1 fun p =>
    { p with ptpState := s.ptpStateOf c 1 }
  let s2 : State := { s1 with time := { s1.time with slave := c, master := id } }
  if c = s.time.slave ∧ id = s.time.master then s2 else s2.event 0xB103 id

/-- An Announce on a port (R468): the best master of the port is the better one heard, renewed by its own messages.
(DESIGN CHOICE, unsafe: notes/assumptions/46.md.) -/
def State.announce (s : State) (m : Nat) (a : Announce) : State :=
  if s.ptpPort m ∧ (s.eth m).link then
    let new : List Nat × Nat := (a.rank, a.identity)
    let keep := match (s.eth m).best with
      | some b => if b.2 = a.identity ∨ lexBefore (masterKey new) (masterKey b) then new else b
      | none => new
    (s.modEth m fun p => { p with best := some keep }).ptpSelect
  else s

/-- A Pdelay_Req is answered with Pdelay_Resp and Pdelay_Resp_Follow_Up (R467). -/
def State.pdelayAnswer (s : State) (m : Nat) : State :=
  if s.ptpPort m ∧ (s.eth m).link then s.modEth m fun p => { p with answered := p.answered + 1 } else s

/-- A Delay_Req or Pdelay_Req is sent (R467, R468): end-to-end only towards a master. -/
def State.delayAsk (s : State) (m : Nat) : State :=
  if s.ptpPort m ∧ (s.eth m).link ∧ (s.ptpPeer = true ∨ (s.eth m).best.isSome = true) then
    s.modEth m fun p => { p with sent := p.sent + 1, asked := some s.time.now }
  else s

/-- The response completes a measurement of the mean path delay (R467, R481). -/
def State.delayDone (s : State) (m pathDelay : Nat) (asCapable : Bool) : State :=
  if s.ptpPort m ∧ (s.eth m).asked.isSome then
    s.modEth m fun p => { p with pathDelay := pathDelay, asked := none, asCapable := s.ptpGptp && asCapable }
  else s

/-- A link goes up or down (R477): event 0xB104, LINK_DOWN, and a port that goes down loses its master.
(DESIGN CHOICE, unsafe: notes/assumptions/46.md.) -/
def State.linkChange (s : State) (m : Nat) (up : Bool) : State :=
  if s.pwr.mainOn ∧ (s.eth m).link ≠ up then
    let s1 := s.modEth m fun p =>
      if up then { p with link := true }
      else { p with link := false, err := p.err ||| 1, best := none, asked := none, asCapable := false }
    (s1.event 0xB104 (m + b2n up * 256)).ptpSelect
  else s

/-- The two timestamp lanes of a port disagree (R470): a UC fault from source 102, and software timestamps for the rest
of the power-on period. The code of its info is not stated. -/
def State.tsLaneMismatch (s : State) (m : Nat) : State :=
  if s.pwr.mainOn then
    (s.freed.raise 102 .uc (m * 256 + s.free 256)).modEth m fun p => { p with swTs := true, err := p.err ||| 2 }
  else s

/-- A PCS fault (R477). -/
def State.pcsFault (s : State) (m : Nat) : State :=
  if s.pwr.mainOn then (s.raise (100 + m) .uc (m * 256 + 3)).modEth m fun p => { p with err := p.err ||| 8 } else s

/-- A frame is discarded by the receive filter (R466); one with a wrong FCS also counts as such (R482).
(DESIGN CHOICE, unsafe: notes/assumptions/46.md.) -/
def State.frameDiscarded (s : State) (m : Nat) (fcs : Bool) : State :=
  if s.pwr.mainOn then
    s.modEth m fun p => { p with discarded := satInc 65535 p.discarded
                                 fcsErrs := if fcs then satInc 65535 p.fcsErrs else p.fcsErrs }
  else s

/-- The PTP ports when an image starts running: LISTENING where enabled, no master heard, no SLAVE port (R467, R468);
telegrams count from 0 (R476).
(DESIGN CHOICE, unsafe: notes/assumptions/46.md.) -/
def State.timeStart (s : State) : State :=
  let clear := fun (on : Bool) (p : EthPort) =>
    { p with ptpState := b2n on, best := none, asked := none, asCapable := false, pathDelay := 0 }
  let s1 := (s.modEth 0 (clear (s.ptpPort 0))).modEth 1 (clear (s.ptpPort 1))
  { s1 with time := { s1.time with slave := 3 }
            tel := { s1.tel with alive := 0, queue := [], lastChange := none, held := 0, lastSent := none } }

/-! ### Telegrams (R473 to R476) -/

/-- WSTATE and DOUBT of a verdict word (R28).
(DEDUCED, unsafe: notes/assumptions/47.md.) -/
def telKey (w : Nat) : Nat × Nat := (bits w 29 3, bits w 17 8)

/-- Telegrams are generated (R473). -/
def State.telActive (s : State) : Bool := s.pwr.mainOn && s.telPorts != 0

/-- The telegram of the present beat (R475). -/
def State.telegram (s : State) (ttype changes : Nat) : Telegram :=
  { ttype, alive := (s.tel.alive + 1) % 65536
    tflags := b2n s.time.set + 2 * b2n s.time.holdover + 4 * b2n s.swTs
    beat := s.beat, time := s.time.now, word := s.watch.verdict.toNat, prev := s.tel.prevWord, frame := s.sched.frame
    changes }

/-- A telegram is generated (R473, R476).
(DEDUCED, unsafe: notes/assumptions/47.md.) -/
def State.telGenerate (s : State) (ttype changes : Nat) : State :=
  { s with tel := { s.tel with
      alive := (s.tel.alive + 1) % 65536, queue := s.tel.queue ++ [s.telegram ttype changes]
      lastSent := some (telKey s.watch.verdict.toNat) } }

/-- The change telegram of the present beat, which covers the changes held in the gap (R474).
(DEDUCED, unsafe: notes/assumptions/47.md.) -/
def State.telChange (s : State) (changes : Nat) : State :=
  let s1 := s.telGenerate 2 changes
  { s1 with tel := { s1.tel with lastChange := some s.beat, held := 0 } }

/-- TEL_MIN_GAP beats have passed since the previous change telegram (R474). -/
def State.telGapOver (s : State) : Bool :=
  match s.tel.lastChange with
  | some b => decide (b + s.telMinGap ≤ s.beat)
  | none => true

/-- At the end of the gap, coalesced changes go out in one telegram if the word differs from the one last sent
(R474). -/
def State.telGapEndDue (s : State) : State :=
  if s.telActive ∧ s.tel.held ≠ 0 ∧ s.telGapOver then
    if s.tel.lastSent = some (telKey s.watch.verdict.toNat) then { s with tel := { s.tel with held := 0 } }
    else s.telChange s.tel.held
  else s

/-- The change telegram of a beat (R473, R474), after the beat's word is committed. -/
def State.telBeat (s : State) : State :=
  if s.telActive then
    if telKey s.watch.verdict.toNat = telKey s.tel.prevWord then s.telGapEndDue
    else ({ s with tel := { s.tel with held := s.tel.held + 1 } } : State).telGapEndDue
  else s

/-- The last telegram of the queue belongs to the present beat. -/
def State.telHere (s : State) : Bool := s.tel.queue.getLast?.any fun t => t.beat == s.beat

/-- The telegram of a frame tick (R473): a tick and a change in the same beat give one. -/
def State.telTick (s : State) : State :=
  if s.telActive then
    if s.telHere then
      { s with tel := { s.tel with
          queue := s.tel.queue.map fun t => if t.beat == s.beat then { t with ttype := t.ttype ||| 1 } else t } }
    else s.telGenerate 1 0
  else s

/-- The 46-byte payload of a telegram (R475). -/
def telBytes (telId : Nat) (t : Telegram) : List Byte :=
  let b := leBytes 1 t.ttype ++ leBytes 1 1 ++ leBytes 2 telId ++ leBytes 2 t.alive ++ leBytes 2 t.tflags ++
    leBytes 8 t.beat ++ leBytes 8 t.time ++ leBytes 4 t.word ++ leBytes 4 t.prev ++ leBytes 4 t.frame ++
    leBytes 4 t.changes
  b ++ leBytes 4 (crc32c b) ++ leBytes 2 0

/-- The MAC address of a port (R479). -/
def State.macAddr (s : State) (m : Nat) : List Byte := slice s.timeB (0x18 + 6 * m) 6

/-- The frame of a telegram on a port (R475): TEL_DEST, MAC_ADDR, EtherType 0x88B5, payload.
(DEDUCED, unsafe: notes/assumptions/47.md.) -/
def State.telFrame (s : State) (m : Nat) (t : Telegram) : List Byte :=
  slice s.timeB 0x24 6 ++ s.macAddr m ++ [0x88, 0xB5] ++ telBytes (u16 s.timeB 0x2A) t

/-- The oldest telegram leaves, or is dropped (R473, R476): per port of TEL_PORTS it is sent where the link is up, the
service core runs and the bound of 25 beats holds. -/
def State.telSend (s : State) (late : Bool) : State :=
  match s.tel.queue with
  | [] => s
  | t :: q =>
    let ok := fun m => !late && s.svcUp && (s.eth m).link && decide (s.beat ≤ t.beat + 25)
    let ports := (upto 2).filter fun m => bitAt s.telPorts m
    { s with tel := { s.tel with
        queue := q, out := (ports.filter ok).map fun m => (m, s.telFrame m t)
        dropped := satAdd 4095 s.tel.dropped (ports.filter fun m => !ok m).length } }

/-- Telegrams that could not leave within 25 beats of their word are dropped (R476).
(DEDUCED, unsafe: notes/assumptions/47.md.) -/
def State.telExpire (s : State) : State :=
  s.tel.queue.foldl (fun (t : State) (x : Telegram) => if x.beat + 25 < t.beat then t.telSend true else t) s

end Sys2Proof.Machine
end

