-- ==== Sys2Proof/Machine/Pair.lean ====
section
/-!
DEFINITION. Pair operation over Larkspur (spec/16_pair_operation.md R483 to R497): the link, the pairing of beats, the
conditions of D7, the stage watchdogs and the messages that this chip sends.
-/
namespace Sys2Proof.Machine

/-! ### Settings (R483) -/

def State.prB (s : State) : List Byte := s.sec 0x0F
def State.chip (s : State) : Nat := u8 s.prB 0
def State.pairId (s : State) : Nat := u64 s.prB 8
def State.structDigest (s : State) : List Byte := slice s.prB 0x10 32
def State.lossBeats (s : State) : Nat := u16 s.prB 0x30
def State.fieldGrace (s : State) : Nat := u16 s.prB 0x32
def State.clearPersist (s : State) : Nat := u32 s.prB 0x34
def State.stageOpen (s : State) (n : Nat) : Nat := u32 s.prB (0x40 + 8 * n)
def State.stageClose (s : State) (n : Nat) : Nat := u32 s.prB (0x44 + 8 * n)

/-! ### The link (R485, R494) -/

/-- A change of the link's state is event 0xE100.
(DEDUCED, unsafe: notes/assumptions/48.md.) -/
def State.linkTo (s : State) (st : Nat) : State :=
  if s.lk.state = st then s else ({ s with lk := { s.lk with state := st } } : State).event 0xE100 st

/-- The link falls to DOWN; nothing of the partner is kept. -/
def State.linkDown (s : State) : State :=
  ({ s with lk := { s.lk with lanes := 0, helloRun := 0, partner := [], skewBad := 0, fieldRun := 0, clearRun := 0, sent := [] } } : State).linkTo 0

/-- A UC fault of sources 104 to 106 takes the link to DOWN (R494).
(DEDUCED, unsafe: notes/assumptions/48.md.) -/
def State.linkFault (s : State) (src info : Nat) : State := (s.raise src .uc info).linkDown

/-- The pair link of the image that runs: training starts with it and again from DOWN (R485); without a pair image, or
with the main domain off, the link is DOWN. -/
def State.linkTrain (s : State) : State :=
  if s.pairImage && s.pwr.mainOn then (if s.lk.state = 0 then s.linkTo 1 else s)
  else if s.lk.state = 0 then s else s.linkDown

/-- Training completes (R485). -/
def State.linkTrained (s : State) : State :=
  if s.pairImage ∧ s.lk.state = 1 then
    ({ s with lk := { s.lk with lanes := 0xF, helloRun := 0, mismatched := false } } : State).linkTo 2
  else s

/-- A lane loses lock (R485, R494): a UC fault from source 104 while ALIGNED; in HELLO the link falls to DOWN. -/
def State.laneLost (s : State) (lane : Nat) : State :=
  if s.lk.state = 3 then s.linkFault 104 (lane * 256 + 1)
  else if s.lk.state = 2 then s.linkDown
  else s

/-- A message whose CRC fails is discarded and counted (R487). -/
def State.linkCrcFail (s : State) : State :=
  { s with lk := { s.lk with
      crcErrs := satInc 65535 s.lk.crcErrs
      crcBeats := s.beat :: s.lk.crcBeats.filter fun b => decide (s.beat < b + 500000) } }

/-- More than 16 CRC failures within 500,000 beats (R487). -/
def State.linkCrcRateDue (s : State) : State :=
  if (s.lk.crcBeats.filter fun b => decide (s.beat < b + 500000)).length > 16 then
    ({ s with lk := { s.lk with crcBeats := [] } } : State).linkFault 105 0xF01
  else s

/-! ### HELLO and beat messages (R486 to R488) -/

/-- The code of a HELLO mismatch (R494); 0 for a match. -/
def State.helloCode (s : State) (m : HelloMsg) : Nat :=
  if m.pairId ≠ s.pairId then 1
  else if m.digest ≠ s.structDigest then 2
  else if m.chip = s.chip ∨ 1 < m.chip then 3
  else 0

/-- Entry to ALIGNED (R488): Δ, φ0 and L latched, events 0xE100 and 0xE101. -/
def State.align (s : State) (m : HelloMsg) : State :=
  let delta : Int := (s.beat : Int) - m.beat
  let s1 : State := { s with lk := { s.lk with
    delta := delta, phi0 := m.phase, latency := m.roundTrip / 2, skew := 0, skewBad := 0, partner := [], msgBeat := s.beat
    aligns := satInc 65535 s.lk.aligns } }
  (s1.linkTo 3).event 0xE101 (ofInt 48 delta + ofInt 16 m.phase * 2 ^ 48)

/-- A HELLO message in HELLO (R486): 16 consecutive matches and a latency of at most 500 ns enter ALIGNED; the first
mismatch after a match is a UC fault from source 107. -/
def State.hello (s : State) (m : HelloMsg) : State :=
  if s.lk.state = 2 then
    if m.crcOk then
      let code := s.helloCode m
      if code = 0 then
        let s1 : State := { s with lk := { s.lk with
          helloRun := s.lk.helloRun + 1, mismatched := false, latency := m.roundTrip / 2 } }
        if 16 ≤ s1.lk.helloRun ∧ m.roundTrip ≤ 1000 then s1.align m else s1
      else
        let s1 : State := { s with lk := { s.lk with helloRun := 0, mismatched := true } }
        if s.lk.mismatched then s1 else s1.raise 107 .uc (0xF00 + code)
    else s.linkCrcFail
  else s

/-- A partner beat message while ALIGNED (R487, R488): paired, and its skew measured; a skew outside ±100 ns on 2
consecutive messages is a UC fault from source 106. -/
def State.beatMsg (s : State) (m : BeatMsg) : State :=
  if s.lk.state = 3 then
    if m.crcOk then
      let skew := m.phase - s.lk.phi0
      let bad := if 100 < skew.natAbs then s.lk.skewBad + 1 else 0
      let pm : PartnerMsg := ⟨s.beat, m.stage.toNat, m.ownDoubt.toNat, m.verdict.toNat, m.beat⟩
      let s1 : State := { s with lk := { s.lk with
        partner := (pm :: s.lk.partner).take 4, msgBeat := s.beat, latency := m.roundTrip / 2, skew := skew
        skewMax := max s.lk.skewMax skew.natAbs, skewBad := bad } }
      if 2 ≤ bad then s1.linkFault 106 0xF01 else s1
    else s.linkCrcFail
  else s

/-- The partner message paired with the present beat o: that of partner beat o − Δ, or the last one before it
(R488).
(DEDUCED, unsafe: notes/assumptions/48.md.) -/
def State.paired (s : State) : Option PartnerMsg :=
  if s.lk.state = 3 then s.lk.partner.find? fun m => decide ((m.beat : Int) ≤ (s.beat : Int) - s.lk.delta) else none

/-- A partner frame summary while ALIGNED (R489 code 0x08, R491, R493). -/
def State.frameSummary (s : State) (m : SummaryMsg) : State :=
  if s.lk.state = 3 then
    if m.crcOk then
      let run := match s.lk.summary with
        | some (_, _, _, h) => if h = m.hash then 0 else s.lk.hashRun + 1
        | none => s.lk.hashRun
      { s with lk := { s.lk with partnerCMax := m.cMax, hashRun := run, summaryIn := true } }
    else s.linkCrcFail
  else s

/-! ### Stage watchdogs (R493) -/

def State.stage (s : State) (n : Nat) : StageState := vget s.lk.stages n StageState.reset
def State.modStage (s : State) (n : Nat) (f : StageState → StageState) : State :=
  { s with lk := { s.lk with stages := vmod s.lk.stages n f } }

/-- The event of a stage has come in this frame.
(DEDUCED, unsafe: notes/assumptions/48.md.) -/
def State.stageHappened (s : State) (n : Nat) : Bool :=
  match n with
  | 0 => s.capturesDone
  | 1 => s.mandatory.all fun g => (s.run g).ready && s.runOver g
  | 2 => s.fusesDone
  | _ => s.lk.summaryIn

/-- The stage watchdogs count (R493). -/
def State.stagesRun (s : State) : Bool := s.pairImage && s.sched.origin.isSome

/-- A violation: 0x01 early, 0x04 missing; event 0xE103. -/
def State.stageViolation (s : State) (n code : Nat) : State :=
  let s1 := s.modStage n fun x => { x with judged := true, viol := true }
  ({ s1 with lk := { s1.lk with lastStage := n, lastCode := code } } : State).event 0xE103 (n + code * 256)

/-- The event of a stage is judged at its offset from the tick. -/
def State.stageEventDue (s : State) (n : Nat) : State :=
  if s.stagesRun && !(s.stage n).judged && s.stageHappened n && decide (s.sched.frameBeat < s.stageClose n) then
    if s.sched.frameBeat < s.stageOpen n then s.stageViolation n 1
    else s.modStage n fun x => { x with judged := true, met := true }
  else s

/-- No event by CLOSE, judged at the end of beat tick + CLOSE − 1. -/
def State.stageMissingDue (s : State) (n : Nat) : State :=
  if s.stagesRun && !(s.stage n).judged && decide (s.stageClose n ≤ s.sched.frameBeat + 1) then s.stageViolation n 4 else s

/-- The stages at the end of a beat: events first, then what is missing. -/
def State.stagesSettle (s : State) : State :=
  let s1 := (upto 4).foldl (fun (t : State) n => t.stageEventDue n) s
  (upto 4).foldl (fun (t : State) n => t.stageMissingDue n) s1

/-- At a frame tick a new frame of the stages begins; a flag is released by a frame whose event fell inside its
window. -/
def State.stagesTick (s : State) : State :=
  { s with lk := { s.lk with
      stages := vmap (fun x => ⟨false, false, x.viol && !x.met⟩) s.lk.stages
      summaryIn := false, sumC := s.lk.cMax, sumRule := s.lk.ruleBeats, cMax := 0, ruleBeats := 0 } }

/-! ### D7 (R489, R490) -/

def State.fieldOf (w : Nat) : Nat := bits w 13 4
def State.stateOf (w : Nat) : Nat := bits w 29 3

/-- FIELD differs between the chips, both in ARMING or TRUST (R489, 0x06). -/
def State.fieldDiffers (s : State) : Bool :=
  match s.paired with
  | some m =>
    let w := s.watch.verdict.toNat
    let live := fun x => State.stateOf x == 1 || State.stateOf x == 2
    live w && live m.verdict && State.fieldOf w != State.fieldOf m.verdict
  | none => false

/-- Own FIELD_CLEAR is 1 and the partner's 0, with the chips agreeing on FIELD (R489, 0x07). -/
def State.clearDiffers (s : State) : Bool :=
  match s.paired with
  | some m =>
    let w := s.watch.verdict.toNat
    bitAt w 12 && !bitAt m.verdict 12 && State.fieldOf w == State.fieldOf m.verdict
  | none => false

/-- No valid beat message for LOSS_BEATS consecutive own beats (R489, 0x02). -/
def State.messagesLost (s : State) : Bool := decide (s.lk.msgBeat + s.lossBeats ≤ s.beat)

/-- The conditions of R489 that hold, as a mask with bit n for code n; the runs of 0x06 and 0x07 include the present
beat.
(DEDUCED, unsafe: notes/assumptions/48.md.) -/
def State.pairConditions (s : State) (fieldRun clearRun : Nat) : Nat :=
  let own := State.stateOf s.watch.verdict.toNat
  let pw := s.paired.map fun m => State.stateOf m.verdict
  let c4 := (own == 1 || own == 2 || own == 3) && pw.any fun w => w == 0 || w == 4 || w == 5 || w == 6
  let c5 := s.paired.any fun m => m.ownDoubt != 0
  ofBits [false, s.lk.state != 3, s.messagesLost, false, c4, c5, decide (fieldRun > s.frameBeats + s.fieldGrace),
    decide (clearRun ≥ s.clearPersist), decide (s.lk.hashRun ≥ 2), (s.stage 3).viol]

/-- The judgment of D7 at the end of a beat (R489, R490): conditions that begin are event 0xE102 and CAUSE; any that
holds raises D7; with none, D7 clears once a frame that began after the last condition has ended with its verdict stage
met. -/
def State.pairJudge (s : State) : State :=
  if s.pairImage then
    let fr := if s.fieldDiffers then s.lk.fieldRun + 1 else 0
    let cr := if s.clearDiffers then s.lk.clearRun + 1 else 0
    let conds := s.pairConditions fr cr
    let began := (upto 10).filter fun n => bitAt conds n && !bitAt s.lk.condCode n
    let s1 : State := { s with lk := { s.lk with fieldRun := fr, clearRun := cr, condCode := conds } }
    let s1 := began.foldl (fun (t : State) n =>
      ({ t with lk := { t.lk with cause := n } } : State).event 0xE102 n) s1
    if conds ≠ 0 then
      ({ s1 with lk := { s1.lk with condBeat := some s.beat, cleanMet := false } } : State).addDoubt 7
    else
      let began := s.beat - s.sched.frameBeat
      let after := match s.lk.condBeat with
        | some b => decide (b < began)
        | none => true
      let met := s.lk.cleanMet || ((s.stage 3).met && after && decide (s.sched.frameBeat + 1 = s.frameBeats))
      let s1 : State := { s1 with lk := { s1.lk with cleanMet := met } }
      if met then s1.addClear 7 else s1
  else s

/-- The loss of the partner's messages raises D7 (R489, 0x02). -/
def State.partnerLoss (s : State) : State :=
  if s.pairImage && s.messagesLost then s.addDoubt 7 else s

/-- The doubt flags that a stage in violation holds (R493): D5 for stages 0 and 1, D1 for stage 2; D7 follows by
condition 0x09.
(DEDUCED, unsafe: notes/assumptions/48.md.) -/
def State.stageDoubts (s : State) : State :=
  let s1 := if (s.stage 0).viol || (s.stage 1).viol then s.addDoubt 5 else s
  if (s.stage 2).viol then s1.addDoubt 1 else s1

/-! ### What this chip sends (R487, R491) -/

/-- FIELD_HASH (R491): FIELD_SET, FIELD, the band in use and the seven profile values.
(DEDUCED, unsafe: notes/assumptions/48.md.) -/
def State.fieldHash (s : State) : List Byte :=
  let flr := s.governing.2
  let v := s.ldr.vals
  Config.shake256 (leBytes 1 (b2n flr) ++ leBytes 1 (State.fieldOf s.watch.verdict.toNat) ++
    leBytes 1 (if flr then s.ev.floorBand else s.ev.band) ++
    [v.trustCode, v.floorCode, v.speedTable, v.retrustFrames, v.fieldSet, v.discIndex, v.ss1Index].flatMap (leBytes 1)) 8

/-- The summary of the frame just closed, sent at the tick (R487, R491). -/
def State.summarySend (s : State) : State :=
  if s.pairImage then
    { s with lk := { s.lk with summary := some (s.sched.frame - 1, s.lk.sumC, s.lk.sumRule, s.fieldHash) } }
  else s

/-- Highest C and cell-rule beats of the frame (R487). -/
def State.pairCount (s : State) : State :=
  if s.pairImage then
    { s with lk := { s.lk with cMax := max s.lk.cMax s.ev.c, ruleBeats := s.lk.ruleBeats + b2n s.ev.cellRule } }
  else s

/-- A message body with its CRC-32C (R487). -/
def withCrc (b : List Byte) : List Byte := b ++ leBytes 4 (crc32c b)

/-- BEAT, ECHO_BEAT and HOLD of a message (R487). HOLD counts crystal cycles, which no row gives: a free value. -/
def State.echoBeat (s : State) : Nat := (s.lk.partner.head?).elim 0 fun m => m.beat

/-- The beat or HELLO message that this chip sends for the present beat (R486, R487). -/
def State.pairSend (s : State) : State :=
  let met := ofBits ((upto 4).map fun n => (s.stage n).met)
  let viol := ofBits ((upto 4).map fun n => (s.stage n).viol)
  if s.lk.state = 3 then
    let b := leBytes 1 1 ++ leBytes 1 s.chip ++ leBytes 1 (met + 16 * viol) ++ leBytes 1 (s.watch.doubt.toNat % 128) ++
      leBytes 4 s.watch.verdict.toNat ++ leBytes 8 s.beat ++ leBytes 6 s.echoBeat ++ leBytes 2 (s.free 65536) ++
      List.replicate 36 0
    { s.freed with lk := { s.lk with sent := withCrc b } }
  else if s.lk.state = 2 then
    let b := leBytes 1 3 ++ leBytes 1 s.chip ++ List.replicate 6 0 ++ leBytes 8 s.pairId ++ s.structDigest ++
      leBytes 8 s.beat ++ leBytes 4 s.echoBeat
    { s with lk := { s.lk with sent := withCrc b } }
  else s

end Sys2Proof.Machine
end

