-- ==== Sys2Proof/Machine/Loader.lean ====
section
/-!
DEFINITION. The image loader (spec/11_reneb_image.md R381 to R394): the checks of a candidate, the start and the end of a
load, transfers to a slot, activation and the anti-rollback counter, profiles and SERVICE; BULK transfer (spec/07 R253).
-/
namespace Sys2Proof.Machine

/-! ### The checks of a candidate (R381, steps 2 to 8) -/

/-- Step 7: the contents of every section, in ID order.
(DEDUCED, unsafe: notes/assumptions/58.md.) -/
def contentsCheck (l : List Section) (develop : Bool) (perPage : Nat) : Option Refused :=
  firstOf [structureCheck l develop, planCheck l, graphsCheck l, weightsCheck l, camerasCheck l, gridCheck l, safetyCheck l,
    watchdogCheck l, recorderCheck l perPage, powerCheck l, timeCheck l, crocusCheck l, altCheck l, pairCheck l, profilesCheck l]

/-- Step 5: ROLLBACK against the OTP counter. -/
def State.rollbackCheck (s : State) (l : List Section) : Option Refused :=
  refuseIf (decide (u64 (secOf l 1) 0x10 < s.ldr.otpCtr)) 9 1 0

/-- The cores of `CORES_RETIRED`. -/
def State.retiredCores (s : State) : List Nat := (upto 32).filter fun n => (s.core n).retired

/-- Step 8: the fit, on the alternate placement where a core is retired (R155). -/
def State.fitStep (s : State) (l : List Section) : Except Refused (Option Nat) :=
  match retiredEntry l s.retiredCores with
  | .error r => .error r
  | .ok e =>
    match fitCheck l e with
    | some r => .error r
    | none => .ok e

/-- What passes a load: the image and the alternate entry it is placed with. -/
structure Passed where
  image : Image
  entry : Option Nat
  deriving DecidableEq, Repr

/-- Steps 2 to 8 on the bytes of a candidate; a bad read is an uncorrectable NAND read of step 3. -/
def State.candidate (s : State) (b : List Byte) (badRead : Bool) : Except Refused Passed :=
  match s.headerCheck b with
  | some r => .error r
  | none =>
    if badRead then .error ⟨0x0B, 0, 0, 0, 0, 0⟩
    else match frameImage b with
      | .error r => .error r
      | .ok l =>
        match firstOf [s.signatureCheck b (secOf l 0xFF), s.rollbackCheck l, runtimeCheck (secOf l 0x10),
                       contentsCheck l (s.lc.bootState == 1) s.perPage] with
        | some r => .error r
        | none =>
          match s.fitStep l with
          | .error r => .error r
          | .ok e => .ok ⟨⟨l, digestOf b⟩, e⟩

/-- A slot, and whether it is marked valid in SYS (R381, step 1). -/
def State.slot (s : State) (b : Bool) : Slot := if b then s.ldr.slotB else s.ldr.slotA
def State.setSlot (s : State) (b : Bool) (x : Slot) : State :=
  { s with ldr := if b then { s.ldr with slotB := x } else { s.ldr with slotA := x } }
def State.slotValid (s : State) (b : Bool) : Bool := s.jnl.ready && (s.slot b).valid

/-- The load of a slot: steps 1 to 9. -/
def State.trySlot (s : State) (b : Bool) (l : LoadIn) : Except Refused Passed :=
  if s.slotValid b then
    match s.candidate (s.slot b).bytes (if b then l.badB else l.badA) with
    | .error r => .error r
    | .ok p => if l.badPlace then .error ⟨0x0B, 0, 0, 0, 0, 0⟩ else .ok p
  else .error ⟨1, 0, 0, 0, 0, 0⟩

/-- The result register of a slot (R397). -/
def State.setResult (s : State) (b : Bool) (r : Nat × Nat) : State :=
  { s with ldr := if b then { s.ldr with resultB := r } else { s.ldr with resultA := r } }

/-- A refusal of a slot, with its details (R156, R382). -/
def State.noteRefusal (s : State) (b : Bool) (r : Refused) : State :=
  let s1 := s.setResult b (r.code, r.sect)
  { s1 with ldr := { s1.ldr with detail := r } }

/-- Event 0xC101 (R394). -/
def State.slotRefused (s : State) (b : Bool) (r : Refused) : State :=
  (s.noteRefusal b r).event 0xC101 (b2n b + 256 * r.code + 2 ^ 16 * r.sect + 2 ^ 32 * r.index)

/-! ### Start of a load (R193, R216, R321, R322, R381) -/

/-- Engine and core SRAM, both grid planes and the floor region are cleared (R381). -/
def State.clearMemories (s : State) : State :=
  { s with
    engs := vmap (fun e => { EngState.reset with ceLocal := e.ceLocal }) s.engs
    cores := vmap (fun (c : CoreState) => { c with seq := [], classes := 0, sram := [] }) s.cores
    grid := { GridState.reset with err := s.grid.err, addrPlane := s.grid.addrPlane, addrRow := s.grid.addrRow, addrCol := s.grid.addrCol }
    flr := { FloorState.reset with f0Ok := s.flr.f0Ok, f1Ok := s.flr.f1Ok, f0Lost := s.flr.f0Lost, f1Lost := s.flr.f1Lost }
    ev := EvalState.reset }

/-- The boot watchdog configuration applies (R321, R322): the image period in progress ends without judgment.
(DEDUCED, unsafe: notes/assumptions/13.md.) -/
def State.bootWatchdogs (s : State) : State :=
  { s with wd := { s.wd with
      tasks := vmap (fun (t : TaskWd) => { TaskWd.default with faulted := t.faulted }) s.wd.tasks
      svc := { s.wd.svc with off := none, checked := false, noJudge := true }
      hb := vmap (fun (h : HbMon) => { h with alive := false, persist := false }) s.wd.hb } }

/-- A load begins: ticks and FSYNC stop, no image runs, the boot watchdog configuration applies from here (the image
period in progress ends without judgment), memories are cleared, speed is invalid until SPEED_WIN beats after the next
tick origin (R277). -/
def State.loadStart (s : State) : State :=
  let boot := s.keptImg.isSome
  let s0 := s.clearMemories
  let s1 := if boot then s0.bootWatchdogs else s0
  { s1 with
    ldr := { s1.ldr with running := false, loading := true, service := false, resultA := (0, 0), resultB := (0, 0) }
    sched := { SchedState.reset with fsync := vrep 4 false }
    enc := { s1.enc with validFrom := none }
    golden := { s1.golden with done := 0 }
    st := { s1.st with slices := [] } }

/-! ### Placement (R381, step 9) -/

/-- One constant written to a place. -/
def State.placeConst (s : State) (core t : Nat) (g : Nat) (bs : List Byte) : State :=
  let b := s.graB
  if tLoc b g t = 0 then s.modEng (4 * core + tEngine b g t) fun e => { e with sram := e.sram.writeN (tOffset b g t) bs }
  else if tLoc b g t = 1 then s.modCore core fun c => { c with sram := c.sram.writeN (tOffset b g t) bs }
  else s

/-- The data of a constant (R131, R377).
(DESIGN CHOICE, unsafe: notes/assumptions/64.md.) -/
def State.constData (s : State) (g t : Nat) : List Byte :=
  slice (s.sec 5) (tWeight s.graB g t) (formatBytes (tFormat s.graB g t) (tElems s.graB g t))

/-- The constants of a graph. -/
def constTensors (b : List Byte) (g : Nat) : List Nat := (upto (gTensors b g)).filter (tConst b g)

/-- The constants in engine and core SRAM of every copy. -/
def State.placeSram (s : State) (entry : Option Nat) : State :=
  (placedCopies s.strB s.graB s.altB entry).foldl (fun (t : State) p =>
    (constTensors t.graB p.graph).foldl (fun (u : State) k =>
      u.placeConst (p.cores.getD (tCore u.graB p.graph k) 0) k p.graph (u.constData p.graph k)) t) s

/-- An address lies in the private region of some copy. -/
def State.inPrivate (s : State) (a : Nat) : Bool :=
  (upto (graphCount s.graB)).any fun g => (upto (gCopies s.graB g)).any fun c =>
    let base := Config.gddrBase g c
    decide (base ≤ a ∧ a < base + gGddrBytes s.graB g)

/-- The GDDR6 regions that the image allocates are zeroed, then its constants written (R133, R381). -/
def State.placeGddr (s : State) : State :=
  let clear : State := { s with
    gddrMem := s.gddrMem.filter fun x => !s.inPrivate x.1
    poison := s.poison.filter fun u => !s.inPrivate (32 * u) }
  (upto (graphCount s.graB)).foldl (fun (t : State) g =>
    (upto (gCopies t.graB g)).foldl (fun (u : State) c =>
      ((constTensors u.graB g).filter fun k => tLoc u.graB g k == 2).foldl (fun (v : State) k =>
        { v with gddrMem := v.gddrMem.writeN (Config.gddrBase g c + tStart v.graB g k) (v.constData g k) }) u) t) clear

/-! ### End of a load (R193, R382, R386, R400) -/

/-- DEFAULT_PROFILE, or another profile, with the values of its record (R386, R387). -/
def State.useProfile (s : State) (k : Nat) : State :=
  let v := profileValue (s.sec 0x11) (s.sec 8) k
  { s with ldr := { s.ldr with
      profile := k, modified := 0
      vals := ⟨v 0, v 1, v 2, v 3, v 4, v 5, v 6⟩ } }

/-- The streams at the start of an image; sticky flags and counters stay.
(DEDUCED, unsafe: notes/assumptions/51.md.)
(DEDUCED, unsafe: notes/assumptions/53.md.) -/
def State.streamsStart (s : State) : State :=
  { s with io := { s.io with
      ports := vmap (fun (p : PortState) => { p with openVcs := [], fwdStopped := false, out := [] }) s.io.ports
      ctx := vmap (fun (c : CtxState) => { CtxState.reset with err := c.err, badFrames := c.badFrames }) s.io.ctx
      cams := vrep 64 { ClaimCam.reset with ref := s.beat }
      claims := vmap (fun (c : ClaimStream) => { c with overAge := false, fresh := true }) s.io.claims
      crocus := vmap (fun (c : CrocusState) => { CrocusState.reset with
        wrong := c.wrong, late := c.late, hashFail := c.hashFail, aborted := c.aborted, injected := c.injected }) s.io.crocus
      v := { s.io.v with next := (s.beat + 1 + 63) / 64, words := [] }
      claimFail := false } }

/-- The monitors and the offsets at the tick origin: heartbeats LOST (R324), the boot period ends without judgment
(R321). -/
def State.watchdogsStart (s : State) : State :=
  { s with wd := { s.wd with
      tasks := vmap (fun (t : TaskWd) => { TaskWd.default with faulted := t.faulted }) s.wd.tasks
      svc := { s.wd.svc with off := none, checked := false, noJudge := true }
      hb := vmap (fun (h : HbMon) => { h with alive := false, persist := false, run := 0, lastEdge := none, lostSince := s.beat + 1 }) s.wd.hb } }

/-- The placement that the image runs with: an alternate one for a retired core that held work (R155, R182). -/
def State.useEntry (s : State) (entry : Option Nat) : State :=
  match entry with
  | some o =>
    let on := !altEmpty s.altB o
    { s with
      sched := { s.sched with set := if on then altSet s.altB o else 0 }
      alt := { s.alt with active := on, lostCore := altCore s.altB o, switching := false, due := none, copying := [] } }
  | none => { s with alt := { s.alt with active := false, switching := false, due := none, copying := [] } }

/-- Coverage starts anew with the image: no interval of R409 has begun. -/
def State.coverageStart (s : State) : State :=
  { s with st := { s.st with cores := vrep 32 TestCov.reset, links := vrep 76 TestCov.reset, slices := [], lbistCore := 0, nextLink := 0 } }

/-- Start-up is over (R400, step 10): the beat of STOPPED is the next one (R418). -/
def State.startUpOver (s : State) : State :=
  if s.st.running then
    { s with st := { s.st with running := false, outcome := 1, step := 10, stoppedBeat := (s.beat + 1) % 2 ^ 32 } }
  else s

/-- The load ends: `LDR_STATUS.LOADING` clears, the LOADER interrupt names the slot tried last and its code (R510, R511). -/
def State.loadEnd (s : State) (b : Bool) (code : Nat) : State :=
  (({ s with ldr := { s.ldr with loading := false } } : State).startUpOver).irqSet irqLoader
    [BitVec.ofNat 8 (b2n b), BitVec.ofNat 8 code]

/-- Steps 9 and 10: the image is placed and runs; the tick origin is the next beat (R193). -/
def State.loadPass (s : State) (b fallback : Bool) (p : Passed) : State :=
  let boot := s.st.running && !s.pwr.waking
  let o := s.beat + 1
  let s1 : State := { s with
    ldr := { s.ldr with
      image := some p.image, running := true, service := false, fallback := fallback, runSlot := b
      keySlot := u8 (p.image.sec 0xFF) 0 }
    lk := { LkState.reset with
      lastStage := s.lk.lastStage, lastCode := s.lk.lastCode, skewMax := s.lk.skewMax, crcErrs := s.lk.crcErrs, aligns := s.lk.aligns }
    pwr := { s.pwr with waking := false } }
  let s2 := ((s1.useEntry p.entry).placeSram p.entry).placeGddr
  let s3 : State := { s2 with
    sched := { s2.sched with origin := some o, staticEff := (staticUj s2.powB * 1000 : Nat) }
    enc := { s2.enc with validFrom := some (o + s2.speedWin) }
    ctrl := if boot then { s2.ctrl with split := ctrlMode s2.strB == 1 } else s2.ctrl }
  let s4 := ((((s3.useProfile (u8 (s3.sec 0x11) 1)).streamsStart).watchdogsStart).coverageStart).timeStart
  (s4.event 0xC100 (b2n b + 2 * b2n fallback + 2 ^ 32 * u32 p.image.digest 0)).loadEnd b 0

/-- Both slots are refused: no image runs and the chip is in SERVICE (R382). -/
def State.loadFail (s : State) (b : Bool) (code : Nat) : State :=
  ({ s with ldr := { s.ldr with service := true }, pwr := { s.pwr with waking := false } } : State).loadEnd b code

/-- IMAGE_LOAD (R381, R382): the preferred slot, then the other one if it is marked valid. A HALT snapshot that is still
due is taken first (R349). A fatal fault in force keeps the load from ending (R393, R415).
(DEDUCED, safe: notes/assumptions/9.md.)
(DEDUCED, unsafe: notes/assumptions/59.md.) -/
def State.imageLoad (s : State) (l : LoadIn) : State :=
  if s.ldr.loading && s.svcUp && !s.ftActive then
    let s0 := s.haltSnapshot
    let b := s0.ldr.prefSlot
    match s0.trySlot b l with
    | .ok p => s0.loadPass b false p
    | .error r =>
      let s1 := s0.slotRefused b r
      if s1.slotValid (!b) then
        match s1.trySlot (!b) l with
        | .ok p => s1.loadPass (!b) true p
        | .error q => (s1.slotRefused (!b) q).loadFail (!b) q.code
      else s1.loadFail b r.code
  else s

/-! ### Transfers (R391, R392) -/

/-- Writes of loader registers outside SERVICE are ignored and recorded (R390). -/
def State.inService (s : State) : Bool := s.ldr.service && !s.ldr.loading && s.pwr.mainOn

def ldrCtrlAddr : Nat := 0x0E0004

/-- An abort leaves the target slot as it was (R391). -/
def State.abortTransfer (s : State) : State :=
  if s.ldr.xferOpen then
    ({ s with ldr := { s.ldr with xferOpen := false, aborted := true, received := [] } } : State).event 0xC102 2
  else s

/-- OPEN: the slot that is not running, or without an image the slot that is not preferred.
(DEDUCED, unsafe: notes/assumptions/59.md.) -/
def State.ldrOpen (s : State) : State :=
  if !s.inService then s.ignoredWrite ldrCtrlAddr 1
  else if s.ldr.xferOpen || s.ldr.busy then s
  else
    ({ s with
      ldr := { s.ldr with xferOpen := true, received := [], stagedRefusal := none
                          target := if s.ldr.running then !s.ldr.runSlot else !s.ldr.prefSlot }
      io := { s.io with bulk := { s.io.bulk with seq := 0 } } } : State).event 0xC102 0

/-- Image bytes arrive; data beyond `LDR_LENGTH` aborts the transfer and sets OVERRUN. -/
def State.imageBytes (s : State) (bs : List Byte) : State :=
  if s.ldr.length < s.ldr.received.length + bs.length then
    ({ s with ldr := { s.ldr with overrun := true } } : State).abortTransfer
  else { s with ldr := { s.ldr with received := s.ldr.received ++ bs } }

/-- A private write to `LDR_WDATA` of 1 to 4,096 bytes (R391).
(DEDUCED, unsafe: notes/assumptions/59.md.) -/
def State.wdata (s : State) (bs : List Byte) : State :=
  if !s.inService then s.ignoredWrite 0x0E0010 1
  else if !s.ldr.xferOpen || s.ldr.srcBulk || bs.isEmpty || decide (4096 < bs.length) then s.ignoredWrite 0x0E0010 3
  else s.imageBytes bs

/-- CLOSE: a length that differs aborts the transfer; otherwise the staged copy is judged (R391). It is refused while the
spare pool is exhausted (R355, R392).
(DEDUCED, unsafe: notes/assumptions/59.md.) -/
def State.ldrClose (s : State) : State :=
  if !s.inService then s.ignoredWrite ldrCtrlAddr 1
  else if !s.ldr.xferOpen || s.jnl.stopped then s
  else if s.ldr.received.length ≠ s.ldr.length then s.abortTransfer
  else
    let r := match s.candidate s.ldr.received false with
      | .error r => some r
      | .ok _ => none
    { s with ldr := { s.ldr with xferOpen := false, busy := true, stagedRefusal := r } }

/-- BUSY clears with a result for the target slot (R391, R394, R510).
(DEDUCED, unsafe: notes/assumptions/59.md.) -/
def State.transferDone (s : State) (kind : Nat) (r : Option Refused) : State :=
  let b := s.ldr.target
  let code := r.elim 0 (·.code)
  let s1 := match r with
    | some x => s.noteRefusal b x
    | none => s.setResult b (0, 0)
  (({ s1 with ldr := { s1.ldr with busy := false, received := [], stagedRefusal := none } } : State).event 0xC102
    (kind + 256 * code)).irqSet irqLoader [BitVec.ofNat 8 (b2n b), BitVec.ofNat 8 code]

/-- STAGED_IMAGE_VERIFIED (R391, R392): the slot is written only if the staged copy passes, and valid only if it reads
back. -/
def State.stagedVerified (s : State) (readBackOk : Bool) : State :=
  if s.ldr.busy && s.svcUp then
    match s.ldr.stagedRefusal with
    | some r => s.transferDone 3 (some r)
    | none =>
      let b := s.ldr.received
      if readBackOk && s.jnl.ready && !s.jnl.stopped then
        (s.setSlot s.ldr.target ⟨true, u64 b 0x20, digestOf b, b⟩).transferDone 1 none
      else (s.setSlot s.ldr.target ⟨false, 0, [], []⟩).transferDone 3 (some ⟨0x0B, 0, 0, 0, 0, 0⟩)
  else s

/-- ABORT (R391).
(DEDUCED, unsafe: notes/assumptions/59.md.) -/
def State.ldrAbort (s : State) : State := if s.inService then s.abortTransfer else s.ignoredWrite ldrCtrlAddr 1

/-- ACTIVATE (R391, R393).
(DEDUCED, unsafe: notes/assumptions/59.md.) -/
def State.ldrActivate (s : State) (b : Bool) : State :=
  if !s.inService then s.ignoredWrite ldrCtrlAddr 1
  else if s.ldr.busy || !s.slotValid b || decide ((s.slot b).rollback < s.ldr.otpCtr) || s.ldr.prefSlot == b then s
  else ({ s with ldr := { s.ldr with prefSlot := b } } : State).event 0xC103 (b2n b)

/-- ROLLBACK of the running image. -/
def State.runRollback (s : State) : Nat := u64 (s.sec 1) 0x10

/-- COMMIT (R384).
(DEDUCED, unsafe: notes/assumptions/59.md.) -/
def State.ldrCommit (s : State) : State :=
  if !s.inService then s.ignoredWrite ldrCtrlAddr 1
  else if !s.ldr.running || s.ldr.advLeft == 0 || decide (s.runRollback ≤ s.ldr.otpCtr) then s
  else ({ s with ldr := { s.ldr with otpCtr := s.runRollback, advLeft := s.ldr.advLeft - 1 } } : State).event 0xC104 s.runRollback

/-! ### BULK (R253) -/

/-- A port and VC that take image data: those of a BULK port of the image, or port 15 VC 0 without one. -/
def State.bulkPort (s : State) (p vc : Nat) : Bool :=
  if s.ldr.running then s.role p == 4 && pVc s.strB p == vc else p == 15 && vc == 0

/-- A chunk of DT 0x34 (R253, R391).
(DEDUCED, unsafe: notes/assumptions/54.md.) -/
def State.bulkChunk (s : State) (p vc : Nat) (bs : List Byte) : State :=
  if !(s.bulkPort p vc && s.pwr.mainOn) then s
  else if !(s.inService && s.ldr.xferOpen && s.ldr.srcBulk && s.ldr.bulkPort == p) then
    { s with io := { s.io with bulk := { s.io.bulk with discarded := satInc 65535 s.io.bulk.discarded } } }
  else
    let data := bs.drop 16
    let n := u32 bs 4
    let crcBad := bs.length != 16 + n || !inRange 1 32768 n || crc32c (slice bs 0 12 ++ data) != u32 bs 12
    let seqBad := u32 bs 8 != s.io.bulk.seq || u32 bs 0 != s.ldr.received.length
    if crcBad || seqBad then
      ({ s with io := { s.io with bulk := { s.io.bulk with
          crcErr := s.io.bulk.crcErr || crcBad, seqErr := s.io.bulk.seqErr || (!crcBad && seqBad) } } } : State).abortTransfer
    else ({ s with io := { s.io with bulk := { s.io.bulk with seq := (s.io.bulk.seq + 1) % 2 ^ 32 } } } : State).imageBytes data

/-! ### Profiles (R387, R388) -/

/-- PROFILE_SELECT is accepted. -/
def State.selectOk (s : State) (k : Nat) : Bool :=
  s.watch.wstate == .stopped && !s.ldr.service && s.img.isSome && decide (k < profCount (s.sec 0x11))

/-- The value of a parameter, and the values with one replaced. -/
def ProfileVals.set (v : ProfileVals) (id x : Nat) : ProfileVals :=
  match id with
  | 0 => { v with trustCode := x }
  | 1 => { v with floorCode := x }
  | 2 => { v with speedTable := x }
  | 3 => { v with retrustFrames := x }
  | 4 => { v with fieldSet := x }
  | 5 => { v with discIndex := x }
  | _ => { v with ss1Index := x }

/-- An accepted PROFILE_SET (R388).
(DEDUCED, unsafe: notes/assumptions/60.md.) -/
def State.setParam (s : State) (id x : Nat) : State :=
  { s with ldr := { s.ldr with vals := s.ldr.vals.set id x, modified := s.ldr.modified ||| BitVec.twoPow 7 id } }

/-! ### SERVICE (R390, R393) -/

/-- SERVICE_ENTER: contexts and Crocus stop through the bit.
(DEDUCED, unsafe: notes/assumptions/60.md.) -/
def State.serviceEnter (s : State) : State := { s with ldr := { s.ldr with service := true } }

/-- SERVICE_EXIT: an open transfer is aborted and a load starts.
(DEDUCED, unsafe: notes/assumptions/60.md.) -/
def State.serviceExit (s : State) : State := s.abortTransfer.loadStart

/-- A fatal fault abandons a transfer, a verification or a load of SERVICE_EXIT (R393). -/
def State.abandonLoad (s : State) : State :=
  let s1 := s.abortTransfer
  let s2 : State := { s1 with ldr := { s1.ldr with busy := false, stagedRefusal := none } }
  if s2.ldr.loading && !s2.st.running then
    { s2 with ldr := { s2.ldr with loading := false, service := true }, pwr := { s2.pwr with waking := false } }
  else s2

end Sys2Proof.Machine
end

