-- ==== Sys2Proof/Machine/SelfTest.lean ====
section
/-!
DEFINITION. Periodic self-test (spec/12_startup_selftest.md R409 to R415): the tests, their due rule and rotation, and their
slices.
-/
namespace Sys2Proof.Machine

/-! ### Tests and the cores they involve (R88, R409) -/

/-- The core of an edge stop (R88). -/
def edgeCore (stop : Nat) : Nat :=
  if stop < 36 then 8 * (stop - 32)
  else if stop < 40 then 8 * (stop - 36) + 7
  else if stop < 48 then stop - 40
  else 24 + (stop - 48)

/-- The end cores of a link (R409): row links, column links, edge links. The first is the link's core. -/
def linkEnds (n : Nat) : List Nat :=
  if n < 28 then [8 * (n / 7) + n % 7, 8 * (n / 7) + n % 7 + 1]
  else if n < 52 then
    let c := (n - 28) / 3
    let r := (n - 28) % 3
    [8 * r + c, 8 * (r + 1) + c]
  else [edgeCore (n - 20)]

/-- The cores that a test involves: none for a scrub (R412). -/
def TestKind.involved : TestKind → List Nat
  | .lbist n => [n]
  | .link n => linkEnds n
  | .scrub _ => []

/-- A test that exists. -/
def TestKind.exists' : TestKind → Bool
  | .lbist n => decide (n < 32)
  | .link n => decide (n < 76)
  | .scrub c => decide (c < 8)

/-- The length of a slice in beats, and the number of slices (R409). -/
def TestKind.beats : TestKind → Nat
  | .link _ => 4
  | _ => 20
def TestKind.slices : TestKind → Nat
  | .lbist _ => 24
  | .link _ => 1
  | .scrub _ => Config.scrubSlices

/-- The code and the number of a test in events 0xD102 and 0xD103 (R416). -/
def TestKind.code : TestKind → Nat
  | .lbist n => 256 * n
  | .link n => 1 + 256 * n
  | .scrub c => 2 + 256 * c

def TestCov.default : TestCov := ⟨none, 0, 0, none⟩

def State.cov (s : State) : TestKind → TestCov
  | .lbist n => vget s.st.cores n TestCov.default
  | .link n => vget s.st.links n TestCov.default
  | .scrub c => vget s.st.chans c TestCov.default

def State.modCov (s : State) (k : TestKind) (f : TestCov → TestCov) : State :=
  match k with
  | .lbist n => { s with st := { s.st with cores := vmod s.st.cores n f } }
  | .link n => { s with st := { s.st with links := vmod s.st.links n f } }
  | .scrub c => { s with st := { s.st with chans := vmod s.st.chans c f } }

/-! ### Due rule and rotation (R199, R410) -/

/-- A core holds work in the table set in use and is not retired.
(DEDUCED, unsafe: notes/assumptions/37.md.) -/
def State.inRotation (s : State) (n : Nat) : Bool :=
  s.img.isSome && setTable s.planB s.sched.set n != 0xFFFF && !(s.core n).retired

/-- A test is inside the rotation: every core that it involves is. -/
def State.testInside (s : State) (k : TestKind) : Bool := k.exists' && k.involved.all s.inRotation

/-- 8 hours in beats (R409).
(DEDUCED, unsafe: notes/assumptions/37.md.) -/
def scrubInterval : Nat := 8 * 3600 * 500000

/-- A test is due in frame `f` (R199, R410): its interval is 64 frames, or 8 hours of powered time.
(DEDUCED, unsafe: notes/assumptions/17.md.) -/
def State.dueIn (s : State) (k : TestKind) (f : Nat) : Bool :=
  match k with
  | .scrub _ => decide (scrubInterval ≤ s.beat - ((s.cov k).last.getD 0))
  | _ => match (s.cov k).last with
    | some l => decide (64 ≤ f - l + 1)
    | none => true

/-- The links of the rotation from a link on: the first one inside it. -/
def State.linkFrom (s : State) (n : Nat) : Nat :=
  (((upto 76).map fun i => (n + i) % 76).find? fun i => s.testInside (.link i)).getD (n % 76)

/-- A test is offered in the frame in progress: it is due, or the rotation has come to it (R410). -/
def State.offered (s : State) (k : TestKind) : Bool :=
  s.testInside k && (s.dueIn k s.sched.frame ||
    match k with
    | .lbist n => n == s.st.lbistCore
    | .link n => n == s.linkFrom s.st.nextLink
    | .scrub _ => true)

/-- The rotation of a frame (R410).
(DEDUCED, unsafe: notes/assumptions/37.md.) -/
def State.rotate (s : State) : State := { s with st := { s.st with lbistCore := s.sched.frame % 32 } }

/-! ### Slices (R412 to R414) -/

/-- The windows of a core's slot table: start, length and classes. -/
def State.windowsOf (s : State) (n : Nat) : List (Nat × Nat × Nat) :=
  let t := setTable s.planB s.sched.set n
  (upto (dirCount s.planB t)).map fun i =>
    let e := dirFirst s.planB t + i
    (slotStart s.planB e, slotLength s.planB e, slotClasses s.planB e)

/-- The start of the next SAFETY window of a core after beat `fb` of the frame, in beats of this frame (R197). -/
def State.nextSafety (s : State) (n fb : Nat) : Option Nat :=
  let starts := ((s.windowsOf n).filter fun w => bitAt w.2.2 0).map (·.1)
  match starts.find? fun x => decide (fb < x) with
  | some x => some x
  | none => starts.head?.map (· + s.frameBeats)

/-- A slice of `len` beats may start now as far as one involved core goes (R412). -/
def State.sliceFits (s : State) (len n : Nat) : Bool :=
  let fb := s.sched.frameBeat
  (s.nextSafety n fb).all fun w => decide (fb + len + 2 ≤ w)

/-- The core is in a window that allows TEST, and the slice ends within it (R412). -/
def State.inTestWindow (s : State) (len n : Nat) : Bool :=
  let fb := s.sched.frameBeat
  (s.windowsOf n).any fun w => decide (w.1 ≤ fb ∧ fb + len ≤ w.1 + w.2.1) && bitAt w.2.2 3

/-- A slice may start (R412): the test is offered, nothing of it runs, and its cores' tables leave room. -/
def State.maySlice (s : State) (k : TestKind) : Bool :=
  s.ticksRun && s.pwr.mainOn && s.classOn 3 && s.offered k && !(s.st.slices.any fun r => r.kind == k)
    && k.involved.all (s.sliceFits k.beats) && (k.involved.head?.all (s.inTestWindow k.beats))

/-- TEST_SLICE_START. -/
def State.sliceStart (s : State) (k : TestKind) : State :=
  if s.maySlice k then { s with st := { s.st with slices := ⟨k, (s.cov k).slice, s.beat⟩ :: s.st.slices } } else s

def State.sliceOf (s : State) (k : TestKind) : Option SliceRun := s.st.slices.find? fun r => r.kind == k
def State.dropSlice (s : State) (k : TestKind) : State :=
  { s with st := { s.st with slices := s.st.slices.filter fun r => r.kind != k } }

/-- A slice that was cut short is INCOMPLETE and is retried (R405, R419). -/
def State.sliceIncomplete (s : State) : State := { s with st := { s.st with incomplete := satInc 65535 s.st.incomplete } }

/-- The test is complete (R410, R414, R416): its interval starts anew, and the link rotation moves on. -/
def State.testDone (s : State) (k : TestKind) : State :=
  let s1 := (s.modCov k fun c => { c with
    last := some (match k with | .scrub _ => s.beat | _ => s.sched.frame), slice := 0, aborts := 0 }).event 0xD103 k.code
  match k with
  | .link n => if n = s.linkFrom s.st.nextLink then { s1 with st := { s1.st with nextLink := s.linkFrom ((n + 1) % 76) } } else s1
  | .scrub c => s1.modChan c fun x => { x with scrub := satInc 65535 x.scrub }
  | .lbist _ => s1

/-- A failed slice (R409): a core's LBIST or router retires the core, a scrub failure is a fault of its channel. -/
def State.sliceFails (s : State) (k : TestKind) : State :=
  let s1 := s.modCov k fun c => { c with slice := 0 }
  match k with
  | .lbist n => s1.coreFault n 0 0x17
  | .link n => s1.coreFault ((linkEnds n).headD 0) 0 0x14
  | .scrub c => s1.freed.raise (68 + c) .uc (s1.free (2 ^ 32))

/-- TEST_SLICE_END (R404, R405): a short length is INCOMPLETE; the full length with the expected signature passes.
(DEDUCED, unsafe: notes/assumptions/37.md.) -/
def State.sliceEnd (s : State) (k : TestKind) (lengthOk signatureOk : Bool) : State :=
  match s.sliceOf k with
  | none => s
  | some r =>
    if !lengthOk then (s.dropSlice k).sliceIncomplete
    else if s.beat < r.start + k.beats then s
    else
      let s1 := s.dropSlice k
      if !s.testInside k then s1
      else if !signatureOk then s1.sliceFails k
      else if r.slice + 1 < k.slices then s1.modCov k fun c => { c with slice := r.slice + 1 }
      else s1.testDone k

/-- The source and the info of a test's faults (R411, R414). -/
def State.testFault (s : State) (k : TestKind) (c : FaultClass) (code : Nat) : State :=
  match k with
  | .lbist n => s.raiseCore (28 + n) c code (4 * n)
  | .link n => let m := (linkEnds n).headD 0
               s.raiseCore (28 + m) c code (4 * m)
  | .scrub ch => if c = .ce then s.raise (68 + ch) c code else s.freed.raise (68 + ch) c (s.free (2 ^ 32))

/-- TEST_SLICE_ABORT (R413, R414, R415): only a slice in progress is aborted; the 17th abort of an interval and every 16th
after it is a CE of code 0x1A.
(DEDUCED, unsafe: notes/assumptions/37.md.) -/
def State.sliceAbort (s : State) (k : TestKind) : State :=
  match s.sliceOf k with
  | none => s
  | some r =>
    if s.beat ≤ r.start then s
    else
      let s1 := ((s.dropSlice k).sliceIncomplete).modCov k fun c => { c with aborts := c.aborts + 1 }
      let s2 := ({ s1 with st := { s1.st with aborts := satInc 65535 s1.st.aborts } } : State).event 0xD102 (k.code + 2 ^ 16 * r.slice)
      let n := (s2.cov k).aborts
      if 17 ≤ n ∧ (n - 17) % 16 = 0 then s2.testFault k .ce 0x1A else s2

/-! ### Coverage expiry (R411) -/

/-- The bit of `ST_EXPIRED`. -/
def TestKind.expiredBit : TestKind → Nat
  | .lbist _ => 0
  | .link _ => 1
  | .scrub _ => 2

/-- A test whose frame of due-ness has ended without its completion: UC with code 0x19, once in each further frame.
(DEDUCED, unsafe: notes/assumptions/37.md.) -/
def State.coverageExpiry (s : State) (k : TestKind) : State :=
  if s.ticksRun && decide (1 ≤ s.sched.frame) && s.testInside k && (s.cov k).judged != some s.sched.frame then
    let s1 := s.modCov k fun c => { c with judged := some s.sched.frame }
    if s.dueIn k (s.sched.frame - 1) then
      ({ s1 with st := { s1.st with expired := s1.st.expired ||| BitVec.twoPow 3 k.expiredBit } } : State).testFault k .uc 0x19
    else s1
  else s

/-- Every periodic test. -/
def allTests : List TestKind := (upto 32).map .lbist ++ (upto 76).map .link ++ (upto 8).map .scrub

/-- At a frame tick every test's expiry is judged, before the tick changes the table set. -/
def State.coverageTick (s : State) : State := allTests.foldl (fun (t : State) k => t.coverageExpiry k) s

/-- A core that gains work at the tick is due, and judged, from the frame that begins (R410). -/
def State.coverageJudged (s : State) : State :=
  let mark := fun (c : TestCov) => { c with judged := some s.sched.frame }
  { s with st := { s.st with cores := vmap mark s.st.cores, links := vmap mark s.st.links, chans := vmap mark s.st.chans } }

end Sys2Proof.Machine
end

