-- ==== Sys2Proof/Machine/StartUp.lean ====
section
/-!
DEFINITION. Resets and start-up (spec/12_startup_selftest.md R398 to R407, R415): the power-up steps 2 to 8 with their
outcomes, the power-on reset, the lock-out reset sequence, the wake from STANDBY, and SELFTEST_FAIL. A command runs the
steps as a whole; their lengths and findings are its operands.
-/
namespace Sys2Proof.Machine

/-! ### Time that passes within the steps -/

/-- The binding maximum of a step, 2 to 8 (R400). -/
def stepMax (k : Nat) : Nat :=
  match k with
  | 2 => 1000 | 3 => 12500 | 4 => 5000 | 5 => 35000 | 6 => 40000 | 7 => 3000 | 8 => 1500 | _ => 0

/-- How long step `k` takes: within its maximum whatever the command says.
(DESIGN CHOICE, unsafe: notes/assumptions/10.md.) -/
def stepLength (t : StartTests) (k : Nat) : Nat := min (stepMax k) (t.beats.getD (k - 2) 0)

/-- A number of beats in which nothing is judged. -/
def State.skip (s : State) (n : Nat) : State := ({ s with beat := (s.beat + n) % 2 ^ 48 } : State).advanceTime (50 * n)

/-- A number of beats pass: a quiet period that ends among them is judged at its end (R302).
(DESIGN CHOICE, unsafe: notes/assumptions/10.md.) -/
def State.elapse (s : State) (n : Nat) : State :=
  match s.fc.quietEnd with
  | some q =>
    if s.beat ≤ q ∧ q < s.beat + n then
      let a := q - s.beat
      ((((s.skip a).quietPeriodEnd).skip 1).faultNRelease).skip (n - a - 1)
    else s.skip n
  | none => s.skip n

/-- The boot periods of the watchdogs after the steps: the ones in progress are not judged, for no command of the steps
carries a check-in (R321, R322).
(DESIGN CHOICE, unsafe: notes/assumptions/10.md.) -/
def State.bootPeriods (s : State) : State :=
  { s with wd := { s.wd with
      tasks := vmapIdx (fun t x => if s.taskEn t && !s.taskRc t then
        { x with off := some (s.beat % max 1 (s.taskPeriod t)), checked := false, noJudge := true } else x) s.wd.tasks
      svc := { s.wd.svc with off := some (s.beat % max 1 s.svcPeriod), checked := false, noJudge := true, downSince := none } } }

/-! ### SELFTEST_FAIL (R406, R415) -/

/-- FAULT_N is driven low by SELFTEST_FAIL (R305, R406). No fault names the payload of its interrupt: it is free.
(DEDUCED, unsafe: notes/assumptions/11.md.) -/
def State.failFaultN (s : State) : State :=
  let s1 : State := { s with fc := { s.fc with faultNHold := true } }
  if s.fc.faultNLow then s1
  else ({ s1.freed with fc := { s1.fc with faultNLow := true } } : State).irqSet irqFault (leBytes 6 (s1.free (2 ^ 48)))

/-- The watch cleared (R289), with its interrupt enables, its counts since power-on and its last transition.
(DEDUCED, unsafe: notes/assumptions/12.md.) -/
def WatchState.cleared (w : WatchState) : WatchState :=
  { WatchState.reset with
    irqPinEn := w.irqPinEn, ibiDoubtEn := w.ibiDoubtEn, ibiStateEn := w.ibiStateEn, stops := w.stops
    floorEntryCount := w.floorEntryCount, lastFrom := w.lastFrom, lastTo := w.lastTo, lastCause := w.lastCause
    lastBeat := w.lastBeat }

/-- The chip enters SELFTEST_FAIL in the step in progress: every safe output is low, no image loads, the verdict word has its
reset value.
(DEDUCED, unsafe: notes/assumptions/12.md.) -/
def State.enterSelftestFail (s : State) (unit outcome misr len : Nat) : State :=
  let s1 := s.failFaultN
  { s1 with
    selftestFail := true
    st := { s1.st with running := false, unit := unit, outcome := outcome, misr := misr % 2 ^ 64, len := len % 2 ^ 32 }
    ldr := { s1.ldr with loading := false, running := false, service := true }
    pwr := { s1.pwr with waking := false }
    watch := s1.watch.cleared
    so := { groups := vmap (·.drop s1.beat) s1.so.groups, held := true } }

/-- The number of a core that unit codes do not name: event 0xD101 carries none outside R407.
(DEDUCED, unsafe: notes/assumptions/11.md.) -/
def State.testFailed (s : State) (f : TestFail) : State :=
  (s.enterSelftestFail f.unit (if f.outcome = 3 then 3 else 2) f.misr f.len).event 0xD101
    (f.step + 256 * f.unit + 2 ^ 32 * (f.misr % 2 ^ 32))

/-! ### What a passed step leaves (R400 to R407) -/

/-- DEVICE_ID (R427): 32 bytes, none without an identity. -/
def State.deviceId (s : State) : Option (List Byte) :=
  if s.lc.seedBad then none else s.lc.seed.map fun x => Config.shake256 (Config.slhDsaPublic x) 32

/-- Bytes of a random draw. -/
def State.draw (s : State) (n : Nat) : List Byte := (upto n).map (Config.trng s.secu.draws)
def State.drawn (s : State) : State := { s with secu := { s.secu with draws := s.secu.draws + 1 } }

/-- Step 2: OTP is read, and the I3C target is up with its Provisioned ID (R439, R499). -/
def State.step2 (s : State) : State :=
  let s1 : State := { s with lc := { s.lc with bootState := fuseState s.lc.fuses, bootCounter := fuseCounter s.lc.fuses } }
  match s1.deviceId with
  | some d => { s1 with i3c := { s1.i3c with pidLo := u32 d 0 } }
  | none => { s1.drawn with i3c := { s1.i3c with pidLo := ofLe (s1.draw 4) } }

/-- Step 3: the island has passed, the floor engines among it; FAULT_N is released unless a fault is active (R305). -/
def State.step3 (s : State) : State :=
  { s with
    flr := { s.flr with f0Ok := !s.flr.f0Lost, f1Ok := !s.flr.f1Lost }
    ctrl := { s.ctrl with lockstepOk := true }
    fc := { s.fc with faultNHold := false, faultNLow := s.anyActive } }

/-- Step 4: the main rails are enabled in stages and in window; the target is 800 mV (R443, R444). -/
def State.step4 (s : State) (mv : List Nat) : State :=
  { s with pwr := { s.pwr with
      mainOn := true, pen := 0xF, inWindow := 0x1FF, armed := 0x1FF
      mv := vmapIdx (fun i x => mv.getD i x) s.pwr.mv, target := 800, oldTarget := 800, targetBeat := s.beat } }

/-- A core that fails its MBIST or its router test is retired, and start-up goes on (R407). -/
def State.coreTestFails (s : State) (c : CoreFail) : State :=
  if (s.core c.core).retired then s
  else
    let n : Nat := c.core
    let unit := if c.router then 0x14 else 0x16
    let s1 := (s.coreFault n 0 unit).coreOff n
    ({ s1 with st := { s1.st with coreFail := s1.st.coreFail ||| BitVec.twoPow 32 n } } : State).event 0xD101
      (s.st.step + 256 * (if c.router then 0x30 else 0x10 + n / 8) + 2 ^ 16 * n + 2 ^ 32 * (c.misr % 2 ^ 32))

/-- The core failures of a step. -/
def State.coresTested (s : State) (t : StartTests) (router : Bool) : State :=
  (t.cores.filter fun c => c.router == router).foldl (fun (u : State) c => u.coreTestFails c) s

/-- What step `k` leaves when it passes. -/
def State.stepEffect (s : State) (t : StartTests) (first : Bool) (k : Nat) : State :=
  match k with
  | 2 => s.step2
  | 3 => s.step3
  | 4 => s.step4 t.mv
  | 5 => s.coresTested t false
  | 6 => { s with gddr := vmap (fun c => { c with trained := true }) s.gddr }
  | 7 =>
    let s1 := (s.coresTested t true).mount t.nand
    if first then s1.reloadFirst else s1
  | _ => { s with io := { s.io with ports := vmapIdx (fun i p => { p with fwdLat := t.fwdLat.getD i p.fwdLat }) s.io.ports } }

/-- A step passes, unless a fatal fault came up in it, which is SELFTEST_FAIL (R415); no test names a unit then. -/
def State.stepPasses (s : State) (t : StartTests) (first was : Bool) (k : Nat) : State :=
  let s1 := s.stepEffect t first k
  if s1.ftActive && !was then s1.enterSelftestFail 0 2 0 0
  else s1.event 0xD100 (k + 256 * (s1.beat % 2 ^ 24))

/-- One step: it begins, takes its time, and passes or fails.
(DESIGN CHOICE, unsafe: notes/assumptions/10.md.)
(DEDUCED, unsafe: notes/assumptions/11.md.) -/
def State.runStep (s : State) (t : StartTests) (first : Bool) (k : Nat) : State :=
  if s.selftestFail then s
  else
    let s1 := ({ s with st := { s.st with running := true, step := k, outcome := 0 } } : State).elapse (stepLength t k)
    match t.fail with
    | some f => if f.step = k then s1.testFailed f else s1.stepPasses t first s.ftActive k
    | none => s1.stepPasses t first s.ftActive k

/-- The steps from `k` to 8.
(DESIGN CHOICE, unsafe: notes/assumptions/10.md.) -/
def State.runSteps (s : State) (t : StartTests) (first : Bool) (k : Nat) : State :=
  ((upto 9).filter (k ≤ ·)).foldl (fun (u : State) i => u.runStep t first i) s

/-- After step 8 the image load begins as step 9, unless start-up has failed. -/
def State.toStep9 (s : State) : State :=
  if s.selftestFail then s.bootPeriods
  else (({ s with st := { s.st with step := 9 } } : State).loadStart).bootPeriods

/-! ### The power-on reset (R398, R399) -/

/-- What a power-on leaves: OTP and NAND content (R398), beside the commands that wait and the numbers of the next free value
and random draw. -/
def State.cold (s : State) (powered : Bool) : State :=
  { State.reset with
    pending := s.pending, freeCtr := s.freeCtr, powered := powered
    lc := { LcState.reset with
      fuses := s.lc.fuses, keys := s.lc.keys, seed := s.lc.seed, seedBad := s.lc.seedBad, cert := s.lc.cert, again := s.lc.again }
    secu := { SecState.reset with draws := s.secu.draws }
    ldr := { LoaderState.reset with
      prefSlot := s.ldr.prefSlot, slotA := s.ldr.slotA, slotB := s.ldr.slotB, otpCtr := s.ldr.otpCtr, advLeft := s.ldr.advLeft }
    jnl := { JnlState.reset with
      page := s.jnl.page, pagesPerBlock := s.jnl.pagesPerBlock, blocks := s.jnl.blocks, nextSeq := s.jnl.nextSeq
      lastSeq := s.jnl.lastSeq, ring := s.jnl.ring, evid := s.jnl.evid, head := s.jnl.head, evidHead := s.jnl.evidHead
      firstCopy := s.jnl.firstCopy, sysCopy := s.jnl.sysCopy, powerOn := s.jnl.powerOn, stopped := s.jnl.stopped } }

/-- The power-on record, and after a life-cycle transition its record again (R341, R348, R425). The count is the one that the
mount of this power-on gives, 0 where there is none.
(DEDUCED, unsafe: notes/assumptions/11.md.) -/
def State.powerOnRecord (s : State) (nand : Option NandDevice) : State :=
  let m := s.mount nand
  let s1 := s.event 0xF100 (if m.jnl.ready then m.jnl.powerOn else 0)
  match s1.lc.again with
  | some d => ({ s1 with lc := { s1.lc with again := none } } : State).event 0xC110 d
  | none => s1

/-- The power-on sequence from step 1 (R400): the always-on rails are in window. -/
def State.powerUp (s : State) (t : StartTests) : State :=
  let s1 := s.cold true
  let s2 : State := { s1 with pwr := { s1.pwr with inWindow := 0x194, armed := 0x194 } }
  ((s2.powerOnRecord t.nand).runSteps t true 2).toStep9

/-- POWER_ON: from a collapsed supply, or from the reset that a power-on or a life-cycle transition begins.
(DEDUCED, safe: notes/assumptions/9.md.)
(DESIGN CHOICE, unsafe: notes/assumptions/10.md.) -/
def State.powerOnSteps (s : State) (t : StartTests) : State :=
  if s.powered = false ∨ (s.st.running = true ∧ s.st.step = 0) then s.powerUp t else s

/-- The always-on supply collapses (R311): the island is in reset, every output and FAULT_N low. -/
def State.collapse (s : State) : State := s.cold false

/-! ### The lock-out reset sequence (R289, R305, R398, R415) -/

/-- A safe input as the sequence leaves it: its lock and its levels.
(DEDUCED, unsafe: notes/assumptions/12.md.) -/
def SafeInput.kept (x : SafeInput) : SafeInput :=
  { SafeInput.reset with
    a := { SafeChan.reset with level := x.a.level, prev := x.a.level }
    b := { SafeChan.reset with level := x.b.level, prev := x.b.level }
    locked := x.locked, unlockArmed := x.unlockArmed, lockCause := x.lockCause }

/-- What the sequence keeps (R398); the fatal fault ends with it (R299), UC faults go on to their recovery (R304).
(DEDUCED, unsafe: notes/assumptions/12.md.) -/
def State.lockoutKept (s : State) : State :=
  let c := s.cold true
  { c with
    beat := s.beat, xtalOk := s.xtalOk
    fc := { c.fc with
      latch := s.fc.latch, ffOvf := s.fc.ffOvf, firstFt := s.fc.firstFt, activeUc := s.fc.activeUc, quietEnd := if s.fc.activeUc = 0 then none else s.fc.quietEnd
      lastUc := s.fc.lastUc, info := s.fc.info, recoveries := s.fc.recoveries }
    evr := s.evr
    jnl := { c.jnl with snapDue := true, lostNew := s.jnl.lostNew, spareRaised := s.jnl.spareRaised, flushDue := s.jnl.flushDue, scrubBeats := s.jnl.scrubBeats }
    cores := vmap (fun (x : CoreState) => { CoreState.reset with retired := x.retired, cause := x.cause, engFault := x.engFault }) s.cores
    flr := { c.flr with f0Lost := s.flr.f0Lost, f1Lost := s.flr.f1Lost }
    so := { c.so with held := !s.selftestFail }
    alt := { c.alt with losses := s.alt.losses }
    st := { c.st with coreFail := s.st.coreFail, step := 3 }
    lc := { s.lc with pending := none }
    secu := { c.secu with attCount := s.secu.attCount }
    si := vmap (·.kept) s.si
    lrst := s.lrst
    enc := { c.enc with enc := vmap (fun (e : Encoder) => { Encoder.reset with a := e.a, b := e.b, pos := e.pos }) s.enc.enc }
    i3c := s.i3c
    pwr := { c.pwr with inWindow := 0x194, armed := 0x194, mv := s.pwr.mv, acc := s.pwr.acc }
    time := { c.time with
      now := s.time.now, frac := s.time.frac, set := s.time.set
      eth := vmap (fun (p : EthPort) => { EthPort.reset with link := p.link, swTs := p.swTs }) s.time.eth }
    watch := { s.watch.cleared with
      wstate := if s.selftestFail then .stopped else .halt, doubt := s.watch.doubt, verdict := s.watch.verdict
      verdictBeat := s.watch.verdictBeat } }

/-- The fuses name another life-cycle state than the one the island booted with (R426).
(DEDUCED, unsafe: notes/assumptions/12.md.) -/
def State.lcChanged (s : State) : Bool :=
  fuseState s.lc.fuses != s.lc.bootState || fuseCounter s.lc.fuses != s.lc.bootCounter

/-- The lock-out reset sequence: steps 3 to 9; with another state in OTP, the whole power-on sequence instead (R426).
(DESIGN CHOICE, unsafe: notes/assumptions/10.md.)
(DEDUCED, unsafe: notes/assumptions/12.md.) -/
def State.lockoutSequence (s : State) (t : StartTests) : State :=
  if s.lcChanged then s.powerUp t
  else (s.lockoutKept.runSteps t false 3).toStep9

/-- LRST_PRESS_ACCEPTED: in HALT and in SELFTEST_FAIL the sequence runs where both channels of every STO input read ON at the
sample of acceptance; elsewhere the press unlocks (R288, R289, R406).
(DEDUCED, unsafe: notes/assumptions/57.md.) -/
def State.pressTakes (s : State) (t : StartTests) : State :=
  if s.lrstDue then
    if s.watch.wstate = .halt ∧ s.st.running = false ∨ s.selftestFail = true then
      if s.lrst.stoOn then (s.lrstTake false).lockoutSequence t else s.lrstTake true
    else s.lrstTake false
  else s

/-! ### The wake from STANDBY (R453) -/

/-- WAKE: steps 4 to 8, then a load. Under a fatal fault of STANDBY nothing is loaded (R393).
(DESIGN CHOICE, unsafe: notes/assumptions/10.md.)
(DEDUCED, unsafe: notes/assumptions/13.md.) -/
def State.wakeSteps (s : State) (t : StartTests) : State :=
  if s.pwr.standby ∧ s.pwr.waking = true then
    let s1 := (({ s with pwr := { s.pwr with standby := false } } : State).bootWatchdogs).runSteps t false 4
    if s1.selftestFail then s1.bootPeriods
    else if s1.ftActive then
      { s1.bootPeriods with st := { s1.st with running := false }, pwr := { s1.pwr with waking := false } }
    else s1.toStep9
  else s

end Sys2Proof.Machine
end

