-- ==== Sys2Proof/Machine/Security.lean ====
section
/-!
DEFINITION. Life cycle, identity and attestation (spec/13_lifecycle_security.md R420 to R441): tokens and their application,
the identity and the certificate, owner keys, the attestation report, the security buffer, and debugger access.
-/
namespace Sys2Proof.Machine

/-! ### Buffer (R436) -/

/-- The bytes that the buffer holds. -/
def State.secBytes (s : State) : List Byte := s.secu.buf.readN 0 s.secu.len

/-- A private write to `SEC_BUF_DATA`: 1 to 4,096 bytes at the pointer, which advances and wraps in its 16 bits; it clears
REPORT_VALID.
(DEDUCED, unsafe: notes/assumptions/63.md.) -/
def State.bufWrite (s : State) (bs : List Byte) : State :=
  let data := bs.take 4096
  let p := s.secu.ptr
  let place := fun (m : Mem) (x : Nat × Byte) => m.write ((p + x.1) % 65536) x.2
  { s with secu := { s.secu with
      buf := ((upto data.length).zip data).foldl place s.secu.buf
      ptr := (p + data.length) % 65536
      len := if p + data.length ≤ 65536 then max s.secu.len (p + data.length) else 65536
      reportValid := false } }

/-- A read of `SEC_BUF_DATA`: 4 bytes at the pointer, which advances by 4. -/
def State.bufWord (s : State) : Nat := ofLe ((upto 4).map fun i => s.secu.buf.read ((s.secu.ptr + i) % 65536))
def State.bufRead (s : State) : State := { s with secu := { s.secu with ptr := (s.secu.ptr + 4) % 65536 } }

/-- Output of an operation: from offset 0, its length, the pointer at 0. -/
def State.bufPut (s : State) (bs : List Byte) : State :=
  { s with secu := { s.secu with buf := Mem.writeN [] 0 bs, len := bs.length, ptr := 0, reportValid := false } }

/-- BUF_CLEAR empties the buffer. -/
def State.bufEmpty (s : State) : State :=
  { s with secu := { s.secu with buf := [], len := 0, ptr := 0, reportValid := false } }

/-! ### Results (R437, R438) -/

/-- A refusal: RESULT and event 0xC113. -/
def State.secRefuse (s : State) (op code : Nat) : State :=
  ({ s with secu := { s.secu with result := code } } : State).event 0xC113 (op % 16 + 256 * code)

/-- An operation runs: BUSY until it ends with a result.
(DEDUCED, unsafe: notes/assumptions/63.md.) -/
def State.secStart (s : State) (op result : Nat) : State :=
  { s with secu := { s.secu with op := some { op := op, result := result, report := [], store := false, dest := 0 } } }

/-- An operation ends: RESULT is posted, BUSY clears, the SECURITY interrupt is set (R510, R511).
(DEDUCED, unsafe: notes/assumptions/63.md.) -/
def State.secEnd (s : State) (op code : Nat) : State :=
  let s1 : State := { s with secu := { s.secu with op := none, result := code, lastOp := op } }
  let s2 := if code = 0 then s1 else s1.event 0xC113 (op % 16 + 256 * code)
  s2.irqSet irqSecurity [BitVec.ofNat 8 op, BitVec.ofNat 8 code]

/-- The chip is in SERVICE with the watch in STOPPED. -/
def State.secService (s : State) : Bool := s.inService && s.watch.wstate == .stopped

/-- The checks that precede every operation: one at a time, then its permission (R436, R441).
(DEDUCED, unsafe: notes/assumptions/63.md.) -/
def State.opStart (s : State) (op : Nat) (permitted : Bool) (run : State → State) : State :=
  if !s.pwr.mainOn then s.ignoredWrite 0x0F0044 3
  else if s.secu.op.isSome then s.secRefuse op 1
  else if !permitted then s.secRefuse op 2
  else run s

/-- The first check that a list of conditions breaks: its code, 0 for none. -/
def firstCode (l : List (Bool × Nat)) : Nat := ((l.find? (·.1)).map (·.2)).getD 0

/-! ### Identity and certificate (R427, R428) -/

/-- An identity is present. -/
def State.hasId (s : State) : Bool := s.lc.seed.isSome && !s.lc.seedBad

/-- The device's public key; empty without an identity. -/
def State.publicKey (s : State) : List Byte := if s.lc.seedBad then [] else (s.lc.seed.map Config.slhDsaPublic).getD []

/-- ID_GENERATE (R427). -/
def State.idGenerate (s : State) (trngOk readBackOk : Bool) : State :=
  s.opStart 1 (s.lc.bootState == 0 && s.secService) fun t =>
    if t.hasId then t.secStart 1 0x0B
    else if t.lc.seedBad then t.secStart 1 0x10
    else if !trngOk then t.drawn.secStart 1 0x0F
    else
      let seed := t.draw 96
      let u : State := { t.drawn with lc := { t.lc with seed := some seed, seedBad := !readBackOk } }
      if readBackOk then
        ((u.bufPut u.publicKey).event 0xC114 (u64 (u.deviceId.getD []) 0)).secStart 1 0
      else u.secStart 1 0x10

def certContext : List Byte := [0x41, 0x48, 0x4E, 0x2D, 0x44, 0x45, 0x56]

/-- The checks of a certificate, in the order of the result codes with the device's key first (R428).
(DEDUCED, unsafe: notes/assumptions/63.md.) -/
def State.certCode (s : State) (b : List Byte) : Nat :=
  firstCode [
    (b.length != 29984, 0x03),
    (u32 b 0 != 0x54434544 || u16 b 4 != 1 || u16 b 6 != 0x7832 || u8 b 8 != stepping || !zeros b 0x0A 6 || !zeros b 0x20 32, 0x04),
    (!s.hasId || s.lc.cert.isSome, 0x0B),
    (slice b 0x40 64 != s.publicKey, 0x11),
    (decide (3 < u8 b 9) || Config.shake256 (slice b 0x80 64) 32 != Config.romKey (u8 b 9), 0x09),
    (!Config.slhDsaVerify (slice b 0x80 64) certContext (slice b 0 0xC0) (slice b 0xC0 29792), 0x0A)]

/-- CERT_PROGRAM. -/
def State.certProgram (s : State) : State :=
  s.opStart 2 (s.lc.bootState == 0 && s.secService) fun t =>
    let b := t.secBytes
    let c := t.certCode b
    if c = 0 then
      (({ t with lc := { t.lc with cert := some b } } : State).event 0xC115 (u64 b 0x10)).secStart 2 0
    else t.secStart 2 c

/-- CERT_READ. -/
def State.certRead (s : State) : State :=
  s.opStart 3 true fun t => match t.lc.cert with
    | some c => (t.bufPut c).secStart 3 0
    | none => t.secStart 3 0x0B

/-! ### Owner keys (R432, R433) -/

def keyContext : List Byte := [0x41, 0x48, 0x4E, 0x2D, 0x4B, 0x45, 0x59]

def State.keySlot (s : State) (k : Nat) : KeySlot := vget s.lc.keys k ⟨[], false, false⟩

/-- Slots that are programmed and not revoked. -/
def State.usableKeys (s : State) : List Nat := (upto 4).filter fun k => (s.keySlot k).programmed && !(s.keySlot k).revoked

/-- The checks of an owner key message, in the order of the result codes.
(DEDUCED, unsafe: notes/assumptions/63.md.) -/
def State.keyCode (s : State) (b : List Byte) : Nat :=
  let op := u8 b 4
  let target := u8 b 5
  let signer := u8 b 6
  let unsigned := signer == 0xFF
  let pub := slice b 0x68 64
  firstCode [
    (b.length != 29968, 0x03),
    (u32 b 0 != 0x4D59454B || !(op == 1 || op == 2) || decide (3 < target) || !(decide (signer ≤ 3) || unsigned) || !zeros b 7 1 ||
      !zeros b 0xA8 8 || (op == 2 && !zeros b 0x28 64) || (unsigned && (!zeros b 0x68 64 || !zeros b 0xB0 29792)), 0x04),
    (slice b 8 32 != s.deviceId.getD (List.replicate 32 0), 0x05),
    (unsigned && (op == 2 || s.lc.bootState == 2), 0x08),
    (!unsigned && !s.ownerKey signer pub, 0x09),
    (!unsigned && !Config.slhDsaVerify pub keyContext (slice b 0 0xB0) (slice b 0xB0 29792), 0x0A),
    (if op == 1 then (s.keySlot target).programmed else !s.usableKeys.contains target, 0x0D),
    (op == 2 && s.usableKeys == [target], 0x0E)]

/-- KEY_OP. -/
def State.keyOp (s : State) : State :=
  s.opStart 4 (decide (s.lc.bootState ≤ 2) && s.secService) fun t =>
    let b := t.secBytes
    let c := t.keyCode b
    if c = 0 then
      let k := u8 b 5
      let f := fun (x : KeySlot) =>
        if u8 b 4 = 1 then { x with hash := Config.shake256 (slice b 0x28 64) 32, programmed := true } else { x with revoked := true }
      (({ t with lc := { t.lc with keys := vmod t.lc.keys k f } } : State).event 0xC111 (k + 256 * (u8 b 4 - 1))).secStart 4 0
    else t.secStart 4 c

/-! ### Attestation (R434, R435) -/

def attContext : List Byte := [0x41, 0x48, 0x4E, 0x2D, 0x41, 0x54, 0x54]

/-- Bits of the four key slots: programmed, revoked. -/
def State.keyBits (s : State) : Nat :=
  ofBits ((upto 4).map fun k => (s.keySlot k).programmed) + 16 * ofBits ((upto 4).map fun k => (s.keySlot k).revoked)

/-- Sources with an active UC or FT fault, at most 255 shown. -/
def State.activeCount (s : State) : Nat := (sourcesOf (s.fc.activeUc ||| s.fc.activeFt)).length

/-- `WATCH_COUNT` (R49). -/
def State.watchCount (s : State) : Nat := packNat [(16, 16, s.watch.stops), (0, 16, s.watch.floorEntryCount)]

/-- FLAGS of the report. -/
def State.reportFlags (s : State) : Nat :=
  packNat [(0, 1, b2n s.img.isSome), (1, 1, b2n s.ldr.fallback), (2, 1, b2n s.ctrl.split), (3, 1, b2n s.lc.debugSeen),
    (4, 1, b2n s.selftestFail), (5, 1, b2n s.ldr.service), (8, 2, if s.img.isSome then s.ldr.keySlot else 0)]

/-- `n` bytes of a string, with zeros behind it. -/
def padTo (n : Nat) (b : List Byte) : List Byte := b.take n ++ List.replicate (n - b.length) 0

/-- Bytes 0x000 to 0x13F of the report (R435). -/
def State.reportBody (s : State) : List Byte :=
  leBytes 4 0x52545441 ++ leBytes 2 1 ++ leBytes 2 0x7832 ++ leBytes 1 stepping ++ leBytes 1 s.lc.bootState ++
    leBytes 1 s.lc.bootCounter ++ leBytes 1 s.keyBits ++ leBytes 4 s.reportFlags ++ s.secu.nonce.toList.flatMap (leBytes 4) ++
    padTo 32 (s.deviceId.getD []) ++ padTo 64 ((s.img.map (·.digest)).getD []) ++ padTo 64 (slice (s.sec 0x10) 0 64) ++
    leBytes 8 s.runRollback ++ leBytes 8 s.ldr.otpCtr ++ leBytes 4 s.retiredMask ++ leBytes 4 s.watch.verdict.toNat ++
    leBytes 8 s.beat ++ leBytes 8 s.time.now ++ leBytes 4 (if s.jnl.ready then s.jnl.powerOn else 0) ++ leBytes 4 s.watchCount ++
    leBytes 4 (packNat [(0, 16, s.fc.recTotal), (16, 1, b2n s.fc.escalated), (17, 8, s.activeCount)]) ++
    leBytes 4 (s.secu.attCount + 1) ++ List.replicate 56 0

/-- ATTEST: the fields are sampled now and signing starts; without an identity the operation ends with 0x0B. -/
def State.attest (s : State) (store : Bool) : State :=
  s.opStart 5 true fun t =>
    if t.hasId then
      { t with secu := { t.secu with op := some { op := 5, result := 0, report := t.reportBody, store := store, dest := 0 } } }
    else t.secStart 5 0x0B

/-- The pages of a stored report, PTYPE 0x04 (R353, R434). -/
def State.storeReport (s : State) (b : List Byte) : State :=
  if s.canWrite then
    (pieces (8192 * s.jnl.page) 8 b).foldl (fun (t : State) l => t.evidPage 4 0 l.length l) s
  else s

/-- ATTEST_REPORT_SIGNED: the report is in the buffer. -/
def State.reportSigned (s : State) : State :=
  match s.secu.op with
  | some o =>
    if o.op = 5 ∧ o.result = 0 then
      let rep := o.report ++ padTo 49856 (Config.slhDsaSign (s.lc.seed.getD []) attContext o.report)
      let n := (s.secu.attCount + 1) % 2 ^ 32
      let s1 := s.bufPut rep
      let s2 := ({ s1 with secu := { s1.secu with reportValid := true, attCount := n } } : State).event 0xC112 n
      (if o.store then s2.storeReport rep else s2).secEnd 5 0
    else s
  | none => s

/-! ### Life-cycle transitions (R422 to R426) -/

def lctContext : List Byte := [0x41, 0x48, 0x4E, 0x2D, 0x4C, 0x43, 0x54]

/-- A transition of R422. -/
def lcExists (a b : Nat) : Bool := (a == 0 && (b == 1 || b == 2)) || (a == 1 && b == 2) || (a == 2 && b == 3) || (a == 3 && b == 4)

/-- A signer that R422 permits. -/
def lcSigner (a b signer : Nat) : Bool := inRange 0x10 0x13 signer || (a == 1 && b == 2 && decide (signer ≤ 3))

/-- The key that SIGNER names has the hash of the public key. -/
def State.lcKeyOk (s : State) (signer : Nat) (pub : List Byte) : Bool :=
  if signer ≤ 3 then s.ownerKey signer pub else Config.shake256 pub 32 == Config.romKey (signer - 0x10)

/-- The checks of a token, in the order of R424.
(DEDUCED, unsafe: notes/assumptions/63.md.) -/
def State.tokenCode (s : State) (b : List Byte) (dest : Nat) : Nat :=
  let src := u8 b 4
  let pub := slice b 0x28 64
  let signer := u8 b 6
  firstCode [
    (b.length != 29920, 0x03),
    (u32 b 0 != 0x544B434C || !zeros b 0x68 24, 0x04),
    (slice b 8 32 != s.deviceId.getD (List.replicate 32 0), 0x05),
    (src != s.lc.bootState || u8 b 7 != s.lc.bootCounter, 0x06),
    (u8 b 5 != dest || !lcExists src dest, 0x07),
    (!lcSigner src dest signer, 0x08),
    (!s.lcKeyOk signer pub, 0x09),
    (!Config.slhDsaVerify pub lctContext (slice b 0 0x80) (slice b 0x80 29792), 0x0A),
    (src == 0 && (!s.hasId || s.lc.cert.isNone), 0x0B),
    (src == 1 && s.usableKeys.isEmpty, 0x0C)]

/-- The two situations in which LC_TRANSITION is accepted (R424). -/
def State.lcSituation (s : State) (dest : Nat) : Bool :=
  (s.secService || (s.selftestFail && s.pwr.mainOn && (dest == 3 || dest == 4))) && !s.ftActive

/-- LC_TRANSITION is refused at once with this reason; 0 where the token is checked.
(DEDUCED, unsafe: notes/assumptions/63.md.) -/
def State.lcRefusal (s : State) (dest : Nat) : Nat :=
  if s.ldr.xferOpen || s.ldr.busy || s.secu.op.isSome || s.lc.pending.isSome then 1 else if !s.lcSituation dest then 2 else 0

/-- DATA of event 0xC110. -/
def State.lcData (s : State) (p : LcPending) : Nat :=
  packNat [(0, 3, s.lc.bootState), (4, 3, p.dest), (8, 3, s.lc.bootCounter + 1), (16, 8, p.signer)]

/-- A passing token (R425, step 1): event 0xC110 and a flush.
(DEDUCED, unsafe: notes/assumptions/63.md.) -/
def State.lcAccept (s : State) (dest signer : Nat) : State :=
  let p : LcPending := ⟨dest, signer, s.beat⟩
  let s1 : State := { s with lc := { s.lc with pending := some p }, jnl := { s.jnl with flushDue := true } }
  s1.event 0xC110 (s.lcData p)

/-- The flush of step 1 is over, or its 25,000 beats are; without a mounted journal there is none.
(DEDUCED, unsafe: notes/assumptions/63.md.) -/
def State.lcDue (s : State) (p : LcPending) : Bool :=
  !s.canWrite || (s.evr.waiting == 0 && !s.jnl.flushDue) || decide (p.since + 25000 ≤ s.beat)

/-- LC_APPLY (R425, R426): the three fuses of the target group are blown and the chip is reset. A fatal fault before that
abandons the transition; one that arrives while the fuses are programmed leaves the reset to the way out of HALT.
(DEDUCED, unsafe: notes/assumptions/63.md.) -/
def State.lcApply (s : State) (fatal : Option (Nat × Nat)) : State :=
  match s.lc.pending with
  | none => s
  | some p =>
    if s.ftActive then { s with lc := { s.lc with pending := none } }
    else if s.lcDue p then
      let s1 : State := { s with lc := { s.lc with
        pending := none, fuses := vset s.lc.fuses (p.dest - 1) 7, again := some (s.lcData p) } }
      match fatal with
      | some (src, info) => s1.raise src .ft info
      | none => s1.cold true
    else s

/-- SEC_OPERATION_COMPLETE: an operation, or the checks of a token, ends (R436). The mailbox result of LC_TRANSITION follows
the checks (R516).
(DEDUCED, unsafe: notes/assumptions/63.md.) -/
def State.secComplete (s : State) : State :=
  match s.secu.op with
  | none => s
  | some o =>
    if o.op = 5 ∧ o.result = 0 then s
    else if o.op = 15 then
      let s1 := s.secEnd 15 o.result
      let s2 := if o.result = 0 then s1.lcAccept o.dest (u8 s.secBytes 6) else s1
      match s.cmd.waiting with
      | some w => { s2 with cmd := { s2.cmd with
          waiting := none, results := s2.cmd.results ++ [⟨w.code, w.alive, if o.result = 0 then 0 else 0x60, none⟩] } }
      | none => s2
    else s.secEnd o.op o.result

/-! ### Debugger access (R327, R408, R420, R440) -/

/-- Debug is permitted in DEVELOP and RETURN.
(DEDUCED, unsafe: notes/assumptions/63.md.) -/
def State.debugOk (s : State) : Bool := s.lc.bootState == 1 || s.lc.bootState == 3

def State.debuggerAttach (s : State) : State := if s.debugOk then { s with lc := { s.lc with debugSeen := true } } else s

/-- A halted controller core freezes the task watchdog, a halted service core its own (R327). -/
def State.debuggerHalt (s : State) (svc : Bool) : State :=
  if s.debugOk then
    if svc then { s with wd := { s.wd with svcFrozen := true } }
    else { s with wd := { s.wd with taskFrozen := true }, ctrl := { s.ctrl with halted := true } }
  else s

def State.debuggerRelease (s : State) (svc : Bool) : State :=
  if svc then { s with wd := { s.wd with svcFrozen := false } }
  else { s with wd := { s.wd with taskFrozen := false }, ctrl := { s.ctrl with halted := false } }

end Sys2Proof.Machine
end

