-- ==== Sys2Proof/Machine/Mailbox.lean ====
section
/-!
DEFINITION. The command mailbox (spec/17_i3c_register_index.md R514 to R519): what a start of a command copies, its checks,
its result, and the conditions of each command (R33 to R38, R345, R387 to R390, R424).
-/
namespace Sys2Proof.Machine

/-! ### Checks (R515 to R518) -/

/-- The 34 bytes of CMD_CRC. -/
def cmdBytes (words : List Nat) (alive : Nat) : List Byte := (words.take 8).flatMap (leBytes 4) ++ leBytes 2 alive

/-- CODE of word 0. -/
def cmdCode (words : List Nat) : Nat := words.getD 0 0 % 256

/-- The bits of word 1 that a command uses. -/
def cmdArgMask (code : Nat) : Nat :=
  match code with
  | 4 => 0x7 | 5 => 0xFF07 | 6 => 0xFFFF003F | 0xA => 0x7 | _ => 0

/-- The format of R517: the device, a known code, and 0 in every bit and word that the command does not use. -/
def cmdFormatOk (words : List Nat) : Bool :=
  let w0 := words.getD 0 0
  let w1 := words.getD 1 0
  let c := cmdCode words
  w0 / 65536 == 0x7832 && bits w0 8 8 == 0 && decide (1 ≤ c ∧ c ≤ 10) && (w1 &&& cmdArgMask c) == w1 &&
    ((words.drop 2).take 6).all (· == 0)

/-- An argument is out of its range: result 0x04.
(DEDUCED, unsafe: notes/assumptions/16.md.) -/
def cmdArgBad (words : List Nat) : Bool :=
  let w1 := words.getD 1 0
  match cmdCode words with
  | 5 => bits w1 0 3 == 7
  | 6 => decide (2 ≤ bits w1 4 2)
  | 0xA => decide (4 < bits w1 0 3)
  | _ => false

/-! ### Results (R516) -/

/-- A result that waits for its posting, with the trigger that it joined. -/
def State.answer (s : State) (code alive result : Nat) (trig : Option Trigger) : State :=
  { s with cmd := { s.cmd with busy := true, results := s.cmd.results ++ [⟨code, alive, result, trig⟩] } }

/-- A result is posted: CMD_STATUS, the counters, event 0x0102, and the CMD_DONE interrupt. -/
def State.postResult (s : State) (r : CmdResult) : State :=
  let ok := r.result == 0
  let s1 : State := { s with cmd := { s.cmd with
    code := r.code, result := r.result
    accepted := if ok then satInc 65535 s.cmd.accepted else s.cmd.accepted
    refused := if ok then s.cmd.refused else satInc 65535 s.cmd.refused } }
  (s1.event 0x0102 (r.code % 256 + 256 * r.result)).irqSet irqCmdDone
    ([BitVec.ofNat 8 r.code, BitVec.ofNat 8 r.result] ++ leBytes 2 r.alive)

/-- The results of a beat are posted in the next one; a trigger that was not taken makes its result 0x07 (R519). -/
def State.postResults (s : State) (taken : Option Trigger) : State :=
  let fix := fun (r : CmdResult) =>
    match r.trig with
    | some t => if taken = some t then r else { r with result := 7 }
    | none => r
  let rs := s.cmd.results.map fix
  let s1 : State := { s with cmd := { s.cmd with results := [], busy := s.cmd.waiting.isSome } }
  rs.foldl (fun (t : State) r => t.postResult r) s1

/-! ### The commands (R517, R518) -/

/-- The first unmet condition of ARM (R33). -/
def State.armCode (s : State) : Nat :=
  firstCode [
    (s.watch.wstate != .stopped, 0x10), (s.img.isNone, 0x11), (s.ldr.service || s.ctrl.split, 0x12), (s.lockoutPending, 0x13),
    (!s.stopInputsOn, 0x14), (!s.speedBelow s.standstillMmps, 0x15)]

/-- Of STOP (R34); STOP in STOPPED is accepted. -/
def State.stopCode (s : State) : Nat :=
  firstCode [
    (s.watch.wstate == .stopping || s.watch.wstate == .halt, 0x20),
    (s.watch.wstate != .stopped && !s.speedBelow s.standstillMmps, 0x15)]

/-- Of RESUME (R35). -/
def State.resumeCode (s : State) : Nat :=
  firstCode [(s.watch.wstate != .standstill, 0x22), (!s.stopInputsOn, 0x14), (s.lockoutPending, 0x13)]

/-- Of PROFILE_SELECT (R387). -/
def State.selectCode (s : State) (k : Nat) : Nat :=
  firstCode [(s.watch.wstate != .stopped || s.ldr.service, 0x30), (decide (profCount (s.sec 0x11) ≤ k), 0x31)]

/-- Of PROFILE_SET (R388). -/
def State.setCode (s : State) (id x : Nat) : Nat :=
  let v := s.ldr.vals.set id x
  firstCode [
    (s.watch.wstate != .stopped || s.ldr.service, 0x30), (!valueAllowed (s.sec 0x11) id x, 0x32),
    (!codesOk v.trustCode v.floorCode, 0x33)]

/-- Of SERVICE_ENTER and SERVICE_EXIT (R390). -/
def State.serviceEnterCode (s : State) : Nat := firstCode [(s.watch.wstate != .stopped, 0x50), (!s.pwr.mainOn, 0x51)]
def State.serviceExitCode (s : State) : Nat := firstCode [(!s.inService, 0x52), (s.ldr.busy, 0x53)]

/-- A command with a trigger of R17. -/
def State.joinTrigger (s : State) (alive code : Nat) (t : Trigger) : State :=
  (s.addTrig t.target t.cause).answer code alive 0 (some t)

/-- An accepted INTENT (R36): kept for the next tick, and its age starts anew.
(DEDUCED, unsafe: notes/assumptions/16.md.) -/
def State.takeIntent (s : State) (w : Nat) : State :=
  { s with watch := { s.watch with intentNext := some ⟨bits w 0 4, bits w 4 2, bits w 16 16⟩, intentAge := 0 } }

/-- LC_TRANSITION (R424): refused at once, or its checks begin and the result waits for their end. -/
def State.lcCommand (s : State) (dest alive : Nat) : State :=
  let c := s.lcRefusal dest
  if c ≠ 0 then (s.secRefuse 15 c).answer 0xA alive 0x60 none
  else
    let code := s.tokenCode s.secBytes dest
    { s with
      secu := { s.secu with op := some { op := 15, result := code, report := [], store := false, dest := dest } }
      cmd := { s.cmd with busy := true, waiting := some ⟨0xA, alive⟩ } }

/-- A command whose format and arguments pass: its own conditions and its effect. -/
def State.runCommand (s : State) (code w1 alive : Nat) : State :=
  let refuse := fun (c : Nat) => s.answer code alive c none
  match code with
  | 1 => if s.armCode = 0 then s.joinTrigger alive 1 ⟨.arming, 0x01⟩ else refuse s.armCode
  | 2 =>
    if s.stopCode ≠ 0 then refuse s.stopCode
    else if s.watch.wstate = .stopped then refuse 0
    else s.joinTrigger alive 2 ⟨.stopped, 0x1A⟩
  | 3 => if s.resumeCode = 0 then s.joinTrigger alive 3 ⟨.arming, 0x19⟩ else refuse s.resumeCode
  | 4 => let k := bits w1 0 3
         if s.selectCode k = 0 then (s.useProfile k).answer 4 alive 0 none else refuse (s.selectCode k)
  | 5 => let id := bits w1 0 3
         let v := bits w1 8 8
         if s.setCode id v = 0 then (s.setParam id v).answer 5 alive 0 none else refuse (s.setCode id v)
  | 6 => if s.watch.wstate = .halt then refuse 0x40 else (s.takeIntent w1).answer 6 alive 0 none
  | 7 => if s.serviceEnterCode = 0 then s.serviceEnter.answer 7 alive 0 none else refuse s.serviceEnterCode
  | 8 => if s.serviceExitCode = 0 then s.serviceExit.answer 8 alive 0 none else refuse s.serviceExitCode
  | 9 => if s.inService then s.clearFirst.answer 9 alive 0 none else refuse 0x52
  | _ => s.lcCommand (bits w1 0 3) alive

/-- A start of a command (R514 to R516).
(DEDUCED, unsafe: notes/assumptions/16.md.) -/
def State.cmdStart (s : State) (words : List Nat) (alive crc : Nat) : State :=
  let code := cmdCode words
  if s.cmd.busy then s.answer code alive 5 none
  else if crc32c (cmdBytes words alive) ≠ crc then s.answer code alive 1 none
  else if alive ≠ (s.cmd.aliveLast + 1) % 65536 then s.answer code alive 2 none
  else
    let s1 : State := { s with cmd := { s.cmd with aliveLast := alive } }
    if !cmdFormatOk words then s1.answer code alive 3 none
    else if cmdArgBad words then s1.answer code alive 4 none
    else s1.runCommand code (words.getD 1 0) alive

/-- A write of 0xA5 to `CMD_GO` starts what the mailbox registers hold; any other value is ignored and recorded (R514).
(DEDUCED, unsafe: notes/assumptions/16.md.) -/
def State.cmdGo (s : State) (key : Nat) : State :=
  if key = 0xA5 then s.cmdStart s.cmd.words.toList s.cmd.alive s.cmd.crc else s.ignoredWrite 0x000128 3

/-- A private write that carries a whole command (R514): the mailbox registers are written, then the command starts. `code`
is the code of the row that the command belongs to.
(DEDUCED, unsafe: notes/assumptions/16.md.) -/
def State.mailbox (s : State) (code : Nat) (c : CmdGo) : State :=
  let words := (upto 8).map fun i => (c.words.getD i 0).toNat
  if cmdCode words = code ∧ s.powered = true then
    ({ s with cmd := { s.cmd with
        words := vmapIdx (fun i _ => words.getD i 0) s.cmd.words, alive := c.alive.toNat, crc := c.crc.toNat } } : State).cmdGo 0xA5
  else s

end Sys2Proof.Machine
end

