-- ==== Sys2Proof/Machine/Encoders.lean ====
section
/-!
DEFINITION. Encoders and measured speed (spec/08_safe_io.md, R274 to R279).
-/
namespace Sys2Proof.Machine

/-- The sign of a change of the filtered state (R274): A leads B is positive; a change of both is no edge. -/
def edgeSign (a b a' b' : Bool) : Int :=
  if a != a' && b != b' then 0
  else if a != a' then (if a' != b then 1 else -1)
  else if b != b' then (if a == b' then 1 else -1)
  else 0

/-- A rising edge of ENC0Z is checked against Z_EDGES ± Z_TOL; the first is only a reference (R274). -/
def indexFails (zEdges zTol : Nat) (z : Option Int) : Bool :=
  match z with
  | some n => zEdges != 0 && (decide (n.natAbs + zTol < zEdges) || decide (zEdges + zTol < n.natAbs))
  | none => false

/-- A change of the filtered levels of one encoder, with or without a rising edge of its index (R274, R275). -/
def Encoder.change (e : Encoder) (rev : Bool) (zEdges zTol : Nat) (a' b' zRise : Bool) : Encoder :=
  let sg := edgeSign e.a e.b a' b'
  let sg := if rev then -sg else sg
  let illegal := e.a != a' && e.b != b'
  let count := e.count + sg.natAbs
  let z := e.zCount.map (· + sg)
  let bad := zRise && indexFails zEdges zTol z
  { e with
    a := a', b := b', pos := e.pos + BitVec.ofInt 32 sg, sum := e.sum + sg, count := count, frameSum := e.frameSum + sg
    curRate := e.curRate || decide (count > 8)
    curIllegal := e.curIllegal || illegal
    curIndex := e.curIndex || bad
    zCount := if zRise && zEdges != 0 then some 0 else z }

/-- The close of a beat for one encoder: its bin joins the window, its events become due (R276, R277). -/
def Encoder.shift (e : Encoder) (win : Nat) : Encoder :=
  { e with
    bins := (⟨e.sum, e.curRate || e.curIllegal || e.curIndex⟩ :: e.bins).take win
    sum := 0, count := 0, curRate := false, curIllegal := false, curIndex := false
    dueRate := e.curRate, dueIllegal := e.curIllegal, dueIndex := e.curIndex }

/-- v_e over the last SPEED_WIN beats, mm/s, rounded up and held at 65,534 (R276). -/
def Encoder.speedOf (e : Encoder) (win edgeNm : Nat) : Nat :=
  let sum := ((e.bins.take win).map (·.sum)).foldl (· + ·) 0
  if win = 0 then 0 else min 65534 ((sum.natAbs * edgeNm + 2 * win - 1) / (2 * win))

/-- No event lies in the window (R277). -/
def Encoder.clean (e : Encoder) (win : Nat) : Bool := (e.bins.take win).all fun b => !b.event

def Encoder.default : Encoder :=
  ⟨false, false, 0, 0, 0, false, false, false, false, false, false, [], none, 0, false, false, false, none⟩

def State.encAt (s : State) (e : Nat) : Encoder := vget s.enc.enc e Encoder.default

/-- Measured speed is valid in the present beat (R277): SPEED_WIN beats have passed since the tick origin, and no
event of either encoder lies in the window. -/
def State.speedValid (s : State) : Bool :=
  match s.enc.validFrom with
  | some f => decide (f ≤ s.beat) && (s.encAt 0).clean s.speedWin && (s.encAt 1).clean s.speedWin
  | none => false

/-- One encoder's speed is valid in the present beat: its own window holds no event. -/
def State.encValid (s : State) (e : Nat) : Bool :=
  match s.enc.validFrom with
  | some f => decide (f ≤ s.beat) && (s.encAt e).clean s.speedWin
  | none => false

/-- The speeds of the present beat (R276): each encoder's, and the larger of the two while both are valid. -/
def State.measureSpeed (s : State) : State :=
  let v0 := (s.encAt 0).speedOf s.speedWin (s.encEdgeNm 0)
  let v1 := (s.encAt 1).speedOf s.speedWin (s.encEdgeNm 1)
  let enc := vmapIdx (fun e (x : Encoder) =>
    { x with v := if s.encValid e then some (if e = 0 then v0 else v1) else none }) s.enc.enc
  { s with enc := { s.enc with enc := enc }
           watch := { s.watch with speed := if s.speedValid then some (max v0 v1) else none } }

/-- The start of a beat for the encoders: bins shift and the speed of the new beat is measured (R276). -/
def State.encoderBeat (s : State) : State :=
  ({ s with enc := { s.enc with enc := vmap (·.shift (max 1 s.speedWin)) s.enc.enc } } : State).measureSpeed

/-- The encoders disagree (R277). -/
def State.encDisagree (s : State) (v0 v1 : Nat) : Bool :=
  decide (((v0 : Int) - v1).natAbs * 100 > s.encTolMmps * 100 + s.encTolPct * max v0 v1)

/-- The cross-check of a judged beat extends or ends the run; a beat in which a speed is invalid is not judged
(R277).
(DEDUCED, unsafe: notes/assumptions/55.md.) -/
def State.crossCheckBeat (s : State) : State :=
  match (s.encAt 0).v, (s.encAt 1).v with
  | some v0, some v1 =>
    if s.encDisagree v0 v1 then
      { s with enc := { s.enc with xchkRun := satInc (2 ^ 23 - 1) s.enc.xchkRun } }
    else { s with enc := { s.enc with xchkRun := 0, xchkDone := false } }
  | _, _ => s

/-- The encoder fault condition holds from the declaration until the quiet period ends (R277). -/
def State.holdXchk (s : State) : State := { s with enc := { s.enc with xchkFault := true } }

/-- The cross-check fault is declared once the run exceeds ENC_DISC_BEATS (R277). -/
def State.crossCheckFault (s : State) : State :=
  if s.enc.xchkRun > s.encDiscBeats ∧ s.enc.xchkDone = false then
    (({ s with enc := { s.enc with xchkDone := true } } : State).raise 8 .uc 0x04).holdXchk
  else s

/-- The events of the previous beat's edges are UC faults from source 7 or 8 (R277, R290). -/
def State.encoderFault (s : State) (e : Nat) : State :=
  let x := s.encAt e
  let info := fun (code : Nat) => e * 256 + code
  let upd := fun (f : Encoder → Encoder) (t : State) => ({ t with enc := { t.enc with enc := vmod t.enc.enc e f } } : State)
  let s1 := if x.dueRate then (upd (fun y => { y with dueRate := false, fRate := true }) s).raise (7 + e) .uc (info 0x01) else s
  let s2 := if x.dueIllegal then (upd (fun y => { y with dueIllegal := false, fIllegal := true }) s1).raise (7 + e) .uc (info 0x02) else s1
  if x.dueIndex then (upd (fun y => { y with dueIndex := false, fIndex := true }) s2).raise (7 + e) .uc (info 0x03) else s2

/-- The distance of a frame in mm (R279): the mean of the two edge sums, each times its EDGE_NM, rounded toward zero,
the remainder carried. -/
def State.frameDistance (s : State) : Int :=
  ((s.encAt 0).frameSum * s.encEdgeNm 0 + (s.encAt 1).frameSum * s.encEdgeNm 1 + s.enc.distRem).tdiv 2000000

/-- The frame's edge sums are taken and the sub-millimetre remainder is kept (R279). -/
def State.takeDistance (s : State) : State :=
  let total := (s.encAt 0).frameSum * s.encEdgeNm 0 + (s.encAt 1).frameSum * s.encEdgeNm 1 + s.enc.distRem
  { s with enc := { s.enc with distRem := total.tmod 2000000, enc := vmap (fun x => { x with frameSum := 0 }) s.enc.enc } }

end Sys2Proof.Machine
end

