-- ==== Sys2Proof/Machine/RegMap.lean ====
section
/-!
DEFINITION. The register map (R523 and the owning chapters): which addresses hold a register, and whether its fields are
served by the island, by the main domain, or by both.
-/
namespace Sys2Proof.Machine

/-- Who serves a register: the island (every field AON), the main domain (no field AON), or both (R82, R506, R523). -/
inductive RegDom where
  | island | main | mixed
  deriving DecidableEq, Repr

/-- A run of registers: its first address, the distance between two, their number, and who serves them. -/
structure RegRow where
  first : Nat
  stride : Nat
  count : Nat
  dom : RegDom
  deriving DecidableEq, Repr

/-- The register at an address belongs to the run. -/
def RegRow.holds (r : RegRow) (a : Nat) : Bool :=
  decide (r.first ≤ a) && decide (a < r.first + r.stride * r.count) && (a - r.first) % r.stride == 0

/-- Blocks 0x00 to 0x04 (R520, R40, R82, R122, R220). -/
def regRows0 : List RegRow := [
  ⟨0x000000, 4, 5, .island⟩, ⟨0x000020, 4, 3, .island⟩, ⟨0x000030, 4, 3, .island⟩, ⟨0x000040, 4, 1, .island⟩,
  ⟨0x000100, 4, 14, .island⟩,
  ⟨0x010000, 4, 14, .island⟩, ⟨0x010040, 4, 16, .island⟩,
  ⟨0x020000, 4, 8, .main⟩, ⟨0x020020, 4, 1, .mixed⟩, ⟨0x020024, 4, 6, .main⟩, ⟨0x020100, 4, 2, .island⟩,
  ⟨0x030000, 4, 1, .island⟩, ⟨0x030004, 4, 1, .main⟩, ⟨0x030008, 4, 1, .mixed⟩, ⟨0x03000C, 4, 1, .main⟩,
  ⟨0x030100, 4, 32, .mixed⟩, ⟨0x030200, 4, 32, .main⟩, ⟨0x031000, 4, 512, .main⟩, ⟨0x032000, 4, 2, .main⟩,
  ⟨0x033000, 4, 32, .main⟩,
  ⟨0x040000, 4, 1, .mixed⟩, ⟨0x040004, 4, 1, .island⟩, ⟨0x040008, 4, 14, .main⟩, ⟨0x040040, 4, 4, .island⟩]

/-- Blocks 0x05 to 0x09 (R259, R263, R295, R330, R333). -/
def regRows1 : List RegRow := [
  ⟨0x050000, 0x20, 16, .main⟩, ⟨0x050004, 0x20, 16, .main⟩, ⟨0x050008, 0x20, 16, .main⟩, ⟨0x05000C, 0x20, 16, .main⟩,
  ⟨0x050400, 4, 256, .main⟩, ⟨0x050800, 4, 16, .main⟩, ⟨0x050900, 4, 2, .main⟩,
  ⟨0x060000, 0x40, 16, .main⟩, ⟨0x060004, 0x40, 16, .main⟩, ⟨0x060008, 0x40, 16, .main⟩, ⟨0x06000C, 0x40, 16, .main⟩,
  ⟨0x060010, 0x40, 16, .main⟩, ⟨0x060014, 0x40, 16, .main⟩, ⟨0x060018, 0x40, 16, .main⟩, ⟨0x06001C, 0x40, 16, .main⟩,
  ⟨0x060020, 0x40, 16, .main⟩, ⟨0x060024, 0x40, 16, .main⟩, ⟨0x060028, 0x40, 16, .main⟩,
  ⟨0x070000, 4, 3, .island⟩, ⟨0x070010, 4, 8, .island⟩, ⟨0x070040, 4, 6, .island⟩, ⟨0x070060, 4, 7, .island⟩,
  ⟨0x080000, 4, 13, .island⟩, ⟨0x080040, 4, 8, .island⟩, ⟨0x080100, 4, 128, .island⟩,
  ⟨0x090000, 4, 5, .island⟩, ⟨0x090040, 4, 32, .island⟩, ⟨0x090100, 4, 4, .island⟩, ⟨0x090200, 4, 8, .island⟩,
  ⟨0x090300, 4, 1, .island⟩]

/-- Blocks 0x0A to 0x12 (R365, R367, R460, R480, R395, R439, R417, R496, R188). -/
def regRows2 : List RegRow := [
  ⟨0x0A0000, 4, 7, .island⟩, ⟨0x0A0020, 4, 8, .island⟩,
  ⟨0x0B0000, 4, 18, .main⟩,
  ⟨0x0C0000, 4, 1, .mixed⟩, ⟨0x0C0004, 4, 1, .island⟩, ⟨0x0C0008, 4, 2, .main⟩, ⟨0x0C0010, 4, 1, .mixed⟩,
  ⟨0x0C0014, 4, 1, .island⟩, ⟨0x0C0020, 4, 9, .island⟩, ⟨0x0C0060, 4, 2, .island⟩, ⟨0x0C0100, 4, 44, .main⟩,
  ⟨0x0C01B0, 4, 4, .island⟩,
  ⟨0x0D0000, 4, 1, .mixed⟩, ⟨0x0D0004, 4, 1, .main⟩, ⟨0x0D0008, 4, 4, .island⟩, ⟨0x0D0018, 4, 1, .main⟩,
  ⟨0x0D001C, 4, 1, .island⟩, ⟨0x0D0020, 4, 4, .main⟩, ⟨0x0D0100, 0x10, 2, .main⟩, ⟨0x0D0104, 0x10, 2, .main⟩,
  ⟨0x0D0108, 0x10, 2, .main⟩, ⟨0x0D0200, 4, 1, .main⟩,
  ⟨0x0E0000, 4, 1, .mixed⟩, ⟨0x0E0004, 4, 31, .main⟩,
  ⟨0x0F0000, 4, 2, .island⟩, ⟨0x0F0010, 4, 8, .island⟩, ⟨0x0F0040, 4, 5, .main⟩, ⟨0x0F0060, 4, 9, .main⟩,
  ⟨0x100000, 4, 6, .island⟩, ⟨0x100100, 4, 3, .main⟩, ⟨0x100200, 4, 32, .main⟩,
  ⟨0x110000, 4, 8, .main⟩, ⟨0x110020, 4, 1, .island⟩, ⟨0x110040, 4, 8, .island⟩,
  ⟨0x120000, 4, 5, .island⟩, ⟨0x120100, 4, 1, .mixed⟩, ⟨0x120104, 4, 1, .main⟩, ⟨0x120108, 4, 1, .island⟩,
  ⟨0x120200, 4, 5, .main⟩]

/-- Who serves the register at an address; none for an unmapped address (R506, R523). -/
def regDom (a : Nat) : Option RegDom :=
  ((regRows0 ++ regRows1 ++ regRows2).find? (·.holds a)).map (·.dom)

/-- The core whose register an address holds (R122); no read of it is served while the core's LBIST slice runs (R413, R505). -/
def regCore (a : Nat) : Option Nat :=
  if 0x030100 ≤ a ∧ a < 0x030180 then some ((a - 0x030100) / 4)
  else if 0x030200 ≤ a ∧ a < 0x030280 then some ((a - 0x030200) / 4)
  else if 0x031000 ≤ a ∧ a < 0x031800 then some ((a - 0x031000) / 64)
  else none

/-- The edge stop of a register of the main domain (R88); none where the agent's stop is not stated.
(DEDUCED, safe: notes/assumptions/22.md.) -/
def regStop (a : Nat) : Option Nat :=
  match regCore a with
  | some n => some n
  | none =>
    if 0x033000 ≤ a ∧ a < 0x033080 then some (32 + (a - 0x033000) / 16)
    else if 0x050000 ≤ a ∧ a < 0x050200 then some (40 + (a - 0x050000) / 64)
    else if a / 65536 = 0x06 then some 54
    else if a / 65536 = 0x0B ∨ a / 65536 = 0x0D then some 49
    else if a / 65536 = 0x0C ∨ a / 65536 = 0x11 then some 55
    else none

end Sys2Proof.Machine
end

