-- ==== Sys2Proof/Machine/RegRead.lean ====
section
/-!
DEFINITION. What a read of each register returns (the register tables of spec/), block by block, and the side effects of
a read (R507). A field without the AON mark reads 0 while the main domain is off (R82, R91).
-/
namespace Sys2Proof.Machine

/-- A field of the main domain: 0 while that domain is off. -/
def State.inMain (s : State) (x : Nat) : Nat := if s.pwr.mainOn then x else 0

/-- The high part of a 48-bit beat number, in the layout of R42. -/
def beatHi (b : Nat) : Nat := bits b 32 16
def beatLo (b : Nat) : Nat := b % 2 ^ 32

/-- A 32-bit word of a byte string. -/
def wordAt (b : List Byte) (w : Nat) : Nat := u32 b (4 * w)

/-! ### 0x00: ID, global, mailbox (R521, R522) -/

def pidHi : Nat := 0x056F
def bcr : Nat := 0x26
def dcr : Nat := 0x00
def staticAddr : Nat := 0x3A

def State.globalStatus (s : State) : Nat :=
  packNat [(29, 3, s.watch.wstate.code), (28, 1, b2n s.fc.faultNLow), (27, 1, b2n s.ldr.service), (26, 1, b2n s.selftestFail),
    (25, 1, b2n s.pwr.mainOn), (24, 1, b2n s.pwr.standby), (23, 1, b2n s.ldr.running), (20, 3, s.lc.bootState)]

def State.word00 (s : State) (o : Nat) : Nat :=
  if 0x100 ≤ o ∧ o < 0x120 then vget s.cmd.words ((o - 0x100) / 4) 0
  else match o with
  | 0x00 => packNat [(16, 16, 0x7832), (8, 8, stepping)]
  | 0x04 => 0x00010000
  | 0x08 => s.i3c.pidLo
  | 0x0C => pidHi
  | 0x10 => packNat [(24, 8, bcr), (16, 8, dcr), (15, 1, b2n s.i3c.daValid), (8, 7, s.i3c.dynAddr), (0, 7, staticAddr)]
  | 0x20 => s.globalStatus
  | 0x24 => beatLo s.beat
  | 0x28 => s.i3c.beatHi
  | 0x30 => s.i3c.irqStatus.toNat
  | 0x34 => packNat [(17, 6, s.i3c.pinEn.toNat / 2), (1, 6, s.i3c.ibiEn.toNat / 2)]
  | 0x38 => packNat [(16, 16, s.i3c.nacked), (0, 7, ofBits (s.i3c.ibi.toList.map (·.isSome)))]
  | 0x40 => packNat [(16, 16, s.i3c.hdrCrc), (8, 8, s.i3c.parity), (0, 8, s.i3c.nackedReads)]
  | 0x120 => s.cmd.alive
  | 0x124 => s.cmd.crc
  | 0x12C => packNat [(31, 1, b2n s.cmd.busy), (16, 8, s.cmd.code), (8, 8, s.cmd.result)]
  | 0x130 => s.cmd.aliveLast
  | 0x134 => packNat [(16, 16, s.cmd.refused), (0, 16, s.cmd.accepted)]
  | _ => 0

/-! ### 0x01: the watch (R41 to R49) -/

/-- `WATCH_SPEED.LIMIT`: the table entry of the speed code in force, 0xFFFF for code 15 (R26); in FLOOR the limit of R25 without
its tolerance.
(DEDUCED, unsafe: notes/assumptions/33.md.) -/
def State.limitInForce (s : State) : Nat :=
  if s.watch.wstate = .floor then min 0xFFFF (s.floorLimit500k / 500000) else
  if s.speedCode s.watch.wstate = 15 then 0xFFFF else s.speedTable (s.speedCode s.watch.wstate)

def State.watchWord (s : State) (o : Nat) : Nat :=
  let w := s.watch
  match o with
  | 0x00 => packNat [(29, 3, w.wstate.code), (28, 1, b2n s.ev.floorAvail), (27, 1, b2n s.flr.f1Ok), (26, 1, b2n s.flr.f0Ok),
      (25, 1, b2n w.retrustBlocked), (24, 1, b2n (w.intent.mode == 1)), (23, 1, b2n s.governing.2), (16, 3, s.ldr.profile),
      (8, 8, w.cleanCnt)]
  | 0x04 => w.verdict.toNat
  | 0x08 => beatLo w.verdictBeat
  | 0x0C => beatHi w.verdictBeat
  | 0x10 => packNat [(20, 1, b2n w.d1Intent), (16, 4, w.d1Claim), (0, 8, w.doubt.toNat)]
  | 0x14 => w.sticky.toNat
  | 0x18 => packNat [(8, 8, w.lastCause), (4, 3, w.lastTo.code), (0, 3, w.lastFrom.code)]
  | 0x1C => beatLo w.lastBeat
  | 0x20 => beatHi w.lastBeat
  | 0x24 => packNat [(16, 16, w.intent.yaw), (8, 8, w.intentAge), (4, 2, w.intent.mode), (0, 4, w.intent.dir)]
  | 0x28 => packNat [(16, 16, s.limitInForce), (0, 16, w.speed.getD 0xFFFF)]
  | 0x2C =>
    if s.img.isSome then
      packNat [(28, 2, s.ldr.vals.speedTable), (24, 4, s.ldr.vals.floorCode), (20, 4, s.ldr.vals.trustCode),
        (8, 8, s.ldr.vals.retrustFrames), (0, 8, s.armFrames)]
    else 0
  | 0x30 => packNat [(2, 1, b2n w.irqPinEn), (1, 1, b2n w.ibiDoubtEn), (0, 1, b2n w.ibiStateEn)]
  | 0x34 => s.watchCount
  | _ => if 0x40 ≤ o then s.speedTable ((o - 0x40) / 4) else 0

/-! ### 0x02: the scene grid (R83 to R86) -/

/-- The integer part of an offset in mm, signed (R83). -/
def mmField (q : Rat) : Nat := ofInt 16 q.floor

def State.gridWord (s : State) (o : Nat) : Nat :=
  let g := s.grid
  let e := s.ev
  match o with
  | 0x00 => s.inMain (packNat [(31, 1, b2n g.sweepSince.isSome), (30, 1, b2n e.maskNew), (26, 4, e.mainField), (23, 3, e.band),
      (22, 1, b2n e.mainClear), (21, 1, b2n e.cellRule), (20, 1, b2n e.objRule), (0, 16, s.sched.frame)])
  | 0x04 => s.inMain (bits g.psi 16 16)
  | 0x08 => s.inMain (packNat [(16, 16, mmField g.offY), (0, 16, mmField g.offX)])
  | 0x0C => s.inMain (packNat [(8, 8, ofInt 8 g.ny), (0, 8, ofInt 8 g.nx)])
  | 0x10 => s.inMain (e.c % 2 ^ 17)
  | 0x14 => s.inMain (e.u % 2 ^ 17)
  | 0x18 => s.inMain (packNat [(16, 16, min 65535 e.phantom), (0, 16, min 65535 e.run)])
  | 0x1C => s.inMain (packNat [(11, 11, g.objs.countP fun x => s.subject x && !x.matched), (0, 11, g.objs.length)])
  | 0x20 => packNat [(7, 1, b2n (g.err.getLsbD 7)), (0, 7, s.inMain (g.err.toNat % 128))]
  | 0x24 => s.inMain (packNat [(31, 1, b2n g.addrPlane), (10, 9, g.addrRow), (0, 10, g.addrCol)])
  | 0x38 => if s.img.isSome then s.inMain (packNat [(9, 2, s.ldr.vals.fieldSet), (0, 9, s.cellMm)]) else 0
  | 0x100 => packNat [(8, 1, b2n e.floorOcc), (7, 1, b2n e.floorClear), (4, 3, e.floorBand), (0, 4, e.floorField)]
  | 0x104 => packNat [(14, 16, min 65535 e.floorRun), (0, 14, e.fCount)]
  | _ => s.inMain (bits s.readoutRecord (32 * ((o - 0x28) / 4)) 32)

/-! ### 0x03: cores and engines (R123 to R126) -/

def State.activeMask (s : State) : Nat := ofBits (s.cores.toList.map fun c => c.pwr == .active)

def State.engWord (s : State) (g k : Nat) : Nat :=
  let e := s.eng g
  match k with
  | 0 => packNat [(31, 1, b2n (e.inflight != 0)), (30, 1, b2n (decide (1024 ≤ e.inflight))), (29, 1, b2n (e.dma != 0)),
      (16, 11, e.hwm), (0, 11, e.inflight)]
  | 1 => e.flags.toNat
  | 2 => e.seed.toNat
  | _ => e.ceLocal

def State.gddrWord (s : State) (c k : Nat) : Nat :=
  let g := vget s.gddr c GddrChan.default
  match k with
  | 0 => packNat [(31, 1, b2n g.trained), (30, 1, b2n g.ueSeen), (0, 16, g.scrub)]
  | 1 => g.ce % 2 ^ 32
  | 2 => packNat [(16, 16, g.retryFail), (0, 16, g.retryOk)]
  | _ => g.ueAddr % 2 ^ 29

/-- (DEDUCED, unsafe: notes/assumptions/33.md.) -/
def State.coresWord (s : State) (o : Nat) : Nat :=
  if 0x3000 ≤ o then s.inMain (s.gddrWord ((o - 0x3000) / 16) ((o - 0x3000) / 4 % 4))
  else if o = 0x2000 then s.inMain (s.noc.waitMax % 256)
  else if o = 0x2004 then
    s.inMain (packNat [(16, 6, s.noc.stop), (2, 1, b2n s.noc.timeout), (1, 1, b2n s.noc.route), (0, 1, b2n s.noc.hdrParity)])
  else if 0x1000 ≤ o then s.inMain (s.engWord ((o - 0x1000) / 16) ((o - 0x1000) / 4 % 4))
  else if 0x200 ≤ o then s.inMain ((s.core ((o - 0x200) / 4)).ceShared)
  else if 0x100 ≤ o then
    let c := s.core ((o - 0x100) / 4)
    packNat [(31, 1, b2n c.retired), (28, 3, c.cause), (26, 2, s.inMain c.pwr.code), (24, 2, s.inMain c.clk),
      (20, 4, c.engFault.toNat), (0, 12, s.inMain c.slot)]
  else match o with
  | 0x00 => s.retiredMask
  | 0x04 => s.inMain s.activeMask
  | 0x08 => packNat [(8, 6, s.inMain (s.cores.toList.countP fun c => c.pwr == .active)), (0, 6, s.retiredCores.length)]
  | _ => s.inMain (if s.img.isSome then stochSeed s.strB else 0)

/-! ### 0x04: the scheduler (R221 to R223) -/

/-- The integer part of an amount of energy, as 32 bits.
(DEDUCED, unsafe: notes/assumptions/33.md.) -/
def energyField (q : Rat) : Nat := ofInt 32 q.floor

def State.schedWord (s : State) (o : Nat) : Nat :=
  let x := s.sched
  match o with
  | 0x00 => packNat [(31, 1, s.inMain (b2n x.checkShed)), (30, 1, s.inMain (b2n (thermalFactor s.therm.tNow == 0))),
      (29, 1, s.inMain (b2n (decide (thermalFactor s.therm.tNow < 1)))), (28, 1, s.inMain (b2n x.scaleLimit)),
      (22, 6, s.inMain x.set), (20, 1, b2n x.origin.isSome), (0, 20, x.frameBeat)]
  | 0x04 => x.frame % 2 ^ 32
  | 0x08 => s.inMain (if s.img.isSome then s.frameBeats % 2 ^ 21 else 0)
  | 0x0C => s.inMain (energyField x.poolRes)
  | 0x10 => s.inMain (energyField x.poolGen)
  | 0x14 => s.inMain (if s.img.isSome then s.grantRes else 0)
  | 0x18 => s.inMain (if s.img.isSome then s.grantGen else 0)
  | 0x1C => s.inMain (ofInt 16 (x.costScale * 256).floor)
  | 0x20 => s.inMain (x.lastCharged % 2 ^ 32)
  | 0x24 => s.inMain (x.lastMeasured.getD 0xFFFFFFFF % 2 ^ 32)
  | 0x28 => s.inMain (x.shed.toNat % 2 ^ 32)
  | 0x2C => s.inMain (x.shed.toNat / 2 ^ 32)
  | 0x30 => s.inMain (x.ovr.toNat % 2 ^ 32)
  | 0x34 => s.inMain (x.ovr.toNat / 2 ^ 32)
  | 0x38 => s.inMain (packNat [(16, 16, x.ovrFrames), (0, 16, x.shedFrames)])
  | 0x3C => s.inMain (energyField x.staticEff)
  | _ =>
    if s.img.isSome then
      let n := (o - 0x40) / 4
      packNat [(31, 1, b2n (fsEnable s.planB n)), (30, 1, bits (fsFlags s.planB n) 1 1), (20, 8, fsWidth s.planB n),
        (0, 20, fsOffset s.planB n)]
    else 0

/-! ### 0x05: streams (R260 to R262) -/

def State.portWord (s : State) (p k : Nat) : Nat :=
  let x := s.port p
  match k with
  | 0 => packNat [(29, 3, s.role p), (28, 1, b2n x.rxLock), (27, 1, b2n (s.camTx p || s.verdictPort == some p)),
      (26, 1, b2n x.fwdStopped), (0, 16, x.fwdLat)]
  | 1 => x.err.toNat
  | 2 => packNat [(16, 16, x.crcErrs), (0, 16, x.hdrCorr)]
  | _ =>
    let c := s.crocus p
    packNat [(31, 1, b2n c.pending), (30, 1, b2n c.wrong), (29, 1, b2n c.late), (28, 1, b2n (s.starved p)),
      (27, 1, b2n c.hashFail), (26, 1, b2n c.aborted), (16, 8, c.skip), (0, 16, c.injected)]

def State.ctxWord (s : State) (x k : Nat) : Nat :=
  let c := s.ctxAt x
  match k with
  | 0 => packNat [(31, 1, b2n (s.ctxUsed x)), (30, 1, b2n c.complete), (28, 2, c.newest), (0, 16, c.frameNo)]
  | 1 => beatLo c.fsBeat
  | 2 => beatHi c.fsBeat
  | _ => packNat [(16, 16, c.badFrames), (0, 5, c.err.toNat)]

def State.claimWord (s : State) (n k : Nat) : Nat :=
  let c := s.claimStream n
  match k with
  | 0 => packNat [(31, 1, b2n (s.claimPort n).isSome), (30, 1, b2n c.overAge), (16, 4, (s.claimPort n).getD 0), (0, 16, c.aliveLast)]
  | 1 => min (2 ^ 32 - 1) (s.claimAge n)
  | 2 => packNat [(16, 8, c.formatCode), (0, 4, c.err.toNat)]
  | _ => packNat [(16, 16, c.badRecords), (0, 16, c.frames)]

def State.streamWord (s : State) (o : Nat) : Nat :=
  if o < 0x200 then s.portWord (o / 32) (o / 4 % 8)
  else if o < 0x800 then s.ctxWord ((o - 0x400) / 16) (o / 4 % 4)
  else if o < 0x900 then s.claimWord ((o - 0x800) / 16) (o / 4 % 4)
  else if o = 0x900 then
    packNat [(31, 1, b2n s.verdictOn), (30, 1, b2n s.io.v.txFault), (16, 4, s.verdictPort.getD 0), (0, 16, s.io.v.alive)]
  else
    packNat [(31, 1, b2n (s.ldr.xferOpen && s.ldr.srcBulk)), (30, 1, b2n s.io.bulk.seqErr), (29, 1, b2n s.io.bulk.crcErr),
      (16, 4, if s.ldr.xferOpen && s.ldr.srcBulk then s.ldr.bulkPort else 0), (0, 16, s.io.bulk.discarded)]

/-! ### 0x06: check-value units (R263) -/

def State.cvuWord (s : State) (n o : Nat) : Nat :=
  let c := s.cvu n
  match o with
  | 0x00 => packNat [(7, 4, c.gap), (5, 2, c.width), (4, 1, b2n c.xorOut), (3, 1, b2n c.reflect), (0, 3, c.poly)]
  | 0x04 => c.value.toNat % 2 ^ 32
  | 0x08 => if c.poly = 4 then c.value.toNat / 2 ^ 32 else 0
  | 0x0C => c.result % 2 ^ 32
  | 0x10 => c.result / 2 ^ 32
  | 0x20 => packNat [(16, 1, b2n c.primed), (0, 16, c.last)]
  | 0x28 => packNat [(31, 1, b2n c.laneErr), (30, 1, b2n c.aliveErr), (0, 16, c.aliveErrs)]
  | _ => 0

/-! ### 0x07: safe I/O (R296 to R298) -/

def State.siBits (s : State) (f : SafeInput → Bool) : Nat := ofBits (s.si.toList.map f)

/-- t of R286; 0 outside STOPPING. -/
def State.ss1Elapsed (s : State) : Nat := if s.watch.wstate = .stopping then s.beat - s.watch.ss1Since else 0

/-- (DEDUCED, unsafe: notes/assumptions/15.md.)
(DEDUCED, unsafe: notes/assumptions/33.md.) -/
def State.soWord (s : State) (g : Nat) : Nat :=
  let x := s.grp g
  let open' := x.latched && decide (s.beat < x.latchEnd)
  let pulse := fun (b : Bool) => b2n ((x.pulse.any fun p => p.chan == b && !p.returning) || (open' && x.latchChan == b))
  packNat [(29, 3, s.soRole g), (28, 1, b2n x.a.high), (27, 1, b2n x.b.high), (26, 1, b2n x.a.rb), (25, 1, b2n x.b.rb),
    (24, 1, pulse false), (23, 1, pulse true), (22, 1, b2n x.latched), (0, 16, x.pulsesOk)]

def State.lrstWord (s : State) : Nat :=
  let l := s.lrst
  packNat [(31, 1, b2n (l.a && l.b)), (30, 1, b2n l.fAccepted), (29, 1, b2n l.fShort), (28, 1, b2n l.fLong), (27, 1, b2n l.fDisc),
    (26, 1, b2n l.fRefused), (25, 1, b2n l.fInvalid), (0, 16, l.count)]

def State.sioWord (s : State) (o : Nat) : Nat :=
  let e0 := s.encAt 0
  let e1 := s.encAt 1
  match o with
  | 0x00 => packNat [(24, 1, b2n s.lockoutPending), (16, 8, s.siBits (·.unlockArmed)), (8, 8, s.siBits (·.locked)),
      (0, 8, s.siBits (·.on))]
  | 0x04 => packNat [(21, 1, b2n s.lrst.b), (20, 1, b2n s.lrst.a), (16, 4, ofBits (s.tp.toList.map (·.level))),
      (8, 8, s.siBits (·.b.level)), (0, 8, s.siBits (·.a.level))]
  | 0x08 => packNat ((upto 8).map fun i => (4 * i, 4, (s.inp i).lockCause))
  | 0x40 => e0.pos.toNat
  | 0x44 => e1.pos.toNat
  | 0x48 => packNat [(16, 16, e1.v.getD 0xFFFF), (0, 16, e0.v.getD 0xFFFF)]
  | 0x4C => packNat [(31, 1, b2n s.watch.speed.isSome), (30, 1, b2n s.enc.xchkFault), (29, 1, b2n e0.fRate),
      (28, 1, b2n e0.fIllegal), (27, 1, b2n e0.fIndex), (26, 1, b2n e1.fRate), (25, 1, b2n e1.fIllegal),
      (0, 23, min (2 ^ 23 - 1) s.enc.xchkRun)]
  | 0x50 =>
    let on := s.watch.wstate == .stopping
    packNat [(31, 1, b2n on), (30, 1, b2n (on && decide (s.ss1StartDelay ≤ s.ss1Elapsed))), (0, 25, min (2 ^ 25 - 1) s.ss1Elapsed)]
  | 0x54 =>
    if s.watch.wstate = .stopping then
      packNat [(16, 16, s.watch.ss1VEntry.getD 0xFFFF), (0, 16, (s.ss1Limit.map fun l => min 65535 (l / 65536)).getD 0xFFFF)]
    else 0
  | 0x70 => s.lrstWord
  | 0x74 => packNat [(4, 4, s.tpEn), (0, 4, ofBits (s.tp.toList.map (·.level)))]
  | 0x78 => if s.img.isSome then packNat [(2, 2, s.ldr.vals.ss1Index), (0, 2, s.ldr.vals.discIndex)] else 0
  | _ =>
    if 0x60 ≤ o then s.soWord ((o - 0x60) / 4)
    else packNat [(16, 16, min 65535 (s.inp ((o - 0x10) / 4)).disc), (0, 16, (s.inp ((o - 0x10) / 4)).demands)]

/-! ### 0x08: fault collection (R331, R332) -/

def State.worst (s : State) : Nat := if s.ftActive then 3 else if s.anyActive then 2 else 0

def State.fcWord (s : State) (o : Nat) : Nat :=
  let f := s.fc
  let latch := fun (g : FaultLatch → Nat) => (f.latch.map g).getD 0
  match o with
  | 0x00 => packNat [(30, 2, s.worst), (29, 1, b2n f.faultNLow), (28, 1, b2n f.latch.isSome), (27, 1, b2n f.ffOvf),
      (26, 1, b2n f.escalated), (25, 1, b2n s.anyActive), (0, 8, s.activeCount)]
  | 0x04 => latch fun l => packNat [(30, 2, l.cls.code), (0, 7, l.source)]
  | 0x08 => latch fun l => l.info % 2 ^ 32
  | 0x0C => latch fun l => beatLo l.beat
  | 0x10 => latch fun l => packNat [(16, 11, l.cycle), (0, 16, beatHi l.beat)]
  | 0x18 => (f.firstFt.map fun x => packNat [(31, 1, 1), (0, 7, x.1)]).getD 0
  | 0x1C => (f.firstFt.map fun x => beatLo x.2).getD 0
  | 0x20 => (f.firstFt.map fun x => beatHi x.2).getD 0
  | 0x24 => (f.quietEnd.map fun e => packNat [(31, 1, 1), (0, 23, e - s.beat)]).getD 0
  | 0x28 => packNat [(16, 16, f.recTotal), (0, 6, min 63 s.recoveriesIn.length)]
  | 0x2C => packNat [(24, 8, s.recLimit), (0, 23, s.quietBeats)]
  | 0x30 => s.recWindow
  | _ =>
    if 0x100 ≤ o then
      let c := vget f.cnt ((o - 0x100) / 4) ⟨0, 0, 0⟩
      packNat [(16, 16, c.ce), (4, 12, c.uc), (0, 4, c.ft)]
    else if 0x50 ≤ o then ofBits ((upto 32).map fun i => s.promote (32 * ((o - 0x50) / 4) + i))
    else if 0x40 ≤ o then bits (f.activeUc ||| f.activeFt).toNat (32 * ((o - 0x40) / 4)) 32
    else 0

/-! ### 0x09: watchdogs (R334 to R336) -/

/-- Result-age monitor `n` runs (R325). -/
def State.ageRuns (s : State) (n : Nat) : Bool := (s.claimPort n).isSome && s.keptSec 0x0F == []

def State.hbWord (s : State) (k i : Nat) : Nat :=
  let h := s.hbAt k
  match i with
  | 0 => packNat [(31, 1, b2n (s.hbEn k)), (30, 1, b2n (s.hbRc k)), (29, 1, b2n (s.hbRising k)), (28, 1, b2n (s.hbWakeEn k)),
      (0, 8, s.hbAlive k)]
  | 1 => packNat [(16, 16, s.hbMax k), (0, 16, s.hbMin k)]
  | 2 => packNat [(31, 1, b2n h.alive), (30, 1, b2n h.persist), (16, 8, h.run), (0, 16, h.lastInterval)]
  | _ => packNat [(16, 16, h.losses), (0, 16, h.early)]

def State.wdWord (s : State) (o : Nat) : Nat :=
  let w := s.wd
  match o with
  | 0x00 => packNat [(31, 1, b2n s.keptImg.isNone), (28, 3, w.wakeSrc), (27, 1, b2n w.wakePending),
      (0, 16, ofBits ((upto 16).map s.taskEn))]
  | 0x08 => packNat [(16, 16, ofBits (w.tasks.toList.map (·.checked))), (0, 16, ofBits (w.tasks.toList.map (·.faulted)))]
  | 0x0C => packNat [(1, 1, b2n w.svcFrozen), (0, 1, b2n w.taskFrozen)]
  | 0x10 => packNat [(31, 1, b2n w.xtalStopFlag), (30, 1, b2n w.ircStopFlag), (29, 1, b2n w.ircFreqFlag), (0, 16, ofInt 16 w.ircDev)]
  | 0x100 => packNat [(31, 1, b2n s.svcEn), (30, 1, b2n s.svcRc), (0, 16, s.svcPeriod)]
  | 0x104 => packNat [(16, 16, s.svcClose), (0, 16, s.svcOpen)]
  | 0x10C => packNat [(16, 16, w.svc.restarts), (0, 1, b2n w.svc.checked)]
  | 0x300 => packNat [(4, 4, s.ageClk), (0, 4, ofBits ((upto 4).map s.ageRuns))]
  | _ =>
    if 0x200 ≤ o then s.hbWord ((o - 0x200) / 16) (o / 4 % 4)
    else if 0x40 ≤ o ∧ o < 0x100 then
      let t := (o - 0x40) / 8
      if o % 8 = 0 then
        packNat [(31, 1, b2n (s.taskEn t)), (30, 1, b2n (s.taskRc t)), (16, 14, s.taskPhase t), (0, 16, s.taskPeriod t)]
      else packNat [(16, 16, s.taskClose t), (0, 16, s.taskOpen t)]
    else 0

/-! ### 0x0A: the event recorder (R366) -/

def State.recWord (s : State) (o : Nat) : Nat :=
  let r := s.evr
  match o with
  | 0x00 => packNat [(31, 1, b2n (r.first.length == 256)), (30, 1, b2n r.firstRestored), (16, 9, r.first.length),
      (0, 13, r.last.length)]
  | 0x04 => r.seqNext
  | 0x08 => (r.seqNext + 2 ^ 32 - r.last.length) % 2 ^ 32
  | 0x0C => packNat [(3, 1, b2n r.empty), (2, 1, b2n r.gone), (0, 2, r.area)]
  | 0x10 => r.cursor
  | 0x14 => r.limited
  | 0x18 => r.folded
  | _ => wordAt r.window ((o - 0x20) / 4)

/-! ### 0x0B: the NAND journal (R368, R369) -/

def State.partBlocks (s : State) (p : Part) : Nat := s.jnl.blocks.countP fun b => b.part == p

/-- (DEDUCED, unsafe: notes/assumptions/33.md.) -/
def State.jnlWord (s : State) (o : Nat) : Nat :=
  let j := s.jnl
  let used := j.blocks.filter fun b => !b.bad
  match o with
  | 0x00 => packNat [(31, 1, b2n j.present), (30, 1, b2n j.formatted), (29, 1, b2n j.ready), (28, 1, b2n j.stopped),
      (27, 1, b2n s.flushStarted), (26, 1, b2n j.scrubBusy), (25, 1, b2n j.rdBusy), (24, 1, b2n j.rdOk), (23, 1, b2n j.rdFail),
      (8, 8, s.lc.bootCounter)]
  | 0x04 => if j.present then packNat [(28, 1, b2n j.twoCe), (26, 2, j.mode), (24, 2, j.page), (0, 16, j.pagesPerBlock)] else 0
  | 0x08 => if j.present then packNat [(16, 16, used.length), (0, 16, j.blocks.length)] else 0
  | 0x0C => if j.ready then packNat [(16, 16, s.partBlocks .slotA), (0, 16, j.ring.length)] else 0
  | 0x10 => if j.ready then packNat [(16, 16, j.evid.length), (0, 16, s.spares.length)] else 0
  | 0x14 => j.lastSeq % 2 ^ 32
  | 0x18 => bits j.lastSeq 32 32
  | 0x1C => j.copied
  | 0x20 => j.lost
  | 0x24 => if j.present then
      packNat [(16, 16, j.blocks.countP fun b => b.grownBad), (0, 16, j.blocks.countP fun b => b.factoryBad)] else 0
  | 0x28 => if j.present then
      packNat [(16, 16, min 65535 ((used.map (·.erases)).foldl max 0)),
        (0, 16, min 65535 ((used.map (·.erases)).foldl min ((used.head?.map (·.erases)).getD 0)))] else 0
  | 0x2C => packNat [(16, 16, j.rewrites), (0, 16, min 65535 (j.scrubBeats / 1800000000))]
  | 0x30 => packNat [(16, 16, j.highCw), (0, 6, j.maxBits)]
  | 0x38 => packNat [(16, 16, j.slotMib), (0, 16, j.evidMib)]
  | 0x3C => j.rdSeqLo
  | 0x40 => j.rdSeqHi
  | 0x44 => if j.ready then j.powerOn % 2 ^ 32 else 0
  | _ => 0

/-! ### 0x0C: power and temperature (R461, R462) -/

/-- A comparator has tripped (R451). -/
def State.anyTrip (s : State) : Bool := s.therm.sens.toList.any (·.trip)

def State.pwrWord (s : State) (o : Nat) : Nat :=
  let p := s.pwr
  match o with
  | 0x00 => packNat [(31, 1, b2n p.standby), (30, 1, b2n p.mainOn), (29, 1, b2n p.waking), (28, 1, s.inMain (b2n p.overcurrent)),
      (16, 9, p.railWarn.toNat), (0, 9, p.inWindow.toNat)]
  | 0x08 => s.inMain (packNat [(16, 16, p.i10ma), (0, 16, p.vMv)])
  | 0x0C => s.inMain (packNat [(12, 10, p.target), (10, 2, p.point), (9, 1, b2n p.hold), (8, 1, b2n p.mUnavail), (0, 8, p.errors)])
  | 0x10 => packNat [(16, 16, s.inMain (ofInt 16 s.therm.t)),
      (10, 6, s.inMain (s.therm.sens.toList.countP fun x => x.valid)), (4, 6, s.inMain s.therm.hot),
      (3, 1, s.inMain (b2n (s.therm.lostPairs != 0))), (2, 1, b2n s.anyTrip), (0, 2, s.inMain (thermalStep s.therm.tNow))]
  | _ =>
    if 0x100 ≤ o then
      let i := (o - 0x100) / 4
      let x := s.sens i
      let w := packNat [(31, 1, b2n x.valid), (30, 1, b2n x.trip), (0, 16, ofInt 16 x.temp)]
      if i < 44 then s.inMain w else w
    else if 0x60 ≤ o then
      let k := (o - 0x60) / 4
      let a := s.prim k
      packNat [(29, 3, a.seq), (28, 1, b2n a.pwrEn), (27, 1, b2n a.rstN), (26, 1, b2n a.limit),
        (16, 4, min 15 (s.accInWindow k)), (0, 16, a.cycles)]
    else if 0x20 ≤ o then
      let n := (o - 0x20) / 4
      packNat [(31, 1, b2n (p.inWindow.getLsbD n)), (30, 1, b2n (p.armed.getLsbD n)), (0, 16, vget p.mv n 0)]
    else 0

/-! ### 0x0D: network time (R481, R482) -/

def State.ethWord (s : State) (m k : Nat) : Nat :=
  let e := s.eth m
  match k with
  | 0 => packNat [(31, 1, b2n e.link), (30, 1, bits (u8 s.timeB 4) m 1), (28, 2, e.ptpState),
      (27, 1, b2n (e.asCapable && s.ptpGptp))]
  | 1 => e.err.toNat
  | _ => packNat [(16, 16, e.discarded), (0, 16, e.fcsErrs)]

/-- (DEDUCED, unsafe: notes/assumptions/33.md.) -/
def State.timeWord (s : State) (o : Nat) : Nat :=
  let t := s.time
  match o with
  | 0x00 => packNat [(31, 1, b2n t.set), (30, 1, s.inMain (b2n t.holdover)), (29, 1, s.inMain (b2n t.jump)),
      (28, 1, s.inMain (b2n s.swTs)), (26, 2, s.inMain t.slave), (0, 16, t.steps)]
  | 0x08 => t.now % 2 ^ 32
  | 0x0C => t.nowHi
  | 0x10 => beatLo t.nowBeat
  | 0x14 => beatHi t.nowBeat
  | 0x18 => s.inMain (sat32 t.offset)
  | 0x1C => ofInt 32 t.r.floor
  | 0x20 => s.inMain (if t.slave < 2 then (s.eth t.slave).pathDelay % 2 ^ 32 else 0)
  | 0x24 => s.inMain (t.master % 2 ^ 32)
  | 0x28 => s.inMain (bits t.master 32 32)
  | 0x2C => s.inMain (packNat [(16, 16, t.refused), (0, 16, t.samples)])
  | 0x200 => s.inMain (packNat [(31, 1, b2n s.telActive), (16, 12, s.tel.dropped), (0, 16, s.tel.alive)])
  | _ => if 0x100 ≤ o then s.inMain (s.ethWord ((o - 0x100) / 16) (o / 4 % 4)) else 0

/-! ### 0x0E: the image loader (R396, R397) -/

def State.ldrStatus (s : State) : Nat :=
  let l := s.ldr
  packNat [(31, 1, b2n l.running), (30, 1, b2n l.service), (29, 1, b2n l.loading), (28, 1, b2n l.fallback), (27, 1, b2n l.runSlot),
    (26, 1, s.inMain (b2n l.prefSlot)), (25, 1, s.inMain (b2n (s.slotValid true))), (24, 1, s.inMain (b2n (s.slotValid false))),
    (23, 1, s.inMain (b2n l.xferOpen)), (22, 1, s.inMain (b2n l.busy)), (21, 1, s.inMain (b2n l.overrun)),
    (20, 1, s.inMain (b2n l.aborted)), (16, 2, l.keySlot), (0, 8, s.inMain l.advLeft)]

def State.ldrWord (s : State) (o : Nat) : Nat :=
  let l := s.ldr
  match o with
  | 0x00 => s.ldrStatus
  | 0x08 => s.inMain (packNat [(4, 1, b2n l.srcBulk), (0, 4, l.bulkPort)])
  | 0x0C => s.inMain l.length
  | 0x14 => s.inMain (if l.xferOpen then l.received.length % 2 ^ 32 else 0)
  | 0x18 => s.inMain (packNat [(8, 8, l.resultA.1), (0, 8, l.resultA.2)])
  | 0x1C => s.inMain (packNat [(8, 8, l.resultB.1), (0, 8, l.resultB.2)])
  | 0x20 => s.inMain (packNat [(16, 5, l.detail.core), (0, 16, l.detail.index)])
  | 0x24 => s.inMain (l.detail.need % 2 ^ 32)
  | 0x28 => s.inMain (l.detail.avail % 2 ^ 32)
  | 0x2C => s.inMain (s.runRollback % 2 ^ 32)
  | 0x30 => s.inMain (bits s.runRollback 32 32)
  | 0x34 => s.inMain (l.otpCtr % 2 ^ 32)
  | 0x38 => s.inMain (bits l.otpCtr 32 32)
  | 0x3C => s.inMain (packNat [(8, 4, if s.img.isSome then profCount (s.sec 0x11) else 0), (0, 7, l.modified.toNat)])
  | _ => if 0x40 ≤ o then s.inMain (wordAt ((s.img.map (·.digest)).getD []) ((o - 0x40) / 4)) else 0

/-! ### 0x0F: life cycle and security (R440, R441) -/

def State.lcWord (s : State) (o : Nat) : Nat :=
  let keys := fun (f : KeySlot → Bool) => ofBits (s.lc.keys.toList.map f)
  match o with
  | 0x00 => packNat [(11, 1, b2n s.lc.debugSeen), (10, 1, b2n (s.lc.bootState == 1)), (9, 1, b2n s.lc.cert.isSome),
      (8, 1, b2n s.hasId), (4, 3, s.lc.bootCounter), (0, 3, s.lc.bootState)]
  | 0x04 => packNat [(8, 4, keys fun k => k.programmed && !k.revoked), (4, 4, keys (·.revoked)), (0, 4, keys (·.programmed))]
  | 0x40 => s.inMain (packNat [(31, 1, b2n s.secu.op.isSome), (30, 1, b2n s.secu.reportValid), (16, 8, s.secu.result),
      (8, 4, s.secu.lastOp)])
  | 0x48 => s.inMain s.secu.ptr
  | 0x4C => s.inMain s.bufWord
  | 0x50 => s.inMain s.secu.len
  | 0x80 => s.inMain s.secu.attCount
  | _ =>
    if 0x60 ≤ o then s.inMain (vget s.secu.nonce ((o - 0x60) / 4) 0)
    else if 0x10 ≤ o ∧ o < 0x30 then wordAt (s.deviceId.getD []) ((o - 0x10) / 4)
    else 0

/-! ### 0x10: self-test (R418, R419) -/

/-- (DEDUCED, unsafe: notes/assumptions/33.md.) -/
def State.coreTestWord (s : State) (n : Nat) : Nat :=
  let c := s.cov (.lbist n)
  packNat [(31, 1, b2n (s.img.isSome && s.dueIn (.lbist n) s.sched.frame)), (30, 1, b2n (s.inRotation n)), (16, 8, c.aborts),
    (0, 16, min 65535 ((c.last.map fun f => s.sched.frame - f).getD s.sched.frame))]

def State.stWord (s : State) (o : Nat) : Nat :=
  let t := s.st
  match o with
  | 0x00 => packNat [(31, 1, b2n s.selftestFail), (30, 1, b2n t.running),
      (29, 1, b2n (s.lc.bootState == 0 || s.lc.bootState == 3)), (16, 8, t.unit), (8, 4, t.step), (0, 8, t.outcome)]
  | 0x04 => t.stoppedBeat
  | 0x08 => t.coreFail.toNat
  | 0x0C => t.misr % 2 ^ 32
  | 0x10 => bits t.misr 32 32
  | 0x14 => t.len % 2 ^ 32
  | 0x100 => s.inMain (packNat [(24, 5, t.lbistCore), (16, 5, (s.cov (.lbist t.lbistCore)).slice), (0, 7, t.nextLink)])
  | 0x104 => s.inMain t.expired.toNat
  | 0x108 => s.inMain (packNat [(16, 16, t.incomplete), (0, 16, t.aborts)])
  | _ => s.inMain (s.coreTestWord ((o - 0x200) / 4))

/-! ### 0x11: Larkspur (R497) -/

def State.stageBits (s : State) (f : StageState → Bool) : Nat := ofBits (s.lk.stages.toList.map f)

def State.lkWord (s : State) (o : Nat) : Nat :=
  let l := s.lk
  match o with
  | 0x00 => s.inMain (packNat [(30, 2, l.state), (29, 1, s.chip), (28, 1, b2n s.pairImage), (16, 4, l.lanes.toNat), (8, 8, l.cause)])
  | 0x04 => s.inMain (ofInt 48 l.delta % 2 ^ 32)
  | 0x08 => s.inMain (ofInt 48 l.delta / 2 ^ 32)
  | 0x0C => s.inMain (packNat [(16, 16, l.latency), (0, 16, ofInt 16 l.phi0)])
  | 0x10 => s.inMain (packNat [(16, 16, l.skewMax), (0, 16, ofInt 16 l.skew)])
  | 0x14 => s.inMain ((s.paired.map (·.verdict)).getD 0)
  | 0x18 => s.inMain (l.partnerCMax % 2 ^ 17)
  | 0x1C => s.inMain (packNat [(16, 16, l.crcErrs), (0, 16, l.aligns)])
  | 0x20 => packNat [(16, 2, l.lastStage), (8, 8, l.lastCode), (4, 4, s.stageBits (·.viol)), (0, 4, s.stageBits (·.met))]
  | _ =>
    if 0x40 ≤ o then
      let n := (o - 0x40) / 8
      (if o % 8 = 0 then s.stageOpen n else s.stageClose n) % 2 ^ 21
    else 0

/-! ### 0x12: the controller pair and compare (R189 to R191) -/

def State.ctrlWord (s : State) (o : Nat) : Nat :=
  let c := s.ctrl
  match o with
  | 0x00 => packNat [(31, 1, b2n c.split), (30, 1, b2n c.lockstepOk)]
  | 0x04 => packNat [(30, 2, c.kind), (16, 5, c.reg), (0, 11, c.cycle)]
  | 0x08 => c.passBeats % 2 ^ 32
  | 0x0C => c.tcmCe
  | 0x10 => packNat [(1, 1, b2n c.halted), (0, 1, b2n s.debugOk)]
  | 0x100 => packNat [(31, 1, b2n s.alt.active), (30, 1, b2n s.alt.switching), (29, 1, b2n s.alt.secondLoss),
      (28, 1, b2n s.alt.noAlt), (22, 6, s.inMain (s.graphs.countP (pSameQ s.strB))), (16, 5, s.alt.lostCore),
      (0, 16, s.alt.switchFrame)]
  | 0x104 => s.inMain (packNat [(31, 1, b2n s.goldenOn), (24, 5, s.golden.lastFail), (16, 8, s.golden.fails), (0, 16, s.golden.runs)])
  | 0x108 => packNat [(16, 16, s.floorPair), (1, 1, b2n s.flr.f1Lost), (0, 1, b2n s.flr.f0Lost)]
  | 0x200 => s.inMain (packNat [(20, 12, s.cmp.checkpoint), (18, 2, s.cmp.mode), (8, 6, s.cmp.graph)])
  | 0x204 => s.inMain (s.cmp.element % 2 ^ 32)
  | 0x208 => s.inMain (s.cmp.a % 2 ^ 32)
  | 0x20C => s.inMain (s.cmp.b % 2 ^ 32)
  | 0x210 => s.inMain (packNat [(16, 16, s.cmp.runs), (0, 16, s.cmp.elems)])
  | _ => 0

/-! ### Every register (R506, R523) -/

/-- What a mapped register reads as, without side effects; 0 for an unmapped address. -/
def State.regWord (s : State) (a : Nat) : Nat :=
  let o := a % 65536
  if (regDom a).isNone then 0
  else match a / 65536 with
  | 0x00 => s.word00 o
  | 0x01 => s.watchWord o
  | 0x02 => s.gridWord o
  | 0x03 => s.coresWord o
  | 0x04 => s.schedWord o
  | 0x05 => s.inMain (s.streamWord o)
  | 0x06 => s.inMain (s.cvuWord (o / 64) (o % 64))
  | 0x07 => s.sioWord o
  | 0x08 => s.fcWord o
  | 0x09 => s.wdWord o
  | 0x0A => s.recWord o
  | 0x0B => s.inMain (s.jnlWord o)
  | 0x0C => s.pwrWord o
  | 0x0D => s.timeWord o
  | 0x0E => s.ldrWord o
  | 0x0F => s.lcWord o
  | 0x10 => s.stWord o
  | 0x11 => s.lkWord o
  | _ => s.ctrlWord o

end Sys2Proof.Machine
end

