-- ==== Sys2Proof/Machine/Registers.lean ====
section
/-!
DEFINITION. Reads of registers with their side effects, and writes (R506, R507): what each writable field does with a value
written over the bus.
-/
namespace Sys2Proof.Machine

/-! ### Side effects of a read (R507) -/

def State.sideGlobal (s : State) (o : Nat) : State :=
  match o with
  | 0x24 => { s with i3c := { s.i3c with beatHi := beatHi s.beat } }
  | 0x38 => { s with i3c := { s.i3c with nacked := 0 } }
  | 0x40 => { s with i3c := { s.i3c with hdrCrc := 0, parity := 0, nackedReads := 0 } }
  | 0x134 => { s with cmd := { s.cmd with refused := 0, accepted := 0 } }
  | _ => s

def State.sideCores (s : State) (o : Nat) : State :=
  if 0x3000 ≤ o then
    match (o - 0x3000) / 4 % 4 with
    | 1 => s.modChan ((o - 0x3000) / 16) fun c => { c with ce := 0 }
    | 2 => s.modChan ((o - 0x3000) / 16) fun c => { c with retryFail := 0, retryOk := 0 }
    | _ => s
  else if o = 0x2000 then { s with noc := { s.noc with waitMax := 0 } }
  else if 0x1000 ≤ o then
    if (o - 0x1000) / 4 % 4 = 3 ∧ o < 0x1800 then s.modEng ((o - 0x1000) / 16) fun e => { e with ceLocal := 0 } else s
  else if 0x200 ≤ o then s.modCore ((o - 0x200) / 4) fun c => { c with ceShared := 0 }
  else s

def State.sideStreams (s : State) (o : Nat) : State :=
  if o < 0x200 then
    if o / 4 % 8 = 2 then s.modPort (o / 32) fun p => { p with crcErrs := 0, hdrCorr := 0 } else s
  else if o < 0x800 then
    if o / 4 % 4 = 3 then s.modCtx ((o - 0x400) / 16) fun c => { c with badFrames := 0 } else s
  else if o < 0x900 then
    if o / 4 % 4 = 3 then s.modClaim ((o - 0x800) / 16) fun c => { c with badRecords := 0, frames := 0 } else s
  else if o = 0x904 then { s with io := { s.io with bulk := { s.io.bulk with discarded := 0 } } }
  else s

def State.sideIo (s : State) (o : Nat) : State :=
  if 0x10 ≤ o ∧ o < 0x30 then { s with si := vmod s.si ((o - 0x10) / 4) fun x => { x with demands := 0 } }
  else if o = 0x70 then { s with lrst := { s.lrst with count := 0 } }
  else s

def State.sideRec (s : State) (o : Nat) : State :=
  match o with
  | 0x14 => { s with evr := { s.evr with limited := 0 } }
  | 0x18 => { s with evr := { s.evr with folded := 0 } }
  | 0x3C => s.readWin7
  | _ => s

def State.sideTime (s : State) (o : Nat) : State :=
  match o with
  | 0x08 => { s with time := { s.time with nowHi := s.time.now / 2 ^ 32 % 2 ^ 32, nowBeat := s.beat } }
  | 0x2C => { s with time := { s.time with refused := 0, samples := 0 } }
  | 0x108 => s.modEth 0 fun e => { e with discarded := 0, fcsErrs := 0 }
  | 0x118 => s.modEth 1 fun e => { e with discarded := 0, fcsErrs := 0 }
  | 0x200 => { s with tel := { s.tel with dropped := 0 } }
  | _ => s

/-- The side effect of reading the register at an address in full (R507). -/
def State.readSide (s : State) (a : Nat) : State :=
  let o := a % 65536
  match a / 65536 with
  | 0x00 => s.sideGlobal o
  | 0x01 => if o = 4 then { s with watch := { s.watch with verdictBeat := s.beat } } else s
  | 0x02 => if o = 0x34 ∧ s.pwr.mainOn = true then s.advanceCol else s
  | 0x03 => s.sideCores o
  | 0x04 => if o = 0x38 then { s with sched := { s.sched with ovrFrames := 0, shedFrames := 0 } } else s
  | 0x05 => s.sideStreams o
  | 0x06 => if o % 64 = 0x28 then s.modCvu (o / 64) fun c => { c with aliveErrs := 0 } else s
  | 0x07 => s.sideIo o
  | 0x08 => if 0x100 ≤ o then { s with fc := { s.fc with cnt := vset s.fc.cnt ((o - 0x100) / 4) ⟨0, 0, 0⟩ } } else s
  | 0x09 => if o = 0x20C then s.modHb 0 fun h => { h with losses := 0, early := 0 }
            else if o = 0x21C then s.modHb 1 fun h => { h with losses := 0, early := 0 } else s
  | 0x0A => s.sideRec o
  | 0x0B => match o with
            | 0x20 => { s with jnl := { s.jnl with lost := 0 } }
            | 0x2C => { s with jnl := { s.jnl with rewrites := 0 } }
            | 0x30 => { s with jnl := { s.jnl with highCw := 0, maxBits := 0 } }
            | _ => s
  | 0x0C => if o = 0x0C then { s with pwr := { s.pwr with errors := 0 } } else s
  | 0x0D => s.sideTime o
  | 0x0F => if o = 0x4C ∧ s.pwr.mainOn = true then s.bufRead else s
  | 0x10 => if o = 0x108 then { s with st := { s.st with incomplete := 0, aborts := 0 } } else s
  | 0x11 => match o with
            | 0x10 => { s with lk := { s.lk with skewMax := 0 } }
            | 0x1C => { s with lk := { s.lk with crcErrs := 0, aligns := 0 } }
            | _ => s
  | 0x12 => match o with
            | 0x0C => { s with ctrl := { s.ctrl with tcmCe := 0 } }
            | 0x108 => { s with floorPair := 0 }
            | 0x210 => { s with cmp := { s.cmp with runs := 0 } }
            | _ => s
  | _ => s

/-- The island bridge gets no answer for a field of a main domain that is off: event 0x4103 with the stop (R91, R341); a stop
that the spec does not state is a free value.
(DEDUCED, safe: notes/assumptions/22.md.) -/
def State.bridgeTimeout (s : State) (a : Nat) : State :=
  if s.pwr.mainOn = true ∨ regDom a = none ∨ regDom a = some .island then s
  else match regStop a with
    | some n => s.event 0x4103 n
    | none => s.freed.event 0x4103 (s.free 64)

/-- The word that a read of an address returns, and the state after the read.
(DEDUCED, safe: notes/assumptions/22.md.) -/
def State.readWord (s : State) (a : Nat) : State × Nat :=
  let s1 := if a = 0x0A0020 then s.readWin0 else s
  ((s1.bridgeTimeout a).readSide a, s1.regWord a)

/-! ### Writes -/

/-- The bits of a W1C field that stay set. -/
def keepBits {n : Nat} (b : BitVec n) (w lo : Nat) : BitVec n := b &&& ~~~(BitVec.ofNat n (w / 2 ^ lo))

/-- A write of the low or high half of a 64-bit value. -/
def setLo64 (v : BitVec 64) (w : Nat) : BitVec 64 := BitVec.ofNat 64 (v.toNat / 2 ^ 32 * 2 ^ 32 + w)
def setHi64 (v : BitVec 64) (w : Nat) : BitVec 64 := BitVec.ofNat 64 (w * 2 ^ 32 + v.toNat % 2 ^ 32)

/-- Clearing bits of `GLB_IRQ_STATUS` cancels the pending IBIs of those causes (R512). -/
def State.irqClear (s : State) (mask : BitVec 7) : State :=
  { s with i3c := { s.i3c with
      irqStatus := s.i3c.irqStatus &&& ~~~mask
      ibi := vmapIdx (fun n x => if mask.getLsbD n then none else x) s.i3c.ibi } }

def State.writeGlobal (s : State) (o w : Nat) : State :=
  if 0x100 ≤ o ∧ o < 0x120 then { s with cmd := { s.cmd with words := vset s.cmd.words ((o - 0x100) / 4) w } }
  else match o with
  | 0x30 => s.irqClear (BitVec.ofNat 7 w)
  | 0x34 => { s with i3c := { s.i3c with
                pinEn := BitVec.ofNat 7 (bits w 17 6 * 2), ibiEn := BitVec.ofNat 7 (bits w 1 6 * 2) } }
  | 0x120 => { s with cmd := { s.cmd with alive := w % 65536 } }
  | 0x124 => { s with cmd := { s.cmd with crc := w } }
  | 0x128 => s.cmdGo (w % 256)
  | _ => s

/-- (DEDUCED, safe: notes/assumptions/22.md.) -/
def State.writeGrid (s : State) (o w : Nat) : State :=
  match o with
  | 0x20 =>
    let w' := if s.pwr.mainOn then w else w / 128 * 128
    { s with grid := { s.grid with err := keepBits s.grid.err w' 0 } }
  | 0x24 => { s with grid := { s.grid with addrPlane := bitAt w 31, addrRow := bits w 10 9, addrCol := bits w 0 10 } }
  | _ => s

def State.writeCores (s : State) (o w : Nat) : State :=
  if o = 0x2004 then
    { s with noc := { s.noc with
        timeout := s.noc.timeout && !bitAt w 2, route := s.noc.route && !bitAt w 1, hdrParity := s.noc.hdrParity && !bitAt w 0 } }
  else if 0x1000 ≤ o ∧ o < 0x1800 ∧ (o - 0x1000) / 4 % 4 = 1 then
    s.modEng ((o - 0x1000) / 16) fun e => { e with flags := keepBits e.flags w 0 }
  else s

def State.writeStreams (s : State) (o w : Nat) : State :=
  if o < 0x200 then
    match o / 4 % 8 with
    | 1 => s.modPort (o / 32) fun p => { p with err := keepBits p.err w 0 }
    | 3 => s.modCrocus (o / 32) fun c => { c with
             wrong := c.wrong && !bitAt w 30, late := c.late && !bitAt w 29, hashFail := c.hashFail && !bitAt w 27
             aborted := c.aborted && !bitAt w 26 }
    | _ => s
  else if o < 0x800 then
    if o / 4 % 4 = 3 then s.modCtx ((o - 0x400) / 16) fun c => { c with err := keepBits c.err w 0 } else s
  else if o < 0x900 then
    if o / 4 % 4 = 2 then s.modClaim ((o - 0x800) / 16) fun c => { c with err := keepBits c.err w 0 } else s
  else if o = 0x900 then { s with io := { s.io with v := { s.io.v with txFault := s.io.v.txFault && !bitAt w 30 } } }
  else { s with io := { s.io with bulk := { s.io.bulk with
           seqErr := s.io.bulk.seqErr && !bitAt w 30, crcErr := s.io.bulk.crcErr && !bitAt w 29 } } }

/-- Units 0 to 7 belong to the safety runtime (R255): a write to one of their writable registers is ignored and recorded. -/
def cvuReadOnly (o : Nat) : Bool := o == 0x0C || o == 0x10

/-- (DEDUCED, unsafe: notes/assumptions/32.md.) -/
def State.writeCvu (s : State) (a n o w : Nat) : State :=
  if cvuReadOnly o then s
  else if n < 8 then s.ignoredWrite a 2
  else match o with
  | 0x00 =>
    let s1 := s.modCvu n fun c => { c with
      gap := bits w 7 4, width := bits w 5 2, xorOut := bitAt w 4, reflect := bitAt w 3
      poly := if bits w 0 3 < 5 then bits w 0 3 else c.poly }
    if bits w 0 3 < 5 then s1 else s1.ignoredWrite a 3
  | 0x04 => s.modCvu n fun c => { c with value := setLo64 c.value w }
  | 0x08 => s.modCvu n fun c => { c with value := setHi64 c.value w }
  | 0x14 => s.cvuFeed n ((leBytes 4 w).take 1) false true
  | 0x18 => s.cvuFeed n ((leBytes 4 w).take 2) false true
  | 0x1C => s.cvuFeed n (leBytes 4 w) false true
  | 0x20 => s.modCvu n fun c => { c with primed := bitAt w 16, last := w % 65536 }
  | 0x24 => s.cvuAlive n (w % 65536) false
  | 0x28 => s.modCvu n fun c => { c with laneErr := c.laneErr && !bitAt w 31, aliveErr := c.aliveErr && !bitAt w 30 }
  | _ => s

def State.writeIo (s : State) (o w : Nat) : State :=
  let keep := fun (e : Encoder) (r i z : Bool) =>
    ({ e with fRate := e.fRate && !r, fIllegal := e.fIllegal && !i, fIndex := e.fIndex && !z } : Encoder)
  match o with
  | 0x4C => { s with enc := { s.enc with enc := vmapIdx (fun k e =>
      if k = 0 then keep e (bitAt w 29) (bitAt w 28) (bitAt w 27) else keep e (bitAt w 26) (bitAt w 25) false) s.enc.enc } }
  | 0x70 =>
    let l := s.lrst
    { s with lrst := { l with
        fAccepted := l.fAccepted && !bitAt w 30, fShort := l.fShort && !bitAt w 29, fLong := l.fLong && !bitAt w 28
        fDisc := l.fDisc && !bitAt w 27, fRefused := l.fRefused && !bitAt w 26, fInvalid := l.fInvalid && !bitAt w 25 } }
  | _ => s

def State.writeWd (s : State) (a o w : Nat) : State :=
  match o with
  | 0x00 => { s with wd := { s.wd with wakePending := s.wd.wakePending && !bitAt w 27 } }
  | 0x04 => s.ignoredWrite a 2
  | 0x08 => { s with wd := { s.wd with tasks := vmapIdx (fun t x => { x with faulted := x.faulted && !bitAt w t }) s.wd.tasks } }
  | 0x10 => { s with wd := { s.wd with
                xtalStopFlag := s.wd.xtalStopFlag && !bitAt w 31, ircStopFlag := s.wd.ircStopFlag && !bitAt w 30
                ircFreqFlag := s.wd.ircFreqFlag && !bitAt w 29 } }
  | 0x108 => s.ignoredWrite a 2
  | _ => s

def State.writeRec (s : State) (a o w : Nat) : State :=
  match o with
  | 0x0C =>
    let s1 : State := { s with evr := { s.evr with
      gone := s.evr.gone && !bitAt w 2, area := if w % 4 < 3 then w % 4 else s.evr.area } }
    if w % 4 < 3 then s1 else s1.ignoredWrite a 3
  | 0x10 => { s with evr := { s.evr with cursor := w } }
  | _ => s

/-- The commands of `JNL_CMD`, in the order of their bits (R350, R354, R369).
(DEDUCED, unsafe: notes/assumptions/32.md.) -/
def State.writeJnlCmd (s : State) (w : Nat) : State :=
  let s1 := if bitAt w 0 then s.format else s
  let s2 := if bitAt w 1 then s1.flushCmd else s1
  if bitAt w 2 then s2.rdPage else s2

def State.writeJnl (s : State) (o w : Nat) : State :=
  match o with
  | 0x00 => { s with jnl := { s.jnl with rdFail := s.jnl.rdFail && !bitAt w 23 } }
  | 0x34 => s.writeJnlCmd w
  | 0x38 => { s with jnl := { s.jnl with slotMib := bits w 16 16, evidMib := w % 65536 } }
  | 0x3C => { s with jnl := { s.jnl with rdSeqLo := w } }
  | 0x40 => { s with jnl := { s.jnl with rdSeqHi := w } }
  | _ => s

/-- The request of one primary in `ACC_CTRL` (R456, R462).
(DEDUCED, unsafe: notes/assumptions/32.md.) -/
def State.accRequest (s : State) (k r : Nat) : State :=
  match r with
  | 1 => s.accOnReq k
  | 2 => s.accOffReq k
  | 3 => s.accCycleReq k
  | _ => s

/-- (DEDUCED, unsafe: notes/assumptions/13.md.) -/
def State.writePwr (s : State) (o w : Nat) : State :=
  match o with
  | 0x00 => { s with pwr := { s.pwr with railWarn := keepBits s.pwr.railWarn w 16 } }
  | 0x04 =>
    let s1 := if bitAt w 0 then s.standbyReq else s
    if bitAt w 1 then s1.wakeWrite else s1
  | 0x14 => (s.accRequest 0 (bits w 0 2)).accRequest 1 (bits w 4 2)
  | _ => s

def State.writeTime (s : State) (o w : Nat) : State :=
  match o with
  | 0x00 => { s with time := { s.time with jump := s.time.jump && !bitAt w 29 } }
  | 0x04 => if bitAt w 0 then s.timeStepWrite else s
  | 0x104 => s.modEth 0 fun e => { e with err := keepBits e.err w 0 }
  | 0x114 => s.modEth 1 fun e => { e with err := keepBits e.err w 0 }
  | _ => s

/-- `LDR_CTRL` (R391, R396): more than one of bits [4:0] is ignored and recorded. -/
def State.writeLdrCtrl (s : State) (a w : Nat) : State :=
  match w % 32 with
  | 0 => s
  | 1 => s.ldrOpen
  | 2 => s.ldrClose
  | 4 => s.ldrAbort
  | 8 => s.ldrActivate (bitAt w 8)
  | 16 => s.ldrCommit
  | _ => s.ignoredWrite a 3

def State.writeLdr (s : State) (a o w : Nat) : State :=
  match o with
  | 0x00 => { s with ldr := { s.ldr with overrun := s.ldr.overrun && !bitAt w 21, aborted := s.ldr.aborted && !bitAt w 20 } }
  | 0x04 => s.writeLdrCtrl a w
  | 0x08 => { s with ldr := { s.ldr with srcBulk := bitAt w 4, bulkPort := w % 16 } }
  | 0x0C => { s with ldr := { s.ldr with length := w } }
  | 0x10 => s.wdata (leBytes 4 w)
  | _ => s

/-- BUF_CLEAR (R436, R441). -/
def State.bufClear (s : State) : State := s.opStart 6 true fun t => t.bufEmpty.secStart 6 0

/-- `SEC_CTRL` (R441): an operation starts; any other value of OP is ignored and recorded. ID_GENERATE met a good random source
and a good read-back when it is started by a plain register write: their failures are operands of its own command. -/
def State.writeSecCtrl (s : State) (a w : Nat) : State :=
  match w % 16 with
  | 1 => s.idGenerate true true
  | 2 => s.certProgram
  | 3 => s.certRead
  | 4 => s.keyOp
  | 5 => s.attest (bitAt w 8)
  | 6 => s.bufClear
  | _ => s.ignoredWrite a 3

def State.writeLc (s : State) (a o w : Nat) : State :=
  match o with
  | 0x44 => s.writeSecCtrl a w
  | 0x48 => { s with secu := { s.secu with ptr := w % 65536 } }
  | 0x4C => s.bufWrite (leBytes 4 w)
  | _ => if 0x60 ≤ o ∧ o < 0x80 then { s with secu := { s.secu with nonce := vset s.secu.nonce ((o - 0x60) / 4) w } } else s

/-- The effect of a word written to a mapped register that can be reached.
(DEDUCED, unsafe: notes/assumptions/32.md.) -/
def State.writeField (s : State) (a w : Nat) : State :=
  let o := a % 65536
  match a / 65536 with
  | 0x00 => s.writeGlobal o w
  | 0x01 =>
    if o = 0x14 then { s with watch := { s.watch with sticky := keepBits s.watch.sticky w 0 } }
    else if o = 0x30 then
      { s with watch := { s.watch with irqPinEn := bitAt w 2, ibiDoubtEn := bitAt w 1, ibiStateEn := bitAt w 0 } }
    else s
  | 0x02 => s.writeGrid o w
  | 0x03 => s.writeCores o w
  | 0x05 => s.writeStreams o w
  | 0x06 => s.writeCvu a (o / 64) (o % 64) w
  | 0x07 => s.writeIo o w
  | 0x08 => if o = 0x14 ∧ bitAt w 0 = true then s.ffClear else s
  | 0x09 => s.writeWd a o w
  | 0x0A => s.writeRec a o w
  | 0x0B => s.writeJnl o w
  | 0x0C => s.writePwr o w
  | 0x0D => s.writeTime o w
  | 0x0E => s.writeLdr a o w
  | 0x0F => s.writeLc a o w
  | 0x10 => if o = 0x104 then { s with st := { s.st with expired := keepBits s.st.expired w 0 } } else s
  | _ => s

/-- Registers of mixed service whose writable fields all belong to the main domain.
(DEDUCED, unsafe: notes/assumptions/32.md.) -/
def mainWritable (a : Nat) : Bool := a == 0x0D0000 || a == 0x0E0000

/-- A word written to an address (R506): unmapped, or in a main domain that is off, it is ignored and recorded with type 3.
(DEDUCED, unsafe: notes/assumptions/32.md.) -/
def State.regWrite (s : State) (a w : Nat) : State :=
  match regDom a with
  | none => s.ignoredWrite a 3
  | some d => if s.pwr.mainOn = false ∧ (d = .main ∨ mainWritable a = true) then s.ignoredWrite a 3 else s.writeField a w

end Sys2Proof.Machine
end

