-- ==== Sys2Proof/Machine/I3c.lean ====
section
/-!
DEFINITION. The I3C target (spec/17_i3c_register_index.md, R498 to R513): private transfers, HDR-DDR, common command codes
and in-band interrupts.
-/
namespace Sys2Proof.Machine

/-- What the target answers: acknowledged or not, and the bytes it returns.
(DEDUCED, unsafe: notes/assumptions/30.md.) -/
def State.busAnswer (s : State) (ack : Bool) (resp : List Byte) : State :=
  { s with i3c := { s.i3c with ack := ack, resp := resp } }

/-- Bytes of a number, most significant first, as CCC data goes over the bus. -/
def beBytes (n v : Nat) : List Byte := (leBytes n v).reverse

/-! ### Private transfers (R503 to R509) -/

def ldrWdataAddr : Nat := 0x0E0010
def secBufAddr : Nat := 0x0F004C

/-- A private write to a stream register: 1 to 4,096 bytes, the excess discarded (R504). -/
def State.streamWrite (s : State) (a : Nat) (bs : List Byte) : State :=
  if bs.isEmpty then s
  else if s.pwr.mainOn = false then s.ignoredWrite a 3
  else if a = ldrWdataAddr then s.wdata (bs.take 4096)
  else s.bufWrite (bs.take 4096)

/-- The words of a private write, each applied at its address; a partial last word is discarded (R503). -/
def State.wordsWrite (s : State) (a : Nat) : List Byte → State
  | b0 :: b1 :: b2 :: b3 :: bs => (s.regWrite a (ofLe [b0, b1, b2, b3])).wordsWrite ((a + 4) % 2 ^ 24) bs
  | _ => s

/-- A write of data to an address: unaligned, it is discarded as a whole; without data it sets the read address (R503). -/
def State.busWrite (s : State) (a : Nat) (bs : List Byte) : State :=
  if a % 4 ≠ 0 then s
  else if bs.isEmpty then { s with i3c := { s.i3c with readAddr := a } }
  else if a = ldrWdataAddr ∨ a = secBufAddr then s.streamWrite a bs
  else s.wordsWrite a bs

/-- A private SDR write as received. A parity error discards the last byte that arrived and what would follow (R509).
(DEDUCED, unsafe: notes/assumptions/30.md.) -/
def State.registerWrite (s : State) (bs : List Byte) (parity : Bool) : State :=
  if s.i3c.hdr then s
  else
    let s1 := s.busAnswer true []
    let s2 : State := if parity then
        { s1 with i3c := { s1.i3c with parity := satInc 255 s1.i3c.parity, protoErr := true } } else s1
    let got := if parity then bs.dropLast else bs
    match got with
    | a0 :: a1 :: a2 :: ds => s2.busWrite (ofLe [a0, a1, a2]) ds
    | _ => s2

/-- The register is held by a self-test slice of its core (R413, R505).
(DEDUCED, unsafe: notes/assumptions/30.md.) -/
def State.readHeld (s : State) (a : Nat) : Bool :=
  match regCore a with
  | some n => s.st.slices.any fun r => r.kind == .lbist n
  | none => false

/-- A read of `n` words from an address: it ends before a word that is held (R505). The last is the state, the bytes read,
and the address after them. -/
def State.burst (s : State) (a : Nat) : Nat → State × List Byte × Nat
  | 0 => (s, [], a)
  | n + 1 =>
    if s.readHeld a then (s, [], a)
    else
      let (s1, w) := s.readWord a
      let (s2, bs, a2) := s1.burst ((a + 4) % 2 ^ 24) n
      (s2, leBytes 4 w ++ bs, a2)

/-- A read header whose first word is held is NACKed and counted (R505, R509). -/
def State.nackRead (s : State) : State :=
  ({ s with i3c := { s.i3c with nackedReads := satInc 255 s.i3c.nackedReads } } : State).busAnswer false []

/-- A read of words from the read address (R505).
(DEDUCED, unsafe: notes/assumptions/30.md.) -/
def State.busRead (s : State) (n : Nat) : State :=
  if s.readHeld s.i3c.readAddr then s.nackRead
  else
    let (s1, bs, a) := s.burst s.i3c.readAddr n
    ({ s1 with i3c := { s1.i3c with readAddr := a } } : State).busAnswer true bs

/-- A read of one register: the private write of its address, then the read of one word (R505). -/
def State.readReg (s : State) (a : Nat) : State := if s.i3c.hdr then s else (s.busWrite a []).busRead 1

/-- An HDR-DDR write command (R508).
(DEDUCED, unsafe: notes/assumptions/30.md.) -/
def State.hdrWrite (s : State) (code : Nat) (ws : List Nat) (crcOk : Bool) : State :=
  if s.i3c.hdr = false ∨ code ≠ 0x20 then s
  else if crcOk = false then
    { s with i3c := { s.i3c with hdrCrc := satInc 65535 s.i3c.hdrCrc, protoErr := true } }
  else match ws with
    | lo :: hi :: ds => (s.busAnswer true []).busWrite (lo + 2 ^ 16 * (hi % 256)) (ds.flatMap (leBytes 2))
    | _ => s

/-- An HDR-DDR read command for `n` 16-bit words, at most MRL bytes; a word read by half has no side effect (R507, R508).
(DEDUCED, unsafe: notes/assumptions/30.md.) -/
def State.hdrRead (s : State) (code n : Nat) : State :=
  if s.i3c.hdr = false ∨ code ≠ 0xA0 then s
  else
    let n' := min n (s.i3c.mrl / 2)
    let s1 := s.busRead (n' / 2)
    if n' % 2 = 0 ∨ s1.i3c.ack = false ∨ s1.readHeld s1.i3c.readAddr = true then s1
    else s1.busAnswer true (s1.i3c.resp ++ leBytes 2 (s1.regWord s1.i3c.readAddr))

/-! ### Common command codes (R499 to R502) -/

/-- A direct CCC that reads: answered only at a dynamic address (R502). -/
def State.cccRead (s : State) (resp : List Byte) : State :=
  if s.i3c.hdr then s else if s.i3c.daValid then s.busAnswer true resp else s.busAnswer false []

/-- A broadcast CCC, or a direct one that sets. -/
def State.cccSet (s : State) (f : I3cState → I3cState) : State :=
  if s.i3c.hdr then s else { s with i3c := { f s.i3c with ack := true, resp := [] } }

/-- ENEC and DISEC of ENINT; DISEC cancels every pending IBI (R500, R512).
(DEDUCED, unsafe: notes/assumptions/29.md.) -/
def I3cState.setEnint (x : I3cState) (on : Bool) : I3cState :=
  if on then { x with enint := true } else { x with enint := false, ibi := vrep 7 none }

/-- (DEDUCED, unsafe: notes/assumptions/30.md.) -/
def I3cState.address (x : I3cState) (a : Nat) : I3cState := { x with daValid := true, dynAddr := a }
def I3cState.noAddress (x : I3cState) : I3cState := { x with daValid := false, dynAddr := 0 }

/-- PID, BCR and DCR as ENTDAA sends them (R499). -/
def State.pidBytes (s : State) : List Byte := beBytes 6 (pidHi * 2 ^ 32 + s.i3c.pidLo)
def State.daaBytes (s : State) : List Byte := s.pidBytes ++ beBytes 1 bcr ++ beBytes 1 dcr

/-- ENTDAA: a target without a dynamic address sends its identity, and takes the address where it wins the arbitration. -/
def State.entdaa (s : State) (a : Nat) (won : Bool) : State :=
  if s.i3c.hdr || s.i3c.daValid then s
  else (if won then ({ s with i3c := s.i3c.address a } : State) else s).busAnswer true s.daaBytes

/-- SETMWL: 7 to 4,099 bytes (R500). -/
def I3cState.setMwl (x : I3cState) (n : Nat) : I3cState := if inRange 7 4099 n then { x with mwl := n } else x

/-- SETMRL: 4 to 4,096 bytes, with an IBI payload size of 0 to 8 (R500). -/
def I3cState.setMrl (x : I3cState) (n : Nat) (ibi : Option Nat) : I3cState :=
  let y := if inRange 4 4096 n then { x with mrl := n } else x
  match ibi with
  | some k => if k ≤ 8 then { y with ibiSize := k } else y
  | none => y

/-- The order in which the target requests IBIs (R512). -/
def ibiOrder : List Nat := [irqFault, irqWatch, irqWake, irqCmdDone, irqRecovery, irqLoader, irqSecurity]

/-- The highest pending IBI. -/
def State.ibiFirst (s : State) : Option (Nat × List Byte) :=
  ibiOrder.findSome? fun n => (vget s.i3c.ibi n none).map fun p => (n, p)

/-- The mandatory data byte of a cause (R511). -/
def mdb (n : Nat) : Nat := n + 1

/-- GETSTATUS (R500).
(PRESUMED, unsafe: notes/assumptions/31.md.) -/
def State.statusWord (s : State) : Nat :=
  packNat [(13, 3, s.watch.wstate.code), (12, 1, b2n s.fc.faultNLow), (5, 1, b2n s.i3c.protoErr),
    (0, 4, (s.ibiFirst.map fun x => mdb x.1).getD 0)]

/-- GETSTATUS returns the status and clears the protocol error.
(DEDUCED, unsafe: notes/assumptions/30.md.)
(PRESUMED, unsafe: notes/assumptions/31.md.) -/
def State.getStatus (s : State) : State :=
  let s1 := s.cccRead (beBytes 2 s.statusWord)
  if s.i3c.hdr || !s.i3c.daValid then s1 else { s1 with i3c := { s1.i3c with protoErr := false } }

/-- RSTACT: only defining byte 0x00, no reset, is accepted (R501). -/
def State.rstact (s : State) (db : Nat) : State := if s.i3c.hdr then s else s.busAnswer (db == 0) []

/-- A target reset pattern: the bus state only (R501).
(DEDUCED, unsafe: notes/assumptions/30.md.) -/
def State.busReset (s : State) : State :=
  { s with i3c := { s.i3c with hdr := false, readAddr := 0, resp := [], ack := false } }

/-! ### In-band interrupts (R511, R512) -/

/-- The target's request of the highest pending IBI: acknowledged, it sends the MDB and the payload up to the payload size;
NACKed, it stays pending (R512). Without a dynamic address, with ENINT disabled or in HDR, none is requested (R502).
(DEDUCED, unsafe: notes/assumptions/29.md.) -/
def State.ibiRequest (s : State) (acked : Bool) : State :=
  match s.ibiFirst with
  | some (n, p) =>
    if s.i3c.daValid && s.i3c.enint && !s.i3c.hdr then
      if acked then
        ({ s with i3c := { s.i3c with ibi := vset s.i3c.ibi n none } } : State).busAnswer true
          (beBytes 1 (mdb n) ++ p.take s.i3c.ibiSize)
      else { s with i3c := { s.i3c with nacked := satInc 65535 s.i3c.nacked } }
    else s
  | none => s

end Sys2Proof.Machine
end

