-- ==== Sys2Proof/Machine/Beat.lean ====
section
/-!
DEFINITION. The frame tick (R193), the settling of a beat, the evaluation of the watch at its end (R15, R20), the commit
of the next beat, and what the next beat takes in at its start (R264, R559).

A beat is closed by the BEAT command. What a beat owes and no command of its own has yet delivered is settled then, each
step by the operation of its own command, which acts only where its condition holds (notes/assumptions/5.md).
-/
namespace Sys2Proof.Machine

/-- One operation for each of the first `n` numbers, in order. -/
def State.each (s : State) (n : Nat) (f : State → Nat → State) : State := (upto n).foldl f s

/-! ### FSYNC (R195) -/

/-- The pin of group `k` is active in the present beat. -/
def State.fsyncOn (s : State) (k : Nat) : Bool :=
  s.ticksRun && fsEnable s.planB k &&
    decide (fsOffset s.planB k ≤ s.sched.frameBeat ∧ s.sched.frameBeat < fsOffset s.planB k + fsWidth s.planB k)

def State.setFsync (s : State) (k : Nat) (v : Bool) : State := { s with sched := { s.sched with fsync := vset s.sched.fsync k v } }

/-- The pin goes active (R195). -/
def State.fsyncAssert (s : State) (k : Nat) : State := if s.fsyncOn k then s.setFsync k true else s

/-- The pin returns inactive, and a disabled group holds it inactive (R195). -/
def State.fsyncRelease (s : State) (k : Nat) : State := if s.fsyncOn k then s else s.setFsync k false

/-! ### The frame tick (R193) -/

/-- The frame that closes is clean (R21). -/
def State.closedClean (s : State) : Bool := s.watch.frameClean && s.checksComplete

/-- The count of clean frames at a tick (R21, R22, R558): a partial frame does not count, and a flag that is set returns
the count to 0. -/
def State.countFrame (s : State) : State :=
  let w := s.watch
  if w.wstate == .arming || w.wstate == .floor then
    let n := if w.doubt ≠ 0 then 0 else if w.partialFrame then w.cleanCnt else if s.closedClean then satInc 255 w.cleanCnt else 0
    { s with watch := { w with
        cleanCnt := n, partialFrame := false, countBeat := some s.beat
        armTicks := if w.wstate == .arming then w.armTicks + 1 else w.armTicks } }
  else s

/-- The clear conditions that the end of a frame judges (R20): D2 where every claim record passed, D5 where every check is
complete. -/
def State.frameClears (s : State) : State :=
  let s1 := if s.io.claimFail then ({ s with io := { s.io with claimFail := false } } : State) else s.addClear 2
  if s.checksComplete then s1.addClear 5 else s1

/-- The closing frame's travel moves the scene grid and the floor grid (R59, R72). The yaw rate is that of the INTENT in
effect in that frame (R36).
(DEDUCED, unsafe: notes/assumptions/17.md.) -/
def State.frameTravel (s : State) : State :=
  let d := s.frameDistance
  let p := s.poseStep d (toInt 16 s.watch.intent.yaw) s.frameBeats
  let dx := p.offX + p.nx * (s.cellMm : Rat) - s.grid.offX
  let dy := p.offY + p.ny * (s.cellMm : Rat) - s.grid.offY
  (s.takeDistance.scroll p).floorTick dx dy

/-- The last INTENT accepted in the closing frame takes effect, and INTENT is one frame older (R36, R46). -/
def State.intentTakes (s : State) : State :=
  { s with watch := { s.watch with
      intent := s.watch.intentNext.getD s.watch.intent, intentNext := none, intentAge := satInc 255 s.watch.intentAge } }

/-- What the end of a frame judges and counts (R20, R21, R150, R206, R209). -/
def State.frameEnds (s : State) (a : Nat) : State :=
  (((s.countFrame.frameClears).markOverruns).barrierFailures).reconcile a

/-- CHECK returns at a tick at which T is 115 °C or less (R207). -/
def State.checkReturns (s : State) : State :=
  { s with sched := { s.sched with checkShed := s.sched.checkShed && decide (t115 < s.therm.tNow) } }

/-- What the frame that begins takes up (R36, R62, R65, R182, R194, R199, R208, R410, R411, R473, R491).
(DEDUCED, unsafe: notes/assumptions/17.md.) -/
def State.frameBegins (s : State) : State :=
  let s1 := ((s.intentTakes.checkReturns).coverageTick).altSwitch
  let s2 : State := { s1 with
    golden := { s1.golden with done := 0 }
    sched := { s1.sched with classesFrom := none } }
  let s3 := ((((s2.applyForecast).coverageJudged).rasterise).telTick).summarySend
  let s4 := s3.rotate
  { s4 with
    watch := { s4.watch with frameClean := s4.watch.doubt == 0 && s4.watch.intent.mode == 0 }
    sched := { s4.sched with tickDue := false } }

/-- FRAME_TICK: the tick that falls in the present beat, with the estimated energy A of the closing frame in µJ (R206).
Frame 0 closes nothing: the edges before the tick origin are discarded. A scroll beyond its limit fails the field check of
the frame that the tick starts (R60).
(DEDUCED, unsafe: notes/assumptions/17.md.) -/
def State.frameTick (s : State) (a : Nat) : State :=
  if s.sched.tickDue then
    if s.sched.frame = 0 then ((s.takeDistance.numericFlags).newRuns).frameBegins
    else ((((s.frameEnds a).numericFlags).newRuns).frameTravel).frameBegins
  else s

/-- A tick whose command has not come is taken all the same, with an estimate that is a free value.
(DESIGN CHOICE, unsafe: notes/assumptions/5.md.) -/
def State.tickSettle (s : State) : State := if s.sched.tickDue then s.freed.frameTick (s.free (2 ^ 32)) else s

/-! ### Settling a beat -/

/-- Safe inputs, test pulses, the lock-out reset channels and the encoders at the end of a beat (R265 to R277, R288).
(DESIGN CHOICE, unsafe: notes/assumptions/5.md.) -/
def State.settleInputs (s : State) : State :=
  let s1 := s.each 8 fun t i =>
    ((((((t.discrepancyFault i).stuckOnFault i false).stuckOnFault i true).crossShortFault i false).crossShortFault i true).chatterFault i)
  let s2 := (s1.each 4 fun t k => t.tpPinFault k).each 8 fun t i => (t.safeInputDemand i).safeInputOn i
  let s3 := (s2.each 4 fun t k => (t.tpStart k).tpEnd k).lrstDiscrepancy.lrstIgnored
  ((s3.encoderFault 0).encoderFault 1).crossCheckFault

/-- Read-backs and off-pulses at the end of a beat (R282 to R284).
(DESIGN CHOICE, unsafe: notes/assumptions/5.md.) -/
def State.settleOutputs (s : State) : State :=
  s.each 4 fun t g => ((((t.readbackFailure g false).readbackFailure g true).offPulseEnd g).offPulseStart g false).offPulseStart g true

/-- Watchdogs, heartbeat monitors and primaries at the end of a beat (R317 to R326, R454).
(DESIGN CHOICE, unsafe: notes/assumptions/5.md.) -/
def State.settleWatchdogs (s : State) : State :=
  let s1 := (s.each 16 fun t k => if t.taskRc k then t else t.taskPeriodEnd k)
  let s2 := (if s1.svcRc then s1 else s1.svcPeriodEnd).svcRestartBound
  (s2.each 2 fun t k => (t.hbLost k false).hbPersistSet k).standbyTimer

/-- The writes that wait for the grid engine (R58, R243).
(DESIGN CHOICE, unsafe: notes/assumptions/5.md.) -/
def State.settleWrites (s : State) : State :=
  let s1 := s.grid.stalled.foldl (fun (t : State) _ => t.writeBufferRoom) s
  s1.grid.claimQ.foldl (fun (t : State) _ => t.claimWrite) s1

/-- Sweep, masks and matching whose longest time is over before the next beat (R61, R65, R69).
(DESIGN CHOICE, unsafe: notes/assumptions/5.md.) -/
def State.settleGridTimes (s : State) : State :=
  let due := fun (o : Option Nat) (n : Nat) => match o with | some b => decide (b + n ≤ s.beat + 1) | none => false
  let s1 := if due s.grid.sweepSince 152 then s.sweepComplete else s
  let s2 := if due s.ev.maskDue 8 then s1.masksReady else s1
  if due s.grid.matchDue 4 then s2.objectMatch else s2

/-- The grid's and the floor's rules at the end of a beat (R24, R64, R68, R69, R73).
(DESIGN CHOICE, unsafe: notes/assumptions/5.md.) -/
def State.settleGrid (s : State) : State :=
  let s1 := s.settleWrites.settleGridTimes
  let s2 := ((s1.cellRulePersist.objGraceExpiry).d0Rules).floorOccupancy
  let s3 : State := { s2 with ev := { s2.ev with floorAvail := s2.floorAvailNow } }
  (s3.pairCount.bandBeat).bandDown

/-- Cores, runs, self-tests and sensors at the end of a beat (R120, R187, R199, R209, R450).
(DESIGN CHOICE, unsafe: notes/assumptions/5.md.) -/
def State.settleCores (s : State) : State :=
  let s1 := (s.sensorLimit.each 32 fun t n => (t.coreOffBound n).goldenFail n).cancelBound
  (s1.graphs.foldl (fun (t : State) g => t.runReady g) s1).scrubBeat

/-- Claims, Crocus, publication, time and the pair link at the end of a beat (R242, R246, R249, R252, R471, R476, R487
to R493).
(DESIGN CHOICE, unsafe: notes/assumptions/5.md.) -/
def State.settleStreams (s : State) : State :=
  let s1 := s.each 4 fun t n => t.claimAgeExpiry n
  let s2 := s1.each 16 fun t p => ((t.crocusInjectionStart p).crocusInjectionEnd p).crocusDeadlineDue p
  let s3 := ((s2.verdictExpire.telExpire).syncLossDue).linkCrcRateDue
  ((s3.stagesSettle.stageDoubts).partnerLoss).pairJudge

/-- Everything that the present beat still owes. The recovery of R302 comes after every fault of the beat, and the re-trust
after every flag's cause.
(DESIGN CHOICE, unsafe: notes/assumptions/5.md.) -/
def State.settle (s : State) : State :=
  let s1 := ((s.tickSettle.settleInputs).settleOutputs).settleWatchdogs
  let s2 := ((s1.settleGrid).settleCores).settleStreams
  let s3 := (s2.each 4 fun t k => (t.fsyncAssert k).fsyncRelease k)
  let s4 := ((s3.ss1MaxTimeDue.rampCheck).quietPeriodEnd).overcurrentEnd
  ((((s4.retrustBlock.armFramesReached).retrust).armTimeoutDue).standbyEnter)

/-! ### The doubt flags of the next beat (R20) -/

/-- An active UC fault of the checking path (R20, R301); the verdict port is no part of it (R32).
(DEDUCED, unsafe: notes/assumptions/26.md.) -/
def State.pathFault (s : State) : Bool :=
  (sourcesOf s.fc.activeUc).any fun src => checkingPath src && s.verdictPort != some (src - 76)

/-- The flags whose cause holds or fell in the present beat. -/
def State.doubtSet (s : State) : BitVec 8 :=
  let c := s.watch.causes
  BitVec.ofNat 8 (ofBits [s.ev.d0, c.getLsbD 1 || s.intentOverAge, c.getLsbD 2, c.getLsbD 3, s.heartbeatLost, c.getLsbD 5,
    s.pathFault, c.getLsbD 7])

/-- The flags whose clear condition holds at the end of the present beat. -/
def State.doubtClear (s : State) : BitVec 8 :=
  let c := s.watch.clears
  BitVec.ofNat 8 (ofBits [!s.ev.d0, !(s.watch.causes.getLsbD 1 || s.intentOverAge), c.getLsbD 2, s.canaryClear,
    !s.heartbeatLost, c.getLsbD 5, !s.pathFault, c.getLsbD 7])

/-- The flags of the next beat: none in STOPPED, frozen in HALT (R13, R20). -/
def State.nextDoubt (s : State) : BitVec 8 :=
  match s.watch.wstate with
  | .stopped => 0
  | .halt => s.watch.doubt
  | _ => (s.watch.doubt &&& ~~~s.doubtClear) ||| s.doubtSet

/-- The flags and what `WATCH_DOUBT` says of D1 (R43). -/
def State.takeDoubt (s : State) (d : BitVec 8) : State :=
  { s with watch := { s.watch with
      doubt := d
      d1Claim := if s.watch.wstate == .stopped then 0 else ofBits ((upto 4).map s.overAge)
      d1Intent := s.watch.wstate != .stopped && s.intentOverAge } }

/-! ### The transition (R17 to R19, R289) -/

/-- A lock-out reset sequence has passed (R18, R289): HALT ends.
(DEDUCED, unsafe: notes/assumptions/12.md.) -/
def State.haltOver (s : State) : Bool :=
  s.watch.wstate == .halt && !s.ftActive && !s.st.running && !s.selftestFail && !s.ldr.loading

/-- The transition at the end of the present beat; none in SELFTEST_FAIL (R406). -/
def State.transition (s : State) : Option Trigger :=
  if s.selftestFail then none
  else if s.haltOver then some ⟨.stopped, 0x30⟩
  else s.chosen s.nextDoubt

/-- A fatal fault during the start-up steps is a start-up failure (R415).
(DESIGN CHOICE, unsafe: notes/assumptions/10.md.) -/
def State.startUpFault (s : State) : State := if s.st.running && s.ftActive then s.enterSelftestFail 0 2 0 0 else s

/-- What entry to a state does beside the watch (R51, R194, R240, R280, R393). -/
def State.entryEffects (s : State) (t : Trigger) : State :=
  match t.target with
  | .arming =>
    let s1 := s.gridOnArming.claimsOnArming
    if t.cause = 0x01 then { s1 with sched := { s1.sched with classesFrom := some s1.sched.frame } } else s1
  | .halt => let s1 := s.abandonLoad
             { s1 with lc := { s1.lc with pending := none } }
  | .stopped => if t.cause = 0x30 then { s with so := { s.so with held := false } } else s
  | _ => s

/-- The speed latched on entry to FLOOR and to STOPPING: that of its first beat (R25, R286).
(DEDUCED, unsafe: notes/assumptions/14.md.) -/
def State.latchSpeed (s : State) (t : Trigger) : State :=
  match t.target with
  | .floor => { s with watch := { s.watch with floorVEntry := s.watch.speed.getD 0 } }
  | .stopping => { s with watch := { s.watch with ss1VEntry := s.watch.speed } }
  | _ => s

/-- The state of the new beat.
(DEDUCED, unsafe: notes/assumptions/14.md.) -/
def State.takeTransition (s : State) (o : Option Trigger) : State :=
  match o with
  | some t => ((s.enter t).entryEffects t).latchSpeed t
  | none => s

/-! ### The new beat -/

/-- The frame counters of the new beat (R193): the origin, then a tick every FRAME_BEATS beats. -/
def State.frameCounters (s : State) : State :=
  if s.ticksRun then
    if s.sched.origin = some s.beat then
      ({ s with sched := { s.sched with frame := 0, frameBeat := 0, tickDue := true } } : State).accAtOrigin
    else if s.sched.origin.any (· < s.beat) then
      if s.sched.frameBeat + 1 < s.frameBeats then { s with sched := { s.sched with frameBeat := s.sched.frameBeat + 1 } }
      else ({ s with sched := { s.sched with frame := (s.sched.frame + 1) % 2 ^ 32, frameBeat := 0, tickDue := true } } : State).stagesTick
    else s
  else s

/-- The beat counter, device time and frame counters move to the next beat; what was collected for the evaluation of the
beat before is spent. -/
def State.nextBeat (s : State) : State :=
  let s1 := s.creditReturn
  let s2 := (({ s1 with
    beat := (s1.beat + 1) % 2 ^ 48
    watch := { s1.watch with causes := 0, clears := 0, trig := [] } } : State).advanceTime 50).frameCounters
  s2.encoderBeat

/-- The word that the new beat commits (R28): its reset value while the chip starts up and in SELFTEST_FAIL. -/
def State.commitWord (s : State) : Word :=
  if s.selftestFail || (s.st.running && !s.pwr.waking && s.watch.wstate == .stopped) then 0x0000000E else s.verdictWord

/-- The bookkeeping of clean frames in the new beat (R21): a flag that is set ends the count and the frame. -/
def State.cleanBeat (s : State) : State :=
  let ok := s.watch.doubt == 0 && s.watch.intent.mode == 0
  { s with watch := { s.watch with
      cleanCnt := if s.watch.doubt == 0 then s.watch.cleanCnt else 0
      frameClean := if s.sched.tickDue then s.watch.frameClean else s.watch.frameClean && ok
      sticky := s.watch.sticky ||| s.watch.doubt } }

/-- The commit of the new beat: the word, its records and interrupt, its publication, the outputs (R15, R28 to R31).
(DEDUCED, unsafe: notes/assumptions/14.md.) -/
def State.commit (s : State) (o : Option Trigger) (oldDoubt : BitVec 8) : State :=
  let old := s.watch.verdict.toNat
  let w := s.commitWord
  let k0 := telKey old
  let k1 := telKey w.toNat
  let s1 : State := { s with watch := { s.watch with verdict := w }, tel := { s.tel with prevWord := old } }
  let s2 := ((s1.commitRecords o oldDoubt).watchIrq (k0.1 != k1.1) (k0.2 != k1.2)).postResults o
  let s3 := ((s2.cleanBeat.verdictWordIn).telBeat).pairSend
  s3.driveGroups

/-! ### What the new beat takes in -/

/-- The samples at the start of a beat (R264): pin levels. LRST_A is ON when high, LRST_B when low (R288).
(DEDUCED, unsafe: notes/assumptions/55.md.) -/
def State.samples (s : State) (i : BeatIn) : State :=
  let tp' := vmapIdx (fun k t => s.sampleTp k t (i.tp.getD k false)) s.tp
  let s1 : State := { s with tp := tp' }
  let si' := vmapIdx (fun n x => s1.sampleInput n x (i.si.getD n (false, false)).1 (i.si.getD n (false, false)).2) s1.si
  let s2 : State := { s1 with si := si' }
  let lrst' := s2.sampleLrst s2.lrst i.lrstA (!i.lrstB)
  let groups' := vmapIdx (fun g x =>
    x.sample s2.beat (s2.soPulseWidth g) (s2.soRbOn g) (i.rb.getD g (false, false)).1 (i.rb.getD g (false, false)).2) s2.so.groups
  { s2 with lrst := lrst', so := { s2.so with groups := groups' } }

/-- The fields are evaluated from ARMING onward (R24, R66). -/
def WState.evaluates : WState → Bool
  | .stopped | .halt => false
  | _ => true

/-- A beat in which no field is evaluated: STOPPED and HALT. -/
def EvalState.idle (e : EvalState) : EvalState :=
  { e with c := 0, u := 0, phantom := 0, run := 0, cellRule := false, objRule := false, mainClear := false, fCount := 0
           floorRun := 0, floorOcc := false, floorClear := false, got := false, d0 := false }

/-- The evaluation of the main field in the new beat, as the grid engine answers (R66, R70, R559). -/
def State.evaluateGrid (s : State) (g : GridAnswer) : State :=
  let got := fun (t : State) (b : Bool) => ({ t with ev := { t.ev with got := b } } : State)
  if s.pwr.mainOn = false then got s.noEvaluation false
  else match g with
    | .result => got (s.evaluateMain false) true
    | .mismatch => (got (s.evaluateMain true) true).laneMismatch
    | .silent => got s.noEvaluation false

/-- The evaluation of both fields in the new beat. -/
def State.evaluate (s : State) (g : GridAnswer) : State :=
  if s.watch.wstate.evaluates && s.img.isSome then (s.evaluateGrid g).evaluateFloor
  else { s with ev := s.ev.idle }

/-- Code 7 read from the watch's state register is a fatal fault of the controller pair (R14). -/
def State.stateCode (s : State) (code7 : Bool) : State := if code7 then s.freed.raise 22 .ft (s.free (2 ^ 32)) else s

/-- What the grid engine and the NoC do by themselves in a beat: 3,456 writes drain (R58), and the longest VC0 delivery
is kept (R126).
(DEDUCED, unsafe: notes/assumptions/20.md.) -/
def State.engineBeat (s : State) (wait : Nat) : State :=
  { s with grid := { s.grid with wbuf := s.grid.wbuf - 3456 }
           noc := { s.noc with waitMax := if s.pwr.mainOn then max s.noc.waitMax (min 255 wait) else s.noc.waitMax } }

/-- The scheduler at the start of a beat: windows, voltage, primaries and credit (R196, R202, R203, R447, R454). -/
def State.schedBeat (s : State) : State :=
  let s1 := (s.windowsBeat.avsTargetChange).accBeat
  if s1.ticksRun && s1.pwr.mainOn then s1.creditGrant.creditAllocate else s1

/-- The start of the new beat. -/
def State.openBeat (s : State) (i : BeatIn) : State :=
  let s1 := ((((s.linkTrain.thermBeat).shedCheck).taskBeat).svcBeat).faultNRelease
  let s2 := (s1.pulsesFallDue.samples i).comparators i.cmp0 i.cmp1
  let s3 := ((s2.stateCode i.code7).engineBeat i.nocWait).crossCheckBeat
  (s3.evaluate i.grid).schedBeat

/-! ### BEAT -/

/-- The clock of the beats runs: the island is powered and its crystal runs (R311, R312).
(DEDUCED, safe: notes/assumptions/6.md.) -/
def State.clocked (s : State) : Bool := s.powered && s.xtalOk

/-- BEAT: the present beat ends and is evaluated, and the next one is committed and begins (R15).
(DEDUCED, safe: notes/assumptions/6.md.)
(DESIGN CHOICE, safe: notes/assumptions/68.md.)
(DESIGN CHOICE, unsafe: notes/assumptions/69.md.) -/
def State.beatStep (s : State) (i : BeatIn) : State :=
  let s1 := s.settle.startUpFault
  let o := s1.transition
  let old := s1.watch.doubt
  let s2 := (s1.takeDoubt s1.nextDoubt).nextBeat
  ((s2.takeTransition o).commit o old).openBeat i

end Sys2Proof.Machine
end

