-- ==== Sys2Proof/Machine/Steps.lean ====
section
/-!
DEFINITION. What the meanings of the commands share: when a command has an effect at all, and three operations that stand in
no family of their own.
-/
namespace Sys2Proof.Machine

/-- What a command answers. -/
abbrev Answer := Host.Outcome State Fault Refusal

/-- A command of the island: without its supplies nothing happens (R311).
(DEDUCED, safe: notes/assumptions/3.md.) -/
def State.island (s : State) (f : State → State) : Answer := .next (if s.powered then f s else s)

/-- A command of the main domain: nothing happens there while it is off (R91, R452).
(DEDUCED, safe: notes/assumptions/3.md.) -/
def State.inMainDomain (s : State) (f : State → State) : Answer := .next (if s.powered && s.pwr.mainOn then f s else s)

def secCtrlAddr : Nat := 0x0F0044

/-- A write to a main-domain register that starts an operation: ignored and recorded while the domain is off (R506). -/
def State.mainReg (s : State) (a : Nat) (f : State → State) : State := if s.pwr.mainOn then f s else s.ignoredWrite a 3

/-- A change of the filtered levels of encoder `e` (R274, R275); only ENC0 has an index. -/
def State.encoderEdge (s : State) (e : Nat) (a b zRise : Bool) : State :=
  let edge := fun (x : Encoder) => x.change (s.encReverse e) (s.encZEdges e) (s.encZTol e) a b (zRise && e == 0)
  { s with enc := { s.enc with enc := vmod s.enc.enc e edge } }

/-- The crystal stops: a fatal fault from source 1, and no further beat passes until it returns (R192, R312). The spec gives
the source no info value: it is free.
(DEDUCED, safe: notes/assumptions/6.md.)
(DESIGN CHOICE, safe: notes/assumptions/25.md.) -/
def State.crystalStop (s : State) : State :=
  if s.xtalOk then ({ s with xtalOk := false } : State).freed.raise 1 .ft (s.free (2 ^ 32)) else s

end Sys2Proof.Machine
end

