-- ==== Sys2Proof/Machine/BusSteps.lean ====
section
/-!
DEFINITION. The meanings of the commands: the I3C bus (spec/17_i3c_register_index.md, R498 to R513).
-/
namespace Sys2Proof.Machine

/-- REGISTER_WRITE (R503, R506, R509). -/
def execRegisterWrite (bs : List Byte) (parityError : Bool) (s : State) : Answer :=
  s.island fun s => s.registerWrite bs parityError

/-- ENEC (R500). -/
def execEnec (enint : Bool) (s : State) : Answer :=
  s.island fun s => s.cccSet fun x => if enint then x.setEnint true else x

/-- DISEC (R500, R512). -/
def execDisec (enint : Bool) (s : State) : Answer :=
  s.island fun s => s.cccSet fun x => if enint then x.setEnint false else x

/-- RSTDAA (R500). -/
def execRstdaa (s : State) : Answer :=
  s.island fun s => s.cccSet fun x => x.noAddress

/-- ENTDAA (R499, R500). -/
def execEntdaa (addr : BitVec 7) (won : Bool) (s : State) : Answer :=
  s.island fun s => s.entdaa addr.toNat won

/-- SETMWL (R500). -/
def execSetmwl (n : BitVec 16) (s : State) : Answer :=
  s.island fun s => s.cccSet fun x => x.setMwl n.toNat

/-- SETMRL (R500). -/
def execSetmrl (n : BitVec 16) (ibi : Option Byte) (s : State) : Answer :=
  s.island fun s => s.cccSet fun x => x.setMrl n.toNat (ibi.map fun b => b.toNat)

/-- RSTACT (R501). -/
def execRstact (db : Byte) (s : State) : Answer :=
  s.island fun s => s.rstact db.toNat

/-- ENTHDR0 (R508). -/
def execEnthdr0 (s : State) : Answer :=
  s.island fun s => s.cccSet fun x => { x with hdr := true }

/-- HDR_DDR_WRITE (R508). -/
def execHdrDdrWrite (code : Byte) (words : List (BitVec 16)) (crcOk : Bool) (s : State) : Answer :=
  s.island fun s => s.hdrWrite code.toNat (words.map fun w => w.toNat) crcOk

/-- HDR_DDR_READ (R508). -/
def execHdrDdrRead (code : Byte) (n : Nat) (s : State) : Answer :=
  s.island fun s => s.hdrRead code.toNat n

/-- SETDASA (R500): addressed to the static address, which the target has without a dynamic one. -/
def execSetdasa (addr : BitVec 7) (s : State) : Answer :=
  s.island fun s => s.cccSet fun x => if x.daValid then x else x.address addr.toNat

/-- SETNEWDA (R500). -/
def execSetnewda (addr : BitVec 7) (s : State) : Answer :=
  s.island fun s => s.cccSet fun x => if x.daValid then x.address addr.toNat else x

/-- GETMWL (R500). -/
def execGetmwl (s : State) : Answer :=
  s.island fun s => s.cccRead (beBytes 2 s.i3c.mwl)

/-- GETMRL (R500). -/
def execGetmrl (s : State) : Answer :=
  s.island fun s => s.cccRead (beBytes 2 s.i3c.mrl ++ beBytes 1 s.i3c.ibiSize)

/-- GETPID (R499). -/
def execGetpid (s : State) : Answer :=
  s.island fun s => s.cccRead s.pidBytes

/-- GETBCR (R499). -/
def execGetbcr (s : State) : Answer :=
  s.island fun s => s.cccRead (beBytes 1 bcr)

/-- GETDCR (R499). -/
def execGetdcr (s : State) : Answer :=
  s.island fun s => s.cccRead (beBytes 1 dcr)

/-- GETSTATUS (R500). -/
def execGetstatus (s : State) : Answer :=
  s.island fun s => s.getStatus

/-- GETMXDS (R500): no limit. -/
def execGetmxds (s : State) : Answer :=
  s.island fun s => s.cccRead [0, 0]

/-- GETCAPS (R500): HDR-DDR, I3C Basic v1.1 (PRESUMED byte values).
(PRESUMED, unsafe: notes/assumptions/31.md.) -/
def execGetcaps (s : State) : Answer :=
  s.island fun s => s.cccRead [1, 1]

/-- TARGET_RESET_PATTERN (R501). -/
def execTargetResetPattern (s : State) : Answer :=
  s.island fun s => s.busReset

/-- IBI_REQUEST (R512). -/
def execIbiRequest (acked : Bool) (s : State) : Answer :=
  s.island fun s => s.ibiRequest acked

/-- HDR_EXIT (R508). -/
def execHdrExit (s : State) : Answer :=
  s.island fun s => { s with i3c := { s.i3c with hdr := false } }

end Sys2Proof.Machine
end

