-- ==== Sys2Proof/Machine/Compute.lean ====
section
/-!
DEFINITION. Micro-operations (spec/03_engines_numerics.md R94, R95, R106 to R117, spec/06 R204): issue, with the arithmetic
and its flags, and retirement.
-/
namespace Sys2Proof.Machine

/-- The rounding mode of a ROUND code (R110). -/
def modeOf (r : Nat) : RoundMode := if r = 1 then .stochastic else if r = 2 then .truncate else .nearestEven

/-- The integer format of a code that requantisation writes. -/
def intOf (f : Nat) : Option IntFmt :=
  match f with
  | 0x00 => some .int8
  | 0x01 => some .uint8
  | 0x02 => some .int4
  | _ => none

/-- What a micro-operation takes from its descriptor: ROUND, the format of IN0, the requantisation block (R142), scales and
zero points. -/
structure OpCtx where
  mode : RoundMode
  intAcc : Bool
  m0 : Nat
  shift : Nat
  zp : Nat
  radiusAdd : Nat
  unpack : Nat
  scaleIn : Rat
  zpIn : Nat
  scaleOut : Rat
  deriving DecidableEq, Repr

def opCtx (b : List Byte) (g k : Nat) : OpCtx :=
  let t0 := dIn b g k 0
  let out := dOut b g k
  { mode := modeOf (dRound b g k), intAcc := tFormat b g t0 ≤ 0x02 || tFormat b g t0 == 0x0C, m0 := dW b g k 0x30
    shift := dB b g k 0x34, zp := dB b g k 0x35, radiusAdd := dB b g k 0x3C, unpack := dB b g k 0x27
    scaleIn := f32 (tScale b g t0), zpIn := tZp b g t0, scaleOut := f32 (tScale b g out) }

/-! ### An engine's memory and accumulators -/

def EngState.rd (e : EngState) (a n : Nat) : Nat := ofLe (e.sram.readN a n)
def EngState.wr (e : EngState) (a n v : Nat) : EngState := { e with sram := e.sram.writeN a (leBytes n v) }

/-- The raw bits of an element: an INT4 address counts nibbles (R107). -/
def EngState.raw (e : EngState) (f a : Nat) : Nat :=
  if f = 0x02 then bits (e.rd (a / 2) 1) (4 * (a % 2)) 4 else e.rd a (elemBytes f)

/-- An element written: the other nibble of a byte stays (R107). -/
def EngState.putRaw (e : EngState) (f a v : Nat) : EngState :=
  if f = 0x02 then
    let old := e.rd (a / 2) 1
    e.wr (a / 2) 1 (if a % 2 = 0 then old / 16 * 16 + v % 16 else v % 16 * 16 + old % 16)
  else e.wr a (elemBytes f) v

def EngState.value (e : EngState) (f a : Nat) : FVal := rawValue f (e.raw f a)

/-- The integer that an element holds. -/
def EngState.int (e : EngState) (f a : Nat) : Int :=
  match e.value f a with
  | .fin q => q.floor
  | _ => 0

def EngState.getAcc (e : EngState) (a : Nat) : BitVec 32 := Sparse.get 0 e.acc a
def EngState.putAcc (e : EngState) (a : Nat) (v : BitVec 32) : EngState := { e with acc := Sparse.put 0 e.acc a v }
def EngState.getRacc (e : EngState) (a : Nat) : Nat := (Sparse.get (0 : BitVec 32) e.racc a).toNat
def EngState.putRacc (e : EngState) (a v : Nat) : EngState :=
  { e with racc := Sparse.put 0 e.racc a (BitVec.ofNat 32 (min (2 ^ 32 - 1) v)) }

/-- Sticky flags (R112). -/
def EngState.flag (e : EngState) (fs : List Nat) : EngState :=
  let m := fs.foldl (fun (m : BitVec 8) f => m ||| BitVec.twoPow 8 f) 0
  { e with flags := e.flags ||| m, frameFlags := e.frameFlags ||| m }

/-- One value has been rounded (R110). -/
def EngState.rounded (e : EngState) (m : RoundMode) : EngState := { e with lfsr := lfsrAfter m e.lfsr }

/-- A value stored in a plain format, rounded in a mode; `zp` is added in the integer formats (R108, R111). -/
def EngState.store (e : EngState) (m : RoundMode) (f dst : Nat) (zp : Int) (v : FVal) : EngState :=
  match intOf f with
  | some i =>
    let r := match v with
      | .fin q => satFlag i.lo i.hi (roundTo m e.lfsr q + zp) flagOutSat
      | v => toIntFmt i m e.lfsr v
    ((e.putRaw f dst (ofInt 8 r.val)).flag r.flags).rounded m
  | none =>
    match fpOf f with
    | some p =>
      let r := p.convert m e.lfsr v
      ((e.putRaw f dst (p.encode r.val)).flag r.flags).rounded m
    | none =>
      let lo : Int := if f = 0x0B then -(2 ^ 31) else 0
      let hi : Int := if f = 0x0B then 2 ^ 31 - 1 else 65535
      match v with
      | .fin q =>
        let r := satFlag lo hi (roundTo m e.lfsr q + zp) flagOutSat
        ((e.putRaw f dst (ofInt 32 r.val)).flag r.flags).rounded m
      | .inf n => (e.putRaw f dst (ofInt 32 (if n then lo else hi))).flag [flagOutSat, flagInf]
      | .nan => (e.putRaw f dst 0).flag [flagConvNan]

/-- One envelope element at the addresses of its midpoint and radius (R114). -/
def EngState.env (e : EngState) (a ra : Nat) : Env := ⟨toInt 8 (e.rd a 1), e.rd ra 1⟩

def EngState.putEnv (e : EngState) (dst rdst : Nat) (m : RoundMode) (v : Flagged Env) : EngState :=
  (((e.wr dst 1 (ofInt 8 v.val.m)).wr rdst 1 v.val.rad).flag v.flags).rounded m

/-! ### The micro-operations -/

/-- A multiplier and a shift as a rational.
(DEDUCED, unsafe: notes/assumptions/34.md.) -/
def mulShift (m s : Nat) : Rat := (m : Rat) / ((2 ^ s : Nat) : Rat)

/-- The sum of two values at full precision. -/
def FVal.add (a b : FVal) : FVal :=
  match a, b with
  | .fin x, .fin y => .fin (x + y)
  | .inf n, .fin _ | .fin _, .inf n => .inf n
  | .inf n, .inf m => if n = m then .inf n else .nan
  | _, _ => .nan

/-- The larger or smaller of two values; NaN wins. -/
def FVal.pick (big : Bool) (a b : FVal) : FVal :=
  match a, b with
  | .fin x, .fin y => .fin (if big then max x y else min x y)
  | .inf n, .fin y | .fin y, .inf n => if n = big then .fin y else .inf n
  | .inf n, .inf m => if big then .inf (n && m) else .inf (n || m)
  | _, _ => .nan

/-- A multiply-accumulate (R94, R111): integer formats in INT32, the others in FP32. -/
def EngState.mac (e : EngState) (fa fw acc a w : Nat) : EngState :=
  if isIntFmt fa && isIntFmt fw then
    let r := macInt (e.getAcc acc).toInt (e.int fa a) (e.int fw w)
    (e.putAcc acc (BitVec.ofInt 32 r.val)).flag r.flags
  else
    let r := macFp (FpFmt.fp32.decode (e.getAcc acc).toNat) (e.value fa a) (e.value fw w)
    (e.putAcc acc (BitVec.ofNat 32 (FpFmt.fp32.encode r.val))).flag r.flags

/-- One block of an MX format (R109): 32 products at full precision, the exponents added, accumulated in FP32. -/
def EngState.macMx (e : EngState) (f acc a w ea ew : Nat) : EngState :=
  let sa := e.rd ea 1
  let sw := e.rd ew 1
  let sum := (upto 32).foldl (fun v i => v.add ((e.value f (a + i)).mul (e.value f (w + i)))) (.fin 0)
  let r := macFp (FpFmt.fp32.decode (e.getAcc acc).toNat) sum ((e8m0 sa).mul (e8m0 sw))
  ((e.putAcc acc (BitVec.ofNat 32 (FpFmt.fp32.encode r.val))).flag r.flags).flag
    (if sa = 255 ∨ sw = 255 then [flagMxScaleNan] else [])

/-- An accumulator leaves for memory (R108, R111): requantised into an integer format, as it is into INT32, converted into
a floating-point format. -/
def EngState.drain (e : EngState) (x : OpCtx) (f acc dst m0 shift zp : Nat) : EngState :=
  let v : FVal := if x.intAcc then .fin ((e.getAcc acc).toInt : Rat) else FpFmt.fp32.decode (e.getAcc acc).toNat
  match intOf f, x.intAcc with
  | some i, true =>
    let r := requant i x.mode e.lfsr (e.getAcc acc).toInt m0 shift zp
    ((e.putRaw f dst (ofInt 8 r.val)).flag r.flags).rounded x.mode
  | _, _ => e.store x.mode f dst 0 v

/-- ELTWISE (R145) in an integer or a floating-point format.
(DEDUCED, unsafe: notes/assumptions/34.md.) -/
def EngState.eltwise (e : EngState) (x : OpCtx) (func f a b dst ma sa mb sb zp : Nat) : EngState :=
  let scale := fun (m s : Nat) => if isIntFmt f then FVal.fin (mulShift m s) else FVal.fin 1
  let va := (e.value f a).mul (scale ma sa)
  let vb := (e.value f b).mul (scale mb sb)
  let v := match func with
    | 0 => va.add vb
    | 1 => va.add (vb.mul (.fin (-1)))
    | 2 => va.mul (e.value f b)
    | 3 => FVal.pick true va vb
    | _ => FVal.pick false va vb
  e.store x.mode f dst (if isIntFmt f then zp else 0) v

/-- ACT on a plain element (R96, R142). -/
def EngState.act (e : EngState) (x : OpCtx) (f func src dst : Nat) : EngState :=
  if isIntFmt f then e.store x.mode f dst 0 (.fin (actValue func (e.int f src) : Rat))
  else if func = 0 then e.store x.mode f dst 0 (e.value f src)
  else if func = 1 then e.store x.mode f dst 0 (FVal.pick true (e.value f src) (.fin 0))
  else e.putRaw f dst (Config.sfuFp f func (e.raw f src))

/-- CONVERT of one element (R108, R111, R117, R145): `ra` is the radius byte of an envelope output.
(DEDUCED, unsafe: notes/assumptions/34.md.) -/
def EngState.convert (e : EngState) (x : OpCtx) (src dst a b ra : Nat) : EngState :=
  if dst = 0x0C then
    if src = 0x00 then e.putEnv b ra x.mode ⟨envFromInt (e.int src a) x.radiusAdd, []⟩
    else
      let v := (e.value src a).mul (if x.scaleOut = 0 then .fin 0 else .fin (1 / x.scaleOut))
      e.putEnv b ra x.mode (envFromFp x.mode e.lfsr v x.radiusAdd)
  else
    let raw : FVal := if src = 0x0D then .fin ((e.raw src a / 2 ^ x.unpack : Nat) : Rat) else e.value src a
    let fromInt := isIntFmt src || src == 0x0C
    let toI := isIntFmt dst
    let v : FVal :=
      if fromInt && toI then raw.mul (.fin (mulShift x.m0 x.shift))
      else if fromInt then (raw.add (.fin (-(x.zpIn : Rat)))).mul (.fin x.scaleIn)
      else if toI then raw.mul (if x.scaleOut = 0 then .fin 0 else .fin (1 / x.scaleOut))
      else raw
    e.store x.mode dst b (if toI then x.zp else 0) v

/-- The largest exponent of an MX element format (R109). -/
def mxEmax (f : Nat) : Int := if f = 0x05 then 0 else if f = 0x06 then 8 else 15

/-- 32 values made into one MX block (R109).
(DEDUCED, unsafe: notes/assumptions/34.md.) -/
def EngState.mxPack (e : EngState) (x : OpCtx) (src f a dst scale : Nat) : EngState :=
  let vs := (upto 32).map fun i => e.value src (a + i * elemBytes src)
  let fins := vs.map fun v => match v with | .fin q => q | _ => 0
  let sh := clampI (-127) 127 (mxShared fins (mxEmax f))
  let e1 := e.wr scale 1 (ofInt 8 (sh + 127))
  (upto 32).foldl (fun (t : EngState) i =>
    let v := (vs.getD i (.fin 0)).mul (.fin (pow2 (-sh)))
    if f = 0x05 then t.store x.mode 0x00 (dst + i) 0 (v.mul (.fin 64)) else t.store x.mode f (dst + i) 0 v) e1

/-- A comparison of THRESHOLD (R145). -/
def cmpHolds (cmp : Nat) (v t : Rat) : Bool :=
  match cmp with
  | 0 => decide (t ≤ v)
  | 1 => decide (t < v)
  | 2 => decide (v ≤ t)
  | _ => decide (v < t)

/-- THRESHOLD (R141): 1 or 0 on a plain input; on an interval 1 for every value, 0 for none, else 2. A NaN holds in no
comparison.
(DEDUCED, unsafe: notes/assumptions/34.md.) -/
def EngState.threshold (e : EngState) (f cmp : Nat) (thresh : Int) (a : Nat) (radius : Option Nat) (dst : Nat) : EngState :=
  match radius with
  | some ra =>
    let v := e.env a ra
    let l := cmpHolds cmp (v.lo : Rat) thresh
    let h := cmpHolds cmp (v.hi : Rat) thresh
    e.wr dst 1 (if l && h then 1 else if !l && !h then 0 else 2)
  | none => e.wr dst 1 (match e.value f a with
    | .fin q => b2n (cmpHolds cmp q thresh)
    | .inf n => b2n (n != (cmp == 0 || cmp == 1))
    | .nan => 0)

/-- `b` beats `a` in ARGMAX: strictly larger. -/
def FVal.above (a b : FVal) : Bool :=
  match a, b with
  | .fin x, .fin y => decide (x < y)
  | .inf n, .fin _ => n
  | .fin _, .inf n => !n
  | .inf n, .inf m => n && !m
  | .nan, .nan => false
  | .nan, _ => true
  | _, .nan => false

/-- ARGMAX over `n` elements: ties break toward the lower index (R141). -/
def EngState.argmax (e : EngState) (f n a dst : Nat) : EngState :=
  let best := (upto n).foldl (fun (o : Nat) i =>
    if FVal.above (e.value f (a + o * elemBytes f)) (e.value f (a + i * elemBytes f)) then i else o) 0
  e.wr dst 2 best

/-- The effect of a micro-operation on its own engine; moves are elsewhere.
(DESIGN CHOICE, safe: notes/assumptions/65.md.) -/
def EngState.run (e : EngState) (x : OpCtx) (op : MicroOp) : EngState :=
  match op with
  | .control => e
  | .setAcc a v => (e.putAcc a v).putRacc a 0
  | .mac fa fw acc a w => e.mac fa fw acc a w
  | .macMx f acc a w ea ew => e.macMx f acc a w ea ew
  | .drain f acc dst m0 shift zp => e.drain x f acc dst m0 shift zp
  | .envMac acc a rad w =>
    let r := macInt (e.getAcc acc).toInt (e.int 0x00 a) (e.int 0x00 w)
    ((e.putAcc acc (BitVec.ofInt 32 r.val)).flag r.flags).putRacc acc (e.getRacc acc + (e.int 0x00 w).natAbs * e.rd rad 1)
  | .envDrain acc dst rad m0 shift =>
    e.putEnv dst rad x.mode (envRequant x.mode e.lfsr (e.getAcc acc).toInt (e.getRacc acc) m0 shift)
  | .envBinary k a ra b rb dst rdst ma sa mb sb =>
    let p := e.env a ra
    let q := e.env b rb
    e.putEnv dst rdst x.mode (match k with
      | .add => envAdd x.mode e.lfsr false p q (mulShift ma sa) (mulShift mb sb)
      | .sub => envAdd x.mode e.lfsr true p q (mulShift ma sa) (mulShift mb sb)
      | .mul => envMul x.mode e.lfsr p q (mulShift ma sa)
      | .max => envMaxMin true p q
      | .min => envMaxMin false p q)
  | .envAct f a ra dst rdst =>
    let p := e.env a ra
    e.putEnv dst rdst x.mode (if f = 0 then ⟨p, []⟩ else if f ≥ 9 then envDip f (Config.sfuMin f) p else envMonotone f p)
  | .eltwise func f a b dst ma sa mb sb zp => e.eltwise x func f a b dst ma sa mb sb zp
  | .act f func src dst => e.act x f func src dst
  | .convert src dst a b radius => e.convert x src dst a b radius
  | .mxPack src f a dst scale => e.mxPack x src f a dst scale
  | .threshold f cmp thresh a radius dst => e.threshold f cmp thresh a radius dst
  | .argmax f n a dst => e.argmax f n a dst
  | .move _ _ _ => e

/-- Bytes of a place in memory, seen from engine `g` (R94, R92).
(DESIGN CHOICE, unsafe: notes/assumptions/64.md.) -/
def State.memRead (s : State) (g n : Nat) : MemLoc → List Byte
  | .engine a => (s.eng g).sram.readN a n
  | .core a => (s.core (g / 4)).sram.readN a n
  | .gddr a => s.gddrMem.readN a n

/-- Bytes written to a place in memory; a write of a whole unit clears its poison (R104).
(DEDUCED, unsafe: notes/assumptions/39.md.)
(DESIGN CHOICE, unsafe: notes/assumptions/64.md.) -/
def State.memWrite (s : State) (g : Nat) (bs : List Byte) : MemLoc → State
  | .engine a => s.modEng g fun e => { e with sram := e.sram.writeN a bs }
  | .core a => s.modCore (g / 4) fun c => { c with sram := c.sram.writeN a bs }
  | .gddr a => { s with gddrMem := s.gddrMem.writeN a bs
                        poison := s.poison.filter fun u => !decide (a ≤ 32 * u ∧ 32 * u + 32 ≤ a + bs.length) }

/-- The effect of a micro-operation (R94): on its engine, or a move. -/
def State.microEffect (s : State) (g : Nat) (x : OpCtx) (op : MicroOp) : State :=
  match op with
  | .move src dst n => s.memWrite g (s.memRead g n src) dst
  | op => s.modEng g fun e => e.run x op

/-! ### Issue and retirement (R95, R204) -/

/-- The sequencer entry of a descriptor on a core. -/
def State.entryOf (s : State) (n : Nat) (r : DescRef) : Option SeqEntry := (s.core n).seq.find? fun e => e.ref == r

def State.modEntry (s : State) (n : Nat) (r : DescRef) (f : SeqEntry → SeqEntry) : State :=
  s.modCore n fun c => { c with seq := c.seq.map fun e => if e.ref == r then f e else e }

/-- A COMPARE reads pairs only once both copies have reached it (R163). -/
def State.partnerThere (s : State) (r : DescRef) : Bool :=
  dOp s.graB r.graph r.desc != 0x50 || s.dispatched r.graph 1 r.desc

/-- An engine may issue a micro-operation of a descriptor now (R95, R204, R209).
(DESIGN CHOICE, safe: notes/assumptions/65.md.) -/
def State.mayIssue (s : State) (g : Nat) (r : DescRef) : Bool :=
  let n := g / 4
  match s.entryOf n r with
  | none => false
  | some e =>
    (s.core n).pwr == .active && !(s.core n).portClosed && decide (0 < vget e.left (g % 4) 0)
      && decide ((s.eng g).inflight < 1024) && (s.run r.graph).cancelBy.isNone && s.partnerThere r
      && s.covers n e.cls (s.eUop (dCost s.graB r.graph r.desc) * s.sched.costScale)

/-- A micro-operation issues (R95, R204): charged, counted in the window, with its effect.
(DESIGN CHOICE, safe: notes/assumptions/65.md.) -/
def State.microopIssue (s : State) (g : Nat) (r : DescRef) (op : MicroOp) : State :=
  if s.mayIssue g r then
    let n := g / 4
    let cls := gClass s.graB r.graph
    let s1 := s.charge n cls (s.eUop (dCost s.graB r.graph r.desc))
    let s1 := s1.modEntry n r fun e => { e with left := vmod e.left (g % 4) (· - 1), fly := vmod e.fly (g % 4) (· + 1) }
    let s1 := s1.modEng g fun e => { e with inflight := e.inflight + 1, hwm := max e.hwm (e.inflight + 1) }
    s1.microEffect g (opCtx s.graB r.graph r.desc) op
  else s

/-- A micro-operation retires, and its descriptor with the last one (R95); a COMPARE retires with its comparison (R163). -/
def State.microopRetire (s : State) (g : Nat) (r : DescRef) : State :=
  let n := g / 4
  match s.entryOf n r with
  | none => s
  | some e =>
    if vget e.fly (g % 4) 0 = 0 then s
    else
      let s1 := s.modEntry n r fun e => { e with fly := vmod e.fly (g % 4) (· - 1) }
      let s1 := s1.modEng g fun e => { e with inflight := e.inflight - 1 }
      match s1.entryOf n r with
      | some e =>
        if dOp s.graB r.graph r.desc ≠ 0x50 ∧ (e.left.toList.all (· == 0)) = true ∧ (e.fly.toList.all (· == 0)) = true then
          s1.retireDesc r.graph r.copy r.desc
        else s1
      | none => s1

end Sys2Proof.Machine
end

