-- ==== Sys2Proof/Machine/CoreSteps.lean ====
section
/-!
DEFINITION. The meanings of the commands: cores, windows and runs (spec/03_engines_numerics.md to spec/06_time_plan_budget.md).
-/
namespace Sys2Proof.Machine

/-- CORE_UNIT_FAULT (R120). -/
def execCoreUnitFault (core : Fin 32) (engines : BitVec 4) (unit : Byte) (s : State) : Answer :=
  s.inMainDomain fun s => s.coreFault core.val engines unit.toNat

/-- CORE_OFF (R120). -/
def execCoreOff (core : Fin 32) (s : State) : Answer :=
  s.inMainDomain fun s => s.coreOff core.val

/-- CORRECTABLE_SRAM_ERROR (R121). -/
def execCorrectableSramError (core : Fin 32) (engine : Option (Fin 4)) (s : State) : Answer :=
  s.inMainDomain fun s => s.sramCe core.val engine

/-- WINDOW_OPEN (R196). -/
def execWindowOpen (core : Fin 32) (s : State) : Answer :=
  s.inMainDomain fun s => s.windowOpen core.val

/-- WINDOW_CLOSE (R213). -/
def execWindowClose (core : Fin 32) (s : State) : Answer :=
  s.inMainDomain fun s => s.windowClose core.val

/-- CORE_WAKE_DONE (R99). -/
def execCoreWakeDone (core : Fin 32) (s : State) : Answer :=
  s.inMainDomain fun s => s.coreWakeDone core.val

/-- AVS_TARGET_CHANGE (R447). -/
def execAvsTargetChange (s : State) : Answer :=
  s.inMainDomain fun s => s.avsTargetChange

/-- RUN_READY (R199). -/
def execRunReady (graph : Fin 64) (s : State) : Answer :=
  s.inMainDomain fun s => s.runReady graph.val

/-- DESCRIPTOR_DISPATCH (R200). -/
def execDescriptorDispatch (core : Fin 32) (s : State) : Answer :=
  s.inMainDomain fun s => s.dispatch core.val

/-- MICROOP_ISSUE (R204). -/
def execMicroopIssue (engine : Fin 128) (graph : Fin 64) (copy : Fin 2) (desc : Nat) (op : MicroOp) (s : State) : Answer :=
  s.inMainDomain fun s => s.microopIssue engine.val ⟨graph.val, copy.val, desc⟩ op

/-- MICROOP_RETIRE (R95). -/
def execMicroopRetire (engine : Fin 128) (graph : Fin 64) (copy : Fin 2) (desc : Nat) (s : State) : Answer :=
  s.inMainDomain fun s => s.microopRetire engine.val ⟨graph.val, copy.val, desc⟩

/-- DESCRIPTOR_FAIL (R153). -/
def execDescriptorFail (graph : Fin 64) (copy : Fin 2) (desc : Nat) (s : State) : Answer :=
  s.inMainDomain fun s => s.descFail graph.val copy.val desc

/-- COMPARE_EXECUTE (R163). -/
def execCompareExecute (graph : Fin 64) (desc : Nat) (s : State) : Answer :=
  s.inMainDomain fun s => s.compareExecute graph.val desc

/-- BARRIER_PASS (R150). -/
def execBarrierPass (graph : Fin 64) (copy : Fin 2) (desc : Nat) (s : State) : Answer :=
  s.inMainDomain fun s => s.barrierPass graph.val copy.val desc

end Sys2Proof.Machine
end

