-- ==== Sys2Proof/Machine/FaultSteps.lean ====
section
/-!
DEFINITION. The meanings of the commands: watchdogs, monitors and fault collection (spec/09_faults_watchdogs.md).
-/
namespace Sys2Proof.Machine

/-- HEARTBEAT_EDGE (R323, R324). -/
def execHeartbeatEdge (k : Fin 2) (level : Bool) (own : Nat) (s : State) : Answer :=
  s.island fun s => s.hbEdge k.val level own (s.prim k.val).pwrEn

/-- HEARTBEAT_LOST (R324). -/
def execHeartbeatLost (k : Fin 2) (own : Bool) (s : State) : Answer :=
  s.island fun s => s.hbLost k.val own

/-- HEARTBEAT_PERSIST (R324). -/
def execHeartbeatPersist (k : Fin 2) (s : State) : Answer :=
  s.island fun s => s.hbPersistSet k.val

/-- PWR_TO_RST_EXPIRY (R454). -/
def execPwrToRstExpiry (k : Fin 2) (s : State) : Answer :=
  s.island fun s => s.pwrToRst k.val

/-- RST_TO_OFF_EXPIRY (R454). -/
def execRstToOffExpiry (k : Fin 2) (s : State) : Answer :=
  s.island fun s => s.rstToOff k.val

/-- OFF_BEATS_EXPIRY (R455). -/
def execOffBeatsExpiry (k : Fin 2) (s : State) : Answer :=
  s.island fun s => s.offBeatsOver k.val

/-- TASK_PERIOD_END (R319). -/
def execTaskPeriodEnd (task : Fin 16) (s : State) : Answer :=
  s.island fun s => s.taskPeriodEnd task.val

/-- SVC_PERIOD_END (R322). -/
def execSvcPeriodEnd (s : State) : Answer :=
  s.island fun s => s.svcPeriodEnd

/-- SERVICE_CORE_RESTART (R322). -/
def execServiceCoreRestart (s : State) : Answer :=
  s.island fun s => s.svcRestart

/-- STANDBY_WAKE_TIMER (R326). -/
def execStandbyWakeTimer (s : State) : Answer :=
  s.island fun s => s.standbyTimer

/-- CLOCK_MONITOR_TRIP (R314). -/
def execClockMonitorTrip (rc : Bool) (s : State) : Answer :=
  s.island fun s => s.clockTrip rc

/-- RC_FREQ_CHECK (R314). -/
def execRcFreqCheck (dev : Int) (s : State) : Answer :=
  s.island fun s => s.rcFreq dev

/-- CRYSTAL_STOP (R192, R312). -/
def execCrystalStop (s : State) : Answer :=
  s.island fun s => s.crystalStop

/-- WATCHDOG_COPY_MISMATCH (R315): sources 12 to 17. -/
def execWatchdogCopyMismatch (source : Fin 6) (inst : Fin 16) (s : State) : Answer :=
  s.island fun s => s.wdMismatch (12 + source.val) inst.val

/-- LOCKSTEP_MISMATCH (R173). -/
def execLockstepMismatch (kind : Fin 4) (reg : Fin 32) (cycle : Fin 1100) (s : State) : Answer :=
  s.island fun s => s.lockstep kind.val reg.val cycle.val

/-- TCM_ECC_ERROR (R175). -/
def execTcmEccError (uncorrected : Bool) (info : Word) (s : State) : Answer :=
  s.island fun s => s.tcmEcc uncorrected info.toNat

/-- RUNTIME_INTEGRITY_FAULT (R175): source 22. -/
def execRuntimeIntegrityFault (info : Word) (s : State) : Answer :=
  s.island fun s => s.raise 22 .ft info.toNat

/-- QUIET_PERIOD_END (R302). -/
def execQuietPeriodEnd (s : State) : Answer :=
  s.island fun s => s.quietPeriodEnd

/-- CRYSTAL_RETURN (R312). -/
def execCrystalReturn (s : State) : Answer :=
  s.island fun s => { s with xtalOk := true }

end Sys2Proof.Machine
end

