-- ==== Sys2Proof/Machine/GridSteps.lean ====
section
/-!
DEFINITION. The meanings of the commands: the scene grid and the floor (spec/02_scene_grid.md, spec/05_redundant_execution.md).
-/
namespace Sys2Proof.Machine

/-- CHECKER_WRITE (R54).
(DESIGN CHOICE, safe: notes/assumptions/65.md.) -/
def execCheckerWrite (w : CheckerWrite) (s : State) : Answer :=
  s.inMainDomain fun s => s.checkerWrite w

/-- WRITE_BUFFER_ROOM (R58). -/
def execWriteBufferRoom (s : State) : Answer :=
  s.inMainDomain fun s => s.writeBufferRoom

/-- CLAIM_WRITE (R55). -/
def execClaimWrite (s : State) : Answer :=
  s.inMainDomain fun s => s.claimWrite

/-- DETECTION_LIST_COMMIT (R69).
(DESIGN CHOICE, safe: notes/assumptions/65.md.) -/
def execDetectionListCommit (camera : Fin 64) (srcFrame : Nat) (graph : Fin 64) (ds : List (Int × Int × Nat × Nat)) (s : State) : Answer :=
  s.inMainDomain fun s => s.detectionCommit camera.val srcFrame graph.val ds

/-- OBJECT_MATCH (R69). -/
def execObjectMatch (s : State) : Answer :=
  s.inMainDomain fun s => s.objectMatch

/-- OBJ_GRACE_EXPIRY (R69). -/
def execObjGraceExpiry (s : State) : Answer :=
  s.inMainDomain fun s => s.objGraceExpiry

/-- GRID_CELL_UE (R70). -/
def execGridCellUe (plane1 : Bool) (cell : Fin 524288) (s : State) : Answer :=
  s.inMainDomain fun s => s.cellUe plane1 cell.val

/-- FLOOR_CYCLE_START (R376). -/
def execFloorCycleStart (s : State) : Answer :=
  s.island fun s => s.floorCycleStart

/-- FLOOR_CYCLE_COMPLETE (R72).
(DESIGN CHOICE, safe: notes/assumptions/65.md.) -/
def execFloorCycleComplete (engine1 : Bool) (cells : List FloorWrite) (s : State) : Answer :=
  s.island fun s => s.floorDeliver engine1 cells

/-- FLOOR_ENGINE_FAULT (R180): `unit` counts the unit codes 0x01 to 0x06 of R119 from 0.
(DEDUCED, unsafe: notes/assumptions/23.md.) -/
def execFloorEngineFault (engine1 : Bool) (unit : Fin 6) (s : State) : Answer :=
  s.island fun s => s.floorEngineFault engine1 (unit.val + 1)

/-- FLOOR_CELL_UE (R72). -/
def execFloorCellUe (cell : Fin 8192) (s : State) : Answer :=
  s.island fun s => s.floorCellUe cell.val

end Sys2Proof.Machine
end

