-- ==== Sys2Proof/Machine/JournalSteps.lean ====
section
/-!
DEFINITION. The meanings of the commands: the event recorder and the NAND journal (spec/10_event_journal.md).
-/
namespace Sys2Proof.Machine

/-- EVENT_RECORD (R344). -/
def execEventRecord (engine : Option (Fin 128)) (code : BitVec 16) (data : BitVec 64) (s : State) : Answer :=
  s.island fun s => if engine.isNone || s.pwr.mainOn then s.report (engine.map fun g => g.val) code.toNat data.toNat else s

/-- JOURNAL_FLUSH (R350). -/
def execJournalFlush (s : State) : Answer :=
  s.inMainDomain fun s => s.flush

/-- NAND_PROGRAM_FAIL (R355). -/
def execNandProgramFail (block : Nat) (erase : Bool) (s : State) : Answer :=
  s.inMainDomain fun s => s.programFail block erase

/-- NAND_OP_TIMEOUT (R351). -/
def execNandOpTimeout (block : Nat) (s : State) : Answer :=
  s.inMainDomain fun s => s.nandTimeout block

/-- READ_DISTURB_REFRESH (R357). -/
def execReadDisturbRefresh (block : Nat) (s : State) : Answer :=
  s.inMainDomain fun s => s.readDisturb block

/-- RETENTION_SCRUB (R358). -/
def execRetentionScrub (found : List (Nat × Option Nat)) (s : State) : Answer :=
  s.inMainDomain fun s => s.scrub found

/-- HALT_SNAPSHOT (R349). -/
def execHaltSnapshot (s : State) : Answer :=
  s.inMainDomain fun s => s.haltSnapshot

end Sys2Proof.Machine
end

