-- ==== Sys2Proof/Machine/LoaderSteps.lean ====
section
/-!
DEFINITION. The meanings of the commands: the image loader (spec/11_reneb_image.md, R381 to R397).
-/
namespace Sys2Proof.Machine

/-- LDR_OPEN (R391): bit 0 of LDR_CTRL. -/
def execLdrOpen (s : State) : Answer :=
  s.island fun s => s.regWrite ldrCtrlAddr 1

/-- LDR_WDATA_WRITE (R391, R504). -/
def execLdrWdataWrite (bs : List Byte) (s : State) : Answer :=
  s.island fun s => s.streamWrite ldrWdataAddr bs

/-- LDR_CLOSE (R391): bit 1 of LDR_CTRL. -/
def execLdrClose (s : State) : Answer :=
  s.island fun s => s.regWrite ldrCtrlAddr 2

/-- STAGED_IMAGE_VERIFIED (R392). -/
def execStagedImageVerified (readBackOk : Bool) (s : State) : Answer :=
  s.inMainDomain fun s => s.stagedVerified readBackOk

/-- LDR_ABORT (R391): bit 2 of LDR_CTRL. -/
def execLdrAbort (s : State) : Answer :=
  s.island fun s => s.regWrite ldrCtrlAddr 4

/-- LDR_ACTIVATE (R391): bit 3 of LDR_CTRL, with the slot in bit 8. -/
def execLdrActivate (slotB : Bool) (s : State) : Answer :=
  s.island fun s => s.regWrite ldrCtrlAddr (8 + 256 * b2n slotB)

/-- LDR_COMMIT (R384, R391): bit 4 of LDR_CTRL. -/
def execLdrCommit (s : State) : Answer :=
  s.island fun s => s.regWrite ldrCtrlAddr 16

/-- BULK_CHUNK (R253). -/
def execBulkChunk (port : Fin 16) (vc : Nat) (bs : List Byte) (s : State) : Answer :=
  s.inMainDomain fun s => s.bulkChunk port.val vc bs

/-- IMAGE_LOAD (R381). -/
def execImageLoad (l : LoadIn) (s : State) : Answer :=
  s.inMainDomain fun s => s.imageLoad l

end Sys2Proof.Machine
end

