-- ==== Sys2Proof/Machine/MailboxSteps.lean ====
section
/-!
DEFINITION. The meanings of the commands: the commands of the mailbox and the life-cycle transition (spec/17_i3c_register_index.md, R514 to R519).
-/
namespace Sys2Proof.Machine

/-- ARM (R33). -/
def execArm (c : CmdGo) (s : State) : Answer :=
  s.island fun s => s.mailbox 1 c

/-- STOP (R34). -/
def execStop (c : CmdGo) (s : State) : Answer :=
  s.island fun s => s.mailbox 2 c

/-- RESUME (R35). -/
def execResume (c : CmdGo) (s : State) : Answer :=
  s.island fun s => s.mailbox 3 c

/-- PROFILE_SELECT (R387). -/
def execProfileSelect (c : CmdGo) (s : State) : Answer :=
  s.island fun s => s.mailbox 4 c

/-- PROFILE_SET (R388). -/
def execProfileSet (c : CmdGo) (s : State) : Answer :=
  s.island fun s => s.mailbox 5 c

/-- INTENT (R36). -/
def execIntent (c : CmdGo) (s : State) : Answer :=
  s.island fun s => s.mailbox 6 c

/-- SERVICE_ENTER (R390). -/
def execServiceEnter (c : CmdGo) (s : State) : Answer :=
  s.island fun s => s.mailbox 7 c

/-- SERVICE_EXIT (R390). -/
def execServiceExit (c : CmdGo) (s : State) : Answer :=
  s.island fun s => s.mailbox 8 c

/-- CLEAR_FIRST_AREA (R345). -/
def execClearFirstArea (c : CmdGo) (s : State) : Answer :=
  s.island fun s => s.mailbox 9 c

/-- LC_TRANSITION (R424). -/
def execLcTransition (c : CmdGo) (s : State) : Answer :=
  s.island fun s => s.mailbox 10 c

/-- LC_APPLY (R425). -/
def execLcApply (fatal : Option (Fin 112 × Word)) (s : State) : Answer :=
  s.island fun s => s.lcApply (fatal.map fun x => (x.1.val, x.2.toNat))

end Sys2Proof.Machine
end

