-- ==== Sys2Proof/Machine/PairSteps.lean ====
section
/-!
DEFINITION. The meanings of the commands: the pair link (spec/16_pair_operation.md).
-/
namespace Sys2Proof.Machine

/-- LINK_TRAINED (R485). -/
def execLinkTrained (s : State) : Answer :=
  s.inMainDomain fun s => s.linkTrained

/-- HELLO_MESSAGE (R486). -/
def execHelloMessage (m : HelloMsg) (s : State) : Answer :=
  s.inMainDomain fun s => s.hello m

/-- BEAT_MESSAGE (R487). -/
def execBeatMessage (m : BeatMsg) (s : State) : Answer :=
  s.inMainDomain fun s => s.beatMsg m

/-- FRAME_SUMMARY_MESSAGE (R491). -/
def execFrameSummaryMessage (m : SummaryMsg) (s : State) : Answer :=
  s.inMainDomain fun s => s.frameSummary m

/-- LINK_CRC_RATE (R487). -/
def execLinkCrcRate (s : State) : Answer :=
  s.inMainDomain fun s => s.linkCrcRateDue

/-- LANE_LOST (R494). -/
def execLaneLost (lane : Fin 4) (s : State) : Answer :=
  s.inMainDomain fun s => s.laneLost lane.val

/-- PARTNER_MESSAGE_LOSS (R489). -/
def execPartnerMessageLoss (s : State) : Answer :=
  s.island fun s => s.partnerLoss

/-- STAGE_EVENT (R493). -/
def execStageEvent (n : Fin 4) (s : State) : Answer :=
  s.island fun s => s.stageEventDue n.val

/-- STAGE_MISSING (R493). -/
def execStageMissing (n : Fin 4) (s : State) : Answer :=
  s.island fun s => s.stageMissingDue n.val

end Sys2Proof.Machine
end

