-- ==== Sys2Proof/Machine/PowerSteps.lean ====
section
/-!
DEFINITION. The meanings of the commands: supplies, temperature and power states (spec/14_power_thermal.md, spec/12_startup_selftest.md).
-/
namespace Sys2Proof.Machine

/-- TEMPERATURE_READING (R449). -/
def execTemperatureReading (conv : List (Int × Int)) (s : State) : Answer :=
  s.island fun s => s.temperature conv

/-- SENSOR_INVALID_LIMIT (R450). -/
def execSensorInvalidLimit (s : State) : Answer :=
  s.island fun s => s.sensorLimit

/-- COMPARATOR_TRIP_125 (R451). -/
def execComparatorTrip125 (sensor : Fin 48) (s : State) : Answer :=
  s.island fun s => s.comparatorTrip sensor.val

/-- RAIL_WARN (R444). -/
def execRailWarn (rail : Fin 9) (mv : Nat) (s : State) : Answer :=
  s.island fun s => s.railWarnEvent rail.val mv

/-- RAIL_TRIP (R444). -/
def execRailTrip (rail : Fin 9) (mv : Nat) (s : State) : Answer :=
  s.island fun s => s.railTripFault rail.val mv

/-- AVSBUS_READ (R448). -/
def execAvsbusRead (regs : List (Option (Nat × Nat))) (retries : Nat) (status : Bool) (s : State) : Answer :=
  s.inMainDomain fun s => s.avsRead regs retries status

/-- POWER_ON (R400): the island is out of its reset, or leaves it now.
(DEDUCED, safe: notes/assumptions/3.md.) -/
def execPowerOn (t : StartTests) (s : State) : Answer :=
  .next (s.powerOnSteps t)

/-- AON_SUPPLY_COLLAPSE (R311). -/
def execAonSupplyCollapse (s : State) : Answer :=
  s.island fun s => s.collapse

/-- STANDBY_POWER_DOWN (R452). -/
def execStandbyPowerDown (s : State) : Answer :=
  s.island fun s => s.standbyEnter

end Sys2Proof.Machine
end

