-- ==== Sys2Proof/Machine/RegisterSteps.lean ====
section
/-!
DEFINITION. The meanings of the commands: the register accesses that have rows of their own (spec/17_i3c_register_index.md, R503 to R507).
-/
namespace Sys2Proof.Machine

/-- ID_GENERATE (R429). -/
def execIdGenerate (trngOk : Bool) (readBackOk : Bool) (s : State) : Answer :=
  s.island fun s => s.mainReg secCtrlAddr fun t => t.idGenerate trngOk readBackOk

/-- CERT_PROGRAM: OP 2 of SEC_CTRL (R441). -/
def execCertProgram (s : State) : Answer :=
  s.island fun s => s.regWrite secCtrlAddr 2

/-- CERT_READ: OP 3 of SEC_CTRL (R441). -/
def execCertRead (s : State) : Answer :=
  s.island fun s => s.regWrite secCtrlAddr 3

/-- KEY_OP: OP 4 of SEC_CTRL (R441). -/
def execKeyOp (s : State) : Answer :=
  s.island fun s => s.regWrite secCtrlAddr 4

/-- ATTEST: OP 5 of SEC_CTRL, with STORE in bit 8 (R441). -/
def execAttest (store : Bool) (s : State) : Answer :=
  s.island fun s => s.regWrite secCtrlAddr (5 + 256 * b2n store)

/-- ATTEST_REPORT_SIGNED (R434). -/
def execAttestReportSigned (s : State) : Answer :=
  s.inMainDomain fun s => s.reportSigned

/-- BUF_CLEAR: OP 6 of SEC_CTRL (R441). -/
def execBufClear (s : State) : Answer :=
  s.island fun s => s.regWrite secCtrlAddr 6

/-- SEC_BUF_DATA_WRITE (R441, R504). -/
def execSecBufDataWrite (bs : List Byte) (s : State) : Answer :=
  s.island fun s => s.streamWrite secBufAddr bs

/-- SEC_BUF_DATA_READ (R441). -/
def execSecBufDataRead (s : State) : Answer :=
  s.island fun s => s.readReg secBufAddr

/-- WATCH_VERDICT_READ (R42). -/
def execWatchVerdictRead (s : State) : Answer :=
  s.island fun s => s.readReg 0x010004

/-- GLB_BEAT_LO_READ (R520). -/
def execGlbBeatLoRead (s : State) : Answer :=
  s.island fun s => s.readReg 0x000024

/-- TIME_NOW_LO_READ (R481). -/
def execTimeNowLoRead (s : State) : Answer :=
  s.island fun s => s.readReg 0x0D0008

/-- GRID_CELL_DATA_3_READ (R85). -/
def execGridCellData3Read (s : State) : Answer :=
  s.island fun s => s.readReg 0x020034

/-- REC_WIN_0_READ (R366). -/
def execRecWin0Read (s : State) : Answer :=
  s.island fun s => s.readReg 0x0A0020

/-- REC_WIN_7_READ (R366). -/
def execRecWin7Read (s : State) : Answer :=
  s.island fun s => s.readReg 0x0A003C

/-- RC_FIELD_READ (R507). -/
def execRcFieldRead (addr : BitVec 24) (s : State) : Answer :=
  s.island fun s => s.readReg addr.toNat

/-- FC_FF_CLEAR: bit 0 of FC_FF_CTRL (R309). -/
def execFcFfClear (s : State) : Answer :=
  s.island fun s => s.regWrite 0x080014 1

/-- WD_TASK_KICK (R318). -/
def execWdTaskKick (task : Fin 16) (own : Nat) (s : State) : Answer :=
  s.island fun s => s.taskKick task.val own

/-- WD_SVC_KICK (R322). -/
def execWdSvcKick (own : Nat) (s : State) : Answer :=
  s.inMainDomain fun s => s.svcKick own

/-- STANDBY_REQ: bit 0 of PWR_CTRL (R452). -/
def execStandbyReq (s : State) : Answer :=
  s.island fun s => s.regWrite 0x0C0004 1

/-- WAKE (R453): the steps of a wake that has been requested, by PWR_CTRL.WAKE or a watchdog. -/
def execWake (t : StartTests) (s : State) : Answer :=
  s.island fun s => s.wakeSteps t

/-- ACC_ON: request 1 of ACC_CTRL (R456, R462). -/
def execAccOn (k : Fin 2) (s : State) : Answer :=
  s.island fun s => s.regWrite 0x0C0014 (16 ^ k.val)

/-- ACC_OFF: request 2 of ACC_CTRL (R456, R462). -/
def execAccOff (k : Fin 2) (s : State) : Answer :=
  s.island fun s => s.regWrite 0x0C0014 (2 * 16 ^ k.val)

/-- ACC_CYCLE: request 3 of ACC_CTRL (R456, R462). -/
def execAccCycle (k : Fin 2) (s : State) : Answer :=
  s.island fun s => s.regWrite 0x0C0014 (3 * 16 ^ k.val)

/-- TIME_STEP: bit 0 of TIME_CTRL (R471). -/
def execTimeStep (s : State) : Answer :=
  s.island fun s => s.regWrite 0x0D0004 1

/-- JNL_RD_PAGE: bit 2 of JNL_CMD (R369). -/
def execJnlRdPage (s : State) : Answer :=
  s.island fun s => s.regWrite 0x0B0034 4

/-- JNL_FLUSH_CMD: bit 1 of JNL_CMD (R350). -/
def execJnlFlushCmd (s : State) : Answer :=
  s.island fun s => s.regWrite 0x0B0034 2

/-- JNL_FORMAT: bit 0 of JNL_CMD (R354). -/
def execJnlFormat (s : State) : Answer :=
  s.island fun s => s.regWrite 0x0B0034 1

/-- CVU_FEED (R255). -/
def execCvuFeed (unit : Fin 16) (bs : List Byte) (runtime : Bool) (lanesAgree : Bool) (s : State) : Answer :=
  s.island fun s => if runtime then (if s.pwr.mainOn then s.cvuFeed unit.val bs true lanesAgree else s) else s.mainReg (cvuAddr unit.val (feedOff bs.length)) fun t => t.cvuFeed unit.val bs false lanesAgree

/-- CVU_ALIVE_CHECK (R256). -/
def execCvuAliveCheck (unit : Fin 16) (value : BitVec 16) (runtime : Bool) (s : State) : Answer :=
  s.island fun s => if runtime then (if s.pwr.mainOn then s.cvuAlive unit.val value.toNat true else s) else s.regWrite (cvuAddr unit.val 0x24) value.toNat

/-- IRQ_STATUS_CLEAR (R512). -/
def execIrqStatusClear (mask : BitVec 7) (s : State) : Answer :=
  s.island fun s => s.irqClear mask

end Sys2Proof.Machine
end

