-- ==== Sys2Proof/Machine/SafeIoSteps.lean ====
section
/-!
DEFINITION. The meanings of the commands: safe inputs, encoders, outputs and the lock-out reset (spec/08_safe_io.md).
-/
namespace Sys2Proof.Machine

/-- SAFE_INPUT_DEMAND (R266). -/
def execSafeInputDemand (i : Fin 8) (s : State) : Answer :=
  s.island fun s => s.safeInputDemand i.val

/-- SAFE_INPUT_ON (R267). -/
def execSafeInputOn (i : Fin 8) (s : State) : Answer :=
  s.island fun s => s.safeInputOn i.val

/-- DISCREPANCY_FAULT (R268). -/
def execDiscrepancyFault (i : Fin 8) (s : State) : Answer :=
  s.island fun s => s.discrepancyFault i.val

/-- STUCK_ON_FAULT (R271). -/
def execStuckOnFault (i : Fin 8) (chanB : Bool) (s : State) : Answer :=
  s.island fun s => s.stuckOnFault i.val chanB

/-- CROSS_SHORT_FAULT (R272). -/
def execCrossShortFault (i : Fin 8) (chanB : Bool) (s : State) : Answer :=
  s.island fun s => s.crossShortFault i.val chanB

/-- CHATTER_FAULT (R273). -/
def execChatterFault (i : Fin 8) (s : State) : Answer :=
  s.island fun s => s.chatterFault i.val

/-- TEST_PULSE_START (R270). -/
def execTestPulseStart (k : Fin 4) (s : State) : Answer :=
  s.island fun s => s.tpStart k.val

/-- TEST_PULSE_END (R270). -/
def execTestPulseEnd (k : Fin 4) (s : State) : Answer :=
  s.island fun s => s.tpEnd k.val

/-- TEST_PULSE_PIN_FAULT (R272). -/
def execTestPulsePinFault (k : Fin 4) (s : State) : Answer :=
  s.island fun s => s.tpPinFault k.val

/-- ENCODER_EDGE (R274). -/
def execEncoderEdge (e : Fin 2) (a b zRise : Bool) (s : State) : Answer :=
  s.island fun s => s.encoderEdge e.val a b zRise

/-- ENCODER_FAULT (R277). -/
def execEncoderFault (e : Fin 2) (s : State) : Answer :=
  s.island fun s => s.encoderFault e.val

/-- SPEED_VALID_AGAIN (R277). -/
def execSpeedValidAgain (s : State) : Answer :=
  s.island fun s => s.measureSpeed

/-- OFF_PULSE_START (R283). -/
def execOffPulseStart (g : Fin 4) (chanB : Bool) (s : State) : Answer :=
  s.island fun s => s.offPulseStart g.val chanB

/-- OFF_PULSE_END (R284). -/
def execOffPulseEnd (g : Fin 4) (s : State) : Answer :=
  s.island fun s => s.offPulseEnd g.val

/-- READBACK_FAILURE (R282). -/
def execReadbackFailure (g : Fin 4) (chanB : Bool) (s : State) : Answer :=
  s.island fun s => s.readbackFailure g.val chanB

/-- LRST_PRESS_ACCEPTED (R288). -/
def execLrstPressAccepted (t : StartTests) (s : State) : Answer :=
  s.island fun s => s.pressTakes t

/-- LRST_PRESS_IGNORED (R288). -/
def execLrstPressIgnored (s : State) : Answer :=
  s.island fun s => s.lrstIgnored

/-- LRST_DISCREPANCY (R288). -/
def execLrstDiscrepancy (s : State) : Answer :=
  s.island fun s => s.lrstDiscrepancy

end Sys2Proof.Machine
end

