-- ==== Sys2Proof/Machine/StreamSteps.lean ====
section
/-!
DEFINITION. The meanings of the commands: camera, claim and verdict streams (spec/07_camera_claim_streams.md).
-/
namespace Sys2Proof.Machine

/-- CSI_FRAME_START (R230). -/
def execCsiFrameStart (port : Fin 16) (vc number : Nat) (hdr : HeaderState) (s : State) : Answer :=
  s.island fun s => s.csiFrameStart port.val vc number hdr

/-- CSI_LONG_PACKET (R232). -/
def execCsiLongPacket (port : Fin 16) (p : LongPkt) (s : State) : Answer :=
  s.island fun s => s.csiLong port.val p

/-- CSI_FRAME_END (R231). -/
def execCsiFrameEnd (port : Fin 16) (vc number : Nat) (hdr : HeaderState) (s : State) : Answer :=
  s.island fun s => s.csiFrameEnd port.val vc number hdr

/-- FORWARD_FAILURE (R235). -/
def execForwardFailure (port : Fin 16) (s : State) : Answer :=
  s.inMainDomain fun s => s.forwardFail port.val

/-- CROCUS_STAGING_DONE (R244). -/
def execCrocusStagingDone (port : Fin 16) (s : State) : Answer :=
  s.inMainDomain fun s => s.crocusStagingDone port.val

/-- CROCUS_INJECTION_START (R246). -/
def execCrocusInjectionStart (port : Fin 16) (s : State) : Answer :=
  s.inMainDomain fun s => s.crocusInjectionStart port.val

/-- CROCUS_INJECTION_END (R249). -/
def execCrocusInjectionEnd (port : Fin 16) (s : State) : Answer :=
  s.inMainDomain fun s => s.crocusInjectionEnd port.val

/-- CROCUS_DEADLINE (R249). -/
def execCrocusDeadline (port : Fin 16) (s : State) : Answer :=
  s.inMainDomain fun s => s.crocusDeadlineDue port.val

/-- CLAIM_RECORD (R239). -/
def execClaimRecord (port : Fin 16) (p : LongPkt) (s : State) : Answer :=
  s.inMainDomain fun s => s.claimRecord port.val p

/-- CLAIM_AGE_EXPIRY (R242). -/
def execClaimAgeExpiry (stream : Fin 4) (s : State) : Answer :=
  s.island fun s => s.claimAgeExpiry stream.val

/-- VERDICT_BATCH_SEND (R251). -/
def execVerdictBatchSend (sent : Bool) (s : State) : Answer :=
  s.inMainDomain fun s => s.verdictBatch sent

/-- CSI_SHORT_PACKET (R232). -/
def execCsiShortPacket (port : Fin 16) (vc dt number : Nat) (hdr : HeaderState) (s : State) : Answer :=
  s.island fun s => s.csiShort port.val vc dt number hdr

/-- CSI_RX_LOCK_CHANGE (R260): ports 0 and 1 are powered with the island. -/
def execCsiRxLockChange (port : Fin 16) (locked : Bool) (s : State) : Answer :=
  s.island fun s => if s.pwr.mainOn || decide (port.val ≤ 1) then s.rxLockChange port.val locked else s

end Sys2Proof.Machine
end

