-- ==== Sys2Proof/Machine/SystemSteps.lean ====
section
/-!
DEFINITION. The meanings of the commands: security operations and the debugger (spec/13_lifecycle_security.md, R327).
-/
namespace Sys2Proof.Machine

/-- SEC_OPERATION_COMPLETE (R436). -/
def execSecOperationComplete (s : State) : Answer :=
  s.inMainDomain fun s => s.secComplete

/-- DEBUGGER_ATTACH (R440). -/
def execDebuggerAttach (s : State) : Answer :=
  s.island fun s => s.debuggerAttach

/-- DEBUGGER_HALT (R327). -/
def execDebuggerHalt (svc : Bool) (s : State) : Answer :=
  s.island fun s => s.debuggerHalt svc

/-- DEBUGGER_RELEASE (R327). -/
def execDebuggerRelease (svc : Bool) (s : State) : Answer :=
  s.island fun s => s.debuggerRelease svc

end Sys2Proof.Machine
end

