-- ==== Sys2Proof/Machine/TestSteps.lean ====
section
/-!
DEFINITION. The meanings of the commands: GDDR6 and self-test (spec/03_engines_numerics.md, spec/12_startup_selftest.md).
-/
namespace Sys2Proof.Machine

/-- GDDR_EDC_RETRY (R103). -/
def execGddrEdcRetry (chan : Fin 8) (ok : Bool) (s : State) : Answer :=
  s.inMainDomain fun s => s.gddrEdc chan.val ok

/-- GDDR_UE (R104): a descriptor that consumes the poisoned data fails. -/
def execGddrUe (chan : Fin 8) (unit : Nat) (consumer : Option (Fin 64 × Fin 2 × Nat)) (s : State) : Answer :=
  s.inMainDomain fun s => let t := s.gddrUe chan.val unit; (match consumer with | some c => t.descFail c.1.val c.2.1.val c.2.2 | none => t)

/-- TEST_SLICE_START (R412). -/
def execTestSliceStart (k : TestKind) (s : State) : Answer :=
  s.inMainDomain fun s => s.sliceStart k

/-- TEST_SLICE_END (R404). -/
def execTestSliceEnd (k : TestKind) (lengthOk : Bool) (signatureOk : Bool) (s : State) : Answer :=
  s.inMainDomain fun s => s.sliceEnd k lengthOk signatureOk

/-- TEST_SLICE_ABORT (R413). -/
def execTestSliceAbort (k : TestKind) (s : State) : Answer :=
  s.inMainDomain fun s => s.sliceAbort k

end Sys2Proof.Machine
end

