-- ==== Sys2Proof/Machine/TimeSteps.lean ====
section
/-!
DEFINITION. The meanings of the commands: network time and Ethernet (spec/15_network_time.md).
-/
namespace Sys2Proof.Machine

/-- PTP_SYNC (R471). -/
def execPtpSync (port : Fin 2) (x : SyncSample) (s : State) : Answer :=
  s.inMainDomain fun s => s.ptpSync port.val x

/-- PTP_ANNOUNCE (R468). -/
def execPtpAnnounce (port : Fin 2) (a : Announce) (s : State) : Answer :=
  s.inMainDomain fun s => s.announce port.val a

/-- PDELAY_REQ (R467). -/
def execPdelayReq (port : Fin 2) (s : State) : Answer :=
  s.inMainDomain fun s => s.pdelayAnswer port.val

/-- DELAY_REQ_SEND (R467). -/
def execDelayReqSend (port : Fin 2) (s : State) : Answer :=
  s.inMainDomain fun s => s.delayAsk port.val

/-- DELAY_RESPONSE (R467). -/
def execDelayResponse (port : Fin 2) (pathDelay : Nat) (asCapable : Bool) (s : State) : Answer :=
  s.inMainDomain fun s => s.delayDone port.val pathDelay asCapable

/-- SYNC_LOSS (R471). -/
def execSyncLoss (s : State) : Answer :=
  s.inMainDomain fun s => s.syncLossDue

/-- ETH_LINK_CHANGE (R477). -/
def execEthLinkChange (port : Fin 2) (up : Bool) (s : State) : Answer :=
  s.inMainDomain fun s => s.linkChange port.val up

/-- TIMESTAMP_LANE_MISMATCH (R470). -/
def execTimestampLaneMismatch (port : Fin 2) (s : State) : Answer :=
  s.inMainDomain fun s => s.tsLaneMismatch port.val

/-- DEVICE_TIME_MISMATCH (R465). -/
def execDeviceTimeMismatch (intact : Nat) (s : State) : Answer :=
  s.island fun s => s.timeMismatch intact

/-- ETH_FRAME_DISCARDED (R466). -/
def execEthFrameDiscarded (port : Fin 2) (fcs : Bool) (s : State) : Answer :=
  s.inMainDomain fun s => s.frameDiscarded port.val fcs

/-- ETH_PCS_FAULT (R477). -/
def execEthPcsFault (port : Fin 2) (s : State) : Answer :=
  s.inMainDomain fun s => s.pcsFault port.val

end Sys2Proof.Machine
end

