-- ==== Sys2Proof/Machine/WatchSteps.lean ====
section
/-!
DEFINITION. The meanings of the commands: the beat, the watch and the frame (spec/01_watch.md, spec/02_scene_grid.md, spec/06_time_plan_budget.md).
-/
namespace Sys2Proof.Machine

/-- BEAT (R15): without a crystal no beat passes (R312). -/
def execBeat (i : BeatIn) (s : State) : Answer :=
  s.island fun s => if s.clocked then s.beatStep i else s

/-- SS1_MAX_TIME (R287). -/
def execSs1MaxTime (s : State) : Answer :=
  s.island fun s => s.ss1MaxTimeDue

/-- ENC_CROSSCHECK_FAULT (R277). -/
def execEncCrosscheckFault (s : State) : Answer :=
  s.island fun s => s.crossCheckFault

/-- CELL_RULE_PERSIST (R68). -/
def execCellRulePersist (s : State) : Answer :=
  s.inMainDomain fun s => s.cellRulePersist

/-- BAND_DOWN (R64). -/
def execBandDown (s : State) : Answer :=
  s.inMainDomain fun s => s.bandDown

/-- FLOOR_OCCUPANCY_CONFIRMED (R73). -/
def execFloorOccupancyConfirmed (s : State) : Answer :=
  s.island fun s => s.floorOccupancy

/-- FRAME_TICK (R193). -/
def execFrameTick (estimatedUj : Nat) (s : State) : Answer :=
  s.island fun s => s.frameTick estimatedUj

/-- SWEEP_COMPLETE (R61). -/
def execSweepComplete (s : State) : Answer :=
  s.inMainDomain fun s => s.sweepComplete

/-- MASKS_READY (R65). -/
def execMasksReady (s : State) : Answer :=
  s.inMainDomain fun s => s.masksReady

/-- ARM_FRAMES_REACHED (R21). -/
def execArmFramesReached (s : State) : Answer :=
  s.island fun s => s.armFramesReached

/-- RETRUST (R22). -/
def execRetrust (s : State) : Answer :=
  s.island fun s => s.retrust

/-- ARM_TIMEOUT (R558). -/
def execArmTimeout (s : State) : Answer :=
  s.island fun s => s.armTimeoutDue

/-- RETRUST_BLOCK (R23). -/
def execRetrustBlock (s : State) : Answer :=
  s.island fun s => s.retrustBlock

/-- MICROOPS_CANCELLED (R209). -/
def execMicroopsCancelled (graph : Fin 64) (s : State) : Answer :=
  s.inMainDomain fun s => s.microopsCancelled graph.val

/-- CONSTANT_COPY_DONE (R182). -/
def execConstantCopyDone (graph : Fin 64) (copy : Fin 2) (index : Fin 8) (s : State) : Answer :=
  s.inMainDomain fun s => s.constantCopyDone graph.val copy.val index.val

/-- COVERAGE_EXPIRY (R411). -/
def execCoverageExpiry (k : TestKind) (s : State) : Answer :=
  s.inMainDomain fun s => s.coverageExpiry k

/-- TELEGRAM_SEND (R476). -/
def execTelegramSend (late : Bool) (s : State) : Answer :=
  s.inMainDomain fun s => s.telSend late

/-- TELEGRAM_GAP_END (R474). -/
def execTelegramGapEnd (s : State) : Answer :=
  s.inMainDomain fun s => s.telGapEndDue

/-- FSYNC_ASSERT (R195). -/
def execFsyncAssert (n : Fin 4) (s : State) : Answer :=
  s.island fun s => s.fsyncAssert n.val

/-- FSYNC_RELEASE (R195). -/
def execFsyncRelease (n : Fin 4) (s : State) : Answer :=
  s.island fun s => s.fsyncRelease n.val

/-- GOLDEN_FAIL (R187). -/
def execGoldenFail (core : Fin 32) (s : State) : Answer :=
  s.inMainDomain fun s => s.goldenFail core.val

end Sys2Proof.Machine
end

