-- ==== Sys2Proof/Machine/Dispatch.lean ====
section
/-!
DEFINITION. Every command and its meaning: one arm per row of spec/opcode_table.json.
-/
namespace Sys2Proof.Machine

/-- The effect of a command on everything but the queue. -/
def exec (i : Instr) (s : State) : Host.Outcome State Fault Refusal :=
  match i with
  | .beat b => Sys2Proof.Machine.execBeat b s
  | .ss1MaxTime => Sys2Proof.Machine.execSs1MaxTime s
  | .encCrosscheckFault => Sys2Proof.Machine.execEncCrosscheckFault s
  | .cellRulePersist => Sys2Proof.Machine.execCellRulePersist s
  | .bandDown => Sys2Proof.Machine.execBandDown s
  | .floorOccupancyConfirmed => Sys2Proof.Machine.execFloorOccupancyConfirmed s
  | .frameTick estimatedUj => Sys2Proof.Machine.execFrameTick estimatedUj s
  | .sweepComplete => Sys2Proof.Machine.execSweepComplete s
  | .masksReady => Sys2Proof.Machine.execMasksReady s
  | .armFramesReached => Sys2Proof.Machine.execArmFramesReached s
  | .retrust => Sys2Proof.Machine.execRetrust s
  | .armTimeout => Sys2Proof.Machine.execArmTimeout s
  | .retrustBlock => Sys2Proof.Machine.execRetrustBlock s
  | .microopsCancelled graph => Sys2Proof.Machine.execMicroopsCancelled graph s
  | .constantCopyDone graph copy index => Sys2Proof.Machine.execConstantCopyDone graph copy index s
  | .coverageExpiry k => Sys2Proof.Machine.execCoverageExpiry k s
  | .telegramSend late => Sys2Proof.Machine.execTelegramSend late s
  | .telegramGapEnd => Sys2Proof.Machine.execTelegramGapEnd s
  | .fsyncAssert n => Sys2Proof.Machine.execFsyncAssert n s
  | .fsyncRelease n => Sys2Proof.Machine.execFsyncRelease n s
  | .goldenFail core => Sys2Proof.Machine.execGoldenFail core s
  | .arm c => Sys2Proof.Machine.execArm c s
  | .stop c => Sys2Proof.Machine.execStop c s
  | .resume c => Sys2Proof.Machine.execResume c s
  | .profileSelect c => Sys2Proof.Machine.execProfileSelect c s
  | .profileSet c => Sys2Proof.Machine.execProfileSet c s
  | .intent c => Sys2Proof.Machine.execIntent c s
  | .serviceEnter c => Sys2Proof.Machine.execServiceEnter c s
  | .serviceExit c => Sys2Proof.Machine.execServiceExit c s
  | .clearFirstArea c => Sys2Proof.Machine.execClearFirstArea c s
  | .lcTransition c => Sys2Proof.Machine.execLcTransition c s
  | .lcApply fatal => Sys2Proof.Machine.execLcApply fatal s
  | .ldrOpen => Sys2Proof.Machine.execLdrOpen s
  | .ldrWdataWrite bs => Sys2Proof.Machine.execLdrWdataWrite bs s
  | .ldrClose => Sys2Proof.Machine.execLdrClose s
  | .stagedImageVerified readBackOk => Sys2Proof.Machine.execStagedImageVerified readBackOk s
  | .ldrAbort => Sys2Proof.Machine.execLdrAbort s
  | .ldrActivate slotB => Sys2Proof.Machine.execLdrActivate slotB s
  | .ldrCommit => Sys2Proof.Machine.execLdrCommit s
  | .bulkChunk port vc bs => Sys2Proof.Machine.execBulkChunk port vc bs s
  | .imageLoad l => Sys2Proof.Machine.execImageLoad l s
  | .idGenerate trngOk readBackOk => Sys2Proof.Machine.execIdGenerate trngOk readBackOk s
  | .certProgram => Sys2Proof.Machine.execCertProgram s
  | .certRead => Sys2Proof.Machine.execCertRead s
  | .keyOp => Sys2Proof.Machine.execKeyOp s
  | .attest store => Sys2Proof.Machine.execAttest store s
  | .attestReportSigned => Sys2Proof.Machine.execAttestReportSigned s
  | .bufClear => Sys2Proof.Machine.execBufClear s
  | .secBufDataWrite bs => Sys2Proof.Machine.execSecBufDataWrite bs s
  | .secBufDataRead => Sys2Proof.Machine.execSecBufDataRead s
  | .watchVerdictRead => Sys2Proof.Machine.execWatchVerdictRead s
  | .glbBeatLoRead => Sys2Proof.Machine.execGlbBeatLoRead s
  | .timeNowLoRead => Sys2Proof.Machine.execTimeNowLoRead s
  | .gridCellData3Read => Sys2Proof.Machine.execGridCellData3Read s
  | .recWin0Read => Sys2Proof.Machine.execRecWin0Read s
  | .recWin7Read => Sys2Proof.Machine.execRecWin7Read s
  | .rcFieldRead addr => Sys2Proof.Machine.execRcFieldRead addr s
  | .fcFfClear => Sys2Proof.Machine.execFcFfClear s
  | .wdTaskKick task own => Sys2Proof.Machine.execWdTaskKick task own s
  | .wdSvcKick own => Sys2Proof.Machine.execWdSvcKick own s
  | .standbyReq => Sys2Proof.Machine.execStandbyReq s
  | .wake t => Sys2Proof.Machine.execWake t s
  | .accOn k => Sys2Proof.Machine.execAccOn k s
  | .accOff k => Sys2Proof.Machine.execAccOff k s
  | .accCycle k => Sys2Proof.Machine.execAccCycle k s
  | .timeStep => Sys2Proof.Machine.execTimeStep s
  | .jnlRdPage => Sys2Proof.Machine.execJnlRdPage s
  | .jnlFlushCmd => Sys2Proof.Machine.execJnlFlushCmd s
  | .jnlFormat => Sys2Proof.Machine.execJnlFormat s
  | .cvuFeed unit bs runtime lanesAgree => Sys2Proof.Machine.execCvuFeed unit bs runtime lanesAgree s
  | .cvuAliveCheck unit value runtime => Sys2Proof.Machine.execCvuAliveCheck unit value runtime s
  | .irqStatusClear mask => Sys2Proof.Machine.execIrqStatusClear mask s
  | .registerWrite bs parityError => Sys2Proof.Machine.execRegisterWrite bs parityError s
  | .enec enint => Sys2Proof.Machine.execEnec enint s
  | .disec enint => Sys2Proof.Machine.execDisec enint s
  | .rstdaa => Sys2Proof.Machine.execRstdaa s
  | .entdaa addr won => Sys2Proof.Machine.execEntdaa addr won s
  | .setmwl n => Sys2Proof.Machine.execSetmwl n s
  | .setmrl n ibi => Sys2Proof.Machine.execSetmrl n ibi s
  | .rstact db => Sys2Proof.Machine.execRstact db s
  | .enthdr0 => Sys2Proof.Machine.execEnthdr0 s
  | .hdrDdrWrite code words crcOk => Sys2Proof.Machine.execHdrDdrWrite code words crcOk s
  | .hdrDdrRead code n => Sys2Proof.Machine.execHdrDdrRead code n s
  | .setdasa addr => Sys2Proof.Machine.execSetdasa addr s
  | .setnewda addr => Sys2Proof.Machine.execSetnewda addr s
  | .getmwl => Sys2Proof.Machine.execGetmwl s
  | .getmrl => Sys2Proof.Machine.execGetmrl s
  | .getpid => Sys2Proof.Machine.execGetpid s
  | .getbcr => Sys2Proof.Machine.execGetbcr s
  | .getdcr => Sys2Proof.Machine.execGetdcr s
  | .getstatus => Sys2Proof.Machine.execGetstatus s
  | .getmxds => Sys2Proof.Machine.execGetmxds s
  | .getcaps => Sys2Proof.Machine.execGetcaps s
  | .targetResetPattern => Sys2Proof.Machine.execTargetResetPattern s
  | .ibiRequest acked => Sys2Proof.Machine.execIbiRequest acked s
  | .safeInputDemand n => Sys2Proof.Machine.execSafeInputDemand n s
  | .safeInputOn n => Sys2Proof.Machine.execSafeInputOn n s
  | .discrepancyFault n => Sys2Proof.Machine.execDiscrepancyFault n s
  | .stuckOnFault n chanB => Sys2Proof.Machine.execStuckOnFault n chanB s
  | .crossShortFault n chanB => Sys2Proof.Machine.execCrossShortFault n chanB s
  | .chatterFault n => Sys2Proof.Machine.execChatterFault n s
  | .testPulseStart k => Sys2Proof.Machine.execTestPulseStart k s
  | .testPulseEnd k => Sys2Proof.Machine.execTestPulseEnd k s
  | .testPulsePinFault k => Sys2Proof.Machine.execTestPulsePinFault k s
  | .encoderEdge e a b zRise => Sys2Proof.Machine.execEncoderEdge e a b zRise s
  | .encoderFault e => Sys2Proof.Machine.execEncoderFault e s
  | .speedValidAgain => Sys2Proof.Machine.execSpeedValidAgain s
  | .offPulseStart g chanB => Sys2Proof.Machine.execOffPulseStart g chanB s
  | .offPulseEnd g => Sys2Proof.Machine.execOffPulseEnd g s
  | .readbackFailure g chanB => Sys2Proof.Machine.execReadbackFailure g chanB s
  | .lrstPressAccepted t => Sys2Proof.Machine.execLrstPressAccepted t s
  | .lrstPressIgnored => Sys2Proof.Machine.execLrstPressIgnored s
  | .lrstDiscrepancy => Sys2Proof.Machine.execLrstDiscrepancy s
  | .heartbeatEdge k level own => Sys2Proof.Machine.execHeartbeatEdge k level own s
  | .heartbeatLost k own => Sys2Proof.Machine.execHeartbeatLost k own s
  | .heartbeatPersist k => Sys2Proof.Machine.execHeartbeatPersist k s
  | .pwrToRstExpiry k => Sys2Proof.Machine.execPwrToRstExpiry k s
  | .rstToOffExpiry k => Sys2Proof.Machine.execRstToOffExpiry k s
  | .offBeatsExpiry k => Sys2Proof.Machine.execOffBeatsExpiry k s
  | .taskPeriodEnd task => Sys2Proof.Machine.execTaskPeriodEnd task s
  | .svcPeriodEnd => Sys2Proof.Machine.execSvcPeriodEnd s
  | .serviceCoreRestart => Sys2Proof.Machine.execServiceCoreRestart s
  | .standbyWakeTimer => Sys2Proof.Machine.execStandbyWakeTimer s
  | .clockMonitorTrip rc => Sys2Proof.Machine.execClockMonitorTrip rc s
  | .rcFreqCheck dev => Sys2Proof.Machine.execRcFreqCheck dev s
  | .crystalStop => Sys2Proof.Machine.execCrystalStop s
  | .watchdogCopyMismatch source inst => Sys2Proof.Machine.execWatchdogCopyMismatch source inst s
  | .lockstepMismatch kind reg cycle => Sys2Proof.Machine.execLockstepMismatch kind reg cycle s
  | .tcmEccError uncorrected info => Sys2Proof.Machine.execTcmEccError uncorrected info s
  | .runtimeIntegrityFault info => Sys2Proof.Machine.execRuntimeIntegrityFault info s
  | .quietPeriodEnd => Sys2Proof.Machine.execQuietPeriodEnd s
  | .coreUnitFault core engines unit => Sys2Proof.Machine.execCoreUnitFault core engines unit s
  | .coreOff core => Sys2Proof.Machine.execCoreOff core s
  | .correctableSramError core engine => Sys2Proof.Machine.execCorrectableSramError core engine s
  | .windowOpen core => Sys2Proof.Machine.execWindowOpen core s
  | .windowClose core => Sys2Proof.Machine.execWindowClose core s
  | .coreWakeDone core => Sys2Proof.Machine.execCoreWakeDone core s
  | .avsTargetChange => Sys2Proof.Machine.execAvsTargetChange s
  | .runReady graph => Sys2Proof.Machine.execRunReady graph s
  | .descriptorDispatch core => Sys2Proof.Machine.execDescriptorDispatch core s
  | .microopIssue engine graph copy desc op => Sys2Proof.Machine.execMicroopIssue engine graph copy desc op s
  | .microopRetire engine graph copy desc => Sys2Proof.Machine.execMicroopRetire engine graph copy desc s
  | .descriptorFail graph copy desc => Sys2Proof.Machine.execDescriptorFail graph copy desc s
  | .compareExecute graph desc => Sys2Proof.Machine.execCompareExecute graph desc s
  | .barrierPass graph copy desc => Sys2Proof.Machine.execBarrierPass graph copy desc s
  | .checkerWrite w => Sys2Proof.Machine.execCheckerWrite w s
  | .writeBufferRoom => Sys2Proof.Machine.execWriteBufferRoom s
  | .claimWrite => Sys2Proof.Machine.execClaimWrite s
  | .detectionListCommit camera srcFrame graph ds => Sys2Proof.Machine.execDetectionListCommit camera srcFrame graph ds s
  | .objectMatch => Sys2Proof.Machine.execObjectMatch s
  | .objGraceExpiry => Sys2Proof.Machine.execObjGraceExpiry s
  | .gridCellUe plane1 cell => Sys2Proof.Machine.execGridCellUe plane1 cell s
  | .floorCycleStart => Sys2Proof.Machine.execFloorCycleStart s
  | .floorCycleComplete engine1 cells => Sys2Proof.Machine.execFloorCycleComplete engine1 cells s
  | .floorEngineFault engine1 unit => Sys2Proof.Machine.execFloorEngineFault engine1 unit s
  | .floorCellUe cell => Sys2Proof.Machine.execFloorCellUe cell s
  | .csiFrameStart port vc number hdr => Sys2Proof.Machine.execCsiFrameStart port vc number hdr s
  | .csiLongPacket port p => Sys2Proof.Machine.execCsiLongPacket port p s
  | .csiFrameEnd port vc number hdr => Sys2Proof.Machine.execCsiFrameEnd port vc number hdr s
  | .forwardFailure port => Sys2Proof.Machine.execForwardFailure port s
  | .crocusStagingDone port => Sys2Proof.Machine.execCrocusStagingDone port s
  | .crocusInjectionStart port => Sys2Proof.Machine.execCrocusInjectionStart port s
  | .crocusInjectionEnd port => Sys2Proof.Machine.execCrocusInjectionEnd port s
  | .crocusDeadline port => Sys2Proof.Machine.execCrocusDeadline port s
  | .claimRecord port p => Sys2Proof.Machine.execClaimRecord port p s
  | .claimAgeExpiry stream => Sys2Proof.Machine.execClaimAgeExpiry stream s
  | .verdictBatchSend sent => Sys2Proof.Machine.execVerdictBatchSend sent s
  | .eventRecord engine code data => Sys2Proof.Machine.execEventRecord engine code data s
  | .journalFlush => Sys2Proof.Machine.execJournalFlush s
  | .nandProgramFail block erase => Sys2Proof.Machine.execNandProgramFail block erase s
  | .nandOpTimeout block => Sys2Proof.Machine.execNandOpTimeout block s
  | .readDisturbRefresh block => Sys2Proof.Machine.execReadDisturbRefresh block s
  | .retentionScrub found => Sys2Proof.Machine.execRetentionScrub found s
  | .haltSnapshot => Sys2Proof.Machine.execHaltSnapshot s
  | .gddrEdcRetry chan ok => Sys2Proof.Machine.execGddrEdcRetry chan ok s
  | .gddrUe chan unit consumer => Sys2Proof.Machine.execGddrUe chan unit consumer s
  | .testSliceStart k => Sys2Proof.Machine.execTestSliceStart k s
  | .testSliceEnd k lengthOk signatureOk => Sys2Proof.Machine.execTestSliceEnd k lengthOk signatureOk s
  | .testSliceAbort k => Sys2Proof.Machine.execTestSliceAbort k s
  | .temperatureReading conv => Sys2Proof.Machine.execTemperatureReading conv s
  | .sensorInvalidLimit => Sys2Proof.Machine.execSensorInvalidLimit s
  | .comparatorTrip125 sensor => Sys2Proof.Machine.execComparatorTrip125 sensor s
  | .railWarn rail mv => Sys2Proof.Machine.execRailWarn rail mv s
  | .railTrip rail mv => Sys2Proof.Machine.execRailTrip rail mv s
  | .avsbusRead regs retries status => Sys2Proof.Machine.execAvsbusRead regs retries status s
  | .powerOn t => Sys2Proof.Machine.execPowerOn t s
  | .aonSupplyCollapse => Sys2Proof.Machine.execAonSupplyCollapse s
  | .ptpSync port x => Sys2Proof.Machine.execPtpSync port x s
  | .ptpAnnounce port a => Sys2Proof.Machine.execPtpAnnounce port a s
  | .pdelayReq port => Sys2Proof.Machine.execPdelayReq port s
  | .delayReqSend port => Sys2Proof.Machine.execDelayReqSend port s
  | .delayResponse port pathDelay asCapable => Sys2Proof.Machine.execDelayResponse port pathDelay asCapable s
  | .syncLoss => Sys2Proof.Machine.execSyncLoss s
  | .ethLinkChange port up => Sys2Proof.Machine.execEthLinkChange port up s
  | .timestampLaneMismatch port => Sys2Proof.Machine.execTimestampLaneMismatch port s
  | .deviceTimeMismatch intact => Sys2Proof.Machine.execDeviceTimeMismatch intact s
  | .linkTrained => Sys2Proof.Machine.execLinkTrained s
  | .helloMessage m => Sys2Proof.Machine.execHelloMessage m s
  | .beatMessage m => Sys2Proof.Machine.execBeatMessage m s
  | .frameSummaryMessage m => Sys2Proof.Machine.execFrameSummaryMessage m s
  | .linkCrcRate => Sys2Proof.Machine.execLinkCrcRate s
  | .laneLost lane => Sys2Proof.Machine.execLaneLost lane s
  | .partnerMessageLoss => Sys2Proof.Machine.execPartnerMessageLoss s
  | .stageEvent n => Sys2Proof.Machine.execStageEvent n s
  | .stageMissing n => Sys2Proof.Machine.execStageMissing n s
  | .crystalReturn => Sys2Proof.Machine.execCrystalReturn s
  | .csiShortPacket port vc dt number hdr => Sys2Proof.Machine.execCsiShortPacket port vc dt number hdr s
  | .csiRxLockChange port locked => Sys2Proof.Machine.execCsiRxLockChange port locked s
  | .ethFrameDiscarded port fcs => Sys2Proof.Machine.execEthFrameDiscarded port fcs s
  | .ethPcsFault port => Sys2Proof.Machine.execEthPcsFault port s
  | .standbyPowerDown => Sys2Proof.Machine.execStandbyPowerDown s
  | .secOperationComplete => Sys2Proof.Machine.execSecOperationComplete s
  | .debuggerAttach => Sys2Proof.Machine.execDebuggerAttach s
  | .debuggerHalt svc => Sys2Proof.Machine.execDebuggerHalt svc s
  | .debuggerRelease svc => Sys2Proof.Machine.execDebuggerRelease svc s
  | .hdrExit => Sys2Proof.Machine.execHdrExit s

end Sys2Proof.Machine
end

