-- ==== Sys2Proof/Safety.lean ====
section
/-!
DEFINITION. The terms in which the statements speak of whole states: the pieces of a state and what a command leaves
unchanged of them; and the invariants of the machine: the verdict word carries its CRC (R28), the safe outputs are low where
they must be (R280), every memory is in its canonical form.
-/
namespace Sys2Proof.Machine

/-! ### Pieces of a state and frames -/

/-- The pieces of a state: its fields; the watch state by itself (R13); what a beat collects for its evaluation, that is the triggers,
causes and clear conditions of the watch (R15); the interrupt causes with their pending IBIs (R510 to R512); and what a record leaves in
the journal beside the recorder, that is its flush request and its counts of lost records (R350). -/
inductive Piece where
  | pending | beat | powered | xtalOk | selftestFail | fc | wd | evr | watch | si | tp | lrst | enc | so | i3c | cmd | ldr | pwr | therm | time | tel | sched
  | cores | engs | noc | gddr | gddrMem | poison | ctrl | alt | golden | cmp | grid | flr | floorPair | ev | io | jnl | st | lc | secu | lk
  | freeCtr | wstate | collected | irq | log
  deriving DecidableEq, Repr

/-- Two states agree in a piece. -/
def State.same (s t : State) : Piece → Prop
  | .pending => t.pending = s.pending
  | .beat => t.beat = s.beat
  | .powered => t.powered = s.powered
  | .xtalOk => t.xtalOk = s.xtalOk
  | .selftestFail => t.selftestFail = s.selftestFail
  | .fc => t.fc = s.fc
  | .wd => t.wd = s.wd
  | .evr => t.evr = s.evr
  | .watch => { t.watch with trig := s.watch.trig, causes := s.watch.causes, clears := s.watch.clears } = s.watch
  | .si => t.si = s.si
  | .tp => t.tp = s.tp
  | .lrst => t.lrst = s.lrst
  | .enc => t.enc = s.enc
  | .so => t.so = s.so
  | .i3c => { t.i3c with irqStatus := s.i3c.irqStatus, ibi := s.i3c.ibi } = s.i3c
  | .cmd => t.cmd = s.cmd
  | .ldr => t.ldr = s.ldr
  | .pwr => t.pwr = s.pwr
  | .therm => t.therm = s.therm
  | .time => t.time = s.time
  | .tel => t.tel = s.tel
  | .sched => t.sched = s.sched
  | .cores => t.cores = s.cores
  | .engs => t.engs = s.engs
  | .noc => t.noc = s.noc
  | .gddr => t.gddr = s.gddr
  | .gddrMem => t.gddrMem = s.gddrMem
  | .poison => t.poison = s.poison
  | .ctrl => t.ctrl = s.ctrl
  | .alt => t.alt = s.alt
  | .golden => t.golden = s.golden
  | .cmp => t.cmp = s.cmp
  | .grid => t.grid = s.grid
  | .flr => t.flr = s.flr
  | .floorPair => t.floorPair = s.floorPair
  | .ev => t.ev = s.ev
  | .io => t.io = s.io
  | .jnl => { t.jnl with flushDue := s.jnl.flushDue, lost := s.jnl.lost, lostNew := s.jnl.lostNew } = s.jnl
  | .st => t.st = s.st
  | .lc => t.lc = s.lc
  | .secu => t.secu = s.secu
  | .lk => t.lk = s.lk
  | .freeCtr => t.freeCtr = s.freeCtr
  | .wstate => t.watch.wstate = s.watch.wstate
  | .collected => t.watch.trig = s.watch.trig ∧ t.watch.causes = s.watch.causes ∧ t.watch.clears = s.watch.clears
  | .irq => t.i3c.irqStatus = s.i3c.irqStatus ∧ t.i3c.ibi = s.i3c.ibi
  | .log => t.jnl.flushDue = s.jnl.flushDue ∧ t.jnl.lost = s.jnl.lost ∧ t.jnl.lostNew = s.jnl.lostNew

/-- Nothing but the listed pieces differs between two states. -/
def Frame (ps : List Piece) (s t : State) : Prop := ∀ x, x ∉ ps → s.same t x

/-- A command answers a next state of which a property holds. -/
def Goes (a : Answer) (p : State → Prop) : Prop := ∃ t, a = .next t ∧ p t

/-! ### Invariants -/

/-- A verdict word carries the CRC-8 of its bits [31:8] in bits [7:0] (R28). -/
def wordOk (w : Word) : Bool := w.toNat % 256 == verdictCrc (w.toNat / 256)

/-- A group that is off drives neither channel and has no off-pulse in progress (R280, R283). -/
def OutGroup.ok (x : OutGroup) : Bool := x.on || (!x.a.high && !x.b.high && x.pulse.isNone)

/-- Every group is consistent, and while the outputs are held every group is off (R280). -/
def OutState.ok (o : OutState) : Bool := o.groups.toList.all fun x => x.ok && !(o.held && x.on)

/-- The memories of an engine are in canonical form. -/
def EngState.ok (e : EngState) : Bool := e.sram.wf && Sparse.wf 0 e.acc && Sparse.wf 0 e.racc

/-- Every memory of the machine is in canonical form. -/
structure State.MemOk (s : State) : Prop where
  gddr : s.gddrMem.wf = true
  cores : ∀ c ∈ s.cores.toList, c.sram.wf = true
  engs : ∀ e ∈ s.engs.toList, e.ok = true
  plane0 : Sparse.wf Cell.zero s.grid.plane0 = true
  plane1 : Sparse.wf Cell.zero s.grid.plane1 = true
  floor : Sparse.wf FloorCell.zero s.flr.cells = true
  buf : s.secu.buf.wf = true

/-- The invariants that every step keeps. -/
structure State.Inv (s : State) : Prop where
  word : wordOk s.watch.verdict = true
  outs : s.so.ok = true
  mem : s.MemOk

/-! ### Faults -/

/-- What the reaction to a fatal fault of a source leaves (R16, R299, R305, R306): the fault active with its info, the latch
filled, FAULT_N low, and every safe output off and held. -/
structure Fatal (src info : Nat) (t : State) : Prop where
  active : t.fc.activeFt.getLsbD src = true
  info : vget t.fc.info src 0 = info
  latched : t.fc.latch.isSome = true
  faultN : t.fc.faultNLow = true
  held : t.so.held = true
  off : ∀ g ∈ t.so.groups.toList, g.on = false ∧ g.a.high = false ∧ g.b.high = false

/-- What the reaction to an uncorrected fault of a source leaves (R299, R302, R304 to R306): the fault active with its info until
its recovery, the latch filled, FAULT_N low, and the quiet period started anew. -/
structure Uncorrected (s : State) (src info : Nat) (t : State) : Prop where
  active : t.fc.activeUc.getLsbD src = true
  info : vget t.fc.info src 0 = info
  last : t.fc.lastUc = src
  latched : t.fc.latch.isSome = true
  faultN : t.fc.faultNLow = true
  quiet : t.fc.quietEnd = some (s.beat + s.quietBeats)

/-- What a fault of a source does, in the class that it is handled as (R299 to R307): it counts, and a fatal one, or an
uncorrected one while no fatal fault is active, has its reaction. -/
structure Reacts (s : State) (src : Nat) (c : FaultClass) (info : Nat) (t : State) : Prop where
  counted : vget t.fc.cnt src ⟨0, 0, 0⟩ = (vget s.fc.cnt src ⟨0, 0, 0⟩).count (s.classOf src c)
  fatal : s.classOf src c = .ft → Fatal src info t
  uncorrected : s.classOf src c = .uc → s.ftActive = false → Uncorrected s src info t

/-! ### Commands of the mailbox -/

/-- The eight words of a command, as the mailbox holds them. -/
def mailWords (c : CmdGo) : List Nat := (upto 8).map fun i => (c.words.getD i 0).toNat

/-- The mailbox registers hold a command (R514). -/
def State.withMail (s : State) (c : CmdGo) : State :=
  { s with cmd := { s.cmd with
      words := vmapIdx (fun i _ => (mailWords c).getD i 0) s.cmd.words, alive := c.alive.toNat, crc := c.crc.toNat } }

/-- A command of a code passes the checks of the mailbox (R515 to R517): none is busy, the CRC-32C and ALIVE are right, the format is
that of its code, and no argument is out of its range. -/
structure Accepted (s : State) (code : Nat) (c : CmdGo) : Prop where
  code : cmdCode (mailWords c) = code
  idle : s.cmd.busy = false
  crc : crc32c (cmdBytes (mailWords c) c.alive.toNat) = c.crc.toNat
  alive : c.alive.toNat = (s.cmd.aliveLast + 1) % 65536
  format : cmdFormatOk (mailWords c) = true
  args : cmdArgBad (mailWords c) = false

/-- Word 1 of a command: its arguments (R517). -/
def mailArg (c : CmdGo) : Nat := (mailWords c).getD 1 0

/-- The mailbox after a command with a result that is posted in the next beat (R516). -/
def State.mailResult (s : State) (c : CmdGo) (alive code result : Nat) (trig : Option Trigger) : CmdState :=
  { (s.withMail c).cmd with
    aliveLast := alive, busy := true, results := s.cmd.results ++ [⟨code, c.alive.toNat, result, trig⟩] }

/-- A security operation under way, which ends with its result (R436). -/
def State.withOp (s : State) (o : SecOp) : State := { s with secu := { s.secu with op := some o } }

/-- How far an ALIVE value is from the last one, in the width of the unit (R256). -/
def CvuState.aliveStep (c : CvuState) (v : Nat) : Nat :=
  (v % 2 ^ aliveWidth c.width + 2 ^ aliveWidth c.width - c.last % 2 ^ aliveWidth c.width) % 2 ^ aliveWidth c.width

/-- What a self-test failure leaves (R406). -/
structure Failed (t : State) : Prop where
  failed : t.selftestFail = true
  loading : t.ldr.loading = false
  running : t.ldr.running = false
  held : t.so.held = true

/-- The port of the journal at which a fault's event arrives: its block's, or its engine's (R342). -/
def reportPort (g : Option (Fin 128)) (code : Nat) : EvPort := g.elim (.block (code / 4096)) fun k => .engine k.val

/-- The commands of the main domain: what they act on has no power while the main domain is off (the section on the main domain of
00_scope, R91, R311). -/
def mainCommand : Instr → Bool
  | .cellRulePersist | .bandDown | .sweepComplete | .masksReady | .microopsCancelled _ | .constantCopyDone _ _ _ | .coverageExpiry _
  | .telegramSend _ | .telegramGapEnd | .goldenFail _ | .stagedImageVerified _ | .bulkChunk _ _ _ | .imageLoad _
  | .attestReportSigned | .wdSvcKick _ | .coreUnitFault _ _ _ | .coreOff _ | .correctableSramError _ _ | .windowOpen _
  | .windowClose _ | .coreWakeDone _ | .avsTargetChange | .runReady _ | .descriptorDispatch _ | .microopIssue _ _ _ _ _
  | .microopRetire _ _ _ _ | .descriptorFail _ _ _ | .compareExecute _ _ | .barrierPass _ _ _ | .checkerWrite _ | .writeBufferRoom
  | .claimWrite | .detectionListCommit _ _ _ _ | .objectMatch | .objGraceExpiry | .gridCellUe _ _ | .forwardFailure _
  | .crocusStagingDone _ | .crocusInjectionStart _ | .crocusInjectionEnd _ | .crocusDeadline _ | .claimRecord _ _
  | .verdictBatchSend _ | .journalFlush | .nandProgramFail _ _ | .nandOpTimeout _ | .readDisturbRefresh _ | .retentionScrub _
  | .haltSnapshot | .gddrEdcRetry _ _ | .gddrUe _ _ _ | .testSliceStart _ | .testSliceEnd _ _ _ | .testSliceAbort _
  | .avsbusRead _ _ _ | .ptpSync _ _ | .ptpAnnounce _ _ | .pdelayReq _ | .delayReqSend _ | .delayResponse _ _ _ | .syncLoss
  | .ethLinkChange _ _ | .timestampLaneMismatch _ | .linkTrained | .helloMessage _ | .beatMessage _ | .frameSummaryMessage _
  | .linkCrcRate | .laneLost _ | .ethFrameDiscarded _ _ | .ethPcsFault _ | .secOperationComplete => true
  | _ => false

/-- The table of R17: from, to, cause. -/
def transitionTable : List (WState × WState × Nat) :=
  [(.stopped, .arming, 0x01), (.arming, .trust, 0x02), (.arming, .stopped, 0x1B),
   (.arming, .stopped, 0x1A), (.trust, .stopped, 0x1A), (.floor, .stopped, 0x1A), (.standstill, .stopped, 0x1A),
   (.trust, .floor, 0x03), (.trust, .floor, 0x05), (.floor, .trust, 0x04), (.floor, .stopping, 0x10),
   (.trust, .stopping, 0x11), (.floor, .stopping, 0x11), (.floor, .stopping, 0x12), (.trust, .stopping, 0x13),
   (.arming, .stopping, 0x14), (.trust, .stopping, 0x14), (.floor, .stopping, 0x14),
   (.arming, .stopping, 0x15), (.trust, .stopping, 0x15), (.floor, .stopping, 0x15),
   (.stopping, .standstill, 0x18), (.standstill, .arming, 0x19), (.stopping, .halt, 0x20), (.standstill, .halt, 0x21),
   (.stopped, .halt, 0x22), (.arming, .halt, 0x22), (.trust, .halt, 0x22), (.floor, .halt, 0x22), (.stopping, .halt, 0x22), (.standstill, .halt, 0x22),
   (.halt, .stopped, 0x30)]

/-- R29, bit by bit: one byte, most significant bit first. -/
def crcByte (c b : Nat) : Nat := (List.range 8).foldl (fun c _ => if 128 ≤ c then (2 * c ^^^ 0x1D) % 256 else 2 * c % 256) (c ^^^ b)

end Sys2Proof.Machine
end

