-- ==== Sys2Proof/Certificates/Slice0/Obligations.lean ====
section
/-!
DEFINITION. The statements for the provers: what the commands do, what they leave unchanged, and what holds of the whole machine.
-/
set_option Elab.async false

open Sys2Proof Sys2Proof.Machine

/-- A step is the command at the front of the queue. For every command c and state s, the step of s with c at the front of its queue
is exec c on s with the queue's rest. On an empty queue the step answers the same state: that clause is the model's own choice
(log entry 2). (00_scope: R4; 01_watch: R15; 95_what_each_step_holds) -/
def Obligations.StepTakesCommands : Prop :=
  (∀ (s : State) (c : Instr) (q : List Instr), step { s with pending := c :: q } = exec c { s with pending := q }) ∧
  (∀ s : State, s.pending = [] → step s = .next s)

/-- Every command answers a next state and keeps the queue. Every command answers a next state, never a fault or a refusal, and
leaves the queue as it was; a step takes exactly the front command from it. (00_scope: R9; 95_what_each_step_holds) -/
def Obligations.CommandsComplete : Prop :=
  (∀ (s : State) (c : Instr), Goes (exec c s) fun t => t.pending = s.pending) ∧
  (∀ (s : State) (c : Instr) (q : List Instr), s.pending = c :: q → Goes (step s) fun t => t.pending = q)

/-- The state after reset. After reset the beat is 0, the queue is empty, the watch is STOPPED with the verdict word 0x0000000E and
no doubt, FAULT_N is low, the last ALIVE of the mailbox is 0xFFFF, every output group is off with both channels low, every safe
input is off and not locked, the last area and the GDDR6 bytes are empty, and the invariant holds. The empty memories and the
empty last area are the model's choice (log entry 1). (01_watch: R13, R29; 08_safe_io: R280, R305; 17_i3c_register_index: R514
to R519; 12_startup_selftest: R398) -/
def Obligations.ResetState : Prop :=
  State.reset.beat = 0 ∧ State.reset.pending = [] ∧ State.reset.watch.wstate = .stopped ∧ State.reset.watch.verdict = 0x0000000E ∧
  State.reset.watch.doubt = 0 ∧ State.reset.fc.faultNLow = true ∧ State.reset.cmd.aliveLast = 0xFFFF ∧
  (∀ g ∈ State.reset.so.groups.toList, g.on = false ∧ g.a.high = false ∧ g.b.high = false) ∧
  (∀ i < 8, (State.reset.inp i).on = false ∧ (State.reset.inp i).locked = false) ∧ State.reset.evr.last = [] ∧ State.reset.gddrMem = [] ∧ State.reset.Inv

/-- Every step keeps the invariant of the machine. From every state in which the verdict word carries its CRC, every output group is
consistent (a group that is off drives neither channel and has no pulse; while the outputs are held every group is off) and
every memory is in canonical form, a step that answers a next state leaves all of this true. (01_watch: R28, R29; 08_safe_io:
R280, R283; 09_faults_watchdogs: R305) -/
def Obligations.InvariantKept : Prop :=
  ∀ s t : State, s.Inv → step s = .next t → t.Inv

/-- Without power nothing but POWER_ON acts. While the island has no power every command but POWER_ON leaves the state unchanged;
while the main domain is off, every command of the main domain leaves the state unchanged. Which commands do nothing without
power is the model's reading (log entry 3). (00_scope: the main domain, the safety island; 09_faults_watchdogs: R311, R326) -/
def Obligations.PowerGates : Prop :=
  (∀ (s : State) (c : Instr), s.powered = false → (∀ x, c ≠ .powerOn x) → exec c s = .next s) ∧
  (∀ (s : State) (c : Instr), s.pwr.mainOn = false → mainCommand c = true → exec c s = .next s)

/-- The watch moves only at a beat, along its table, or by a reset. A command that changes the watch state is BEAT, POWER_ON, the
collapse of the always-on supply, WAKE, an accepted press of the lock-out keys or the applied life-cycle transition. A change by
BEAT, unless it ends in a self-test failure, is recorded with its from, to, cause and beat, and the triple is a row of the table
of R17. (01_watch: R13, R15, R17, R18; 12_startup_selftest: R398, R406; 13_lifecycle_security: R425) -/
def Obligations.WatchStateChanges : Prop :=
  (∀ (s t : State) (c : Instr), exec c s = .next t → t.watch.wstate ≠ s.watch.wstate →
    (∃ i, c = .beat i) ∨ (∃ x, c = .powerOn x) ∨ c = .aonSupplyCollapse ∨ (∃ x, c = .wake x) ∨ (∃ x, c = .lrstPressAccepted x) ∨ ∃ x, c = .lcApply x) ∧
  (∀ (s t : State) (i : BeatIn), exec (.beat i) s = .next t → t.selftestFail = false → t.watch.wstate ≠ s.watch.wstate →
    t.watch.lastFrom = s.watch.wstate ∧ t.watch.lastTo = t.watch.wstate ∧
    (s.watch.wstate, t.watch.wstate, t.watch.lastCause) ∈ transitionTable ∧ t.watch.lastBeat = t.beat)

/-- The CRC of the verdict word. For every word, the CRC of its bits [31:8] is the CRC-8 of its three upper bytes in order, bit by
bit, most significant bit first, from the initial value 0xFF; the two check values of the rule are 0x0E and 0x4F. (R29) -/
def Obligations.VerdictCrc : Prop :=
  (∀ w : Word, verdictCrc (w.toNat / 256) = crcByte (crcByte (crcByte 0xFF (w.toNat / 2 ^ 24 % 256)) (w.toNat / 2 ^ 16 % 256)) (w.toNat / 2 ^ 8 % 256)) ∧
  verdictCrc 0 = 0x0E ∧ verdictCrc 0x5E0075 = 0x4F

/-- Boundary values: a cell at OCC_T, a claim at FREE_T, a speed at SPEED_MAX. A cell whose checker height is exactly OCC_T with
margin 0 and whose claim is exactly FREE_T is occupied for the checker and free for the claim: its class is disagree, and the
field is not clear with it. A speed exactly at SPEED_MAX[i] of the main field, or of the floor field, keeps band i in force.
(R74; R75) -/
def Obligations.FieldBoundaries : Prop :=
  (∀ (c : Cell) (occT freeT : Int), c.chkSeen = true → c.chkLo = occT → c.margin = 0 → c.clmSeen = true → c.clmLo = freeT →
    c.classify occT freeT = .disagree ∧ clearOf [c] occT = false) ∧
  (∀ (s : State) (i : Nat), i < 8 → s.ev.band = i → s.watch.speed = some (s.bandSpeedMax false s.ev.mainField i) →
    s.bandBeat.ev.band = i) ∧
  (∀ (s : State) (i : Nat), i < 8 → s.ev.floorBand = i → s.watch.speed = some (s.bandSpeedMax true s.ev.floorField i) →
    s.bandBeat.ev.floorBand = i)

/-- What a beat commits. With the island powered and the crystal running, BEAT advances the beat by one modulo 2^48. With u the
state in which the undelivered events of the beat have been settled (log entry 5): the chosen transition becomes the watch
state, recorded with its from, to, cause and the new beat; with none, the state and the last transition stay. The doubt of the
new beat is the next doubt of u, and is cleared by a transition to STOPPED; the sticky doubt collects it. The committed word
carries its CRC, and outside the start-up and a self-test failure its state code, its doubt field (0 in STOPPED) and SEQ, the
beat modulo 16; in a self-test failure it is 0x0000000E. (01_watch: R15, R17, R19, R20, R28, R29; 12_startup_selftest: R406) -/
def Obligations.BeatCommits : Prop :=
  ∀ (s : State) (i : BeatIn), s.powered = true → s.xtalOk = true → Goes (exec (.beat i) s) fun t =>
    let u := s.settle.startUpFault
    t.beat = (s.beat + 1) % 2 ^ 48 ∧
    (∀ g, u.transition = some g → t.watch.wstate = g.target ∧ t.watch.lastFrom = u.watch.wstate ∧ t.watch.lastTo = g.target ∧
      t.watch.lastCause = g.cause ∧ t.watch.lastBeat = t.beat) ∧
    (u.transition = none → t.watch.wstate = u.watch.wstate ∧ t.watch.lastBeat = u.watch.lastBeat) ∧
    ((∀ g, u.transition = some g → g.target ≠ .stopped) → t.watch.doubt = u.nextDoubt) ∧
    ((∃ g, u.transition = some g ∧ g.target = .stopped) → t.watch.doubt = 0) ∧
    t.watch.sticky = u.watch.sticky ||| t.watch.doubt ∧
    wordOk t.watch.verdict = true ∧
    (t.selftestFail = false → t.st.running = false →
      bits t.watch.verdict.toNat 29 3 = t.watch.wstate.code ∧
      bits t.watch.verdict.toNat 17 8 = (if t.watch.wstate = .stopped then 0 else t.watch.doubt.toNat) ∧
      bits t.watch.verdict.toNat 8 4 = t.beat % 16) ∧
    (t.selftestFail = true → t.watch.verdict = 0x0000000E)

/-- The trigger that wins. For every watch state and list of collected triggers, the resolved trigger is one of the list, is listed
for the state, and every listed trigger of the list has a target that comes later in the order of targets, or the same target
with a cause at least as large; with no resolved trigger none of the list is listed for the state. (01_watch: R15, R16, R17) -/
def Obligations.BestTrigger : Prop :=
  ∀ (f : WState) (ts : List Trigger),
    (∀ t, resolve f ts = some t → t ∈ ts ∧ listed f t = true ∧
      ∀ u ∈ ts, listed f u = true → rank t.target < rank u.target ∨ (t.target = u.target ∧ t.cause ≤ u.cause)) ∧
    (resolve f ts = none → ∀ u ∈ ts, listed f u = false)

/-- A fatal fault halts the watch. A collected trigger of cause 0x22 to HALT, in any watch state but HALT and outside a self-test
failure, makes the transition chosen at the beat one to HALT. (01_watch: R16, R17, R18) -/
def Obligations.FatalHalts : Prop :=
  ∀ u : State, (⟨.halt, 0x22⟩ : Trigger) ∈ u.watch.trig → u.watch.wstate ≠ .halt → u.selftestFail = false →
    ∃ c, u.transition = some ⟨.halt, c⟩

/-- Triggers of arming, re-trust, time-out and the floor. ARM_FRAMES_REACHED, RETRUST and ARM_TIMEOUT collect their triggers (TRUST
0x02, TRUST 0x04, STOPPED 0x1B) when their counts are reached at the tick's beat, the floor is available and, for RETRUST, re-
trust is not blocked and no FLOOR_REQUEST is in effect; RETRUST_BLOCK blocks re-trust when the floor entries in their window
exceed the limit; confirmed floor occupancy collects STOPPING 0x10 in FLOOR, and a shorter run withdraws the confirmation.
Nothing else changes. (01_watch: R21, R22, R23, R558; 02_scene_grid: R73) -/
def Obligations.WatchTriggers : Prop :=
  (∀ s : State, s.powered = true → s.watch.wstate = .arming → s.watch.countBeat = some s.beat → s.armFrames ≤ s.watch.cleanCnt →
      s.ev.floorAvail = true →
      exec .armFramesReached s = .next { s with watch := { s.watch with trig := s.watch.trig ++ [⟨.trust, 0x02⟩] } }) ∧
  (∀ s : State, s.powered = true → s.watch.wstate = .floor → s.watch.countBeat = some s.beat →
      s.ldr.vals.retrustFrames ≤ s.watch.cleanCnt → s.ev.floorAvail = true → s.watch.retrustBlocked = false → s.watch.intent.mode ≠ 1 →
      exec .retrust s = .next { s with watch := { s.watch with trig := s.watch.trig ++ [⟨.trust, 0x04⟩] } }) ∧
  (∀ s : State, s.powered = true → s.watch.wstate = .arming → s.watch.countBeat = some s.beat → s.watch.armTicks = s.armTimeout + 1 →
      exec .armTimeout s = .next { s with watch := { s.watch with trig := s.watch.trig ++ [⟨.stopped, 0x1B⟩] } }) ∧
  (∀ s : State, s.powered = true → s.floorEntryLimit ≠ 0 → s.floorEntryLimit < s.floorEntriesIn.length → s.watch.wstate ≠ .stopped →
      exec .retrustBlock s = .next { s with watch := { s.watch with retrustBlocked := true } }) ∧
  (∀ s : State, s.powered = true → s.watch.wstate = .floor → s.bandPersist true s.ev.floorField s.ev.floorBand ≤ s.ev.floorRun →
      exec .floorOccupancyConfirmed s =
        .next { s with ev := { s.ev with floorOcc := true }, watch := { s.watch with trig := s.watch.trig ++ [⟨.stopping, 0x10⟩] } }) ∧
  (∀ s : State, s.powered = true → s.ev.floorRun < s.bandPersist true s.ev.floorField s.ev.floorBand →
      exec .floorOccupancyConfirmed s = .next { s with ev := { s.ev with floorOcc := false } })

/-- SS1 maximum time and the encoder cross-check. In STOPPING, MAX_TIME without a speed below the standstill threshold is the fatal
fault of source 11 with code 0x02 and collects the trigger to HALT 0x20, while the watch stays in STOPPING until the beat; a
disagreement of more than ENC_DISC_BEATS judged beats is the uncorrected fault of source 8 with code 4, marked once.
(08_safe_io: R277, R287) -/
def Obligations.StopAndSpeedFaults : Prop :=
  (∀ s : State, s.powered = true → s.watch.wstate = .stopping → s.watch.ss1Since + s.ss1MaxTime ≤ s.beat →
      s.speedBelow s.standstillMmps = false → s.fc.activeFt.getLsbD 11 = false →
      Goes (exec .ss1MaxTime s) fun t => Reacts s 11 .ft 0x02 t ∧ (⟨.halt, 0x20⟩ : Trigger) ∈ t.watch.trig ∧ t.watch.wstate = .stopping) ∧
  (∀ s : State, s.powered = true → s.encDiscBeats < s.enc.xchkRun → s.enc.xchkDone = false →
      Goes (exec .encCrosscheckFault s) fun t => Reacts s 8 .uc 0x04 t ∧ t.enc = { s.enc with xchkDone := true, xchkFault := true })

/-- Cell rule, band, masks and sweep. CELL_RULE_PERSIST sets the cell rule exactly when the run has reached the persistence of the
band in force, and does nothing without an evaluation; BAND_DOWN takes the lowest band whose run has reached BAND_DOWN_BEATS and
does not raise the floor's band; MASKS_READY puts the prepared field, floor field and heading in force; SWEEP_COMPLETE moves
plane 0 to plane 1 and rewrites every cell of plane 0 by the sweep. (02_scene_grid: R61, R64, R65, R68) -/
def Obligations.GridEvaluation : Prop :=
  (∀ s : State, s.powered = true → s.pwr.mainOn = true → s.ev.got = true →
      exec .cellRulePersist s =
        .next { s with ev := { s.ev with cellRule := decide (s.bandPersist false s.ev.mainField s.ev.band ≤ s.ev.run) } }) ∧
  (∀ s : State, s.powered = true → s.pwr.mainOn = true → s.ev.got = false → exec .cellRulePersist s = .next s) ∧
  (∀ (s : State) (b : Nat), s.powered = true → s.pwr.mainOn = true → b < s.ev.band → s.bandDownBeats ≤ vget s.ev.bandRuns b 0 →
      (∀ c, c < b → vget s.ev.bandRuns c 0 < s.bandDownBeats) →
      Goes (exec .bandDown s) fun t => t.ev.band = b ∧ t.ev.floorBand ≤ s.ev.floorBand) ∧
  (∀ s : State, s.powered = true → s.pwr.mainOn = true → s.ev.maskDue.isSome = true →
      exec .masksReady s =
        .next { s with ev := { s.ev with mainField := s.ev.nextField, floorField := s.ev.nextFloor, maskPsi := s.ev.nextPsi
                                         maskDue := none, maskNew := true } }) ∧
  (∀ s : State, s.powered = true → s.pwr.mainOn = true → s.grid.sweepSince.isSome = true → Sparse.wf Cell.zero s.grid.plane0 = true →
      Goes (exec .sweepComplete s) fun t =>
        t.grid.plane1 = s.grid.plane0 ∧ t.grid.sweepSince = none ∧
          ∀ k, Sparse.get Cell.zero t.grid.plane0 k = s.sweepCell k (Sparse.get Cell.zero s.grid.plane0 k))

/-- The frame tick. A due FRAME_TICK clears its request, takes the waiting INTENT, raises its age, starts the frame clean when no
doubt and no INTENT mode stand, clears the encoders' frame sums and the golden runs, makes new masks due and keeps the closing
field, band and heading; at frame 0 it leaves grid, floor, power and the clean count as they are; at later frames it clears the
frame's energy and claim failure and, in ARMING and FLOOR, counts whole clean frames and in ARMING the ticks of the arm time-
out. A tick that is not due leaves the state unchanged. (06_time_plan_budget: R193) -/
def Obligations.FrameTicks : Prop :=
  (∀ (s : State) (a : Nat), s.powered = true → s.sched.tickDue = true → Goes (exec (.frameTick a) s) fun t =>
    t.sched.tickDue = false ∧ t.watch.intent = s.watch.intentNext.getD s.watch.intent ∧ t.watch.intentNext = none ∧
    t.watch.intentAge = satInc 255 s.watch.intentAge ∧ t.watch.frameClean = (t.watch.doubt == 0 && t.watch.intent.mode == 0) ∧
    (∀ e, e < 2 → (t.encAt e).frameSum = 0) ∧ t.golden.done = 0 ∧ t.ev.maskDue = some s.beat ∧
    t.ev.closing = (s.ev.mainField, s.ev.band, s.ev.maskPsi) ∧ t.st.lbistCore = t.sched.frame % 32) ∧
  (∀ (s : State) (a : Nat), s.powered = true → s.sched.tickDue = true → s.sched.frame = 0 → Goes (exec (.frameTick a) s) fun t =>
    t.grid = s.grid ∧ t.flr = s.flr ∧ t.pwr = s.pwr ∧ t.watch.cleanCnt = s.watch.cleanCnt) ∧
  (∀ (s : State) (a : Nat), s.powered = true → s.sched.tickDue = true → s.sched.frame ≠ 0 → Goes (exec (.frameTick a) s) fun t =>
    t.pwr.energy = 0 ∧ t.pwr.frameUnread = false ∧ t.io.claimFail = false ∧
    ((s.watch.wstate = .arming ∨ s.watch.wstate = .floor) →
      t.watch.countBeat = some s.beat ∧ t.watch.partialFrame = false ∧
      t.watch.cleanCnt = (if s.watch.doubt ≠ 0 then 0 else if s.watch.partialFrame then s.watch.cleanCnt
        else if s.closedClean then satInc 255 s.watch.cleanCnt else 0)) ∧
    (s.watch.wstate = .arming → t.watch.armTicks = s.watch.armTicks + 1)) ∧
  (∀ (s : State) (a : Nat), s.powered = true → s.sched.tickDue = false → exec (.frameTick a) s = .next s)

/-- Frame-sync pins and verdict telegrams. FSYNC pins rise and fall each on its own; TELEGRAM_SEND takes the oldest telegram and
sends it on exactly the enabled ports with a link while the service core runs, within 25 beats and unless it is late; a late one
counts a drop for each enabled port; TELEGRAM_GAP_END drops held changes when the word equals the last one sent, and otherwise
generates one. (06_time_plan_budget: R195; 15_network_time: R474, R476) -/
def Obligations.FrameSignals : Prop :=
  (∀ (s : State) (k : Fin 4), s.powered = true → s.fsyncOn k = true → Goes (exec (.fsyncAssert k) s) fun t =>
    vget t.sched.fsync k false = true ∧ ∀ j, j ≠ k.val → vget t.sched.fsync j false = vget s.sched.fsync j false) ∧
  (∀ (s : State) (k : Fin 4), s.powered = true → s.fsyncOn k = false → Goes (exec (.fsyncRelease k) s) fun t =>
    vget t.sched.fsync k false = false ∧ ∀ j, j ≠ k.val → vget t.sched.fsync j false = vget s.sched.fsync j false) ∧
  (∀ (s : State) (late : Bool) (x : Telegram) (q : List Telegram), s.powered = true → s.pwr.mainOn = true → s.tel.queue = x :: q →
    Goes (exec (.telegramSend late) s) fun t => t.tel.queue = q ∧
      (∀ m f, (m, f) ∈ t.tel.out ↔ m < 2 ∧ f = s.telFrame m x ∧ bitAt s.telPorts m = true ∧ s.svcUp = true ∧ (s.eth m).link = true ∧
        late = false ∧ s.beat ≤ x.beat + 25) ∧
      (late = true → t.tel.out = [] ∧ t.tel.dropped = satAdd 4095 s.tel.dropped ((upto 2).filter fun m => bitAt s.telPorts m).length)) ∧
  (∀ s : State, s.powered = true → s.pwr.mainOn = true → s.telActive = true → s.tel.held ≠ 0 → s.telGapOver = true →
    s.tel.lastSent = some (telKey s.watch.verdict.toNat) →
    exec .telegramGapEnd s = .next { s with tel := { s.tel with held := 0 } }) ∧
  (∀ s : State, s.powered = true → s.pwr.mainOn = true → s.telActive = true → s.tel.held ≠ 0 → s.telGapOver = true →
    s.tel.lastSent ≠ some (telKey s.watch.verdict.toNat) → Goes (exec .telegramGapEnd s) fun t =>
      t.tel.held = 0 ∧ t.tel.lastChange = some s.beat ∧ t.tel.lastSent = some (telKey s.watch.verdict.toNat))

/-- The checks of the command mailbox, in order. For each of the ten commands, with the CODE of its row in word 0: a busy mailbox
answers 0x05; otherwise a wrong CRC-32C answers 0x01, then a wrong ALIVE 0x02, both with the last ALIVE kept, then a wrong
format 0x03 and an argument out of range 0x04, both with the ALIVE taken. Nothing but the mailbox changes.
(17_i3c_register_index: R514, R515, R516, R517, R518) -/
def Obligations.MailboxChecks : Prop :=
  ∀ x : (CmdGo → Instr) × Nat, x ∈ [(Instr.arm, 1), (Instr.stop, 2), (Instr.resume, 3), (Instr.profileSelect, 4), (Instr.profileSet, 5), (Instr.intent, 6),
      (Instr.serviceEnter, 7), (Instr.serviceExit, 8), (Instr.clearFirstArea, 9), (Instr.lcTransition, 10)] →
    ∀ (s : State) (c : CmdGo), s.powered = true → cmdCode (mailWords c) = x.2 →
      (s.cmd.busy = true → exec (x.1 c) s = .next { s with cmd := s.mailResult c s.cmd.aliveLast x.2 5 none }) ∧
      (s.cmd.busy = false → crc32c (cmdBytes (mailWords c) c.alive.toNat) ≠ c.crc.toNat →
        exec (x.1 c) s = .next { s with cmd := s.mailResult c s.cmd.aliveLast x.2 1 none }) ∧
      (s.cmd.busy = false → crc32c (cmdBytes (mailWords c) c.alive.toNat) = c.crc.toNat → c.alive.toNat ≠ (s.cmd.aliveLast + 1) % 65536 →
        exec (x.1 c) s = .next { s with cmd := s.mailResult c s.cmd.aliveLast x.2 2 none }) ∧
      (s.cmd.busy = false → crc32c (cmdBytes (mailWords c) c.alive.toNat) = c.crc.toNat → c.alive.toNat = (s.cmd.aliveLast + 1) % 65536 →
        cmdFormatOk (mailWords c) = false → exec (x.1 c) s = .next { s with cmd := s.mailResult c c.alive.toNat x.2 3 none }) ∧
      (s.cmd.busy = false → crc32c (cmdBytes (mailWords c) c.alive.toNat) = c.crc.toNat → c.alive.toNat = (s.cmd.aliveLast + 1) % 65536 →
        cmdFormatOk (mailWords c) = true → cmdArgBad (mailWords c) = true →
        exec (x.1 c) s = .next { s with cmd := s.mailResult c c.alive.toNat x.2 4 none })

/-- ARM, STOP and RESUME. An accepted ARM in STOPPED with an image, no SERVICE, no SPLIT, no pending lock-out, the stop inputs on
and the machine at standstill posts result 0 and collects the trigger to ARMING 0x01; STOP in a state other than STOPPED,
STOPPING and HALT at standstill collects STOPPED 0x1A; STOP in STOPPED does nothing but answer 0; RESUME in STANDSTILL collects
ARMING 0x19; a refused command posts its code and changes nothing else. (01_watch: R33, R34, R35) -/
def Obligations.ArmStopResume : Prop :=
  (∀ (s : State) (c : CmdGo), s.powered = true → Accepted s 1 c → s.watch.wstate = .stopped → s.img.isSome = true → s.ldr.service = false →
      s.ctrl.split = false → s.lockoutPending = false → s.stopInputsOn = true → s.speedBelow s.standstillMmps = true →
      exec (.arm c) s = .next { s with cmd := s.mailResult c c.alive.toNat 1 0 (some ⟨.arming, 0x01⟩)
                                       watch := { s.watch with trig := s.watch.trig ++ [⟨.arming, 0x01⟩] } }) ∧
  (∀ (s : State) (c : CmdGo), s.powered = true → Accepted s 2 c → s.watch.wstate ≠ .stopped → s.watch.wstate ≠ .stopping → s.watch.wstate ≠ .halt →
      s.speedBelow s.standstillMmps = true →
      exec (.stop c) s = .next { s with cmd := s.mailResult c c.alive.toNat 2 0 (some ⟨.stopped, 0x1A⟩)
                                        watch := { s.watch with trig := s.watch.trig ++ [⟨.stopped, 0x1A⟩] } }) ∧
  (∀ (s : State) (c : CmdGo), s.powered = true → Accepted s 2 c → s.watch.wstate = .stopped →
      exec (.stop c) s = .next { s with cmd := s.mailResult c c.alive.toNat 2 0 none }) ∧
  (∀ (s : State) (c : CmdGo), s.powered = true → Accepted s 3 c → s.watch.wstate = .standstill → s.stopInputsOn = true → s.lockoutPending = false →
      exec (.resume c) s = .next { s with cmd := s.mailResult c c.alive.toNat 3 0 (some ⟨.arming, 0x19⟩)
                                          watch := { s.watch with trig := s.watch.trig ++ [⟨.arming, 0x19⟩] } }) ∧
  (∀ (s : State) (c : CmdGo), s.powered = true → Accepted s 1 c → s.armCode ≠ 0 →
      exec (.arm c) s = .next { s with cmd := s.mailResult c c.alive.toNat 1 s.armCode none }) ∧
  (∀ (s : State) (c : CmdGo), s.powered = true → Accepted s 2 c → s.stopCode ≠ 0 →
      exec (.stop c) s = .next { s with cmd := s.mailResult c c.alive.toNat 2 s.stopCode none }) ∧
  (∀ (s : State) (c : CmdGo), s.powered = true → Accepted s 3 c → s.resumeCode ≠ 0 →
      exec (.resume c) s = .next { s with cmd := s.mailResult c c.alive.toNat 3 s.resumeCode none })

/-- Profile, parameter, intent, service and first-area commands. An accepted PROFILE_SELECT in STOPPED outside SERVICE makes the
named profile's values those in force; PROFILE_SET sets one parameter and marks it modified; INTENT makes its values wait for
the next tick with age 0; SERVICE_ENTER in STOPPED enters SERVICE; SERVICE_EXIT ends the running image and starts a load;
CLEAR_FIRST_AREA empties the first area but for its record. (01_watch: R36; 10_event_journal: R345; 11_reneb_image: R387, R388,
R390) -/
def Obligations.SettingsCommands : Prop :=
  (∀ (s : State) (c : CmdGo), s.powered = true → Accepted s 4 c → s.watch.wstate = .stopped → s.ldr.service = false →
      bits (mailArg c) 0 3 < profCount (s.sec 0x11) →
      exec (.profileSelect c) s = .next { s with
        cmd := s.mailResult c c.alive.toNat 4 0 none
        ldr := (s.useProfile (bits (mailArg c) 0 3)).ldr }) ∧
  (∀ (s : State) (c : CmdGo), s.powered = true → Accepted s 5 c → s.setCode (bits (mailArg c) 0 3) (bits (mailArg c) 8 8) = 0 →
      exec (.profileSet c) s = .next { s with
        cmd := s.mailResult c c.alive.toNat 5 0 none
        ldr := { s.ldr with
          vals := s.ldr.vals.set (bits (mailArg c) 0 3) (bits (mailArg c) 8 8)
          modified := s.ldr.modified ||| BitVec.twoPow 7 (bits (mailArg c) 0 3) } }) ∧
  (∀ (s : State) (c : CmdGo), s.powered = true → Accepted s 6 c → s.watch.wstate ≠ .halt →
      exec (.intent c) s = .next { s with
        cmd := s.mailResult c c.alive.toNat 6 0 none
        watch := { s.watch with
          intentNext := some ⟨bits (mailArg c) 0 4, bits (mailArg c) 4 2, bits (mailArg c) 16 16⟩, intentAge := 0 } }) ∧
  (∀ (s : State) (c : CmdGo), s.powered = true → Accepted s 7 c → s.watch.wstate = .stopped → s.pwr.mainOn = true →
      exec (.serviceEnter c) s = .next { s with cmd := s.mailResult c c.alive.toNat 7 0 none, ldr := { s.ldr with service := true } }) ∧
  (∀ (s : State) (c : CmdGo), s.powered = true → Accepted s 8 c → s.inService = true → s.ldr.busy = false →
      Goes (exec (.serviceExit c) s) fun t =>
        t.cmd = s.mailResult c c.alive.toNat 8 0 none ∧ t.ldr.loading = true ∧ t.ldr.running = false ∧ t.ldr.service = false ∧
          t.ldr.xferOpen = false ∧ t.sched.origin = none) ∧
  (∀ (s : State) (c : CmdGo), s.powered = true → Accepted s 9 c → s.inService = true →
      Goes (exec (.clearFirstArea c) s) fun t =>
        t.cmd = s.mailResult c c.alive.toNat 9 0 none ∧ t.jnl.firstCopy = none ∧ t.evr.first.length ≤ 1)

/-- Operations of the security block. ID_GENERATE gives result 0x0B with an identity, 0x10 with a bad seed region, 0x0F with a
failed TRNG, 0x10 with a failed read-back, and otherwise a seed of 96 bytes and the public key in the buffer; CERT_PROGRAM
stores a valid certificate or gives its code; CERT_READ and ATTEST give 0x0B without a certificate or identity; BUF_CLEAR
empties the buffer; KEY_OP adds or revokes the named slot alone; while an operation runs any request is refused with 0x01, and
outside its states with 0x02, leaving the life cycle as it is. (13_lifecycle_security: R427, R428, R433, R434, R436) -/
def Obligations.SecurityOperations : Prop :=
  (∀ s : State, s.powered = true → s.pwr.mainOn = true → s.secu.op = none → s.lc.bootState = 0 → s.secService = true →
    (s.hasId = true → ∀ a b, exec (.idGenerate a b) s = .next (s.withOp ⟨1, 0x0B, [], false, 0⟩)) ∧
    (s.hasId = false → s.lc.seedBad = true → ∀ a b, exec (.idGenerate a b) s = .next (s.withOp ⟨1, 0x10, [], false, 0⟩)) ∧
    (s.hasId = false → s.lc.seedBad = false → ∀ b, Goes (exec (.idGenerate false b) s) fun t =>
      t.secu.op = some ⟨1, 0x0F, [], false, 0⟩ ∧ t.lc = s.lc) ∧
    (s.hasId = false → s.lc.seedBad = false → Goes (exec (.idGenerate true false) s) fun t =>
      t.secu.op = some ⟨1, 0x10, [], false, 0⟩ ∧ t.lc.seedBad = true) ∧
    (s.hasId = false → s.lc.seedBad = false → Goes (exec (.idGenerate true true) s) fun t =>
      t.secu.op = some ⟨1, 0, [], false, 0⟩ ∧ t.hasId = true ∧ (∃ seed, t.lc.seed = some seed ∧ seed.length = 96) ∧
        t.secu.len = t.publicKey.length ∧ t.secu.ptr = 0 ∧ t.secu.buf = Mem.writeN [] 0 t.publicKey)) ∧
  (∀ s : State, s.powered = true → s.pwr.mainOn = true → s.secu.op = none → s.lc.bootState = 0 → s.secService = true →
    (s.certCode s.secBytes = 0 → Goes (exec .certProgram s) fun t =>
      t.lc = { s.lc with cert := some s.secBytes } ∧ t.secu.op = some ⟨2, 0, [], false, 0⟩) ∧
    (s.certCode s.secBytes ≠ 0 → exec .certProgram s = .next (s.withOp ⟨2, s.certCode s.secBytes, [], false, 0⟩))) ∧
  (∀ s : State, s.powered = true → s.pwr.mainOn = true → s.secu.op = none →
    (∀ c, s.lc.cert = some c → exec .certRead s = .next
      { s with secu := { s.secu with buf := Mem.writeN [] 0 c, len := c.length, ptr := 0, reportValid := false, op := some ⟨3, 0, [], false, 0⟩ } }) ∧
    (s.lc.cert = none → exec .certRead s = .next (s.withOp ⟨3, 0x0B, [], false, 0⟩)) ∧
    (∀ store, s.hasId = true → exec (.attest store) s = .next (s.withOp ⟨5, 0, s.reportBody, store, 0⟩)) ∧
    (∀ store, s.hasId = false → exec (.attest store) s = .next (s.withOp ⟨5, 0x0B, [], false, 0⟩)) ∧
    exec .bufClear s = .next { s with secu := { s.secu with buf := [], len := 0, ptr := 0, reportValid := false, op := some ⟨6, 0, [], false, 0⟩ } }) ∧
  (∀ s : State, s.powered = true → s.pwr.mainOn = true → s.secu.op = none → s.lc.bootState ≤ 2 → s.secService = true →
    (s.keyCode s.secBytes = 0 → Goes (exec .keyOp s) fun t =>
      t.secu.op = some ⟨4, 0, [], false, 0⟩ ∧
      (u8 s.secBytes 4 = 1 → (t.keySlot (u8 s.secBytes 5)).programmed = true ∧
        (t.keySlot (u8 s.secBytes 5)).hash = Config.shake256 (slice s.secBytes 0x28 64) 32) ∧
      (u8 s.secBytes 4 = 2 → (t.keySlot (u8 s.secBytes 5)).revoked = true) ∧
      ∀ k, k ≠ u8 s.secBytes 5 → t.keySlot k = s.keySlot k) ∧
    (s.keyCode s.secBytes ≠ 0 → exec .keyOp s = .next (s.withOp ⟨4, s.keyCode s.secBytes, [], false, 0⟩))) ∧
  (∀ (a b : Bool) (x : Instr), x ∈ [.idGenerate a b, .certProgram, .certRead, .keyOp, .attest false, .attest true, .bufClear] →
    ∀ s : State, s.powered = true → s.pwr.mainOn = true → s.secu.op.isSome = true →
      Goes (exec x s) fun t => t.secu = { s.secu with result := 1 } ∧ t.lc = s.lc) ∧
  (∀ (a b : Bool) (x : Instr), x ∈ [.idGenerate a b, .certProgram, .keyOp] →
    ∀ s : State, s.powered = true → s.pwr.mainOn = true → s.secu.op = none → s.secService = false →
      Goes (exec x s) fun t => t.secu = { s.secu with result := 2 } ∧ t.lc = s.lc)

/-- Completion of security operations and life-cycle transitions. SEC_OPERATION_COMPLETE stores the result and sets the interrupt;
for LC_TRANSITION it answers the waiting mailbox command and, with result 0, makes the transition pending with a flush;
ATTEST_REPORT_SIGNED puts the report with its signature into the buffer and counts it; LC_TRANSITION starts the token check or
is refused with its code; LC_APPLY blows the destination's group of fuses, keeps certificate, seed and slots and restarts the
machine at beat 0, or is abandoned while a fatal fault is active; with a fatal fault of its own it raises that.
(13_lifecycle_security: R422, R424, R425, R426, R434, R436, R437; 17_i3c_register_index: R516, R518) -/
def Obligations.SecurityCompletion : Prop :=
  (∀ (s : State) (o : SecOp), s.powered = true → s.pwr.mainOn = true → s.secu.op = some o → o.op ≠ 15 → ¬(o.op = 5 ∧ o.result = 0) →
    Goes (exec .secOperationComplete s) fun t =>
      t.secu = { s.secu with op := none, result := o.result, lastOp := o.op } ∧ t.i3c.irqStatus = s.i3c.irqStatus ||| 0x40) ∧
  (∀ (s : State) (o : SecOp) (w : CmdOpen), s.powered = true → s.pwr.mainOn = true → s.secu.op = some o → o.op = 15 → s.cmd.waiting = some w →
    Goes (exec .secOperationComplete s) fun t =>
      t.secu.op = none ∧ t.secu.result = o.result ∧ t.cmd.waiting = none ∧
      t.cmd.results = s.cmd.results ++ [⟨w.code, w.alive, if o.result = 0 then 0 else 0x60, none⟩] ∧
      (o.result = 0 → t.lc.pending = some ⟨o.dest, u8 s.secBytes 6, s.beat⟩ ∧ t.jnl.flushDue = true) ∧
      (o.result ≠ 0 → t.lc = s.lc)) ∧
  (∀ (s : State) (o : SecOp), s.powered = true → s.pwr.mainOn = true → s.secu.op = some o → o.op = 5 → o.result = 0 →
    Goes (exec .attestReportSigned s) fun t =>
      t.secu.op = none ∧ t.secu.result = 0 ∧ t.secu.lastOp = 5 ∧ t.secu.reportValid = true ∧ t.secu.attCount = (s.secu.attCount + 1) % 2 ^ 32 ∧
      t.secu.ptr = 0 ∧ t.secu.buf = Mem.writeN [] 0 (o.report ++ padTo 49856 (Config.slhDsaSign (s.lc.seed.getD []) attContext o.report)) ∧
      t.i3c.irqStatus = s.i3c.irqStatus ||| 0x40) ∧
  (∀ (s : State) (c : CmdGo), s.powered = true → Accepted s 10 c →
    (s.lcRefusal (bits (mailArg c) 0 3) = 0 → exec (.lcTransition c) s = .next { s with
        secu := { s.secu with op := some ⟨15, s.tokenCode s.secBytes (bits (mailArg c) 0 3), [], false, bits (mailArg c) 0 3⟩ }
        cmd := { (s.withMail c).cmd with aliveLast := c.alive.toNat, busy := true, waiting := some ⟨0xA, c.alive.toNat⟩ } }) ∧
    (s.lcRefusal (bits (mailArg c) 0 3) ≠ 0 → Goes (exec (.lcTransition c) s) fun t =>
        t.secu = { s.secu with result := s.lcRefusal (bits (mailArg c) 0 3) } ∧ t.cmd = s.mailResult c c.alive.toNat 0xA 0x60 none ∧ t.lc = s.lc)) ∧
  (∀ (s : State) (p : LcPending), s.powered = true → s.lc.pending = some p →
    (∀ f, s.ftActive = true → exec (.lcApply f) s = .next { s with lc := { s.lc with pending := none } }) ∧
    (s.ftActive = false → s.lcDue p = true → Goes (exec (.lcApply none) s) fun t =>
      t.lc.fuses = vset s.lc.fuses (p.dest - 1) 7 ∧ t.lc.again = some (s.lcData p) ∧ t.lc.pending = none ∧ t.lc.cert = s.lc.cert ∧ t.lc.seed = s.lc.seed ∧
      t.powered = true ∧ t.beat = 0 ∧ t.watch = WatchState.reset ∧ t.fc = FaultState.reset ∧ t.so = OutState.reset ∧
      t.ldr.slotA = s.ldr.slotA ∧ t.ldr.slotB = s.ldr.slotB ∧ t.ldr.otpCtr = s.ldr.otpCtr) ∧
    (∀ src info, s.ftActive = false → s.lcDue p = true → Goes (exec (.lcApply (some (src, info))) s) fun t =>
      Reacts s src.val .ft info.toNat t ∧ t.lc.fuses = vset s.lc.fuses (p.dest - 1) 7 ∧ t.lc.pending = none))

/-- The security buffer and the debugger. Writing SEC_BUF_DATA stores the bytes at the pointer, leaves every other byte, advances
the pointer and clears REPORT_VALID; reading returns four bytes and advances it by 4; a debugger attach in a permitted life-
cycle state is seen, and a halt freezes the service core's watchdog or the tasks and the controllers, until the release;
elsewhere nothing happens. (09_faults_watchdogs: R327; 13_lifecycle_security: R436, R440) -/
def Obligations.SecurityBufferAndDebug : Prop :=
  (∀ (s : State) (bs : List Byte), s.powered = true → s.pwr.mainOn = true → bs ≠ [] → bs.length ≤ 4096 → s.secu.ptr + bs.length ≤ 65536 →
    s.secu.buf.wf = true → Goes (exec (.secBufDataWrite bs) s) fun t =>
      (∀ i (h : i < bs.length), t.secu.buf.read (s.secu.ptr + i) = bs[i]) ∧
      (∀ a, a < s.secu.ptr ∨ s.secu.ptr + bs.length ≤ a → t.secu.buf.read a = s.secu.buf.read a) ∧
      t.secu.ptr = (s.secu.ptr + bs.length) % 65536 ∧ t.secu.len = max s.secu.len (s.secu.ptr + bs.length) ∧ t.secu.reportValid = false) ∧
  (∀ s : State, s.powered = true → s.pwr.mainOn = true → s.i3c.hdr = false → Goes (exec .secBufDataRead s) fun t =>
      t.i3c.ack = true ∧ t.i3c.resp = leBytes 4 s.bufWord ∧ t.secu = { s.secu with ptr := (s.secu.ptr + 4) % 65536 }) ∧
  (∀ s : State, s.powered = true → s.debugOk = true →
    exec .debuggerAttach s = .next { s with lc := { s.lc with debugSeen := true } } ∧
    exec (.debuggerHalt true) s = .next { s with wd := { s.wd with svcFrozen := true } } ∧
    exec (.debuggerHalt false) s = .next { s with wd := { s.wd with taskFrozen := true }, ctrl := { s.ctrl with halted := true } }) ∧
  (∀ s : State, s.powered = true →
    exec (.debuggerRelease true) s = .next { s with wd := { s.wd with svcFrozen := false } } ∧
    exec (.debuggerRelease false) s = .next { s with wd := { s.wd with taskFrozen := false }, ctrl := { s.ctrl with halted := false } }) ∧
  (∀ s : State, s.powered = true → s.debugOk = false →
    exec .debuggerAttach s = .next s ∧ ∀ b, exec (.debuggerHalt b) s = .next s)

/-- Transfers to a slot. In SERVICE, LDR_OPEN opens a transfer to the slot that does not run, or without a running image to the one
not preferred; LDR_WDATA_WRITE and a matching BULK_CHUNK append their bytes, and a WDATA write beyond LENGTH aborts the
transfer; LDR_CLOSE with the full length starts the verification, with another length aborts; LDR_ABORT aborts; LDR_ACTIVATE
prefers a valid slot whose rollback counter permits it; LDR_COMMIT raises the one-time-programmable counter. Outside SERVICE the
loader stays as it is. (07_camera_claim_streams: R253; 11_reneb_image: R384, R391) -/
def Obligations.ImageTransfer : Prop :=
  (∀ s : State, s.powered = true → s.inService = true → s.ldr.xferOpen = false → s.ldr.busy = false → Goes (exec .ldrOpen s) fun t =>
    t.ldr = { s.ldr with xferOpen := true, received := [], stagedRefusal := none
                         target := if s.ldr.running then !s.ldr.runSlot else !s.ldr.prefSlot } ∧ t.io.bulk.seq = 0) ∧
  (∀ (s : State) (bs : List Byte), s.powered = true → s.inService = true → s.ldr.xferOpen = true → s.ldr.srcBulk = false → bs ≠ [] → bs.length ≤ 4096 →
    (s.ldr.received.length + bs.length ≤ s.ldr.length →
      exec (.ldrWdataWrite bs) s = .next { s with ldr := { s.ldr with received := s.ldr.received ++ bs } }) ∧
    (s.ldr.length < s.ldr.received.length + bs.length → Goes (exec (.ldrWdataWrite bs) s) fun t =>
      t.ldr = { s.ldr with overrun := true, xferOpen := false, aborted := true, received := [] })) ∧
  (∀ (s : State) (p : Fin 16) (vc : Nat) (bs : List Byte), s.powered = true → s.bulkPort p vc = true → s.inService = true → s.ldr.xferOpen = true →
    s.ldr.srcBulk = true → s.ldr.bulkPort = p → bs.length = 16 + u32 bs 4 → 1 ≤ u32 bs 4 → u32 bs 4 ≤ 32768 →
    crc32c (slice bs 0 12 ++ bs.drop 16) = u32 bs 12 → u32 bs 8 = s.io.bulk.seq → u32 bs 0 = s.ldr.received.length →
    s.ldr.received.length + (bs.length - 16) ≤ s.ldr.length → Goes (exec (.bulkChunk p vc bs) s) fun t =>
      t.ldr = { s.ldr with received := s.ldr.received ++ bs.drop 16 } ∧ t.io.bulk.seq = (s.io.bulk.seq + 1) % 2 ^ 32) ∧
  (∀ s : State, s.powered = true → s.inService = true → s.ldr.xferOpen = true → s.jnl.stopped = false →
    (s.ldr.received.length ≠ s.ldr.length → Goes (exec .ldrClose s) fun t => t.ldr = { s.ldr with xferOpen := false, aborted := true, received := [] }) ∧
    (s.ldr.received.length = s.ldr.length → Goes (exec .ldrClose s) fun t => ∃ r, t.ldr = { s.ldr with xferOpen := false, busy := true, stagedRefusal := r })) ∧
  (∀ s : State, s.powered = true → s.inService = true → s.ldr.xferOpen = true → Goes (exec .ldrAbort s) fun t =>
    t.ldr = { s.ldr with xferOpen := false, aborted := true, received := [] }) ∧
  (∀ (s : State) (b : Bool), s.powered = true → s.inService = true → s.ldr.busy = false → s.slotValid b = true → s.ldr.otpCtr ≤ (s.slot b).rollback →
    s.ldr.prefSlot ≠ b → Goes (exec (.ldrActivate b) s) fun t => t.ldr = { s.ldr with prefSlot := b }) ∧
  (∀ s : State, s.powered = true → s.inService = true → s.ldr.running = true → s.ldr.advLeft ≠ 0 → s.ldr.otpCtr < s.runRollback →
    Goes (exec .ldrCommit s) fun t => t.ldr = { s.ldr with otpCtr := s.runRollback, advLeft := s.ldr.advLeft - 1 }) ∧
  (∀ s : State, s.powered = true → s.inService = false → ∀ x ∈ [Instr.ldrOpen, .ldrClose, .ldrAbort, .ldrActivate false, .ldrActivate true, .ldrCommit],
    Goes (exec x s) fun t => t.ldr = s.ldr)

/-- Verification and loading of images. STAGED_IMAGE_VERIFIED stores a passing image in its slot with its digest and rollback
counter, keeps the other slot, and reports code and section of a refusal or 0x0B of a failed read-back; IMAGE_LOAD starts the
preferred slot's image when every check passes, with its first profile, no modification and the tick origin in the next beat,
and with a refusal, and no other valid slot, enters SERVICE with the refusal reported. Both set the LOADER interrupt.
(11_reneb_image: R381, R392) -/
def Obligations.ImageLoads : Prop :=
  (∀ (s : State) (ok : Bool) (r : Refused), s.powered = true → s.pwr.mainOn = true → s.ldr.busy = true → s.svcUp = true → s.ldr.stagedRefusal = some r →
    Goes (exec (.stagedImageVerified ok) s) fun t => t.ldr.busy = false ∧ t.slot s.ldr.target = s.slot s.ldr.target ∧
      (if s.ldr.target then t.ldr.resultB else t.ldr.resultA) = (r.code, r.sect) ∧ t.i3c.irqStatus = s.i3c.irqStatus ||| 0x20) ∧
  (∀ s : State, s.powered = true → s.pwr.mainOn = true → s.ldr.busy = true → s.svcUp = true → s.ldr.stagedRefusal = none → s.jnl.ready = true →
    s.jnl.stopped = false → Goes (exec (.stagedImageVerified true) s) fun t => t.ldr.busy = false ∧
      t.slot s.ldr.target = ⟨true, u64 s.ldr.received 0x20, digestOf s.ldr.received, s.ldr.received⟩ ∧ t.slot (!s.ldr.target) = s.slot (!s.ldr.target) ∧
      (if s.ldr.target then t.ldr.resultB else t.ldr.resultA) = (0, 0) ∧ t.i3c.irqStatus = s.i3c.irqStatus ||| 0x20) ∧
  (∀ s : State, s.powered = true → s.pwr.mainOn = true → s.ldr.busy = true → s.svcUp = true → s.ldr.stagedRefusal = none →
    Goes (exec (.stagedImageVerified false) s) fun t => t.ldr.busy = false ∧ (t.slot s.ldr.target).valid = false ∧
      (if s.ldr.target then t.ldr.resultB else t.ldr.resultA) = (0x0B, 0)) ∧
  (∀ (s : State) (l : LoadIn) (p : Passed), s.powered = true → s.pwr.mainOn = true → s.ldr.loading = true → s.svcUp = true → s.ftActive = false →
    s.haltSnapshot.trySlot s.ldr.prefSlot l = .ok p → Goes (exec (.imageLoad l) s) fun t =>
      t.ldr.image = some p.image ∧ t.ldr.running = true ∧ t.ldr.loading = false ∧ t.ldr.service = false ∧ t.ldr.runSlot = s.ldr.prefSlot ∧ t.ldr.fallback = false ∧
      t.ldr.profile = u8 (p.image.sec 0x11) 1 ∧ t.ldr.modified = 0 ∧ t.sched.origin = some (s.beat + 1) ∧ t.i3c.irqStatus = s.i3c.irqStatus ||| 0x20) ∧
  (∀ (s : State) (l : LoadIn) (r : Refused), s.powered = true → s.pwr.mainOn = true → s.ldr.loading = true → s.svcUp = true → s.ftActive = false →
    s.haltSnapshot.trySlot s.ldr.prefSlot l = .error r → s.haltSnapshot.slotValid (!s.ldr.prefSlot) = false → Goes (exec (.imageLoad l) s) fun t =>
      t.ldr.loading = false ∧ t.ldr.service = true ∧ t.ldr.running = s.ldr.running ∧ t.ldr.detail = r ∧
      (if s.ldr.prefSlot then t.ldr.resultB else t.ldr.resultA) = (r.code, r.sect) ∧ t.i3c.irqStatus = s.i3c.irqStatus ||| 0x20)

/-- Register reads with a side effect. Outside HDR each read answers the register's four bytes, lowest first, and has its side
effect: WATCH_VERDICT latches the beat, the low halves of the beat and of the time latch their high halves, the record window
advances its cursor or reports it empty, GRID_CELL_DATA_3 advances the column, a read-and-clear counter clears, and the read
address advances by 4. (01_watch: R42; 02_scene_grid: R85; 10_event_journal: R347; 15_network_time: R481; 17_i3c_register_index:
R507, R521) -/
def Obligations.RegisterReads : Prop :=
  (∀ s : State, s.powered = true → s.i3c.hdr = false →
    (Goes (exec .watchVerdictRead s) fun t =>
      t.i3c.ack = true ∧ t.i3c.resp = leBytes 4 s.watch.verdict.toNat ∧ t.watch = { s.watch with verdictBeat := s.beat }) ∧
    (Goes (exec .glbBeatLoRead s) fun t => t.i3c.ack = true ∧ t.i3c.resp = leBytes 4 (beatLo s.beat) ∧ t.i3c.beatHi = beatHi s.beat) ∧
    (Goes (exec .timeNowLoRead s) fun t => t.i3c.ack = true ∧ t.i3c.resp = leBytes 4 (s.time.now % 2 ^ 32) ∧
      t.time = { s.time with nowHi := s.time.now / 2 ^ 32 % 2 ^ 32, nowBeat := s.beat }) ∧
    (Goes (exec .recWin7Read s) fun t => t.i3c.ack = true ∧ t.i3c.resp = leBytes 4 (wordAt s.evr.window 7) ∧
      t.evr.cursor = (if s.evr.empty then s.evr.cursor else (s.evr.cursor + 1) % 2 ^ 32)) ∧
    (∀ b c g, s.atCursor = (some b, c, g) → Goes (exec .recWin0Read s) fun t => t.i3c.ack = true ∧ t.i3c.resp = leBytes 4 (wordAt b 0) ∧
      t.evr = { s.evr with window := b, cursor := c, gone := g, empty := false }) ∧
    (∀ c g, s.atCursor = (none, c, g) → Goes (exec .recWin0Read s) fun t => t.i3c.ack = true ∧
      t.evr = { s.evr with window := [], empty := true })) ∧
  (∀ s : State, s.powered = true → s.pwr.mainOn = true → s.i3c.hdr = false →
    (Goes (exec .gridCellData3Read s) fun t => t.i3c.ack = true ∧ t.i3c.resp = leBytes 4 (bits s.readoutRecord 96 32) ∧
      t.grid = { s.grid with addrCol := (s.grid.addrCol + 1) % 1024 }) ∧
    (∀ a : BitVec 24, a.toNat % 4 = 0 → regCore a.toNat = none → a.toNat ≠ 0x0A0020 → Goes (exec (.rcFieldRead a) s) fun t =>
      t.i3c.ack = true ∧ t.i3c.resp.length = 4 ∧ t.i3c.readAddr = (a.toNat + 4) % 2 ^ 24) ∧
    (∀ i : Fin 112, Goes (exec (.rcFieldRead (BitVec.ofNat 24 (0x080100 + 4 * i.val))) s) fun t =>
      vget t.fc.cnt i ⟨0, 0, 0⟩ = ⟨0, 0, 0⟩ ∧
        t.i3c.resp = leBytes 4 (packNat [(16, 16, (vget s.fc.cnt i ⟨0, 0, 0⟩).ce), (4, 12, (vget s.fc.cnt i ⟨0, 0, 0⟩).uc), (0, 4, (vget s.fc.cnt i ⟨0, 0, 0⟩).ft)])) ∧
    (Goes (exec (.rcFieldRead 0x000038) s) fun t => t.i3c.nacked = 0) ∧
    (Goes (exec (.rcFieldRead 0x000040) s) fun t => t.i3c.hdrCrc = 0 ∧ t.i3c.parity = 0 ∧ t.i3c.nackedReads = 0) ∧
    (Goes (exec (.rcFieldRead 0x000134) s) fun t => t.cmd = { s.cmd with refused := 0, accepted := 0 }) ∧
    (Goes (exec (.rcFieldRead 0x040038) s) fun t => t.sched = { s.sched with ovrFrames := 0, shedFrames := 0 }) ∧
    (Goes (exec (.rcFieldRead 0x0A0014) s) fun t => t.evr = { s.evr with limited := 0 }) ∧
    (Goes (exec (.rcFieldRead 0x0B0020) s) fun t => t.jnl = { s.jnl with lost := 0 } ∧ t.i3c.resp = leBytes 4 s.jnl.lost) ∧
    (Goes (exec (.rcFieldRead 0x0C000C) s) fun t => t.pwr = { s.pwr with errors := 0 }) ∧
    (Goes (exec (.rcFieldRead 0x0D002C) s) fun t => t.time = { s.time with refused := 0, samples := 0 }) ∧
    (Goes (exec (.rcFieldRead 0x100108) s) fun t => t.st = { s.st with incomplete := 0, aborts := 0 }) ∧
    (Goes (exec (.rcFieldRead 0x120108) s) fun t => t.floorPair = 0))

/-- Commands given by a control register write. FF_CLEAR empties the first-fault latch only while no fault is active; IRQ_STATUS
clears the written bits with their pending IBIs; TIME_STEP sets the time from a fresh sample in STOPPED or SERVICE; a flush
command asks for a flush; a page read brings an authentic page of the present epoch into the buffer and fails without the page;
a format in SERVICE or without an image, with sizes that fit, formats the medium and invalidates both slots, and elsewhere, or
without a device, leaves the medium. (09_faults_watchdogs: R309; 10_event_journal: R350, R354, R369; 15_network_time: R472;
17_i3c_register_index: R512) -/
def Obligations.ControlRegisters : Prop :=
  (∀ s : State, s.powered = true → s.anyActive = false → Goes (exec .fcFfClear s) fun t => t.fc = { s.fc with latch := none, ffOvf := false, firstFt := none }) ∧
  (∀ s : State, s.powered = true → s.anyActive = true → Goes (exec .fcFfClear s) fun t => t.fc = s.fc) ∧
  (∀ (s : State) (m : BitVec 7), s.powered = true → Goes (exec (.irqStatusClear m) s) fun t =>
    t.i3c.irqStatus = s.i3c.irqStatus &&& ~~~m ∧ ∀ n, n < 7 → vget t.i3c.ibi n none = if m.getLsbD n then none else vget s.i3c.ibi n none) ∧
  (∀ (s : State) (o : Int) (b iv : Nat), s.powered = true → s.pwr.mainOn = true → s.time.sample = some (o, b, iv) → s.beat ≤ b + 2 * iv →
    (s.watch.wstate = .stopped ∨ s.ldr.service = true) → Goes (exec .timeStep s) fun t =>
      t.time.now = ofInt 64 (s.time.now + o) ∧ t.time.set = true ∧ t.time.holdover = false ∧ t.time.steps = satInc 65535 s.time.steps) ∧
  (∀ s : State, s.powered = true → s.pwr.mainOn = true → (s.time.sample = none ∨ (s.watch.wstate ≠ .stopped ∧ s.ldr.service = false)) →
    Goes (exec .timeStep s) fun t => t.time = s.time) ∧
  (∀ s : State, s.powered = true → s.pwr.mainOn = true → exec .jnlFlushCmd s = .next { s with jnl := { s.jnl with flushDue := true } }) ∧
  (∀ (s : State) (n : Nat) (p : NandPage), s.powered = true → s.pwr.mainOn = true → s.jnl.ready = true →
    s.jnl.pageAt (s.jnl.rdSeqLo + 2 ^ 32 * s.jnl.rdSeqHi) = some (n, p) → s.epochPage p = true → s.authentic p = true →
    Goes (exec .jnlRdPage s) fun t => t.jnl.rdOk = true ∧ t.jnl.rdFail = false ∧ t.jnl.buffer = p.data) ∧
  (∀ s : State, s.powered = true → s.pwr.mainOn = true → (s.jnl.ready = false ∨ s.jnl.pageAt (s.jnl.rdSeqLo + 2 ^ 32 * s.jnl.rdSeqHi) = none) →
    Goes (exec .jnlRdPage s) fun t => t.jnl.rdOk = false ∧ t.jnl.rdFail = true ∧ t.jnl.buffer = []) ∧
  (∀ s : State, s.powered = true → s.pwr.mainOn = true → (s.ldr.service = true ∨ s.ldr.running = false) → s.jnl.present = true →
    inRange 64 512 s.jnl.slotMib = true → inRange 16 256 s.jnl.evidMib = true →
    8 + 2 * s.blocksFor s.jnl.slotMib + s.blocksFor s.jnl.evidMib + max 16 (cdiv (s.jnl.blocks.countP fun b => !b.bad) 50) + 64 ≤ s.jnl.blocks.countP (fun b => !b.bad) →
    Goes (exec .jnlFormat s) fun t => t.jnl.formatted = true ∧ t.jnl.ready = true ∧ t.jnl.stopped = false ∧ t.jnl.firstCopy = none ∧
      (t.slot false).valid = false ∧ (t.slot true).valid = false ∧ t.jnl.blocks.length = s.jnl.blocks.length) ∧
  (∀ s : State, s.powered = true → s.pwr.mainOn = true → (s.jnl.present = false ∨ (s.ldr.service = false ∧ s.ldr.running = true)) →
    Goes (exec .jnlFormat s) fun t => t.jnl.blocks = s.jnl.blocks ∧ t.jnl.ready = s.jnl.ready ∧ t.ldr = s.ldr)

/-- Check-value units. Feeding 1, 2 or 4 bytes to a check-value unit of the right side advances its CRC and no other unit's; a lane
disagreement of a unit 0 to 7 latches its error and is a fatal fault; a plain feed to such a unit has no effect; ALIVE values
within the gap are taken, others latch the error and count, and the first one primes the unit. (07_camera_claim_streams: R255,
R256) -/
def Obligations.ChannelVerification : Prop :=
  (∀ (s : State) (u : Fin 16) (bs : List Byte) (rt : Bool), s.powered = true → s.pwr.mainOn = true → bs.length ∈ [1, 2, 4] → rt = decide (u.val < 8) →
    Goes (exec (.cvuFeed u bs rt true) s) fun t =>
      t.cvu u = { s.cvu u with value := BitVec.ofNat 64 (cvuRun (s.cvu u).poly (s.cvu u).reflect (s.cvu u).value.toNat bs) } ∧
      (∀ j, j ≠ u.val → t.cvu j = s.cvu j) ∧ t.fc = s.fc) ∧
  (∀ (s : State) (u : Fin 16) (bs : List Byte), s.powered = true → s.pwr.mainOn = true → bs.length ∈ [1, 2, 4] → u.val < 8 →
    Goes (exec (.cvuFeed u bs true false) s) fun t => (t.cvu u).laneErr = true ∧ ∃ info, Reacts s 22 .ft info t) ∧
  (∀ (s : State) (u : Fin 16) (bs : List Byte) (ok : Bool), s.powered = true → s.pwr.mainOn = true → bs.length ∈ [1, 2, 4] → u.val < 8 →
    Goes (exec (.cvuFeed u bs false ok) s) fun t => t.io = s.io ∧ t.fc = s.fc) ∧
  (∀ (s : State) (u : Fin 16) (v : BitVec 16) (rt : Bool), s.powered = true → s.pwr.mainOn = true → rt = decide (u.val < 8) →
    ((s.cvu u).width ≠ 0 → (s.cvu u).primed = true → 1 ≤ (s.cvu u).aliveStep v.toNat →
      (s.cvu u).aliveStep v.toNat ≤ (s.cvu u).gap + 1 →
      Goes (exec (.cvuAliveCheck u v rt) s) fun t => t.cvu u = { s.cvu u with last := v.toNat }) ∧
    ((s.cvu u).width ≠ 0 → (s.cvu u).primed = true → ¬(1 ≤ (s.cvu u).aliveStep v.toNat ∧
      (s.cvu u).aliveStep v.toNat ≤ (s.cvu u).gap + 1) →
      Goes (exec (.cvuAliveCheck u v rt) s) fun t => t.cvu u = { s.cvu u with last := v.toNat, aliveErr := true, aliveErrs := satInc 65535 (s.cvu u).aliveErrs }) ∧
    ((s.cvu u).width ≠ 0 → (s.cvu u).primed = false →
      Goes (exec (.cvuAliveCheck u v rt) s) fun t => t.cvu u = { s.cvu u with last := v.toNat, primed := true }))

/-- Task and service-core check-ins. A check-in in its window, or in a first period that is not judged, is taken; an early, late or
second one is the fatal fault of source 12 with its code for a task and an uncorrected fault of source 13 for the service core,
which goes down; a period that ends without a check-in faults with code 4; a disabled task is ignored; the service core restarts
16 beats after its fault with a fresh window. (09_faults_watchdogs: R318, R319, R322) -/
def Obligations.WatchdogCheckIns : Prop :=
  (∀ (s : State) (k : Fin 16) (own o : Nat), s.powered = true → s.taskEn k = true → s.wd.taskFrozen = false → (s.task k).off = some o →
    (((s.task k).noJudge = true ∨ ((s.task k).checked = false ∧ s.taskOpen k ≤ (if s.taskRc k then own else o) ∧ (if s.taskRc k then own else o) < s.taskClose k)) →
      Goes (exec (.wdTaskKick k own) s) fun t => t.task k = { s.task k with checked := true } ∧ (∀ j, j ≠ k.val → t.task j = s.task j) ∧ t.fc = s.fc) ∧
    ((s.task k).noJudge = false → (s.task k).checked = true → Goes (exec (.wdTaskKick k own) s) (Reacts s 12 .ft (k * 256 + 2))) ∧
    ((s.task k).noJudge = false → (s.task k).checked = false → (if s.taskRc k then own else o) < s.taskOpen k →
      Goes (exec (.wdTaskKick k own) s) (Reacts s 12 .ft (k * 256 + 1))) ∧
    ((s.task k).noJudge = false → (s.task k).checked = false → s.taskOpen k ≤ (if s.taskRc k then own else o) → s.taskClose k ≤ (if s.taskRc k then own else o) →
      Goes (exec (.wdTaskKick k own) s) (Reacts s 12 .ft (k * 256 + 3)))) ∧
  (∀ (s : State) (k : Fin 16) (own : Nat), s.powered = true → s.taskEn k = false → Goes (exec (.wdTaskKick k own) s) fun t => t.wd = s.wd ∧ t.fc = s.fc) ∧
  (∀ (s : State) (own o : Nat), s.powered = true → s.pwr.mainOn = true → s.svcEn = true → s.wd.svcFrozen = false → s.wd.svc.downSince = none → s.pwr.standby = false →
    s.wd.svc.off = some o →
    ((s.wd.svc.noJudge = true ∨ (s.wd.svc.checked = false ∧ s.svcOpen ≤ (if s.svcRc then own else o) ∧ (if s.svcRc then own else o) < s.svcClose)) →
      exec (.wdSvcKick own) s = .next { s with wd := { s.wd with svc := { s.wd.svc with checked := true } } }) ∧
    (∀ code, s.wd.svc.noJudge = false → judgeKick s.wd.svc.checked (if s.svcRc then own else o) s.svcOpen s.svcClose = some code →
      Goes (exec (.wdSvcKick own) s) fun t => Reacts s 13 .uc code t ∧ t.wd.svc.downSince = some s.beat)) ∧
  (∀ (s : State) (k : Fin 16), s.powered = true → s.taskPeriodDue k = true →
    ((s.task k).checked = false → (s.task k).noJudge = false → Goes (exec (.taskPeriodEnd k) s) (Reacts s 12 .ft (k * 256 + 4))) ∧
    (((s.task k).checked = true ∨ (s.task k).noJudge = true) → Goes (exec (.taskPeriodEnd k) s) fun t => t.fc = s.fc ∧
      (s.taskRc k = true → t.task k = { s.task k with off := some 0, checked := false, noJudge := false }))) ∧
  (∀ s : State, s.powered = true → s.svcPeriodDue = true →
    (s.wd.svc.checked = false → s.wd.svc.noJudge = false → Goes (exec .svcPeriodEnd s) fun t => Reacts s 13 .uc 4 t ∧ t.wd.svc.downSince = some s.beat) ∧
    ((s.wd.svc.checked = true ∨ s.wd.svc.noJudge = true) → Goes (exec .svcPeriodEnd s) fun t => t.fc = s.fc ∧ t.wd.svc.downSince = s.wd.svc.downSince)) ∧
  (∀ (s : State) (d : Nat), s.powered = true → s.wd.svc.downSince = some d → d + 16 ≤ s.beat →
    exec .serviceCoreRestart s = .next { s with wd := { s.wd with svc :=
      { s.wd.svc with downSince := none, off := some 0, checked := false, noJudge := false, restarts := satInc 65535 s.wd.svc.restarts } } }) ∧
  (∀ (s : State) (d : Nat), s.powered = true → s.wd.svc.downSince = some d → s.beat < d + 16 → exec .serviceCoreRestart s = .next s)

/-- Heartbeat monitors. With the monitor enabled, a first edge starts it, an edge within HB_MIN to HB_MAX lengthens the run up to
255 and makes the heartbeat alive at HB_ALIVE, an early edge loses it and counts, a late one loses it and starts anew; a due
loss clears the run and counts, PERSIST is set when the loss lasts, and the standby timer starts a wake from source 2.
(09_faults_watchdogs: R323, R324, R326) -/
def Obligations.HeartbeatMonitors : Prop :=
  (∀ (s : State) (k : Fin 2) (level : Bool) (own : Nat), s.powered = true → s.hbEn k = true → (s.prim k).pwrEn = true → (s.hbAt k).level ≠ level →
    ¬(s.hbRising k = true ∧ level = false) →
    ((s.hbAt k).lastEdge = none → Goes (exec (.heartbeatEdge k level own) s) fun t => t.hbAt k = { s.hbAt k with level := level, lastEdge := some s.beat }) ∧
    (∀ p, (s.hbAt k).lastEdge = some p → s.hbMin k ≤ (if s.hbRc k then own else s.beat - p) → (if s.hbRc k then own else s.beat - p) ≤ s.hbMax k →
      Goes (exec (.heartbeatEdge k level own) s) fun t =>
        (t.hbAt k).lastEdge = some s.beat ∧ (t.hbAt k).run = satInc 255 (s.hbAt k).run ∧ (t.hbAt k).losses = (s.hbAt k).losses ∧
        (t.hbAt k).alive = ((s.hbAt k).alive || decide (s.hbAlive k ≤ satInc 255 (s.hbAt k).run))) ∧
    (∀ p, (s.hbAt k).lastEdge = some p → (if s.hbRc k then own else s.beat - p) < s.hbMin k → Goes (exec (.heartbeatEdge k level own) s) fun t =>
        (t.hbAt k).alive = false ∧ (t.hbAt k).run = 0 ∧ (t.hbAt k).lastEdge = none ∧ (t.hbAt k).early = satInc 65535 (s.hbAt k).early) ∧
    (∀ p, (s.hbAt k).lastEdge = some p → s.hbMin k ≤ (if s.hbRc k then own else s.beat - p) → s.hbMax k < (if s.hbRc k then own else s.beat - p) →
      Goes (exec (.heartbeatEdge k level own) s) fun t => (t.hbAt k).alive = false ∧ (t.hbAt k).run = 0 ∧ (t.hbAt k).lastEdge = some s.beat)) ∧
  (∀ (s : State) (k : Fin 2) (own : Bool), s.powered = true → s.hbLostDue k own = true → Goes (exec (.heartbeatLost k own) s) fun t =>
    (t.hbAt k).alive = false ∧ (t.hbAt k).run = 0 ∧ (t.hbAt k).lostSince = s.beat ∧ (t.hbAt k).losses = satInc 65535 (s.hbAt k).losses) ∧
  (∀ (s : State) (k : Fin 2), s.powered = true → s.hbPersistDue k = true → Goes (exec (.heartbeatPersist k) s) fun t =>
    t.hbAt k = { s.hbAt k with persist := true }) ∧
  (∀ s : State, s.powered = true → s.pwr.standby = true → s.pwr.entering = none → s.pwr.waking = false → s.standbyPeriod ≠ 0 →
    s.wd.standbySince + s.standbyPeriod ≤ s.beat → Goes (exec .standbyWakeTimer s) fun t =>
      t.pwr = { s.pwr with waking := true } ∧ t.wd.wakePending = true ∧ t.wd.wakeSrc = 2)

/-- Faults of the clocks, the copies, the comparators and the rails. Each reported condition raises its fault with its info and
records what it says of itself: crystal stop (source 1), clock-monitor trip and RC frequency beyond 500 (18), watchdog copy
mismatch (12 to 17), lock-step mismatch outside SPLIT (20), TCM errors (21), runtime integrity (22), rail trips (2 or 108) and
warnings of watched rails, a 125 degree comparator (111); rails that are not watched change nothing. (05_redundant_execution:
R173, R175; 09_faults_watchdogs: R312, R314, R315; 14_power_thermal: R444, R451) -/
def Obligations.SupervisionFaults : Prop :=
  (∀ s : State, s.powered = true → s.xtalOk = true → ∃ info, Goes (exec .crystalStop s) fun t =>
    t.xtalOk = false ∧ Reacts s 1 .ft info t) ∧
  (∀ s : State, s.powered = true → Goes (exec .crystalReturn s) fun t => t.xtalOk = true ∧ Frame [.xtalOk] s t) ∧
  (∀ (s : State) (rc : Bool), s.powered = true → Goes (exec (.clockMonitorTrip rc) s) fun t =>
    t.wd.xtalStopFlag = (s.wd.xtalStopFlag || !rc) ∧ t.wd.ircStopFlag = (s.wd.ircStopFlag || rc) ∧ Reacts s 18 .ft (b2n rc * 256 + 1) t) ∧
  (∀ (s : State) (dev : Int), s.powered = true →
    (500 < dev.natAbs → Goes (exec (.rcFreqCheck dev) s) fun t =>
      t.wd.ircDev = dev ∧ t.wd.ircFreqFlag = true ∧ Reacts s 18 .ft 0x102 t) ∧
    (dev.natAbs ≤ 500 → exec (.rcFreqCheck dev) s = .next { s with wd := { s.wd with ircDev := dev } })) ∧
  (∀ (s : State) (k : Fin 6) (i : Fin 16), s.powered = true → Goes (exec (.watchdogCopyMismatch k i) s) fun t =>
    t.wd = s.wd ∧ Reacts s (12 + k.val) .ft (i.val * 256 + 0x10) t) ∧
  (∀ (s : State) (kind : Fin 4) (reg : Fin 32) (cycle : Fin 1100), s.powered = true →
    (s.ctrl.split = true → exec (.lockstepMismatch kind reg cycle) s = .next s) ∧
    (s.ctrl.split = false → ∃ info, Goes (exec (.lockstepMismatch kind reg cycle) s) fun t =>
      t.ctrl.lockstepOk = false ∧ t.ctrl.kind = kind.val ∧ t.ctrl.reg = (if kind.val = 1 then reg.val else 0) ∧ t.ctrl.cycle = cycle.val ∧
        Reacts s 20 .ft info t)) ∧
  (∀ (s : State) (info : Word), s.powered = true →
    (Goes (exec (.tcmEccError true info) s) fun t => t.ctrl = s.ctrl ∧ Reacts s 21 .ft info.toNat t) ∧
    (Goes (exec (.tcmEccError false info) s) fun t => t.ctrl.tcmCe = satInc 65535 s.ctrl.tcmCe ∧ Reacts s 21 .ce info.toNat t) ∧
    (Goes (exec (.runtimeIntegrityFault info) s) fun t => Reacts s 22 .ft info.toNat t)) ∧
  (∀ (s : State) (n : Fin 9) (mv : Nat), s.powered = true → (aonRail n.val = true ∨ s.pwr.armed.getLsbD n.val = true) →
    (Goes (exec (.railWarn n mv) s) fun t => vget t.pwr.mv n.val 0 = mv ∧ t.pwr.railWarn = s.pwr.railWarn ||| BitVec.twoPow 9 n.val ∧ t.fc = s.fc) ∧
    (Goes (exec (.railTrip n mv) s) fun t => vget t.pwr.mv n.val 0 = mv ∧ t.pwr.inWindow = s.pwr.inWindow &&& ~~~BitVec.twoPow 9 n.val ∧
      Reacts s (if aonRail n.val then 2 else 108) .ft (n.val * 256 + 1) t)) ∧
  (∀ (s : State) (n : Fin 9) (mv : Nat), s.powered = true → aonRail n.val = false → s.pwr.armed.getLsbD n.val = false →
    exec (.railWarn n mv) s = .next s ∧ exec (.railTrip n mv) s = .next s) ∧
  (∀ (s : State) (i : Fin 48), s.powered = true → Goes (exec (.comparatorTrip125 i) s) fun t =>
    (t.sens i).trip = true ∧ Reacts s 111 .ft (i.val * 256 + 1) t)

/-- Faults of cores, engines, memories and read-backs. A core's unit fault retires the core with its cause and engines and raises
source 28 + n, twice doing nothing; correctable errors count; GDDR6 retries and uncorrected errors count and poison their unit;
a grid or floor cell's uncorrected error empties the cell and raises its source; a floor engine's fault loses that engine alone;
a read-back breach is the fatal fault of its group; a NAND timeout is the uncorrected fault of source 92. (02_scene_grid: R70,
R72; 03_engines_numerics: R103, R104, R120, R121; 05_redundant_execution: R180; 08_safe_io: R282; 10_event_journal: R351) -/
def Obligations.CoreAndMemoryFaults : Prop :=
  (∀ (s : State) (n : Fin 32) (g : BitVec 4) (unit : Byte), s.powered = true → s.pwr.mainOn = true →
    ((s.core n).retired = true → exec (.coreUnitFault n g unit) s = .next s) ∧
    ((s.core n).retired = false → Goes (exec (.coreUnitFault n g unit) s) fun t =>
      (t.core n).retired = true ∧ (t.core n).cause = retireCause unit.toNat ∧ (t.core n).engFault = (s.core n).engFault ||| g ∧
        (t.core n).portClosed = true ∧ (t.core n).offBy = some (s.beat + 2) ∧ (t.core n).seq = [] ∧
        Reacts s (28 + n.val) .uc (lowestEngine g * 256 + unit.toNat) t)) ∧
  (∀ (s : State) (n : Fin 32) (b : Nat), s.powered = true → s.pwr.mainOn = true → (s.core n).offBy = some b →
    Goes (exec (.coreOff n) s) fun t => (t.core n).pwr = .off ∧ (t.core n).offBy = none) ∧
  (∀ (s : State) (n : Fin 32) (e : Fin 4), s.powered = true → s.pwr.mainOn = true →
    (Goes (exec (.correctableSramError n (some e)) s) fun t =>
      t.eng (4 * n + e) = { s.eng (4 * n + e) with ceLocal := satInc 65535 (s.eng (4 * n + e)).ceLocal } ∧ Reacts s (28 + n.val) .ce (e.val * 256 + 4) t) ∧
    (Goes (exec (.correctableSramError n none) s) fun t =>
      t.core n = { s.core n with ceShared := satInc 65535 (s.core n).ceShared } ∧ Reacts s (28 + n.val) .ce 0x10 t)) ∧
  (∀ (s : State) (c : Fin 8), s.powered = true → s.pwr.mainOn = true →
    (∃ info, Goes (exec (.gddrEdcRetry c true) s) fun t =>
      vget t.gddr c GddrChan.default = { vget s.gddr c GddrChan.default with retryOk := (vget s.gddr c GddrChan.default).retryOk + 1 } ∧
        Reacts s (68 + c.val) .ce info t) ∧
    (∃ info, Goes (exec (.gddrEdcRetry c false) s) fun t =>
      (vget t.gddr c GddrChan.default).retryFail = (vget s.gddr c GddrChan.default).retryFail + 1 ∧ Reacts s (68 + c.val) .uc info t)) ∧
  (∀ (s : State) (c : Fin 8) (unit : Nat) (who : Option (Fin 64 × Fin 2 × Nat)), s.powered = true → s.pwr.mainOn = true →
    ∃ info, Goes (exec (.gddrUe c unit who) s) fun t =>
      (vget t.gddr c GddrChan.default).ueSeen = true ∧ (vget t.gddr c GddrChan.default).ueAddr = unit % 2 ^ 29 ∧ unit ∈ t.poison ∧
        Reacts s (68 + c.val) .uc info t) ∧
  (∀ (s : State) (plane1 : Bool) (k : Fin 524288), s.powered = true → s.pwr.mainOn = true →
    Sparse.wf Cell.zero s.grid.plane0 = true → Sparse.wf Cell.zero s.grid.plane1 = true →
    Goes (exec (.gridCellUe plane1 k) s) fun t =>
      Sparse.get Cell.zero (if plane1 then t.grid.plane1 else t.grid.plane0) k = Cell.zero ∧ t.grid.err.getLsbD 4 = true ∧
        Reacts s (if plane1 then 61 else 60) .uc k t) ∧
  (∀ (s : State) (k : Fin 8192), s.powered = true → Sparse.wf FloorCell.zero s.flr.cells = true →
    Goes (exec (.floorCellUe k) s) fun t =>
      Sparse.get FloorCell.zero t.flr.cells k = FloorCell.zero ∧ t.grid.err.getLsbD 7 = true ∧ Reacts s 66 .uc k t) ∧
  (∀ (s : State) (unit : Fin 6), s.powered = true →
    (s.flr.f0Ok = true → Goes (exec (.floorEngineFault false unit) s) fun t =>
      t.flr.f0Ok = false ∧ t.flr.f0Lost = true ∧ Reacts s 3 .uc (0x02000000 + (unit.val + 1)) t) ∧
    (s.flr.f1Ok = true → Goes (exec (.floorEngineFault true unit) s) fun t =>
      t.flr.f1Ok = false ∧ t.flr.f1Lost = true ∧ Reacts s 3 .uc (0x02010000 + (unit.val + 1)) t) ∧
    (s.flr.f0Ok = false → exec (.floorEngineFault false unit) s = .next s) ∧
    (s.flr.f1Ok = false → exec (.floorEngineFault true unit) s = .next s)) ∧
  (∀ (s : State) (g : Fin 4) (b : Bool), s.powered = true →
    (∀ code, s.rbBreach g b = some code → Goes (exec (.readbackFailure g b) s) fun t => Reacts s (9 + g.val / 2) .ft ((2 * (g.val % 2) + b2n b) * 256 + code) t) ∧
    (s.rbBreach g b = none → exec (.readbackFailure g b) s = .next s)) ∧
  (∀ (s : State) (block : Nat), s.powered = true → s.pwr.mainOn = true →
    ∃ code, code < 256 ∧ Goes (exec (.nandOpTimeout block) s) fun t => Reacts s 92 .uc (block % 65536 + 65536 * code) t)

/-- Power-on, lock-out reset and wake. POWER_ON brings the machine to its state after reset and fails on the first failing test of
steps 2 to 8, holding the outputs and stopping the load; with power it does nothing unless step 1 runs. The collapse of the
always-on supply resets the machine and keeps fuses, slots and the medium. WAKE runs from STANDBY only. An accepted press runs
the lock-out reset in HALT or SELFTEST_FAIL with the STO channels on, refuses without them, and is only counted elsewhere;
ignored presses and a lock-out discrepancy set their flags. (12_startup_selftest: R398, R400, R401, R402, R404, R406, R411;
08_safe_io: R288, R289, R290, R293; 14_power_thermal: R453, R461; 19_pins_electrical: R547) -/
def Obligations.StartUpSequences : Prop :=
  (∀ (s : State) (x : StartTests), (s.powered = false ∨ (s.st.running = true ∧ s.st.step = 0)) → Goes (exec (.powerOn x) s) fun t =>
    t.powered = true ∧ t.pending = s.pending ∧ t.si = State.reset.si ∧ t.tp = State.reset.tp ∧ t.lrst = State.reset.lrst ∧ t.cmd = State.reset.cmd ∧
      t.therm = State.reset.therm ∧ t.tel = State.reset.tel ∧ t.gddrMem = [] ∧ t.cmp = State.reset.cmp ∧ t.floorPair = State.reset.floorPair ∧
      t.lk = State.reset.lk ∧ (∀ f, x.fail = some f → 2 ≤ f.step → f.step ≤ 8 → Failed t)) ∧
  (∀ (s : State) (x : StartTests), s.powered = true → ¬(s.st.running = true ∧ s.st.step = 0) → exec (.powerOn x) s = .next s) ∧
  (∀ s : State, s.powered = true → Goes (exec .aonSupplyCollapse s) fun t =>
    t.powered = false ∧ t.watch = State.reset.watch ∧ t.fc = State.reset.fc ∧ t.so = State.reset.so ∧ t.evr = State.reset.evr ∧ t.si = State.reset.si ∧
      t.i3c = State.reset.i3c ∧ t.pwr = State.reset.pwr ∧ t.time = State.reset.time ∧ t.lc.fuses = s.lc.fuses ∧ t.ldr.slotA = s.ldr.slotA ∧ t.ldr.slotB = s.ldr.slotB ∧
      t.jnl.blocks = s.jnl.blocks) ∧
  (∀ (s : State) (x : StartTests), s.powered = true → s.pwr.standby = true → s.pwr.waking = true → Goes (exec (.wake x) s) fun t =>
    t.pwr.standby = false ∧ t.si = s.si ∧ t.therm = s.therm ∧ t.cmd = s.cmd ∧ (∀ f, x.fail = some f → 4 ≤ f.step → f.step ≤ 8 → t.selftestFail = true)) ∧
  (∀ (s : State) (x : StartTests), s.powered = true → (s.pwr.standby = false ∨ s.pwr.waking = false) → exec (.wake x) s = .next s) ∧
  (∀ (s : State) (x : StartTests), s.powered = true → s.lrstDue = true →
    (¬((s.watch.wstate = .halt ∧ s.st.running = false) ∨ s.selftestFail = true) → Goes (exec (.lrstPressAccepted x) s) fun t =>
      t.lrst = { s.lrst with acceptAt := none, fAccepted := true, count := satInc 65535 s.lrst.count } ∧ t.watch = s.watch ∧ t.fc = s.fc) ∧
    (((s.watch.wstate = .halt ∧ s.st.running = false) ∨ s.selftestFail = true) → s.lrst.stoOn = false → Goes (exec (.lrstPressAccepted x) s) fun t =>
      t.lrst = { s.lrst with acceptAt := none, fAccepted := true, count := satInc 65535 s.lrst.count, fRefused := true } ∧ t.watch = s.watch ∧ t.fc = s.fc) ∧
    (((s.watch.wstate = .halt ∧ s.st.running = false) ∨ s.selftestFail = true) → s.lrst.stoOn = true → s.lcChanged = false →
      Goes (exec (.lrstPressAccepted x) s) fun t => t.powered = true ∧
        t.lrst = { s.lrst with acceptAt := none, fAccepted := true, count := satInc 65535 s.lrst.count } ∧ t.cmd = State.reset.cmd ∧ t.gddrMem = [] ∧
        (∀ f, x.fail = some f → 3 ≤ f.step → f.step ≤ 8 → Failed t))) ∧
  (∀ (s : State) (x : StartTests), s.powered = true → s.lrstDue = false → exec (.lrstPressAccepted x) s = .next s) ∧
  (∀ s : State, s.powered = true →
    (s.lrst.ignoreDue = none → exec .lrstPressIgnored s = .next s) ∧
    (∀ k, s.lrst.ignoreDue = some k → Goes (exec .lrstPressIgnored s) fun t =>
      t.lrst = { s.lrst with ignoreDue := none, fShort := s.lrst.fShort || k == 2, fLong := s.lrst.fLong || k == 3, fInvalid := s.lrst.fInvalid || k == 5 } ∧ t.fc = s.fc) ∧
    (s.lrst.discDue = true → Goes (exec .lrstDiscrepancy s) fun t => t.lrst = { s.lrst with discDue := false, fDisc := true } ∧ Reacts s 11 .uc 3 t) ∧
    (s.lrst.discDue = false → exec .lrstDiscrepancy s = .next s))

/-- STANDBY entry and recovery after a quiet period. A STANDBY_REQ that is allowed stops the image, powers the primaries down unless
they keep power and asks for a flush; the power-down then empties the main domain and keeps the watch and the faults. At the end
of the quiet period with uncorrected faults active, these are cleared and counted, or escalate to a fatal fault when the
recoveries in their window reach the limit; without one the period just ends. (09_faults_watchdogs: R302; 14_power_thermal:
R452) -/
def Obligations.StandbyAndRecovery : Prop :=
  (∀ s : State, s.powered = true →
    (s.standbyAllowed = true → Goes (exec .standbyReq s) fun t => t.pwr.entering = some s.beat ∧ t.ldr.running = false ∧ t.ldr.service = true ∧
      t.sched.origin = none ∧ t.sched.tickDue = false ∧ t.jnl.flushDue = true ∧
      ∀ k : Fin 2, primKeep s.primB k = false → (s.prim k).seq ≠ 0 → (t.prim k).seq = 3 ∧ (t.prim k).rstN = false) ∧
    (s.standbyAllowed = false → Goes (exec .standbyReq s) fun t => t.pwr = s.pwr ∧ t.ldr = s.ldr ∧ t.sched = s.sched)) ∧
  (∀ s : State, s.powered = true →
    (s.standbyDue = true → Goes (exec .standbyPowerDown s) fun t => t.pwr.mainOn = false ∧ t.pwr.standby = true ∧ t.pwr.entering = none ∧
      t.pwr.waking = s.pwr.wakeHeld.isSome ∧ t.wd.standbySince = s.beat ∧ t.gddrMem = [] ∧ t.grid = State.reset.grid ∧ t.watch = s.watch ∧ t.fc = s.fc) ∧
    (s.standbyDue = false → exec .standbyPowerDown s = .next s)) ∧
  (∀ s : State, s.powered = true → s.fc.quietEnd = some s.beat →
    (s.fc.activeUc = 0 → exec .quietPeriodEnd s = .next { s with fc := { s.fc with quietEnd := none } }) ∧
    (s.fc.activeUc ≠ 0 → s.recoveriesIn.length + 1 ≤ s.recLimit → Goes (exec .quietPeriodEnd s) fun t =>
      t.fc.activeUc = 0 ∧ t.fc.quietEnd = none ∧ t.fc.recoveries = s.beat :: s.recoveriesIn ∧ t.fc.activeFt = s.fc.activeFt ∧
        t.fc.recTotal = satInc 65535 s.fc.recTotal ∧ t.fc.cnt = s.fc.cnt) ∧
    (s.fc.activeUc ≠ 0 → s.recLimit < s.recoveriesIn.length + 1 → s.fc.lastUc < 128 → Goes (exec .quietPeriodEnd s) fun t =>
      t.fc.escalated = true ∧ Fatal s.fc.lastUc 0xFFFFFFFF t)) ∧
  (∀ s : State, s.powered = true → s.fc.quietEnd ≠ some s.beat → exec .quietPeriodEnd s = .next s)

/-- Periodic self-tests. A slice starts only where it may and is dropped when its length is wrong; a passing slice counts up to its
number and then completes its test with the frame and the beat; a failing LBIST slice retires its core with cause 6; an abort
counts; a coverage expiry sets its bit and judges the test once a frame; a golden run that is not done in its bound raises 28 +
n with unit 0x18 and retires its core. (05_redundant_execution: R187; 12_startup_selftest: R404, R411, R412, R413) -/
def Obligations.PeriodicTests : Prop :=
  (∀ (s : State) (k : TestKind), s.powered = true → s.pwr.mainOn = true →
    (s.maySlice k = true → exec (.testSliceStart k) s = .next { s with st := { s.st with slices := ⟨k, (s.cov k).slice, s.beat⟩ :: s.st.slices } }) ∧
    (s.maySlice k = false → exec (.testSliceStart k) s = .next s)) ∧
  (∀ (s : State) (k : TestKind) (r : SliceRun), s.powered = true → s.pwr.mainOn = true → s.st.slices.find? (·.kind == k) = some r →
    (∀ sig, exec (.testSliceEnd k false sig) s =
      .next { s with st := { s.st with slices := s.st.slices.filter (·.kind != k), incomplete := satInc 65535 s.st.incomplete } }) ∧
    (∀ sig, s.beat < r.start + k.beats → exec (.testSliceEnd k true sig) s = .next s) ∧
    (r.start + k.beats ≤ s.beat → s.testInside k = true → r.slice + 1 < k.slices → Goes (exec (.testSliceEnd k true true) s) fun t =>
      t.cov k = { s.cov k with slice := r.slice + 1 } ∧ t.st.slices = s.st.slices.filter (·.kind != k)) ∧
    (r.start + k.beats ≤ s.beat → s.testInside k = true → k.slices ≤ r.slice + 1 → Goes (exec (.testSliceEnd k true true) s) fun t =>
      (t.cov k).slice = 0 ∧ (t.cov k).aborts = 0 ∧ t.st.slices = s.st.slices.filter (·.kind != k) ∧
        (∀ n, k = .lbist n ∨ k = .link n → (t.cov k).last = some s.sched.frame) ∧ (∀ n, k = .scrub n → (t.cov k).last = some s.beat)) ∧
    (∀ n, k = .lbist n → r.start + k.beats ≤ s.beat → s.testInside k = true → Goes (exec (.testSliceEnd k true false) s) fun t =>
      (t.cov k).slice = 0 ∧ (t.core n).retired = true ∧ (t.core n).cause = 6) ∧
    (s.beat ≤ r.start → exec (.testSliceAbort k) s = .next s) ∧
    (r.start < s.beat → k.exists' = true → Goes (exec (.testSliceAbort k) s) fun t =>
      (t.cov k).aborts = (s.cov k).aborts + 1 ∧ t.st.aborts = satInc 65535 s.st.aborts ∧ t.st.incomplete = satInc 65535 s.st.incomplete ∧
        t.st.slices = s.st.slices.filter (·.kind != k))) ∧
  (∀ (s : State) (k : TestKind), s.powered = true → s.pwr.mainOn = true → s.st.slices.find? (·.kind == k) = none →
    (∀ a b, exec (.testSliceEnd k a b) s = .next s) ∧ exec (.testSliceAbort k) s = .next s) ∧
  (∀ (s : State) (k : TestKind), s.powered = true → s.pwr.mainOn = true → s.ticksRun = true → 1 ≤ s.sched.frame → s.testInside k = true →
    (s.cov k).judged ≠ some s.sched.frame →
    (s.dueIn k (s.sched.frame - 1) = true → Goes (exec (.coverageExpiry k) s) fun t =>
      t.st.expired = s.st.expired ||| BitVec.twoPow 3 k.expiredBit ∧ t.cov k = { s.cov k with judged := some s.sched.frame }) ∧
    (s.dueIn k (s.sched.frame - 1) = false → Goes (exec (.coverageExpiry k) s) fun t =>
      t.st.expired = s.st.expired ∧ t.cov k = { s.cov k with judged := some s.sched.frame } ∧ t.fc = s.fc)) ∧
  (∀ (s : State) (k : TestKind), s.powered = true → s.pwr.mainOn = true → (s.cov k).judged = some s.sched.frame → exec (.coverageExpiry k) s = .next s) ∧
  (∀ (s : State) (n : Fin 32), s.powered = true → s.pwr.mainOn = true →
    (s.goldenBad n = true → Goes (exec (.goldenFail n) s) fun t =>
      t.golden = { s.golden with lastFail := n, fails := satInc 255 s.golden.fails } ∧ (t.core n).retired = true ∧ Reacts s (28 + n.val) .uc 0x18 t) ∧
    (s.goldenBad n = false → exec (.goldenFail n) s = .next s))

/-- Runs, descriptors and micro-operations. A ready run takes its context's newest frame; a dispatch puts the next descriptor into
its core's sequence, or fails the run when its source was lost; an issue charges E_UOP and computes the result on its own
engine; a retirement gives the micro-operation back; a failed descriptor fails its run and leaves the others' sequences; COMPARE
and BARRIER pass when their condition holds; cancelling removes the run's descriptors everywhere; a constant copy leaves the
list of copies in progress. (03_engines_numerics: R95; 04_operators: R150, R153; 05_redundant_execution: R163, R182;
06_time_plan_budget: R199, R200, R204, R209) -/
def Obligations.GraphRuns : Prop :=
  (∀ (s : State) (g : Fin 64), s.powered = true → s.pwr.mainOn = true →
    (s.mayReady g = true → Goes (exec (.runReady g) s) fun t =>
      (t.run g).ready = true ∧ (t.run g).src = (if gCtx s.graB g = 0xFF then none else some (s.ctxAt (gCtx s.graB g)).delivered)) ∧
    (s.mayReady g = false → exec (.runReady g) s = .next s)) ∧
  (∀ (s : State) (n : Fin 32), s.powered = true → s.pwr.mainOn = true →
    (s.pick n = none → exec (.descriptorDispatch n) s = .next s) ∧
    (∀ r, s.pick n = some r → s.sourceLost r.graph r.copy = true → r.graph < 64 → Goes (exec (.descriptorDispatch n) s) fun t => (t.run r.graph).failed = true) ∧
    (∀ r, s.pick n = some r → s.sourceLost r.graph r.copy = false → (dOp s.graB r.graph r.desc = 0x50 ∨ dOp s.graB r.graph r.desc = 0x54) →
      Goes (exec (.descriptorDispatch n) s) fun t =>
        (t.core n).seq = (s.core n).seq ++ [⟨r, gClass s.graB r.graph, uopShares s.graB r.graph r.copy r.desc, vrep 4 0⟩])) ∧
  (∀ (s : State) (e : Fin 128) (g : Fin 64) (c : Fin 2) (k : Nat) (op : MicroOp), s.powered = true → s.pwr.mainOn = true →
    (s.mayIssue e ⟨g, c, k⟩ = true → Goes (exec (.microopIssue e g c k op) s) fun t =>
      t.sched.charged = s.sched.charged + s.eUop (dCost s.graB g k) * s.sched.costScale ∧ t.sched.unscaled = s.sched.unscaled + s.eUop (dCost s.graB g k) ∧
        ((∀ a b n, op ≠ .move a b n) →
          t.eng e = ({ s.eng e with inflight := (s.eng e).inflight + 1, hwm := max (s.eng e).hwm ((s.eng e).inflight + 1) } : EngState).run (opCtx s.graB g k) op)) ∧
    (s.mayIssue e ⟨g, c, k⟩ = false → exec (.microopIssue e g c k op) s = .next s)) ∧
  (∀ (s : State) (e : Fin 128) (g : Fin 64) (c : Fin 2) (k : Nat), s.powered = true → s.pwr.mainOn = true →
    (∀ x, s.entryOf (e / 4) ⟨g, c, k⟩ = some x → vget x.fly (e % 4) 0 ≠ 0 → Goes (exec (.microopRetire e g c k) s) fun t =>
      t.eng e = { s.eng e with inflight := (s.eng e).inflight - 1 }) ∧
    ((∀ x, s.entryOf (e / 4) ⟨g, c, k⟩ = some x → vget x.fly (e % 4) 0 = 0) → exec (.microopRetire e g c k) s = .next s)) ∧
  (∀ (s : State) (g : Fin 64) (c : Fin 2) (k : Nat), s.powered = true → s.pwr.mainOn = true → (s.run g).ready = true → c.val ∈ s.copiesOf g →
    k < gDescs s.graB g → s.retired? g c k = false → Goes (exec (.descriptorFail g c k) s) fun t =>
      (t.run g).failed = true ∧ (c.val, k) ∈ (t.run g).skipped ∧ t.sched.failed = s.sched.failed ||| BitVec.twoPow 64 g ∧ ∀ n : Fin 32, t.inSeq n ⟨g, c, k⟩ = false) ∧
  (∀ (s : State) (g : Fin 64) (k : Nat), s.powered = true → s.pwr.mainOn = true → dOp s.graB g k = 0x50 → k < gDescs s.graB g →
    s.dispatched g 0 k = true → s.dispatched g 1 k = true →
    ((upto 32).all fun n => (s.core n).seq.all fun e => e.ref != ⟨g, 0, k⟩ || (e.left.toList.all (· == 0) && e.fly.toList.all (· == 0))) = true →
    s.compareDiffs g k = [] → Goes (exec (.compareExecute g k) s) fun t =>
      k ∈ (t.run g).equal ∧ (0, k) ∈ (t.run g).retired ∧ (1, k) ∈ (t.run g).retired) ∧
  (∀ (s : State) (g : Fin 64) (c : Fin 2) (k : Nat), s.powered = true → s.pwr.mainOn = true → dOp s.graB g k = 0x54 → k < gDescs s.graB g →
    s.retired? g c k = false → s.descCores g c k ≠ [] →
    (((s.descCores g c k).all fun n => s.inSeq n ⟨g, c, k⟩) = true → Goes (exec (.barrierPass g c k) s) fun t => (c.val, k) ∈ (t.run g).retired) ∧
    (((s.descCores g c k).all fun n => s.inSeq n ⟨g, c, k⟩) = false → exec (.barrierPass g c k) s = .next s)) ∧
  (∀ (s : State) (g : Fin 64), s.powered = true → s.pwr.mainOn = true →
    ((s.run g).cancelBy = none → exec (.microopsCancelled g) s = .next s) ∧
    ((s.run g).cancelBy ≠ none → Goes (exec (.microopsCancelled g) s) fun t =>
      t.run g = { s.run g with cancelBy := none } ∧ ∀ n : Fin 32, (t.core n).seq = (s.core n).seq.filter (·.ref.graph != g.val))) ∧
  (∀ (s : State) (g : Fin 64) (c : Fin 2) (i : Fin 8) (m : AltMove), s.powered = true → s.pwr.mainOn = true → (g.val, c.val, i.val) ∈ s.alt.copying →
    (s.altEntry.bind fun o => (altMoveList s.altB o).find? fun m => m.graph == g.val && m.copy == c.val && m.index == i.val) = some m →
    Goes (exec (.constantCopyDone g c i) s) fun t => t.alt = { s.alt with copying := s.alt.copying.filter (· != (g.val, c.val, i.val)) })

/-- Moves between memories. A micro-operation that moves n bytes reads them at the source and stores them at the destination, where
they then read as the source read before; every byte of every other address of GDDR6, of the cores' memories and of the engines'
memories reads as it read before. (04_operators: R133; 03_engines_numerics: R92, R94, R102, R104) -/
def Obligations.MemoryMoves : Prop :=
  ∀ (s : State) (e : Fin 128) (g : Fin 64) (c : Fin 2) (k n : Nat) (src dst : MemLoc), s.powered = true → s.pwr.mainOn = true → s.MemOk →
    s.mayIssue e ⟨g, c, k⟩ = true → Goes (exec (.microopIssue e g c k (.move src dst n)) s) fun t =>
      t.memRead e n dst = s.memRead e n src ∧
      (∀ x, (∀ a, dst = .gddr a → x < a ∨ a + n ≤ x) → t.gddrMem.read x = s.gddrMem.read x) ∧
      (∀ j x, (∀ a, dst = .engine a → j = e.val → x < a ∨ a + n ≤ x) → (t.eng j).sram.read x = (s.eng j).sram.read x) ∧
      (∀ j x, (∀ a, dst = .core a → j = e.val / 4 → x < a ∨ a + n ≤ x) → (t.core j).sram.read x = (s.core j).sram.read x)

/-- Windows, wake-up, regulation and temperature. WINDOW_OPEN gives a core off, a slot or nothing as the table of its beat says,
WINDOW_CLOSE takes the classes and the clock; a core that wakes becomes active when its wake time ends; AVS takes the target
voltage of the chosen point; a temperature reading puts the highest valid reading in force, never below the 118 degree threshold
with a lost pair; four bad readings retire a core; an AVSBus read adds its retries to the error count and sums the currents of
the registers. (03_engines_numerics: R99; 06_time_plan_budget: R196, R213; 14_power_thermal: R447, R448, R449, R450) -/
def Obligations.WindowsAndTemperature : Prop :=
  (∀ (s : State) (n : Fin 32), s.powered = true → s.pwr.mainOn = true → s.ticksRun = true →
    (s.windowAt n s.sched.frameBeat = none → Goes (exec (.windowOpen n) s) fun t => (t.core n).pwr = .off ∧ (t.core n).classes = 0) ∧
    (∀ i, s.windowAt n s.sched.frameBeat = some (some i) → Goes (exec (.windowOpen n) s) fun t =>
      (t.core n).slot = i ∧ (t.core n).wantClk = slotClock s.planB (s.slotEntry n i) ∧
        (t.core n).classes = (if (s.core n).retired then 0 else slotClasses s.planB (s.slotEntry n i))) ∧
    (s.windowAt n s.sched.frameBeat = some none → exec (.windowOpen n) s = .next s ∧ Goes (exec (.windowClose n) s) fun t =>
      (t.core n).classes = 0 ∧ (t.core n).wantClk = 2) ∧
    (s.windowAt n s.sched.frameBeat ≠ some none → exec (.windowClose n) s = .next s)) ∧
  (∀ (s : State) (n : Fin 32), s.powered = true → s.pwr.mainOn = true → s.ticksRun = false → exec (.windowOpen n) s = .next s ∧ exec (.windowClose n) s = .next s) ∧
  (∀ (s : State) (n : Fin 32), s.powered = true → s.pwr.mainOn = true →
    (∀ b, (s.core n).wakeEnd = some b → b ≤ s.beat → (s.core n).pwr = .waking → Goes (exec (.coreWakeDone n) s) fun t =>
      t.core n = { s.core n with pwr := .active, wakeEnd := none }) ∧
    (((s.core n).wakeEnd = none ∨ (s.core n).pwr ≠ .waking) → exec (.coreWakeDone n) s = .next s)) ∧
  (∀ s : State, s.powered = true → s.pwr.mainOn = true → s.ticksRun = true →
    (voltOf s.powB s.avsPoint ≠ s.pwr.target → Goes (exec .avsTargetChange s) fun t =>
      t.pwr = { s.pwr with point := s.avsPoint, target := voltOf s.powB s.avsPoint, oldTarget := s.pwr.target, targetBeat := s.beat }) ∧
    (voltOf s.powB s.avsPoint = s.pwr.target → Goes (exec .avsTargetChange s) fun t => t.pwr = { s.pwr with point := s.avsPoint })) ∧
  (∀ (s : State) (conv : List (Int × Int)), s.powered = true → Goes (exec (.temperatureReading conv) s) fun t =>
    (∀ i : Fin 48, t.sens i = (if s.sensorOn i then (s.sens i).convert (conv.getD i (0, 0)).1 (conv.getD i (0, 0)).2 else s.sens i)) ∧
      ((∀ p < 8, (t.sensorOn (32 + 2 * p) && t.pairLost p) = false) → t.therm.t = (t.highest.map (·.1)).getD s.therm.t) ∧
      ((∃ p < 8, (t.sensorOn (32 + 2 * p) && t.pairLost p) = true) → t118 ≤ t.therm.t)) ∧
  (∀ (s : State) (n : Fin 32), s.powered = true → Goes (exec .sensorInvalidLimit s) fun t =>
    (4 ≤ (s.sens n).bad → (t.core n).retired = true) ∧ ((s.sens n).bad < 4 → (t.core n).retired = (s.core n).retired)) ∧
  (∀ (s : State) (regs : List (Option (Nat × Nat))) (retries : Nat) (status : Bool), s.powered = true → s.pwr.mainOn = true → s.img.isSome = true →
    Goes (exec (.avsbusRead regs retries status) s) fun t =>
      t.pwr.errors = satAdd 255 s.pwr.errors retries ∧ t.pwr.i10ma = (((regs.take (regCount s.powB)).filterMap id).map (·.2)).foldl (· + ·) 0) ∧
  (∀ (s : State) (regs : List (Option (Nat × Nat))) (retries : Nat) (status : Bool), s.powered = true → s.pwr.mainOn = true → s.img = none →
    exec (.avsbusRead regs retries status) s = .next s)

/-- Power sequences of the primaries. ACC_ON, ACC_OFF and ACC_CYCLE start the power-up, power-down and cycle sequences of an enabled
primary and are ignored where they conflict; PWR_TO_RST, RST_TO_OFF and OFF_BEATS end their steps, with the pins and the state
of each; a disabled primary is left alone. (14_power_thermal: R454, R455, R456) -/
def Obligations.PrimarySequencing : Prop :=
  (∀ (s : State) (k : Fin 2), s.powered = true → primEn s.primB k = true →
    ((s.prim k).seq = 0 → Goes (exec (.accOn k) s) fun t => t.prim k = { s.prim k with seq := 1, pwrEn := true, since := s.beat, cycling := false }) ∧
    ((s.prim k).seq = 2 → exec (.accOn k) s = .next s) ∧
    ((s.prim k).seq ≠ 0 → (s.prim k).seq ≠ 2 → Goes (exec (.accOn k) s) fun t => t.pwr = s.pwr) ∧
    ((s.prim k).seq = 0 → exec (.accOff k) s = .next s) ∧
    ((s.prim k).seq ≠ 0 → Goes (exec (.accOff k) s) fun t => t.prim k = { s.prim k with seq := 3, rstN := false, since := s.beat, cycling := false }) ∧
    (((s.prim k).seq = 0 ∨ (s.prim k).seq = 2) → Goes (exec (.accCycle k) s) fun t =>
      t.prim k = { s.prim k with seq := 3, rstN := false, since := s.beat, cycling := true, cycles := satInc 65535 (s.prim k).cycles }) ∧
    ((s.prim k).seq ≠ 0 → (s.prim k).seq ≠ 2 → Goes (exec (.accCycle k) s) fun t => t.pwr = s.pwr)) ∧
  (∀ (s : State) (k : Fin 2) (x : Fin 2 → Instr), x ∈ [Instr.accOn, Instr.accOff, Instr.accCycle] → s.powered = true → primEn s.primB k = false →
    Goes (exec (x k) s) fun t => t.pwr = s.pwr) ∧
  (∀ (s : State) (k : Fin 2), s.powered = true → (s.prim k).seq = 1 → (s.prim k).since + primPwrToRst s.primB k ≤ s.beat →
    Goes (exec (.pwrToRstExpiry k) s) fun t => t.prim k = { s.prim k with seq := 2, rstN := true, rstRise := s.beat }) ∧
  (∀ (s : State) (k : Fin 2), s.powered = true → (s.prim k).seq = 3 → (s.prim k).since + primRstToOff s.primB k ≤ s.beat →
    Goes (exec (.rstToOffExpiry k) s) fun t => t.prim k = { s.prim k with seq := if (s.prim k).cycling then 4 else 0, pwrEn := false, since := s.beat }) ∧
  (∀ (s : State) (k : Fin 2), s.powered = true → (s.prim k).seq = 4 → (s.prim k).since + primOffBeats s.primB k ≤ s.beat →
    Goes (exec (.offBeatsExpiry k) s) fun t => t.prim k = { s.prim k with seq := 1, pwrEn := true, since := s.beat, cycling := false }) ∧
  (∀ (s : State) (k : Fin 2), s.powered = true →
    (((s.prim k).seq ≠ 1 ∨ s.beat < (s.prim k).since + primPwrToRst s.primB k) → exec (.pwrToRstExpiry k) s = .next s) ∧
    (((s.prim k).seq ≠ 3 ∨ s.beat < (s.prim k).since + primRstToOff s.primB k) → exec (.rstToOffExpiry k) s = .next s) ∧
    (((s.prim k).seq ≠ 4 ∨ s.beat < (s.prim k).since + primOffBeats s.primB k) → exec (.offBeatsExpiry k) s = .next s))

/-- Addressing, CCCs and target resets. Each CCC answers and changes what R500 to R509 say: ENINT, the dynamic address, HDR entry,
the read and write lengths within their bounds, the identity and status bytes; a CCC in HDR, and an exit or reset pattern, have
their own effects; where the spec gives no byte the answer is the model's (log entry 31). (17_i3c_register_index: R499, R500,
R501, R508, R512) -/
def Obligations.BusIdentity : Prop :=
  (∀ s : State, s.powered = true → s.i3c.hdr = false →
    exec (.enec true) s = .next { s with i3c := { s.i3c with enint := true, ack := true, resp := [] } } ∧
    exec (.disec true) s = .next { s with i3c := { s.i3c with enint := false, ibi := vrep 7 none, ack := true, resp := [] } } ∧
    exec (.enec false) s = .next { s with i3c := { s.i3c with ack := true, resp := [] } } ∧
    exec (.disec false) s = .next { s with i3c := { s.i3c with ack := true, resp := [] } } ∧
    exec .rstdaa s = .next { s with i3c := { s.i3c with daValid := false, dynAddr := 0, ack := true, resp := [] } } ∧
    exec .enthdr0 s = .next { s with i3c := { s.i3c with hdr := true, ack := true, resp := [] } } ∧
    (∀ n : BitVec 16, exec (.setmwl n) s =
      .next { s with i3c := { s.i3c with mwl := if 7 ≤ n.toNat ∧ n.toNat ≤ 4099 then n.toNat else s.i3c.mwl, ack := true, resp := [] } }) ∧
    (∀ (n : BitVec 16) (k : Option Byte), Goes (exec (.setmrl n k) s) fun t =>
      t.i3c.mrl = (if 4 ≤ n.toNat ∧ n.toNat ≤ 4096 then n.toNat else s.i3c.mrl) ∧
        t.i3c.ibiSize = (k.elim s.i3c.ibiSize fun b => if b.toNat ≤ 8 then b.toNat else s.i3c.ibiSize)) ∧
    (∀ db : Byte, exec (.rstact db) s = .next { s with i3c := { s.i3c with ack := db.toNat == 0, resp := [] } }) ∧
    (∀ a : BitVec 7, s.i3c.daValid = false →
      exec (.setdasa a) s = .next { s with i3c := { s.i3c with daValid := true, dynAddr := a.toNat, ack := true, resp := [] } } ∧
      exec (.entdaa a true) s = .next { s with i3c := { s.i3c with daValid := true, dynAddr := a.toNat, ack := true, resp := s.daaBytes } } ∧
      exec (.entdaa a false) s = .next { s with i3c := { s.i3c with ack := true, resp := s.daaBytes } } ∧
      exec (.setnewda a) s = .next { s with i3c := { s.i3c with ack := true, resp := [] } }) ∧
    (∀ a : BitVec 7, s.i3c.daValid = true →
      exec (.setnewda a) s = .next { s with i3c := { s.i3c with daValid := true, dynAddr := a.toNat, ack := true, resp := [] } } ∧
      exec (.setdasa a) s = .next { s with i3c := { s.i3c with ack := true, resp := [] } } ∧
      (∀ w, exec (.entdaa a w) s = .next s))) ∧
  (∀ (s : State) (x : Instr) (out : List Byte), s.powered = true → s.i3c.hdr = false →
    (x, out) ∈ [(Instr.getmwl, beBytes 2 s.i3c.mwl), (.getmrl, beBytes 2 s.i3c.mrl ++ beBytes 1 s.i3c.ibiSize), (.getpid, beBytes 6 (pidHi * 2 ^ 32 + s.i3c.pidLo)),
      (.getbcr, [BitVec.ofNat 8 bcr]), (.getdcr, [BitVec.ofNat 8 dcr]), (.getmxds, [0, 0]), (.getcaps, [1, 1])] →
    exec x s = .next { s with i3c := { s.i3c with ack := s.i3c.daValid, resp := if s.i3c.daValid then out else [] } }) ∧
  (∀ s : State, s.powered = true → s.i3c.hdr = false →
    (s.i3c.daValid = true → exec .getstatus s = .next { s with i3c := { s.i3c with ack := true, resp := beBytes 2 s.statusWord, protoErr := false } }) ∧
    (s.i3c.daValid = false → exec .getstatus s = .next { s with i3c := { s.i3c with ack := false, resp := [] } })) ∧
  (∀ s : State, s.powered = true →
    exec .targetResetPattern s = .next { s with i3c := { s.i3c with hdr := false, readAddr := 0, resp := [], ack := false } } ∧
    exec .hdrExit s = .next { s with i3c := { s.i3c with hdr := false } }) ∧
  (∀ (s : State) (x : Instr), s.powered = true → s.i3c.hdr = true →
    x ∈ [Instr.enec true, .disec true, .rstdaa, .enthdr0, .getmwl, .getmrl, .getpid, .getbcr, .getdcr, .getstatus, .getmxds, .getcaps] → exec x s = .next s)

/-- SDR and HDR-DDR transfers and in-band interrupts. A write of an address alone sets the read address, with four bytes it writes
one register, with eight two registers one after the other, and a misaligned address or a parity error writes nothing and is
answered; HDR-DDR writes and reads carry their words and check their CRC; an IBI is given only with an address, ENINT and
outside HDR, and is cleared or NACKed. (17_i3c_register_index: R503, R508, R512) -/
def Obligations.BusTransfers : Prop :=
  (∀ (s : State) (a0 a1 a2 : Byte), s.powered = true → s.i3c.hdr = false → ofLe [a0, a1, a2] % 4 = 0 →
    (exec (.registerWrite [a0, a1, a2] false) s = .next { s with i3c := { s.i3c with ack := true, resp := [], readAddr := ofLe [a0, a1, a2] } }) ∧
    (∀ b0 b1 b2 b3 : Byte, ofLe [a0, a1, a2] ≠ 0x0E0010 → ofLe [a0, a1, a2] ≠ 0x0F004C →
      exec (.registerWrite [a0, a1, a2, b0, b1, b2, b3] false) s =
        .next (({ s with i3c := { s.i3c with ack := true, resp := [] } } : State).regWrite (ofLe [a0, a1, a2]) (ofLe [b0, b1, b2, b3]))) ∧
    (∀ b0 b1 b2 b3 c0 c1 c2 c3 : Byte, ofLe [a0, a1, a2] ≠ 0x0E0010 → ofLe [a0, a1, a2] ≠ 0x0F004C →
      exec (.registerWrite [a0, a1, a2, b0, b1, b2, b3, c0, c1, c2, c3] false) s =
        .next ((({ s with i3c := { s.i3c with ack := true, resp := [] } } : State).regWrite (ofLe [a0, a1, a2]) (ofLe [b0, b1, b2, b3])).regWrite
          ((ofLe [a0, a1, a2] + 4) % 2 ^ 24) (ofLe [c0, c1, c2, c3])))) ∧
  (∀ (s : State) (a0 a1 a2 : Byte) (ds : List Byte), s.powered = true → s.i3c.hdr = false → ofLe [a0, a1, a2] % 4 ≠ 0 →
    exec (.registerWrite (a0 :: a1 :: a2 :: ds) false) s = .next { s with i3c := { s.i3c with ack := true, resp := [] } }) ∧
  (∀ (s : State) (bs : List Byte) (b : Byte), s.powered = true → s.i3c.hdr = false → bs.length = 3 → ofLe bs % 4 = 0 →
    exec (.registerWrite (bs ++ [b]) true) s = .next { s with i3c := { s.i3c with
      ack := true, resp := [], readAddr := ofLe bs, parity := satInc 255 s.i3c.parity, protoErr := true } }) ∧
  (∀ (s : State) (bs : List Byte) (p : Bool), s.powered = true → s.i3c.hdr = true → exec (.registerWrite bs p) s = .next s) ∧
  (∀ (s : State) (lo hi d0 d1 : BitVec 16), s.powered = true → s.i3c.hdr = true →
    let a := lo.toNat + 2 ^ 16 * (hi.toNat % 256)
    (a % 4 = 0 → a ≠ 0x0E0010 → a ≠ 0x0F004C → exec (.hdrDdrWrite 0x20 [lo, hi, d0, d1] true) s =
      .next (({ s with i3c := { s.i3c with ack := true, resp := [] } } : State).regWrite a (ofLe (leBytes 2 d0.toNat ++ leBytes 2 d1.toNat)))) ∧
    exec (.hdrDdrWrite 0x20 [lo, hi, d0, d1] false) s =
      .next { s with i3c := { s.i3c with hdrCrc := satInc 65535 s.i3c.hdrCrc, protoErr := true } }) ∧
  (∀ (s : State) (code : Byte) (n : Nat), s.powered = true → s.i3c.hdr = true →
    (code = 0xA0 → min n (s.i3c.mrl / 2) = 2 → s.readHeld s.i3c.readAddr = false → Goes (exec (.hdrDdrRead code n) s) fun t =>
      t.i3c.ack = true ∧ t.i3c.resp = leBytes 4 (s.readWord s.i3c.readAddr).2 ∧ t.i3c.readAddr = (s.i3c.readAddr + 4) % 2 ^ 24) ∧
    (code = 0xA0 → s.readHeld s.i3c.readAddr = true → Goes (exec (.hdrDdrRead code n) s) fun t =>
      t.i3c.ack = false ∧ t.i3c.resp = [] ∧ t.i3c.nackedReads = satInc 255 s.i3c.nackedReads) ∧
    (code ≠ 0xA0 → exec (.hdrDdrRead code n) s = .next s)) ∧
  (∀ (s : State) (n : Fin 7) (p : List Byte), s.powered = true → s.ibiFirst = some (n.val, p) →
    (s.i3c.daValid = true → s.i3c.enint = true → s.i3c.hdr = false →
      (exec (.ibiRequest true) s = .next { s with i3c := { s.i3c with
        ibi := vset s.i3c.ibi n none, ack := true, resp := BitVec.ofNat 8 (n.val + 1) :: p.take s.i3c.ibiSize } }) ∧
      (exec (.ibiRequest false) s = .next { s with i3c := { s.i3c with nacked := satInc 65535 s.i3c.nacked } })) ∧
    (∀ k, (s.i3c.daValid = false ∨ s.i3c.enint = false ∨ s.i3c.hdr = true) → exec (.ibiRequest k) s = .next s)) ∧
  (∀ (s : State) (k : Bool), s.powered = true → s.ibiFirst = none → exec (.ibiRequest k) s = .next s)

/-- Safe inputs and test pulses. A due demand turns its input off, counts, triggers the stop and, for an STO input, raises its fatal
fault; a due on-filter turns it on; discrepancy, stuck-on, cross-short and chatter faults lock the input with their causes; test
pulses fall and rise at their beats, and a wrong pin locks the inputs of its source. (08_safe_io: R266, R267, R268, R270, R271,
R272, R273) -/
def Obligations.SafeInputs : Prop :=
  (∀ (s : State) (i : Fin 8), s.powered = true → s.demandDue i = true → Goes (exec (.safeInputDemand i) s) fun t =>
    (t.inp i).on = false ∧ (t.inp i).demands = satInc 65535 (s.inp i).demands ∧
      (s.siRole i = 1 → ⟨.stopping, 0x14⟩ ∈ t.watch.trig) ∧
      (s.siRole i = 2 → s.watch.wstate ≠ .halt → Reacts s (4 + i.val / 4) .ft (i.val % 4 * 256 + 6) t)) ∧
  (∀ (s : State) (i : Fin 8), s.powered = true → s.demandDue i = false → exec (.safeInputDemand i) s = .next s) ∧
  (∀ (s : State) (i : Fin 8), s.powered = true →
    (s.onDue i = true → Goes (exec (.safeInputOn i) s) fun t => t.inp i = { s.inp i with on := true }) ∧
    (s.onDue i = false → exec (.safeInputOn i) s = .next s)) ∧
  (∀ (s : State) (i : Fin 8) (b : Bool) (x : Instr) (due : Bool) (code cause : Nat), s.powered = true →
    (x, due, code, cause) ∈ [(Instr.discrepancyFault i, s.discDue i, 1, 1), (.stuckOnFault i b, ((s.inp i).chan b).stuckDue, if b then 3 else 2, 2),
      (.crossShortFault i b, ((s.inp i).chan b).crossDue, 5, 4), (.chatterFault i, (s.inp i).chatDue, 4, 3)] →
    (due = true → Goes (exec x s) fun t => (t.inp i).locked = true ∧ (t.inp i).lockCause = cause ∧ (t.inp i).unlockArmed = false ∧ (t.inp i).on = false ∧
      ((s.inp i).on = false → Reacts s (4 + i.val / 4) .uc (i.val % 4 * 256 + code) t)) ∧
    (due = false → exec x s = .next s)) ∧
  (∀ (s : State) (k : Fin 4), s.powered = true →
    (s.tpDueAt k s.beat = true → (vget s.tp k TestPulse.default).start ≠ some s.beat → Goes (exec (.testPulseStart k) s) fun t =>
      vget t.tp k TestPulse.default = { vget s.tp k TestPulse.default with high := false, start := some s.beat }) ∧
    (s.tpDueAt k s.beat = false → exec (.testPulseStart k) s = .next s) ∧
    (∀ p, (vget s.tp k TestPulse.default).start = some p → p + s.tpWidth ≤ s.beat → Goes (exec (.testPulseEnd k) s) fun t =>
      vget t.tp k TestPulse.default = { vget s.tp k TestPulse.default with high := true }) ∧
    ((vget s.tp k TestPulse.default).wrongDue = true → Goes (exec (.testPulsePinFault k) s) fun t =>
      vget t.tp k TestPulse.default = { vget s.tp k TestPulse.default with wrongDue := false, faulted := true } ∧
        ∀ i : Fin 8, s.siRole i ≠ 0 → (s.siTp i false = k ∨ s.siTp i true = k) → (t.inp i).locked = true ∧ (t.inp i).lockCause = 5) ∧
    ((vget s.tp k TestPulse.default).wrongDue = false → exec (.testPulsePinFault k) s = .next s))

/-- Encoder edges, speeds and off-pulses. A quadrature edge counts up or down by its direction, with the position and the frame's
sum, and a double change is illegal and moves nothing; due encoder faults raise source 7 + e with their codes and become flags;
the speeds are those of the valid encoders and the machine's is their maximum; an off-pulse drives one channel low and verifies
its read-back, a fault of the other channel being fatal. (08_safe_io: R274, R277, R283, R284) -/
def Obligations.EncodersAndPulses : Prop :=
  (∀ (s : State) (e : Fin 2) (a b z : Bool), s.powered = true → Goes (exec (.encoderEdge e a b z) s) fun t =>
    let up : Int := if s.encReverse e then -1 else 1
    (t.encAt e).a = a ∧ (t.encAt e).b = b ∧
      ((s.encAt e).a = a → (s.encAt e).b = b → (t.encAt e).pos = (s.encAt e).pos ∧ (t.encAt e).sum = (s.encAt e).sum ∧ (t.encAt e).curIllegal = (s.encAt e).curIllegal) ∧
      (((s.encAt e).a, (s.encAt e).b, a, b) ∈ [(false, false, true, false), (true, false, true, true), (true, true, false, true), (false, true, false, false)] →
        (t.encAt e).pos = (s.encAt e).pos + BitVec.ofInt 32 up ∧ (t.encAt e).sum = (s.encAt e).sum + up ∧ (t.encAt e).count = (s.encAt e).count + 1) ∧
      (((s.encAt e).a, (s.encAt e).b, a, b) ∈ [(true, false, false, false), (true, true, true, false), (false, true, true, true), (false, false, false, true)] →
        (t.encAt e).pos = (s.encAt e).pos + BitVec.ofInt 32 (-up) ∧ (t.encAt e).sum = (s.encAt e).sum - up ∧ (t.encAt e).count = (s.encAt e).count + 1) ∧
      ((s.encAt e).a ≠ a → (s.encAt e).b ≠ b → (t.encAt e).pos = (s.encAt e).pos ∧ (t.encAt e).curIllegal = true)) ∧
  (∀ (s : State) (e : Fin 2), s.powered = true → Goes (exec (.encoderFault e) s) fun t =>
    (t.encAt e).dueRate = false ∧ (t.encAt e).dueIllegal = false ∧ (t.encAt e).dueIndex = false ∧
      (t.encAt e).fRate = ((s.encAt e).fRate || (s.encAt e).dueRate) ∧ (t.encAt e).fIllegal = ((s.encAt e).fIllegal || (s.encAt e).dueIllegal) ∧
      (t.encAt e).fIndex = ((s.encAt e).fIndex || (s.encAt e).dueIndex) ∧
      ((s.encAt e).dueRate = true → (s.encAt e).dueIllegal = false → (s.encAt e).dueIndex = false → Reacts s (7 + e.val) .uc (e.val * 256 + 1) t) ∧
      ((s.encAt e).dueRate = false → (s.encAt e).dueIllegal = true → (s.encAt e).dueIndex = false → Reacts s (7 + e.val) .uc (e.val * 256 + 2) t) ∧
      ((s.encAt e).dueRate = false → (s.encAt e).dueIllegal = false → (s.encAt e).dueIndex = true → Reacts s (7 + e.val) .uc (e.val * 256 + 3) t)) ∧
  (∀ s : State, s.powered = true → Goes (exec .speedValidAgain s) fun t =>
    t.watch.speed = (if s.speedValid then some (max ((s.encAt 0).speedOf s.speedWin (s.encEdgeNm 0)) ((s.encAt 1).speedOf s.speedWin (s.encEdgeNm 1))) else none) ∧
      ∀ e : Fin 2, (t.encAt e).v = (if s.encValid e then some ((s.encAt e).speedOf s.speedWin (s.encEdgeNm e)) else none)) ∧
  (∀ (s : State) (g : Fin 4) (b : Bool), s.powered = true →
    (s.pulseMayStart g b = true → Goes (exec (.offPulseStart g b) s) fun t => (t.grp g).pulse = some ⟨b, s.beat, false, false, false⟩ ∧
      ((t.grp g).chan b).high = false ∧ (t.grp g).chan (!b) = (s.grp g).chan (!b)) ∧
    (s.pulseMayStart g b = false → exec (.offPulseStart g b) s = .next s)) ∧
  (∀ (s : State) (g : Fin 4) (p : OffPulse), s.powered = true → (s.grp g).pulse = some p →
    (p.start ≤ s.beat → p.otherDropped = false → p.returning = false → s.beat + 2 < p.start + s.soPulseWidth g →
      Goes (exec (.offPulseEnd g) s) fun t => t.grp g = s.grp g ∧ t.fc = s.fc) ∧
    (p.start + s.soPulseWidth g < s.beat → p.otherDropped = false → p.sawOff = true → ((s.grp g).chan p.chan).rb = true → Goes (exec (.offPulseEnd g) s) fun t =>
      (t.grp g).pulse = none ∧ ((t.grp g).chan p.chan).reached = true ∧ (t.grp g).pulsesOk = ((s.grp g).pulsesOk + 1) % 65536) ∧
    (p.otherDropped = true → Goes (exec (.offPulseEnd g) s) fun t => Reacts s (9 + g.val / 2) .ft ((2 * (g.val % 2) + b2n p.chan) * 256 + 3) t)) ∧
  (∀ (s : State) (g : Fin 4), s.powered = true → (s.grp g).pulse = none → Goes (exec (.offPulseEnd g) s) fun t => t.grp g = s.grp g ∧ t.fc = s.fc)

/-- Checker, claim and object writes. A checker write with room writes the cell of its coordinates and no other, or its graph's late
error; without room it waits; the buffer's release takes the oldest waiting one; a claim write takes its cells and its centre
with the pose of its frame; a detection list replaces its camera's objects when it fits and otherwise fails its graph; matching
marks objects beside claims, and the object rule asks for a subject unmatched past OBJ_GRACE. (02_scene_grid: R54, R55, R58,
R69) -/
def Obligations.GridWrites : Prop :=
  (∀ (s : State) (w : CheckerWrite), s.powered = true → s.pwr.mainOn = true → s.bufferRoom = true → s.grid.stalled = [] →
    Sparse.wf Cell.zero s.grid.plane0 = true →
    (∀ k, s.lateWrite w.srcFrame = false → cellNo (w.x - (s.scrollSince w.srcFrame).1) (w.y - (s.scrollSince w.srcFrame).2) = some k →
      Goes (exec (.checkerWrite w) s) fun t =>
        Sparse.get Cell.zero t.grid.plane0 k = (Sparse.get Cell.zero s.grid.plane0 k).checkerWrite w s.frame16 ∧ t.grid.wbuf = s.grid.wbuf + 1 ∧
          ∀ j ≠ k, Sparse.get Cell.zero t.grid.plane0 j = Sparse.get Cell.zero s.grid.plane0 j) ∧
    (s.lateWrite w.srcFrame = false → cellNo (w.x - (s.scrollSince w.srcFrame).1) (w.y - (s.scrollSince w.srcFrame).2) = none →
      exec (.checkerWrite w) s = .next s) ∧
    (s.lateWrite w.srcFrame = true → Goes (exec (.checkerWrite w) s) fun t => t.grid.plane0 = s.grid.plane0 ∧ t.grid.err.getLsbD 2 = true ∧
      t.sched.failed = s.sched.failed ||| BitVec.twoPow 64 w.graph)) ∧
  (∀ (s : State) (w : CheckerWrite), s.powered = true → s.pwr.mainOn = true → s.bufferRoom = false → Goes (exec (.checkerWrite w) s) fun t =>
    t.grid.stalled = s.grid.stalled ++ [w] ∧ t.grid.plane0 = s.grid.plane0 ∧ t.grid.err.getLsbD 3 = true) ∧
  (∀ (s : State) (w : CheckerWrite) (ws : List CheckerWrite) (k : Nat), s.powered = true → s.pwr.mainOn = true → s.grid.stalled = w :: ws →
    (s.bufferRoom = false → exec .writeBufferRoom s = .next s) ∧
    (s.bufferRoom = true → Sparse.wf Cell.zero s.grid.plane0 = true → s.lateWrite w.srcFrame = false →
      cellNo (w.x - (s.scrollSince w.srcFrame).1) (w.y - (s.scrollSince w.srcFrame).2) = some k → Goes (exec .writeBufferRoom s) fun t =>
        t.grid.stalled = ws ∧ Sparse.get Cell.zero t.grid.plane0 k = (Sparse.get Cell.zero s.grid.plane0 k).checkerWrite w s.frame16)) ∧
  (∀ s : State, s.powered = true → s.pwr.mainOn = true →
    (s.grid.stalled = [] → exec .writeBufferRoom s = .next s) ∧ (s.grid.claimQ = [] → exec .claimWrite s = .next s)) ∧
  (∀ (s : State) (w : ClaimWrite) (ws : List ClaimWrite), s.powered = true → s.pwr.mainOn = true → s.grid.claimQ = w :: ws →
    (s.bufferRoom = false → Goes (exec .claimWrite s) fun t => t.grid.claimQ = w :: ws ∧ t.grid.err.getLsbD 3 = true) ∧
    (s.bufferRoom = true → s.lateWrite w.srcFrame = true → Goes (exec .claimWrite s) fun t => t.grid.claimQ = ws ∧ t.grid.err.getLsbD 2 = true ∧ t.grid.plane0 = s.grid.plane0) ∧
    (∀ p m, s.bufferRoom = true → s.lateWrite w.srcFrame = false → s.poseOf w.srcFrame = some p → s.camModel w.cam = some m →
      Goes (exec .claimWrite s) fun t => t.grid.claimQ = ws ∧ t.grid.wbuf = s.grid.wbuf + (s.claimCells p m w.item).length ∧
        (∀ c, s.claimCentre p m w.item = some c → ∀ cls x0 x1 y1 r, w.item = .object cls x0 x1 y1 r →
          t.grid.claims = ⟨c.1 - (s.scrollSince w.srcFrame).1, c.2 - (s.scrollSince w.srcFrame).2, cls, w.srcFrame⟩ :: s.grid.claims))) ∧
  (∀ (s : State) (cam : Fin 64) (src : Nat) (g : Fin 64) (ds : List (Int × Int × Nat × Nat)), s.powered = true → s.pwr.mainOn = true →
    ((s.grid.objs.filter fun o => o.cam != cam.val).length + ds.length ≤ 1024 → Goes (exec (.detectionListCommit cam src g ds) s) fun t =>
      t.grid.objs = (s.grid.objs.filter fun o => o.cam != cam.val) ++ s.entriesOf cam src ds ∧ t.grid.matchDue = some s.beat) ∧
    (1024 < (s.grid.objs.filter fun o => o.cam != cam.val).length + ds.length → Goes (exec (.detectionListCommit cam src g ds) s) fun t =>
      t.grid.objs = s.grid.objs ∧ t.grid.err.getLsbD 0 = true ∧ t.sched.failed = s.sched.failed ||| BitVec.twoPow 64 g)) ∧
  (∀ s : State, s.powered = true → s.pwr.mainOn = true →
    (s.grid.matchDue = none → exec .objectMatch s = .next s) ∧
    (s.grid.matchDue ≠ none → Goes (exec .objectMatch s) fun t => t.grid.matchDue = none ∧
      t.grid.objs = s.grid.objs.map fun o => { o with matched := o.matched || s.grid.claims.any (s.matches o) }) ∧
    (s.ev.got = false → exec .objGraceExpiry s = .next s) ∧
    (s.ev.got = true → Goes (exec .objGraceExpiry s) fun t =>
      (t.ev.objRule = true ↔ ∃ o ∈ s.grid.objs, s.subject o = true ∧ o.matched = false ∧ o.commit + s.objGrace ≤ s.beat)))

/-- Floor cycles. A floor cycle starts with an image, an engine, a frame not used before and, where a second context is named, a
fresh one; two engines' results end the cycle together, and one alone where the other is lost; a write of a cell writes that
cell with its envelope, frame, height and class, and leaves every other cell. (02_scene_grid: R72; 11_reneb_image: R376) -/
def Obligations.FloorCycles : Prop :=
  (∀ s : State, s.powered = true → s.flr.cycle = false → s.img.isSome = true → s.floorEngineOk = true →
    (vget s.sched.lastUsed (s.floorRecB 0) none).getD 0 < (s.ctxAt (s.floorRecB 1)).delivered → (s.floorRecB 2 = 0xFF ∨ s.ctxFresh (s.floorRecB 2) = true) →
    Goes (exec .floorCycleStart s) fun t => t.flr = { s.flr with cycle := true, res0 := none, res1 := none }) ∧
  (∀ s : State, s.powered = true → (s.flr.cycle = true ∨ s.img = none ∨ s.floorEngineOk = false) → exec .floorCycleStart s = .next s) ∧
  (∀ (s : State) (e1 : Bool) (ws : List FloorWrite), s.powered = true →
    ((s.flr.cycle = false ∨ (if e1 then s.flr.f1Ok else s.flr.f0Ok) = false) → exec (.floorCycleComplete e1 ws) s = .next s) ∧
    (s.flr.cycle = true → s.flr.f0Ok = true → s.flr.f1Ok = true → s.flr.res0 = none → s.flr.res1 = none →
      Goes (exec (.floorCycleComplete e1 ws) s) fun t => t.flr = if e1 then { s.flr with res1 := some ws } else { s.flr with res0 := some ws }) ∧
    (∀ a, s.flr.cycle = true → s.flr.f0Ok = true → s.flr.f1Ok = true → (if e1 then s.flr.res0 else s.flr.res1) = some a →
      Goes (exec (.floorCycleComplete e1 ws) s) fun t => t.flr.cycle = false ∧ t.flr.res0 = none ∧ t.flr.res1 = none ∧ t.flr.lastCycle = some s.sched.frame) ∧
    (s.flr.cycle = true → (if e1 then s.flr.f1Ok else s.flr.f0Ok) = true → (if e1 then s.flr.f0Ok else s.flr.f1Ok) = false →
      Goes (exec (.floorCycleComplete e1 ws) s) fun t => t.flr.cycle = false ∧ t.flr.lastCycle = some s.sched.frame)) ∧
  (∀ (s : State) (e1 : Bool) (w : FloorWrite), s.powered = true → s.flr.cycle = true → (if e1 then s.flr.f1Ok else s.flr.f0Ok) = true →
    (if e1 then s.flr.f0Ok else s.flr.f1Ok) = false → Sparse.wf FloorCell.zero s.flr.cells = true → w.x < 128 → w.y < 64 →
    Goes (exec (.floorCycleComplete e1 [w]) s) fun t =>
      Sparse.get FloorCell.zero t.flr.cells (w.y * 128 + w.x) =
        ⟨(midRadius (sat8 w.lo) (sat8 w.hi)).1, (midRadius (sat8 w.lo) (sat8 w.hi)).2, s.frame16, w.height, w.cls, true⟩ ∧
      ∀ j, j ≠ w.y * 128 + w.x → Sparse.get FloorCell.zero t.flr.cells j = Sparse.get FloorCell.zero s.flr.cells j)

/-- Camera frames on their way to the primary. A frame start of a camera is forwarded with its stamp when the port stamps, and opens
its contexts with frame number, beat and an error for a wrong number; a frame end is forwarded and closes them, a clean frame
with all its lines becoming the newest and a bad one counting and leaving the newest. (07_camera_claim_streams: R230, R231) -/
def Obligations.CameraFrames : Prop :=
  (∀ (s : State) (p : Fin 16) (vc n : Nat), s.powered = true → s.camRx p.val = true → s.camTx p.val = true → s.crocusVc p.val vc = false →
    Goes (exec (.csiFrameStart p vc n .good) s) fun t =>
      (t.port p.val).fwdStopped = false ∧ (vc, n) ∈ (t.port p.val).openVcs ∧
      (pStamp s.strB p.val = false → (t.port p.val).out = [shortPkt vc 0 n]) ∧
      (∀ x l, pStamp s.strB p.val = true → s.ctxOn p.val vc = x :: l →
        (t.port p.val).out = [shortPkt vc 0 n, longPkt vc 0x37 (s.stampBytes 1 (cCam s.strB x) n) false]) ∧
      ∀ x ∈ s.ctxOn p.val vc, (t.ctxAt x).isOpen = true ∧ (t.ctxAt x).frameNo = n ∧ (t.ctxAt x).fsBeat = s.beat ∧ (t.ctxAt x).lines = 0 ∧
        ((t.ctxAt x).curErr.getLsbD 1 = true ↔ frameNoOk (s.ctxAt x).prevNo n = false)) ∧
  (∀ (s : State) (p : Fin 16) (vc n : Nat), s.powered = true → s.camRx p.val = true → s.camTx p.val = true → s.crocusVc p.val vc = false →
    (s.port p.val).fwdStopped = false → Goes (exec (.csiFrameEnd p vc n .good) s) fun t =>
      (t.port p.val).out = [shortPkt vc 1 n] ∧ (t.port p.val).openVcs = (s.port p.val).openVcs.filter (·.1 != vc) ∧
      (∀ x ∈ s.ctxOn p.val vc, (s.ctxAt x).isOpen = true →
        (t.ctxAt x).isOpen = false ∧
        ((s.ctxAt x).curErr = 0 → (s.ctxAt x).lines = cLines s.strB x → (s.ctxAt x).frameNo = n →
          (t.ctxAt x).complete = true ∧ (t.ctxAt x).newest = (s.ctxAt x).writing ∧ (t.ctxAt x).delivered = (s.ctxAt x).delivered + 1 ∧ (t.ctxAt x).doneBeat = s.beat) ∧
        (((s.ctxAt x).curErr ≠ 0 ∨ (s.ctxAt x).lines ≠ cLines s.strB x ∨ (s.ctxAt x).frameNo ≠ n) →
          (t.ctxAt x).newest = (s.ctxAt x).newest ∧ (t.ctxAt x).delivered = (s.ctxAt x).delivered ∧ (t.ctxAt x).badFrames = satInc 65535 (s.ctxAt x).badFrames)))

/-- Long and short packets, locks and forwarding failures. Lines are forwarded as they came, but stamp lines are not where the port
makes its own stamps; CRC errors mark the contexts and the port; an uncorrectable header marks every open context of the port
and sends nothing; short packets of the listed types are forwarded; a lost receiver lock and a failed transmitter latch their
errors, the second one stopping the forwarding with the open frames ended and raising source 76 + p. (07_camera_claim_streams:
R230, R231, R232, R235, R260) -/
def Obligations.CameraPackets : Prop :=
  (∀ (s : State) (p : Fin 16) (k : LongPkt), s.powered = true → s.camRx p.val = true → k.hdr = .good → Goes (exec (.csiLongPacket p k) s) fun t =>
    (s.camTx p.val = true → s.crocusVc p.val k.vc = false → (s.port p.val).fwdStopped = false → (k.dt = 0x37 → pStamp s.strB p.val = false) →
      (t.port p.val).out = [longPkt k.vc k.dt k.payload (!k.crcOk)]) ∧
    (k.crcOk = false → (t.port p.val).err.getLsbD 2 = true ∧ (t.port p.val).crcErrs = satInc 65535 (s.port p.val).crcErrs) ∧
    (storedDt k.dt = false → (t.port p.val).err.getLsbD 1 = true) ∧
    ∀ x ∈ s.ctxOn p.val k.vc, (s.ctxAt x).isOpen = true →
      ((t.ctxAt x).curErr = if k.crcOk then (s.ctxAt x).curErr else (s.ctxAt x).curErr ||| 1) ∧
      ((t.ctxAt x).lines = if cDt s.strB x = k.dt then (s.ctxAt x).lines + 1 else (s.ctxAt x).lines)) ∧
  (∀ (s : State) (p : Fin 16) (k : LongPkt), s.powered = true → s.camRx p.val = true → s.camTx p.val = true → k.hdr = .good → k.dt = 0x37 →
    pStamp s.strB p.val = true → Goes (exec (.csiLongPacket p k) s) fun t =>
      (t.port p.val).out = (s.port p.val).out ∧ (t.port p.val).err.getLsbD 1 = true) ∧
  (∀ (s : State) (p : Fin 16) (vc n dt : Nat) (k : LongPkt) (c : Instr), s.powered = true → s.camRx p.val = true → k.hdr = .uncorrectable →
    c ∈ [Instr.csiFrameStart p vc n .uncorrectable, .csiFrameEnd p vc n .uncorrectable, .csiShortPacket p vc dt n .uncorrectable, .csiLongPacket p k] →
    Goes (exec c s) fun t => (t.port p.val).out = (s.port p.val).out ∧ (t.port p.val).err = (s.port p.val).err ||| 16 ∧
      ∀ x < 64, s.ctxUsed x = true → cPort s.strB x = p.val → (s.ctxAt x).isOpen = true → (t.ctxAt x).curErr = (s.ctxAt x).curErr ||| 1) ∧
  (∀ (s : State) (p : Fin 16) (vc dt n : Nat), s.powered = true → s.camRx p.val = true →
    (dt = 2 ∨ dt = 3 ∨ (8 ≤ dt ∧ dt ≤ 15)) → s.camTx p.val = true → (s.port p.val).fwdStopped = false →
    Goes (exec (.csiShortPacket p vc dt n .good) s) fun t => t.port p.val = { s.port p.val with out := [shortPkt vc dt n] }) ∧
  (∀ (s : State) (p : Fin 16) (locked : Bool), s.powered = true → (s.pwr.mainOn = true ∨ p.val ≤ 1) → s.role p.val ≠ 0 → s.role p.val ≠ 3 →
    Goes (exec (.csiRxLockChange p locked) s) fun t => (t.port p.val).rxLock = locked ∧ (locked = false → (t.port p.val).err.getLsbD 0 = true)) ∧
  (∀ (s : State) (p : Fin 16), s.powered = true → s.pwr.mainOn = true → s.camTx p.val = true → (s.crocus p.val).injecting = none →
    Goes (exec (.forwardFailure p) s) fun t => (∃ info, Reacts s (76 + p.val) .uc info t) ∧
      (t.port p.val).fwdStopped = true ∧ (t.port p.val).openVcs = [] ∧ (t.port p.val).err.getLsbD 5 = true ∧
      (t.port p.val).out = (s.port p.val).openVcs.map fun v => shortPkt v.1 1 v.2) ∧
  (∀ (s : State) (p : Fin 16), s.powered = true → s.pwr.mainOn = true → s.role p.val = 3 →
    Goes (exec (.forwardFailure p) s) fun t => (∃ info, Reacts s (76 + p.val) .uc info t) ∧ (t.port p.val).err.getLsbD 5 = true)

/-- Crocus staging, injection and deadlines. A staged frame becomes injectable when its hash is right and otherwise raises source 76
+ p with a SKIP; the injection after the camera's frame end starts when the margin remains and sends its start and stamp, or is
deferred with D3 when the skips run out; its end sends the lines and the frame end and sets the deadline of the answer; a
deadline that passes is a late answer and D3. (07_camera_claim_streams: R244, R246, R249) -/
def Obligations.CrocusInjections : Prop :=
  (∀ (s : State) (p : Fin 16), s.powered = true → s.pwr.mainOn = true →
    ((s.crocus p.val).staging = none → exec (.crocusStagingDone p) s = .next s) ∧
    (∀ f, (s.crocus p.val).staging = some f →
      (Config.shake256 (frData s.crB f) 32 = frHash s.crB f → Goes (exec (.crocusStagingDone p) s) fun t =>
        t.crocus p.val = { s.crocus p.val with staging := none, staged := some f }) ∧
      (Config.shake256 (frData s.crB f) 32 ≠ frHash s.crB f → Goes (exec (.crocusStagingDone p) s) fun t =>
        (∃ info, Reacts s (76 + p.val) .uc info t) ∧
        t.crocus p.val = { s.crocus p.val with hashFail := true, skip := satInc 255 (s.crocus p.val).skip, owed := false, staging := none, staged := none }))) ∧
  (∀ (s : State) (p : Fin 16) (fe f : Nat), s.powered = true → s.pwr.mainOn = true →
    (s.crocus p.val).camFe = some fe → (s.crocus p.val).staged = some f → s.crMode p.val = 1 → (s.crocus p.val).owed = true →
    (s.crocus p.val).injecting = none → (s.crocus p.val).answerTo = none → s.beat = fe + 1 → s.camTx p.val = true →
    (s.beat + s.crTInj p.val f + s.crHalf p.val 8 ≤ (s.crocus p.val).camFs + s.frameBeats → Goes (exec (.crocusInjectionStart p) s) fun t =>
      (t.crocus p.val).injecting = some s.beat ∧ (t.crocus p.val).stampFrame = s.sched.frame ∧
      (t.port p.val).out = shortPkt (s.crByte p.val 4) 0 (s.crocusNumber p.val) ::
        if pStamp s.strB p.val then [longPkt (s.crByte p.val 4) 0x37 (s.stampBytes 2 (s.crByte p.val 0) (s.crocusNumber p.val)) false] else []) ∧
    ((s.crocus p.val).camFs + s.frameBeats < s.beat + s.crTInj p.val f + s.crHalf p.val 8 → Goes (exec (.crocusInjectionStart p) s) fun t =>
      (t.crocus p.val).skip = satInc 255 (s.crocus p.val).skip ∧ (t.crocus p.val).owed = false ∧ (t.crocus p.val).injecting = none ∧
      (s.crByte p.val 3 < satInc 255 (s.crocus p.val).skip → t.watch.causes.getLsbD 3 = true))) ∧
  (∀ (s : State) (p : Fin 16), s.powered = true → s.pwr.mainOn = true → ((s.crocus p.val).staged = none ∨ (s.crocus p.val).camFe = none) →
    exec (.crocusInjectionStart p) s = .next s) ∧
  (∀ (s : State) (p : Fin 16), s.powered = true → s.pwr.mainOn = true →
    ((s.crocus p.val).injecting = none → exec (.crocusInjectionEnd p) s = .next s) ∧
    (∀ b f, (s.crocus p.val).injecting = some b → (s.crocus p.val).staged = some f → s.crMode p.val = 1 →
      (s.beat + 1 < b + s.crTInj p.val f → exec (.crocusInjectionEnd p) s = .next s) ∧
      (b + s.crTInj p.val f ≤ s.beat + 1 → Goes (exec (.crocusInjectionEnd p) s) fun t =>
        (t.port p.val).out = crLines s.crB f (s.crByte p.val 4) ++ [shortPkt (s.crByte p.val 4) 1 (s.crocusNumber p.val)] ∧
        (t.crocus p.val).injecting = none ∧ (t.crocus p.val).skip = 0 ∧ (t.crocus p.val).pending = true ∧ (t.crocus p.val).answerTo = some f ∧
        (t.crocus p.val).deadline = some (s.beat + s.crDeadline p.val) ∧ (t.crocus p.val).injected = ((s.crocus p.val).injected + 1) % 65536))) ∧
  (∀ (s : State) (p : Fin 16), s.powered = true → s.pwr.mainOn = true →
    ((s.crocus p.val).answerTo = none → exec (.crocusDeadline p) s = .next s) ∧
    (∀ f d, (s.crocus p.val).answerTo = some f → (s.crocus p.val).deadline = some d →
      (s.beat < d → exec (.crocusDeadline p) s = .next s) ∧
      (d ≤ s.beat → Goes (exec (.crocusDeadline p) s) fun t => (t.crocus p.val).late = true ∧ (t.crocus p.val).pending = false ∧
        (t.crocus p.val).answerTo = none ∧ (t.crocus p.val).deadline = none ∧ t.watch.causes.getLsbD 3 = true)))

/-- Claim records, their age and verdict batches. A packet of another channel or port changes nothing; a packet CRC, record CRC,
ALIVE or format that fails marks its stream and causes D2, in that order; a good record queues its grid items or ends its claim
frame, which becomes the camera's newest with its source frame and reference; a claim that is too old is D1; verdict batches are
sent, dropped or skipped at their beats. (07_camera_claim_streams: R239, R242, R251) -/
def Obligations.ClaimRecords : Prop :=
  (∀ (s : State) (p : Fin 16) (k : LongPkt), s.powered = true → s.pwr.mainOn = true → (s.role p.val ≠ 2 ∨ k.vc ≠ pVc s.strB p.val) →
    exec (.claimRecord p k) s = .next s) ∧
  (∀ (s : State) (p : Fin 16) (k : LongPkt) (n : Nat), s.powered = true → s.pwr.mainOn = true → s.role p.val = 2 → k.vc = pVc s.strB p.val →
    pClaimStream s.strB p.val = n → n < 4 →
    (k.hdr ≠ .uncorrectable → k.crcOk = false → Goes (exec (.claimRecord p k) s) fun t =>
      (t.claimStream n).err.getLsbD 0 = true ∧ (t.claimStream n).badRecords = satInc 65535 (s.claimStream n).badRecords ∧ t.watch.causes.getLsbD 2 = true) ∧
    (k.hdr = .good → k.crcOk = true → k.dt = 0x30 → claimCrcOk k.payload = false → Goes (exec (.claimRecord p k) s) fun t =>
      (t.claimStream n).err.getLsbD 1 = true ∧ (t.claimStream n).badRecords = satInc 65535 (s.claimStream n).badRecords ∧ t.watch.causes.getLsbD 2 = true) ∧
    (k.hdr = .good → k.crcOk = true → k.dt = 0x30 → claimCrcOk k.payload = true → (s.claimStream n).fresh = false →
      (((claimHdr k.payload).alive + 65536 - (s.claimStream n).aliveLast) % 65536 = 0 ∨
        pAliveGap s.strB p.val + 1 < ((claimHdr k.payload).alive + 65536 - (s.claimStream n).aliveLast) % 65536) →
      Goes (exec (.claimRecord p k) s) fun t => (t.claimStream n).err.getLsbD 2 = true ∧
        (t.claimStream n).aliveLast = (claimHdr k.payload).alive ∧ t.watch.causes.getLsbD 2 = true) ∧
    (k.hdr = .good → k.crcOk = true → k.dt = 0x30 → claimCrcOk k.payload = true →
      ((s.claimStream n).fresh = true ∨ (1 ≤ ((claimHdr k.payload).alive + 65536 - (s.claimStream n).aliveLast) % 65536 ∧
        ((claimHdr k.payload).alive + 65536 - (s.claimStream n).aliveLast) % 65536 ≤ pAliveGap s.strB p.val + 1)) →
      (s.claimFormat n 0x30 k.payload ≠ 0 → Goes (exec (.claimRecord p k) s) fun t =>
        (t.claimStream n).err.getLsbD 3 = true ∧ (t.claimStream n).formatCode = s.claimFormat n 0x30 k.payload ∧ t.watch.causes.getLsbD 2 = true) ∧
      (s.claimFormat n 0x30 k.payload = 0 → (claimHdr k.payload).rtype ≠ 0x0F → (claimHdr k.payload).crocus = false →
        Goes (exec (.claimRecord p k) s) fun t => (t.claimStream n).aliveLast = (claimHdr k.payload).alive ∧
          t.grid.claimQ = s.grid.claimQ ++ ((upto (claimHdr k.payload).count).map (claimItem k.payload)).flatMap (gridItems (claimHdr k.payload))) ∧
      (s.claimFormat n 0x30 k.payload = 0 → (claimHdr k.payload).rtype = 0x0F → (claimHdr k.payload).crocus = false → (claimHdr k.payload).cam < 64 →
        ((s.camClaims (claimHdr k.payload).cam).frameFor (claimHdr k.payload)).bad = false →
        Goes (exec (.claimRecord p k) s) fun t => (t.claimStream n).frames = satInc 65535 (s.claimStream n).frames ∧
          (t.camClaims (claimHdr k.payload).cam).doneReal = some (claimHdr k.payload).srcFrame ∧
          (t.camClaims (claimHdr k.payload).cam).ref = max (s.camClaims (claimHdr k.payload).cam).ref (claimHdr k.payload).srcBeat ∧
          (t.camClaims (claimHdr k.payload).cam).real = none ∧ t.grid.matchDue.isSome = true))) ∧
  (∀ (s : State) (n : Fin 4), s.powered = true → Goes (exec (.claimAgeExpiry n) s) fun t =>
    (t.claimStream n.val).overAge = s.overAge n.val ∧ (s.overAge n.val = true → t.watch.causes.getLsbD 1 = true)) ∧
  (∀ (s : State) (sent : Bool), s.powered = true → s.pwr.mainOn = true →
    (s.verdictPort = none → exec (.verdictBatchSend sent) s = .next s) ∧
    (s.beat < 64 * s.io.v.next + 64 → exec (.verdictBatchSend sent) s = .next s) ∧
    (∀ p, s.verdictPort = some p → s.verdictOn = true → 64 * s.io.v.next + 64 ≤ s.beat →
      (sent = true → s.beat ≤ 64 * s.io.v.next + 65 → Goes (exec (.verdictBatchSend sent) s) fun t =>
        (t.port p).out = [shortPkt (pVc s.strB p) 0 (s.io.v.next % 65536 % 65535 + 1), longPkt (pVc s.strB p) 0x31 (s.batchBytes s.io.v.next) false,
          shortPkt (pVc s.strB p) 1 (s.io.v.next % 65536 % 65535 + 1)] ∧ t.io.v.next = s.io.v.next + 1 ∧ t.io.v.alive = s.io.v.next % 65536) ∧
      ((sent = false ∨ 64 * s.io.v.next + 65 < s.beat) → Goes (exec (.verdictBatchSend sent) s) fun t =>
        t.io.v.txFault = true ∧ t.io.v.next = s.io.v.next + 1 ∧ t.io.ports = s.io.ports)))

/-- Event records. An event is appended to the last area with its port's number and code and the next SEQ, waits for the journal and
fills the first area up to 256 records, unless its code is reserved or its engine port is off; a record of a code passed shortly
before counts as limited; a record that folds changes the folded one instead. (10_event_journal: R344) -/
def Obligations.EventRecords : Prop :=
  (∀ (s : State) (g : Option (Fin 128)) (code : BitVec 16) (data : BitVec 64), s.powered = true →
    (code.toNat % 4096 < 0x100 ∨ (g.isSome = true ∧ (s.pwr.mainOn = false ∨ code.toNat / 4096 ≠ 4)) → exec (.eventRecord g code data) s = .next s)) ∧
  (∀ (s : State) (g : Option (Fin 128)) (code : BitVec 16) (data : BitVec 64), s.powered = true → 0x100 ≤ code.toNat % 4096 →
    (g.isSome = true → s.pwr.mainOn = true ∧ code.toNat / 4096 = 4) →
    (∀ q wait, s.evr.lastOf (foldPoint (reportPort g code.toNat)) = some q → s.evr.foldsInto (foldPoint (reportPort g code.toNat)) code.toNat 0xFF q wait = false) →
    (s.evr.tracked (reportPort g code.toNat)).find? (fun x => x.code == code.toNat) = none →
    Goes (exec (.eventRecord g code data) s) fun t =>
      t.evr.last.getLast? = some ⟨s.beat, 0, code.toNat, 0xFF, .event, false, false, s.time.set, s.evr.seqNext, s.time.now, data.toNat⟩ ∧
      t.evr.seqNext = (s.evr.seqNext + 1) % 2 ^ 32 ∧ t.evr.waiting = min 4096 (s.evr.waiting + 1) ∧
      (s.evr.first.length < 256 → t.evr.first.getLast? = t.evr.last.getLast?) ∧ (256 ≤ s.evr.first.length → t.evr.first = s.evr.first)) ∧
  (∀ (s : State) (g : Option (Fin 128)) (code : BitVec 16) (data : BitVec 64) (x : RateEntry), s.powered = true → 0x100 ≤ code.toNat % 4096 →
    code.toNat / 4096 ≠ 0 → code.toNat / 4096 ≠ 15 → (g.isSome = true → s.pwr.mainOn = true ∧ code.toNat / 4096 = 4) →
    (s.evr.tracked (reportPort g code.toNat)).find? (fun x => x.code == code.toNat) = some x → s.beat - x.last < s.rateEv →
    Goes (exec (.eventRecord g code data) s) fun t =>
      t.evr.last = s.evr.last ∧ t.evr.first = s.evr.first ∧ t.evr.seqNext = s.evr.seqNext ∧ t.evr.limited = satInc (2 ^ 32 - 1) s.evr.limited) ∧
  (∀ (s : State) (code : BitVec 16) (data : BitVec 64) (q : Nat), s.powered = true → 0x100 ≤ code.toNat % 4096 →
    (code.toNat / 4096 = 0 ∨ code.toNat / 4096 = 15) → s.evr.lastOf 32 = some q →
    s.evr.foldsInto 32 code.toNat 0xFF q (s.evr.last.drop (s.evr.last.length - s.evr.waiting)) = true →
    Goes (exec (.eventRecord none code data) s) fun t =>
      t.evr.last = s.evr.last.map (fun x => if x.seq == q then x.fold else x) ∧ t.evr.seqNext = s.evr.seqNext ∧
      t.evr.folded = satInc (2 ^ 32 - 1) s.evr.folded)

/-- Flush, program, refresh and scrub of the journal. A flush that has started programs one page of the waiting records into the
ring and counts them; a failed page moves its block to a spare, or stops the journal without one; a read-disturb refresh copies
its block to a spare; a scrub of one pass reads every page and reports codewords beyond their bits or uncorrectable.
(10_event_journal: R350, R355, R357, R358) -/
def Obligations.JournalMedium : Prop :=
  (∀ s : State, s.powered = true → s.pwr.mainOn = true →
    (s.flushStarted = false → exec .journalFlush s = .next s) ∧
    (∀ e l, s.flushStarted = true → (s.waitingRecs.take s.perPage).head? = some e → (s.waitingRecs.take s.perPage).getLast? = some l →
      (Goes (exec .journalFlush s) fun t => t.jnl.copied = l.seq) ∧
      (∀ k, s.jnl.headOpen = true → s.jnl.head = some k → s.pageRoom k = true → k < s.jnl.blocks.length → s.jnl.lostNew = 0 →
        (s.evr.first = [] ∨ s.jnl.evid = []) → Goes (exec .journalFlush s) fun t =>
          (t.nblk k).pages = (s.nblk k).pages ++ [s.newPage 1 e.seq (s.waitingRecs.take s.perPage).length ((s.waitingRecs.take s.perPage).flatMap EvRec.bytes)] ∧
          t.jnl.lastSeq = s.jnl.nextSeq ∧ t.jnl.nextSeq = s.jnl.nextSeq + 1 ∧ t.evr.waiting = s.evr.waiting - (s.waitingRecs.take s.perPage).length))) ∧
  (∀ (s : State) (n : Nat) (erase : Bool), s.powered = true → s.pwr.mainOn = true →
    ((s.jnl.present = false ∨ s.jnl.blocks.length ≤ n ∨ (s.nblk n).bad = true) → exec (.nandProgramFail n erase) s = .next s) ∧
    (s.jnl.present = true → n < s.jnl.blocks.length → (s.nblk n).bad = false →
      ((s.nblk n).part ≠ .none → (s.nblk n).part ≠ .spare → s.spares = [] → Goes (exec (.nandProgramFail n erase) s) fun t =>
        t.jnl.stopped = true ∧ t.jnl.spareRaised = true ∧ (t.nblk n).grownBad = true ∧ (s.jnl.spareRaised = false → ∃ info, Reacts s 98 .uc info t)) ∧
      ((s.nblk n).part ≠ .none → (s.nblk n).part ≠ .spare → s.spares ≠ [] → Goes (exec (.nandProgramFail n erase) s) fun t =>
        (∃ info, Reacts s 94 .ce info t) ∧ (t.nblk n).grownBad = true ∧ (t.nblk n).part = .none ∧
        ∃ x ∈ s.spares, (t.nblk x).part = (s.nblk n).part ∧ (t.nblk x).pages = if erase then [] else (s.nblk n).pages) ∧
      ((s.nblk n).part = .spare → Goes (exec (.nandProgramFail n erase) s) fun t =>
        (∃ info, Reacts s 94 .ce info t) ∧ (t.nblk n).grownBad = true ∧ (t.nblk n).part = .none) ∧
      ((s.nblk n).part = .none → Goes (exec (.nandProgramFail n erase) s) fun t => (t.nblk n).grownBad = true))) ∧
  (∀ (s : State) (n : Nat), s.powered = true → s.pwr.mainOn = true →
    ((s.refreshable n = false ∨ s.jnl.stopped = true ∨ s.spares = []) → exec (.readDisturbRefresh n) s = .next s) ∧
    (s.refreshable n = true → s.jnl.stopped = false → s.spares ≠ [] → s.rdLimit ≤ (s.nblk n).reads → Goes (exec (.readDisturbRefresh n) s) fun t =>
      (t.nblk n).part = .spare ∧ (t.nblk n).pages = [] ∧ (t.nblk n).reads = 0 ∧ (t.nblk n).erases = (s.nblk n).erases + 1 ∧
      t.jnl.rewrites = satInc 65535 s.jnl.rewrites ∧
      ∃ x ∈ s.spares, (t.nblk x).part = (s.nblk n).part ∧ (t.nblk x).pages = (s.nblk n).pages)) ∧
  (∀ s : State, s.powered = true → s.pwr.mainOn = true →
    (∀ found, (s.jnl.ready = false ∨ s.st.running = true ∨ (s.jnl.scrubBusy = false ∧ s.jnl.scrubBeats < scrubPeriod)) → exec (.retentionScrub found) s = .next s) ∧
    (s.jnl.ready = true → s.st.running = false → (s.jnl.scrubBusy = true ∨ scrubPeriod ≤ s.jnl.scrubBeats) →
      (Goes (exec (.retentionScrub []) s) fun t => t.jnl.scrubBusy = false ∧ t.jnl.scrubBeats = 0 ∧ ∀ k, (t.nblk k).reads = (s.nblk k).reads + (s.nblk k).pages.length) ∧
      (∀ n k, s.refreshable n = true → s.scrubBits ≤ k → Goes (exec (.retentionScrub [(n, some k)]) s) fun t => ∃ info, Reacts s 93 .ce info t) ∧
      (∀ n, s.refreshable n = true → Goes (exec (.retentionScrub [(n, none)]) s) fun t => ∃ info, Reacts s 93 .uc info t)))

/-- The HALT snapshot. Without a snapshot due, or while the service core cannot write, nothing changes. A snapshot appends the whole
last area and the latch records to the open evidence block, in order, copies every waiting record to the ring and says so in
JNL_COPIED. (10_event_journal: R309, R349, R350, R353) -/
def Obligations.HaltSnapshot : Prop :=
  (∀ s : State, s.powered = true → s.pwr.mainOn = true → (s.jnl.snapDue = false ∨ s.canWrite = false) → exec .haltSnapshot s = .next s) ∧
  (∀ (s : State) (k r : Nat), s.powered = true → s.pwr.mainOn = true → s.jnl.snapDue = true → s.canWrite = true → 1 ≤ s.jnl.page →
    s.jnl.evidOpen = true → s.jnl.evidHead = some k → k < s.jnl.blocks.length → (s.nblk k).pages.length + 17 ≤ s.jnl.pagesPerBlock →
    s.jnl.headOpen = true → s.jnl.head = some r → r < s.jnl.blocks.length → (s.nblk r).pages.length + 17 ≤ s.jnl.pagesPerBlock → r ≠ k →
    s.evr.waiting ≤ s.evr.last.length → s.evr.last.length ≤ 4096 → Goes (exec .haltSnapshot s) fun t =>
      t.jnl.snapDue = false ∧ t.evr.waiting = 0 ∧
      (∀ e, s.evr.last.getLast? = some e → 0 < s.evr.waiting → t.jnl.copied = e.seq) ∧
      ∃ ps, (t.nblk k).pages = (s.nblk k).pages ++ ps ∧ ps.map (fun p => (p.ptype, p.data)) =
        (pieces s.perPage 16 s.evr.last ++ [s.evr.last.filter fun e => e.code == 0x2103]).map fun x => (3, x.flatMap EvRec.bytes))

/-- Synchronisation of device time. A sync message of the chosen slave port, with a link and an interval in range, sets the time
when it was not set, is refused beyond the offset limit with a jump, or is accepted into the servo, which adds its proportional
and integral parts and leaves the rest; losing the messages enters holdover with the frequency kept; a time mismatch raises
source 103 and takes the intact copy. (15_network_time: R465, R471) -/
def Obligations.TimeSamples : Prop :=
  (∀ (s : State) (m : Fin 2) (x : SyncSample), s.powered = true → s.pwr.mainOn = true →
    ((s.ptpPort m.val = false ∨ (s.eth m.val).link = false ∨ s.time.slave ≠ m.val ∨ x.logInterval < -7 ∨ 1 < x.logInterval) →
      exec (.ptpSync m x) s = .next s) ∧
    (s.ptpPort m.val = true → (s.eth m.val).link = true → s.time.slave = m.val → -7 ≤ x.logInterval → x.logInterval ≤ 1 →
      (s.time.set = false → s.ptpInitStep = true → s.watch.wstate = .stopped → Goes (exec (.ptpSync m x) s) fun t =>
        t.time.now = ofInt 64 (s.time.now + x.offset) ∧ t.time.set = true ∧ t.time.f = 0 ∧ t.time.steps = satInc 65535 s.time.steps ∧ t.time.offset = x.offset) ∧
      (s.time.set = true → u32 s.timeB 8 < x.offset.natAbs → Goes (exec (.ptpSync m x) s) fun t =>
        t.time.jump = true ∧ t.time.refused = satInc 65535 s.time.refused ∧ t.time.r = s.time.f ∧ t.time.now = s.time.now ∧ t.time.holdover = true) ∧
      (s.time.set = true → x.offset.natAbs ≤ u32 s.timeB 8 →
        (s.time.holdover = true → s.time.good + 1 < u8 s.timeB 7 → Goes (exec (.ptpSync m x) s) fun t =>
          t.time.holdover = true ∧ t.time.good = s.time.good + 1 ∧ t.time.r = s.time.r ∧ t.time.f = s.time.f) ∧
        ((s.time.holdover = false ∨ u8 s.timeB 7 ≤ s.time.good + 1) → Goes (exec (.ptpSync m x) s) fun t =>
          t.time.holdover = false ∧ t.time.samples = satInc 65535 s.time.samples ∧
          t.time.f = clampPpm (s.time.f + (u16 s.timeB 0x0E / 256 : Rat) * x.offset / syncSeconds x.logInterval) ∧
          t.time.r = clampPpm (t.time.f + (u16 s.timeB 0x0C / 256 : Rat) * x.offset / syncSeconds x.logInterval) ∧ t.time.now = s.time.now)))) ∧
  (∀ s : State, s.powered = true → s.pwr.mainOn = true →
    (s.time.sample = none → exec .syncLoss s = .next s) ∧
    (∀ o b iv, s.time.sample = some (o, b, iv) →
      ((s.time.holdover = true ∨ s.time.slave = 3 ∨ s.beat < b + u8 s.timeB 6 * iv) → exec .syncLoss s = .next s) ∧
      (s.ptpOn = true → s.time.slave ≠ 3 → s.time.holdover = false → b + u8 s.timeB 6 * iv ≤ s.beat → Goes (exec .syncLoss s) fun t =>
        t.time.holdover = true ∧ t.time.holdLoss = true ∧ t.time.r = s.time.f ∧ t.time.good = 0))) ∧
  (∀ (s : State) (n : Nat), s.powered = true → n < 2 ^ 96 → Goes (exec (.deviceTimeMismatch n) s) fun t =>
    (∃ info, Reacts s 103 .uc info t) ∧ t.timeRaw = n ∧ t.time.set = false)

/-- PTP and link events of the Ethernet ports. An announce takes the better master of its port, delays are asked and answered, a
link change takes the port's master with it, and lane, PCS and FCS errors raise their source or counter with their code.
(15_network_time: R466, R467, R468, R470, R477) -/
def Obligations.EthernetPorts : Prop :=
  (∀ (s : State) (m : Fin 2) (a : Announce), s.powered = true → s.pwr.mainOn = true →
    ((s.ptpPort m.val = false ∨ (s.eth m.val).link = false) → exec (.ptpAnnounce m a) s = .next s) ∧
    (s.ptpPort m.val = true → (s.eth m.val).link = true →
      ((s.eth m.val).best = none → Goes (exec (.ptpAnnounce m a) s) fun t => (t.eth m.val).best = some (a.rank, a.identity)) ∧
      (∀ b, (s.eth m.val).best = some b → (b.2 = a.identity ∨ lexBefore (masterKey (a.rank, a.identity)) (masterKey b) = true) →
        Goes (exec (.ptpAnnounce m a) s) fun t => (t.eth m.val).best = some (a.rank, a.identity)) ∧
      (∀ b, (s.eth m.val).best = some b → b.2 ≠ a.identity → lexBefore (masterKey (a.rank, a.identity)) (masterKey b) = false →
        Goes (exec (.ptpAnnounce m a) s) fun t => (t.eth m.val).best = some b))) ∧
  (∀ (s : State) (m : Fin 2), s.powered = true → s.pwr.mainOn = true → s.ptpPort m.val = true → (s.eth m.val).link = true →
    (Goes (exec (.pdelayReq m) s) fun t => t.eth m.val = { s.eth m.val with answered := (s.eth m.val).answered + 1 }) ∧
    ((s.ptpPeer = true ∨ (s.eth m.val).best.isSome = true) → Goes (exec (.delayReqSend m) s) fun t =>
      t.eth m.val = { s.eth m.val with sent := (s.eth m.val).sent + 1, asked := some s.time.now }) ∧
    (s.ptpPeer = false → (s.eth m.val).best = none → exec (.delayReqSend m) s = .next s)) ∧
  (∀ (s : State) (m : Fin 2) (d : Nat) (c : Bool), s.powered = true → s.pwr.mainOn = true →
    ((s.eth m.val).asked = none → exec (.delayResponse m d c) s = .next s) ∧
    (s.ptpPort m.val = true → (s.eth m.val).asked.isSome = true → Goes (exec (.delayResponse m d c) s) fun t =>
      t.eth m.val = { s.eth m.val with pathDelay := d, asked := none, asCapable := s.ptpGptp && c })) ∧
  (∀ (s : State) (m : Fin 2) (up : Bool), s.powered = true → s.pwr.mainOn = true →
    ((s.eth m.val).link = up → exec (.ethLinkChange m up) s = .next s) ∧
    ((s.eth m.val).link ≠ up → Goes (exec (.ethLinkChange m up) s) fun t => (t.eth m.val).link = up ∧
      (up = false → (t.eth m.val).best = none ∧ (t.eth m.val).err.getLsbD 0 = true))) ∧
  (∀ (s : State) (m : Fin 2), s.powered = true → s.pwr.mainOn = true →
    (Goes (exec (.timestampLaneMismatch m) s) fun t => (∃ info, Reacts s 102 .uc info t ∧ info / 256 = m.val) ∧ (t.eth m.val).swTs = true ∧ (t.eth m.val).err.getLsbD 1 = true) ∧
    (Goes (exec (.ethPcsFault m) s) fun t => Reacts s (100 + m.val) .uc (m.val * 256 + 3) t ∧ (t.eth m.val).err.getLsbD 3 = true) ∧
    (∀ fcs, Goes (exec (.ethFrameDiscarded m fcs) s) fun t => (t.eth m.val).discarded = satInc 65535 (s.eth m.val).discarded ∧
      (t.eth m.val).fcsErrs = if fcs then satInc 65535 (s.eth m.val).fcsErrs else (s.eth m.val).fcsErrs))

/-- The Larkspur link. Training brings a link in state 1 to HELLO with all lanes; sixteen good HELLOs in a row within the round trip
align the two chips, a mismatch restarts the count and raises source 107 once; a beat message with a skew beyond 100 in two
successive beats raises source 106 and drops the link; summaries compare the hashes; CRC errors beyond 16 in half a million
beats raise source 105; a lost lane drops the link, with source 104 in state 3. (16_pair_operation: R485, R486, R487, R491,
R494) -/
def Obligations.PairLink : Prop :=
  (∀ s : State, s.powered = true → s.pwr.mainOn = true →
    ((s.pairImage = false ∨ s.lk.state ≠ 1) → exec .linkTrained s = .next s) ∧
    (s.pairImage = true → s.lk.state = 1 → Goes (exec .linkTrained s) fun t => t.lk.state = 2 ∧ t.lk.lanes = 0xF ∧ t.lk.helloRun = 0)) ∧
  (∀ (s : State) (m : HelloMsg), s.powered = true → s.pwr.mainOn = true →
    (s.lk.state ≠ 2 → exec (.helloMessage m) s = .next s) ∧
    (s.lk.state = 2 → m.crcOk = false → Goes (exec (.helloMessage m) s) fun t => t.lk.crcErrs = satInc 65535 s.lk.crcErrs ∧ t.lk.helloRun = s.lk.helloRun ∧ t.lk.state = 2) ∧
    (s.lk.state = 2 → m.crcOk = true → m.pairId = s.pairId → m.digest = s.structDigest → m.chip ≠ s.chip → m.chip ≤ 1 →
      ((s.lk.helloRun + 1 < 16 ∨ 1000 < m.roundTrip) → Goes (exec (.helloMessage m) s) fun t => t.lk.state = 2 ∧ t.lk.helloRun = s.lk.helloRun + 1) ∧
      (16 ≤ s.lk.helloRun + 1 → m.roundTrip ≤ 1000 → Goes (exec (.helloMessage m) s) fun t => t.lk.state = 3 ∧ t.lk.delta = (s.beat : Int) - m.beat ∧
        t.lk.phi0 = m.phase ∧ t.lk.latency = m.roundTrip / 2 ∧ t.lk.msgBeat = s.beat ∧ t.lk.aligns = satInc 65535 s.lk.aligns)) ∧
    (s.lk.state = 2 → m.crcOk = true → (m.pairId ≠ s.pairId ∨ m.digest ≠ s.structDigest ∨ m.chip = s.chip ∨ 1 < m.chip) →
      (s.lk.mismatched = false → Goes (exec (.helloMessage m) s) fun t => t.lk.helloRun = 0 ∧ Reacts s 107 .uc (0xF00 + s.helloCode m) t) ∧
      (s.lk.mismatched = true → Goes (exec (.helloMessage m) s) fun t => t.lk.helloRun = 0 ∧ t.fc = s.fc))) ∧
  (∀ (s : State) (m : BeatMsg), s.powered = true → s.pwr.mainOn = true →
    (s.lk.state ≠ 3 → exec (.beatMessage m) s = .next s) ∧
    (s.lk.state = 3 → m.crcOk = false → Goes (exec (.beatMessage m) s) fun t => t.lk.crcErrs = satInc 65535 s.lk.crcErrs ∧ t.lk.partner = s.lk.partner ∧ t.lk.msgBeat = s.lk.msgBeat) ∧
    (s.lk.state = 3 → m.crcOk = true →
      (((m.phase - s.lk.phi0).natAbs ≤ 100 ∨ s.lk.skewBad = 0) → Goes (exec (.beatMessage m) s) fun t => t.lk.state = 3 ∧ t.lk.msgBeat = s.beat ∧
        t.lk.skew = m.phase - s.lk.phi0 ∧ t.lk.partner.head? = some ⟨s.beat, m.stage.toNat, m.ownDoubt.toNat, m.verdict.toNat, m.beat⟩) ∧
      (100 < (m.phase - s.lk.phi0).natAbs → 1 ≤ s.lk.skewBad → Goes (exec (.beatMessage m) s) fun t => Reacts s 106 .uc 0xF01 t ∧ t.lk.state = 0 ∧ t.lk.partner = []))) ∧
  (∀ (s : State) (m : SummaryMsg), s.powered = true → s.pwr.mainOn = true →
    (s.lk.state ≠ 3 → exec (.frameSummaryMessage m) s = .next s) ∧
    (s.lk.state = 3 → m.crcOk = false → Goes (exec (.frameSummaryMessage m) s) fun t => t.lk.crcErrs = satInc 65535 s.lk.crcErrs ∧ t.lk.summaryIn = s.lk.summaryIn) ∧
    (s.lk.state = 3 → m.crcOk = true → Goes (exec (.frameSummaryMessage m) s) fun t => t.lk.partnerCMax = m.cMax ∧ t.lk.summaryIn = true ∧
      ∀ f c r h, s.lk.summary = some (f, c, r, h) → t.lk.hashRun = if h = m.hash then 0 else s.lk.hashRun + 1)) ∧
  (∀ s : State, s.powered = true → s.pwr.mainOn = true →
    ((s.lk.crcBeats.filter fun b => decide (s.beat < b + 500000)).length ≤ 16 → exec .linkCrcRate s = .next s) ∧
    (16 < (s.lk.crcBeats.filter fun b => decide (s.beat < b + 500000)).length → Goes (exec .linkCrcRate s) fun t => Reacts s 105 .uc 0xF01 t ∧ t.lk.state = 0)) ∧
  (∀ (s : State) (lane : Fin 4), s.powered = true → s.pwr.mainOn = true →
    ((s.lk.state = 0 ∨ s.lk.state = 1) → exec (.laneLost lane) s = .next s) ∧
    (s.lk.state = 2 → Goes (exec (.laneLost lane) s) fun t => t.lk.state = 0 ∧ t.fc = s.fc) ∧
    (s.lk.state = 3 → Goes (exec (.laneLost lane) s) fun t => Reacts s 104 .uc (lane.val * 256 + 1) t ∧ t.lk.state = 0))

/-- Partner loss and stages. A message that is overdue raises D7; an event of a stage in its window meets it, before the window it
violates it with code 1, and at the window's end a missing one violates it with code 4, each judged once. (16_pair_operation:
R489, R493) -/
def Obligations.PairStages : Prop :=
  (∀ s : State, s.powered = true →
    (s.pairImage = true → s.lk.msgBeat + s.lossBeats ≤ s.beat → Goes (exec .partnerMessageLoss s) fun t => t.watch.causes.getLsbD 7 = true) ∧
    ((s.pairImage = false ∨ s.beat < s.lk.msgBeat + s.lossBeats) → exec .partnerMessageLoss s = .next s)) ∧
  (∀ (s : State) (n : Fin 4), s.powered = true →
    ((s.stagesRun = false ∨ (s.stage n.val).judged = true ∨ s.stageHappened n.val = false) → exec (.stageEvent n) s = .next s) ∧
    (s.stagesRun = true → (s.stage n.val).judged = false → s.stageHappened n.val = true → s.sched.frameBeat < s.stageClose n.val →
      (s.stageOpen n.val ≤ s.sched.frameBeat → Goes (exec (.stageEvent n) s) fun t => t.stage n.val = { s.stage n.val with judged := true, met := true }) ∧
      (s.sched.frameBeat < s.stageOpen n.val → Goes (exec (.stageEvent n) s) fun t => t.stage n.val = { s.stage n.val with judged := true, viol := true } ∧
        t.lk.lastStage = n.val ∧ t.lk.lastCode = 1)) ∧
    ((s.stagesRun = false ∨ (s.stage n.val).judged = true ∨ s.sched.frameBeat + 1 < s.stageClose n.val) → exec (.stageMissing n) s = .next s) ∧
    (s.stagesRun = true → (s.stage n.val).judged = false → s.stageClose n.val ≤ s.sched.frameBeat + 1 → Goes (exec (.stageMissing n) s) fun t =>
      t.stage n.val = { s.stage n.val with judged := true, viol := true } ∧ t.lk.lastStage = n.val ∧ t.lk.lastCode = 4))

/-- Frames of the watch, mailbox and loader commands. For each of its commands, every piece of the state that is not listed (Piece)
is the same after the command as before it: every register, flag, memory and unit outside the list. A piece of the list may
change. The commands are those of the watch, the frame tick, runs, telegrams and coverage, of the mailbox, and of the loader.
(01_watch: R15, R21, R22, R23, R33, R34, R35, R36, R558; 02_scene_grid: R61, R64, R65, R68, R73; 05_redundant_execution: R182,
R187; 06_time_plan_budget: R193, R195, R209; 07_camera_claim_streams: R253; 08_safe_io: R277, R287; 10_event_journal: R345;
11_reneb_image: R381, R384, R387, R388, R390, R391, R392; 12_startup_selftest: R411; 13_lifecycle_security: R424, R425;
15_network_time: R474, R476) -/
def Obligations.WatchAndLoaderFrames : Prop :=
  (∀ (i : BeatIn) (s : State), Goes (exec (.beat i) s) (Frame [.beat, .selftestFail, .fc, .wd, .evr, .watch, .si, .tp, .lrst, .enc, .so, .cmd, .ldr,
    .pwr, .therm, .time, .tel, .sched, .cores, .engs, .noc, .gddr, .gddrMem, .poison, .ctrl, .alt, .golden, .cmp, .grid, .flr, .ev, .io, .jnl, .st,
    .lc, .secu, .lk, .freeCtr, .wstate, .collected, .irq, .log] s)) ∧
  (∀ s : State, Goes (exec .ss1MaxTime s) (Frame [.fc, .evr, .so, .freeCtr, .collected, .irq, .log] s)) ∧
  (∀ s : State, Goes (exec .encCrosscheckFault s) (Frame [.fc, .evr, .enc, .so, .freeCtr, .collected, .irq, .log] s)) ∧
  (∀ s : State, Goes (exec .cellRulePersist s) (Frame [.ev] s)) ∧
  (∀ s : State, Goes (exec .bandDown s) (Frame [.ev] s)) ∧
  (∀ s : State, Goes (exec .floorOccupancyConfirmed s) (Frame [.ev, .collected] s)) ∧
  (∀ (estimatedUj : Nat) (s : State), Goes (exec (.frameTick estimatedUj) s) (Frame [.fc, .evr, .watch, .enc, .so, .pwr, .tel, .sched, .engs, .alt,
    .golden, .grid, .flr, .ev, .io, .st, .lk, .freeCtr, .collected, .irq, .log] s)) ∧
  (∀ s : State, Goes (exec .sweepComplete s) (Frame [.grid] s)) ∧
  (∀ s : State, Goes (exec .masksReady s) (Frame [.ev] s)) ∧
  (∀ s : State, Goes (exec .armFramesReached s) (Frame [.collected] s)) ∧
  (∀ s : State, Goes (exec .retrust s) (Frame [.collected] s)) ∧
  (∀ s : State, Goes (exec .armTimeout s) (Frame [.collected] s)) ∧
  (∀ s : State, Goes (exec .retrustBlock s) (Frame [.watch] s)) ∧
  (∀ (graph : Fin 64) (s : State), Goes (exec (.microopsCancelled graph) s) (Frame [.sched, .cores, .engs] s)) ∧
  (∀ (graph : Fin 64) (copy : Fin 2) (index : Fin 8) (s : State), Goes (exec (.constantCopyDone graph copy index) s) (Frame [.cores, .engs, .alt] s))
    ∧
  (∀ (k : TestKind) (s : State), Goes (exec (.coverageExpiry k) s) (Frame [.fc, .evr, .so, .st, .freeCtr, .collected, .irq, .log] s)) ∧
  (∀ (late : Bool) (s : State), Goes (exec (.telegramSend late) s) (Frame [.tel] s)) ∧
  (∀ s : State, Goes (exec .telegramGapEnd s) (Frame [.tel] s)) ∧
  (∀ (n : Fin 4) (s : State), Goes (exec (.fsyncAssert n) s) (Frame [.sched] s)) ∧
  (∀ (n : Fin 4) (s : State), Goes (exec (.fsyncRelease n) s) (Frame [.sched] s)) ∧
  (∀ (core : Fin 32) (s : State), Goes (exec (.goldenFail core) s) (Frame [.fc, .evr, .watch, .so, .sched, .cores, .engs, .alt, .golden, .freeCtr,
    .collected, .irq, .log] s)) ∧
  (∀ (c : CmdGo) (s : State), Goes (exec (.arm c) s) (Frame [.cmd, .collected] s)) ∧
  (∀ (c : CmdGo) (s : State), Goes (exec (.stop c) s) (Frame [.cmd, .collected] s)) ∧
  (∀ (c : CmdGo) (s : State), Goes (exec (.resume c) s) (Frame [.cmd, .collected] s)) ∧
  (∀ (c : CmdGo) (s : State), Goes (exec (.profileSelect c) s) (Frame [.cmd, .ldr] s)) ∧
  (∀ (c : CmdGo) (s : State), Goes (exec (.profileSet c) s) (Frame [.cmd, .ldr] s)) ∧
  (∀ (c : CmdGo) (s : State), Goes (exec (.intent c) s) (Frame [.watch, .cmd] s)) ∧
  (∀ (c : CmdGo) (s : State), Goes (exec (.serviceEnter c) s) (Frame [.cmd, .ldr] s)) ∧
  (∀ (c : CmdGo) (s : State), Goes (exec (.serviceExit c) s) (Frame [.wd, .evr, .enc, .cmd, .ldr, .sched, .cores, .engs, .golden, .grid, .flr, .ev,
    .st, .log] s)) ∧
  (∀ (c : CmdGo) (s : State), Goes (exec (.clearFirstArea c) s) (Frame [.evr, .cmd, .jnl, .log] s)) ∧
  (∀ (c : CmdGo) (s : State), Goes (exec (.lcTransition c) s) (Frame [.evr, .cmd, .secu, .log] s)) ∧
  (∀ (fatal : Option (Fin 112 × Word)) (s : State), Goes (exec (.lcApply fatal) s) (Frame [.beat, .powered, .xtalOk, .selftestFail, .fc, .wd, .evr,
    .watch, .si, .tp, .lrst, .enc, .so, .i3c, .cmd, .ldr, .pwr, .therm, .time, .tel, .sched, .cores, .engs, .noc, .gddr, .gddrMem, .poison, .ctrl,
    .alt, .golden, .cmp, .grid, .flr, .floorPair, .ev, .io, .jnl, .st, .lc, .secu, .lk, .freeCtr, .wstate, .collected, .irq, .log] s)) ∧
  (∀ s : State, Goes (exec .ldrOpen s) (Frame [.evr, .ldr, .io, .log] s)) ∧
  (∀ (bs : List Byte) (s : State), Goes (exec (.ldrWdataWrite bs) s) (Frame [.evr, .ldr, .secu, .log] s)) ∧
  (∀ s : State, Goes (exec .ldrClose s) (Frame [.evr, .ldr, .log] s)) ∧
  (∀ (readBackOk : Bool) (s : State), Goes (exec (.stagedImageVerified readBackOk) s) (Frame [.evr, .ldr, .irq, .log] s)) ∧
  (∀ s : State, Goes (exec .ldrAbort s) (Frame [.evr, .ldr, .log] s)) ∧
  (∀ (slotB : Bool) (s : State), Goes (exec (.ldrActivate slotB) s) (Frame [.evr, .ldr, .log] s)) ∧
  (∀ s : State, Goes (exec .ldrCommit s) (Frame [.evr, .ldr, .log] s)) ∧
  (∀ (port : Fin 16) (vc : Nat) (bs : List Byte) (s : State), Goes (exec (.bulkChunk port vc bs) s) (Frame [.evr, .ldr, .io, .log] s)) ∧
  (∀ (l : LoadIn) (s : State), Goes (exec (.imageLoad l) s) (Frame [.wd, .evr, .enc, .ldr, .pwr, .time, .tel, .sched, .cores, .engs, .gddrMem,
    .poison, .ctrl, .alt, .io, .jnl, .st, .lk, .irq, .log] s))

/-- Frames of register and bus commands. For each of its commands, every piece of the state that is not listed (Piece) is the same
after the command as before it: every register, flag, memory and unit outside the list. A piece of the list may change. The
commands are register reads with an effect, control writes and the bus's own. (01_watch: R15, R42; 02_scene_grid: R85;
07_camera_claim_streams: R255, R256; 09_faults_watchdogs: R309, R318, R322; 10_event_journal: R347, R350, R354, R369;
13_lifecycle_security: R427, R428, R433, R434, R436; 14_power_thermal: R452, R453, R456; 15_network_time: R472, R481;
17_i3c_register_index: R499, R500, R501, R503, R507, R508, R512, R521) -/
def Obligations.BusFrames : Prop :=
  (∀ (trngOk : Bool) (readBackOk : Bool) (s : State), Goes (exec (.idGenerate trngOk readBackOk) s) (Frame [.evr, .lc, .secu, .log] s)) ∧
  (∀ s : State, Goes (exec .certProgram s) (Frame [.evr, .lc, .secu, .log] s)) ∧
  (∀ s : State, Goes (exec .certRead s) (Frame [.evr, .secu, .log] s)) ∧
  (∀ s : State, Goes (exec .keyOp s) (Frame [.evr, .lc, .secu, .log] s)) ∧
  (∀ (store : Bool) (s : State), Goes (exec (.attest store) s) (Frame [.evr, .secu, .log] s)) ∧
  (∀ s : State, Goes (exec .attestReportSigned s) (Frame [.evr, .jnl, .secu, .irq, .log] s)) ∧
  (∀ s : State, Goes (exec .bufClear s) (Frame [.evr, .secu, .log] s)) ∧
  (∀ (bs : List Byte) (s : State), Goes (exec (.secBufDataWrite bs) s) (Frame [.evr, .ldr, .secu, .log] s)) ∧
  (∀ s : State, Goes (exec .secBufDataRead s) (Frame [.evr, .i3c, .secu, .freeCtr, .log] s)) ∧
  (∀ s : State, Goes (exec .watchVerdictRead s) (Frame [.watch, .i3c] s)) ∧
  (∀ s : State, Goes (exec .glbBeatLoRead s) (Frame [.i3c] s)) ∧
  (∀ s : State, Goes (exec .timeNowLoRead s) (Frame [.i3c, .time] s)) ∧
  (∀ s : State, Goes (exec .gridCellData3Read s) (Frame [.evr, .i3c, .grid, .freeCtr, .log] s)) ∧
  (∀ s : State, Goes (exec .recWin0Read s) (Frame [.evr, .i3c] s)) ∧
  (∀ s : State, Goes (exec .recWin7Read s) (Frame [.evr, .i3c] s)) ∧
  (∀ (addr : BitVec 24) (s : State), Goes (exec (.rcFieldRead addr) s) (Frame [.fc, .wd, .evr, .watch, .si, .lrst, .enc, .so, .i3c, .cmd, .ldr, .pwr,
    .time, .tel, .sched, .cores, .engs, .noc, .gddr, .ctrl, .golden, .cmp, .grid, .flr, .floorPair, .ev, .io, .jnl, .st, .lc, .secu, .lk, .freeCtr,
    .collected, .irq, .log] s)) ∧
  (∀ s : State, Goes (exec .fcFfClear s) (Frame [.fc, .evr, .log] s)) ∧
  (∀ (task : Fin 16) (own : Nat) (s : State), Goes (exec (.wdTaskKick task own) s) (Frame [.fc, .wd, .evr, .so, .pwr, .freeCtr, .collected, .irq,
    .log] s)) ∧
  (∀ (own : Nat) (s : State), Goes (exec (.wdSvcKick own) s) (Frame [.fc, .wd, .evr, .so, .freeCtr, .collected, .irq, .log] s)) ∧
  (∀ s : State, Goes (exec .standbyReq s) (Frame [.evr, .ldr, .pwr, .sched, .log] s)) ∧
  (∀ (t : StartTests) (s : State), Goes (exec (.wake t) s) (Frame [.beat, .selftestFail, .fc, .wd, .evr, .watch, .enc, .so, .i3c, .ldr, .pwr, .time,
    .sched, .cores, .engs, .gddr, .ctrl, .alt, .golden, .grid, .flr, .ev, .io, .jnl, .st, .lc, .secu, .freeCtr, .wstate, .collected, .irq, .log] s)) ∧
  (∀ (k : Fin 2) (s : State), Goes (exec (.accOn k) s) (Frame [.evr, .pwr, .log] s)) ∧
  (∀ (k : Fin 2) (s : State), Goes (exec (.accOff k) s) (Frame [.evr, .pwr, .log] s)) ∧
  (∀ (k : Fin 2) (s : State), Goes (exec (.accCycle k) s) (Frame [.evr, .pwr, .log] s)) ∧
  (∀ s : State, Goes (exec .timeStep s) (Frame [.evr, .time, .log] s)) ∧
  (∀ s : State, Goes (exec .jnlRdPage s) (Frame [.fc, .evr, .so, .jnl, .freeCtr, .collected, .irq, .log] s)) ∧
  (∀ s : State, Goes (exec .jnlFlushCmd s) (Frame [.evr, .log] s)) ∧
  (∀ s : State, Goes (exec .jnlFormat s) (Frame [.evr, .ldr, .jnl, .log] s)) ∧
  (∀ (unit : Fin 16) (bs : List Byte) (runtime : Bool) (lanesAgree : Bool) (s : State), Goes (exec (.cvuFeed unit bs runtime lanesAgree) s) (Frame
    [.fc, .evr, .so, .io, .freeCtr, .collected, .irq, .log] s)) ∧
  (∀ (unit : Fin 16) (value : BitVec 16) (runtime : Bool) (s : State), Goes (exec (.cvuAliveCheck unit value runtime) s) (Frame [.evr, .io, .log] s))
    ∧
  (∀ (mask : BitVec 7) (s : State), Goes (exec (.irqStatusClear mask) s) (Frame [.irq] s)) ∧
  (∀ (bs : List Byte) (parityError : Bool) (s : State), Goes (exec (.registerWrite bs parityError) s) (Frame [.fc, .wd, .evr, .watch, .lrst, .enc,
    .so, .i3c, .cmd, .ldr, .pwr, .time, .sched, .cores, .engs, .noc, .golden, .grid, .flr, .ev, .io, .jnl, .st, .lc, .secu, .freeCtr, .collected,
    .irq, .log] s)) ∧
  (∀ (enint : Bool) (s : State), Goes (exec (.enec enint) s) (Frame [.i3c, .irq] s)) ∧
  (∀ (enint : Bool) (s : State), Goes (exec (.disec enint) s) (Frame [.i3c, .irq] s)) ∧
  (∀ s : State, Goes (exec .rstdaa s) (Frame [.i3c, .irq] s)) ∧
  (∀ (addr : BitVec 7) (won : Bool) (s : State), Goes (exec (.entdaa addr won) s) (Frame [.i3c, .irq] s)) ∧
  (∀ (n : BitVec 16) (s : State), Goes (exec (.setmwl n) s) (Frame [.i3c, .irq] s)) ∧
  (∀ (n : BitVec 16) (ibi : Option Byte) (s : State), Goes (exec (.setmrl n ibi) s) (Frame [.i3c, .irq] s)) ∧
  (∀ (db : Byte) (s : State), Goes (exec (.rstact db) s) (Frame [.i3c] s)) ∧
  (∀ s : State, Goes (exec .enthdr0 s) (Frame [.i3c, .irq] s)) ∧
  (∀ (code : Byte) (words : List (BitVec 16)) (crcOk : Bool) (s : State), Goes (exec (.hdrDdrWrite code words crcOk) s) (Frame [.fc, .wd, .evr,
    .watch, .lrst, .enc, .so, .i3c, .cmd, .ldr, .pwr, .time, .sched, .cores, .engs, .noc, .golden, .grid, .flr, .ev, .io, .jnl, .st, .lc, .secu,
    .freeCtr, .collected, .irq, .log] s)) ∧
  (∀ (code : Byte) (n : Nat) (s : State), Goes (exec (.hdrDdrRead code n) s) (Frame [.fc, .wd, .evr, .watch, .si, .lrst, .i3c, .cmd, .pwr, .time,
    .tel, .sched, .cores, .engs, .noc, .gddr, .ctrl, .cmp, .grid, .floorPair, .io, .jnl, .st, .secu, .lk, .freeCtr, .log] s)) ∧
  (∀ (addr : BitVec 7) (s : State), Goes (exec (.setdasa addr) s) (Frame [.i3c, .irq] s)) ∧
  (∀ (addr : BitVec 7) (s : State), Goes (exec (.setnewda addr) s) (Frame [.i3c, .irq] s)) ∧
  (∀ s : State, Goes (exec .getmwl s) (Frame [.i3c] s)) ∧
  (∀ s : State, Goes (exec .getmrl s) (Frame [.i3c] s)) ∧
  (∀ s : State, Goes (exec .getpid s) (Frame [.i3c] s)) ∧
  (∀ s : State, Goes (exec .getbcr s) (Frame [.i3c] s)) ∧
  (∀ s : State, Goes (exec .getdcr s) (Frame [.i3c] s)) ∧
  (∀ s : State, Goes (exec .getstatus s) (Frame [.i3c] s)) ∧
  (∀ s : State, Goes (exec .getmxds s) (Frame [.i3c] s)) ∧
  (∀ s : State, Goes (exec .getcaps s) (Frame [.i3c] s)) ∧
  (∀ s : State, Goes (exec .targetResetPattern s) (Frame [.i3c] s)) ∧
  (∀ (acked : Bool) (s : State), Goes (exec (.ibiRequest acked) s) (Frame [.i3c, .irq] s)) ∧
  (∀ s : State, Goes (exec .hdrExit s) (Frame [.i3c] s))

/-- Frames of safe input, output, fault and watchdog commands. For each of its commands, every piece of the state that is not listed
(Piece) is the same after the command as before it: every register, flag, memory and unit outside the list. A piece of the list
may change. The commands are those of the safe inputs, outputs, encoders, watchdogs and faults. (01_watch: R15;
05_redundant_execution: R173, R175; 08_safe_io: R266, R267, R268, R270, R271, R272, R273, R274, R277, R282, R283, R284, R288;
09_faults_watchdogs: R302, R312, R314, R315, R319, R322, R323, R324, R326; 14_power_thermal: R454, R455) -/
def Obligations.SafetyFrames : Prop :=
  (∀ (i : Fin 8) (s : State), Goes (exec (.safeInputDemand i) s) (Frame [.fc, .evr, .si, .so, .freeCtr, .collected, .irq, .log] s)) ∧
  (∀ (i : Fin 8) (s : State), Goes (exec (.safeInputOn i) s) (Frame [.si] s)) ∧
  (∀ (i : Fin 8) (s : State), Goes (exec (.discrepancyFault i) s) (Frame [.fc, .evr, .si, .so, .freeCtr, .collected, .irq, .log] s)) ∧
  (∀ (i : Fin 8) (chanB : Bool) (s : State), Goes (exec (.stuckOnFault i chanB) s) (Frame [.fc, .evr, .si, .so, .freeCtr, .collected, .irq, .log] s))
    ∧
  (∀ (i : Fin 8) (chanB : Bool) (s : State), Goes (exec (.crossShortFault i chanB) s) (Frame [.fc, .evr, .si, .so, .freeCtr, .collected, .irq, .log]
    s)) ∧
  (∀ (i : Fin 8) (s : State), Goes (exec (.chatterFault i) s) (Frame [.fc, .evr, .si, .so, .freeCtr, .collected, .irq, .log] s)) ∧
  (∀ (k : Fin 4) (s : State), Goes (exec (.testPulseStart k) s) (Frame [.tp] s)) ∧
  (∀ (k : Fin 4) (s : State), Goes (exec (.testPulseEnd k) s) (Frame [.tp] s)) ∧
  (∀ (k : Fin 4) (s : State), Goes (exec (.testPulsePinFault k) s) (Frame [.fc, .evr, .si, .tp, .so, .freeCtr, .collected, .irq, .log] s)) ∧
  (∀ (e : Fin 2) (a b zRise : Bool) (s : State), Goes (exec (.encoderEdge e a b zRise) s) (Frame [.enc] s)) ∧
  (∀ (e : Fin 2) (s : State), Goes (exec (.encoderFault e) s) (Frame [.fc, .evr, .enc, .so, .freeCtr, .collected, .irq, .log] s)) ∧
  (∀ s : State, Goes (exec .speedValidAgain s) (Frame [.watch, .enc] s)) ∧
  (∀ (g : Fin 4) (chanB : Bool) (s : State), Goes (exec (.offPulseStart g chanB) s) (Frame [.so] s)) ∧
  (∀ (g : Fin 4) (s : State), Goes (exec (.offPulseEnd g) s) (Frame [.fc, .evr, .so, .freeCtr, .collected, .irq, .log] s)) ∧
  (∀ (g : Fin 4) (chanB : Bool) (s : State), Goes (exec (.readbackFailure g chanB) s) (Frame [.fc, .evr, .so, .freeCtr, .collected, .irq, .log] s)) ∧
  (∀ (t : StartTests) (s : State), Goes (exec (.lrstPressAccepted t) s) (Frame [.beat, .powered, .xtalOk, .selftestFail, .fc, .wd, .evr, .watch, .si,
    .tp, .lrst, .enc, .so, .i3c, .cmd, .ldr, .pwr, .therm, .time, .tel, .sched, .cores, .engs, .noc, .gddr, .gddrMem, .poison, .ctrl, .alt, .golden,
    .cmp, .grid, .flr, .floorPair, .ev, .io, .jnl, .st, .lc, .secu, .lk, .freeCtr, .wstate, .collected, .irq, .log] s)) ∧
  (∀ s : State, Goes (exec .lrstPressIgnored s) (Frame [.evr, .lrst, .log] s)) ∧
  (∀ s : State, Goes (exec .lrstDiscrepancy s) (Frame [.fc, .evr, .lrst, .so, .freeCtr, .collected, .irq, .log] s)) ∧
  (∀ (k : Fin 2) (level : Bool) (own : Nat) (s : State), Goes (exec (.heartbeatEdge k level own) s) (Frame [.wd, .evr, .pwr, .irq, .log] s)) ∧
  (∀ (k : Fin 2) (own : Bool) (s : State), Goes (exec (.heartbeatLost k own) s) (Frame [.wd, .evr, .pwr, .irq, .log] s)) ∧
  (∀ (k : Fin 2) (s : State), Goes (exec (.heartbeatPersist k) s) (Frame [.wd] s)) ∧
  (∀ (k : Fin 2) (s : State), Goes (exec (.pwrToRstExpiry k) s) (Frame [.pwr] s)) ∧
  (∀ (k : Fin 2) (s : State), Goes (exec (.rstToOffExpiry k) s) (Frame [.pwr] s)) ∧
  (∀ (k : Fin 2) (s : State), Goes (exec (.offBeatsExpiry k) s) (Frame [.evr, .pwr, .log] s)) ∧
  (∀ (task : Fin 16) (s : State), Goes (exec (.taskPeriodEnd task) s) (Frame [.fc, .wd, .evr, .so, .pwr, .freeCtr, .collected, .irq, .log] s)) ∧
  (∀ s : State, Goes (exec .svcPeriodEnd s) (Frame [.fc, .wd, .evr, .so, .freeCtr, .collected, .irq, .log] s)) ∧
  (∀ s : State, Goes (exec .serviceCoreRestart s) (Frame [.wd] s)) ∧
  (∀ s : State, Goes (exec .standbyWakeTimer s) (Frame [.wd, .evr, .pwr, .irq, .log] s)) ∧
  (∀ (rc : Bool) (s : State), Goes (exec (.clockMonitorTrip rc) s) (Frame [.fc, .wd, .evr, .so, .pwr, .freeCtr, .collected, .irq, .log] s)) ∧
  (∀ (dev : Int) (s : State), Goes (exec (.rcFreqCheck dev) s) (Frame [.fc, .wd, .evr, .so, .pwr, .freeCtr, .collected, .irq, .log] s)) ∧
  (∀ s : State, Goes (exec .crystalStop s) (Frame [.xtalOk, .fc, .evr, .so, .freeCtr, .collected, .irq, .log] s)) ∧
  (∀ (source : Fin 6) (inst : Fin 16) (s : State), Goes (exec (.watchdogCopyMismatch source inst) s) (Frame [.fc, .evr, .so, .freeCtr, .collected,
    .irq, .log] s)) ∧
  (∀ (kind : Fin 4) (reg : Fin 32) (cycle : Fin 1100) (s : State), Goes (exec (.lockstepMismatch kind reg cycle) s) (Frame [.fc, .evr, .so, .ctrl,
    .freeCtr, .collected, .irq, .log] s)) ∧
  (∀ (uncorrected : Bool) (info : Word) (s : State), Goes (exec (.tcmEccError uncorrected info) s) (Frame [.fc, .evr, .so, .ctrl, .freeCtr,
    .collected, .irq, .log] s)) ∧
  (∀ (info : Word) (s : State), Goes (exec (.runtimeIntegrityFault info) s) (Frame [.fc, .evr, .so, .freeCtr, .collected, .irq, .log] s)) ∧
  (∀ s : State, Goes (exec .quietPeriodEnd s) (Frame [.fc, .evr, .enc, .so, .collected, .irq, .log] s)) ∧
  (∀ s : State, Goes (exec .crystalReturn s) (Frame [.xtalOk] s))

/-- Frames of core, grid and memory commands. For each of its commands, every piece of the state that is not listed (Piece) is the
same after the command as before it: every register, flag, memory and unit outside the list. A piece of the list may change. The
commands are those of cores, micro-operations, the grids, GDDR6 and periodic tests. (02_scene_grid: R54, R55, R58, R69, R70,
R72; 03_engines_numerics: R95, R99, R103, R104, R120, R121; 04_operators: R150, R153; 05_redundant_execution: R163, R180;
06_time_plan_budget: R196, R199, R200, R204, R213; 11_reneb_image: R376; 12_startup_selftest: R404, R412, R413;
14_power_thermal: R447) -/
def Obligations.ComputeFrames : Prop :=
  (∀ (core : Fin 32) (engines : BitVec 4) (unit : Byte) (s : State), Goes (exec (.coreUnitFault core engines unit) s) (Frame [.fc, .evr, .watch, .so,
    .sched, .cores, .engs, .alt, .freeCtr, .collected, .irq, .log] s)) ∧
  (∀ (core : Fin 32) (s : State), Goes (exec (.coreOff core) s) (Frame [.cores, .engs] s)) ∧
  (∀ (core : Fin 32) (engine : Option (Fin 4)) (s : State), Goes (exec (.correctableSramError core engine) s) (Frame [.fc, .evr, .so, .cores, .engs,
    .freeCtr, .collected, .irq, .log] s)) ∧
  (∀ (core : Fin 32) (s : State), Goes (exec (.windowOpen core) s) (Frame [.evr, .pwr, .cores, .engs, .log] s)) ∧
  (∀ (core : Fin 32) (s : State), Goes (exec (.windowClose core) s) (Frame [.evr, .pwr, .cores, .engs, .log] s)) ∧
  (∀ (core : Fin 32) (s : State), Goes (exec (.coreWakeDone core) s) (Frame [.cores] s)) ∧
  (∀ s : State, Goes (exec .avsTargetChange s) (Frame [.pwr] s)) ∧
  (∀ (graph : Fin 64) (s : State), Goes (exec (.runReady graph) s) (Frame [.sched] s)) ∧
  (∀ (core : Fin 32) (s : State), Goes (exec (.descriptorDispatch core) s) (Frame [.evr, .sched, .cores, .golden, .collected, .log] s)) ∧
  (∀ (engine : Fin 128) (graph : Fin 64) (copy : Fin 2) (desc : Nat) (op : MicroOp) (s : State), Goes (exec (.microopIssue engine graph copy desc op)
    s) (Frame [.sched, .cores, .engs, .gddrMem, .poison] s)) ∧
  (∀ (engine : Fin 128) (graph : Fin 64) (copy : Fin 2) (desc : Nat) (s : State), Goes (exec (.microopRetire engine graph copy desc) s) (Frame [.evr,
    .sched, .cores, .engs, .golden, .collected, .log] s)) ∧
  (∀ (graph : Fin 64) (copy : Fin 2) (desc : Nat) (s : State), Goes (exec (.descriptorFail graph copy desc) s) (Frame [.sched, .cores, .collected] s))
    ∧
  (∀ (graph : Fin 64) (desc : Nat) (s : State), Goes (exec (.compareExecute graph desc) s) (Frame [.evr, .sched, .cores, .golden, .cmp, .collected,
    .log] s)) ∧
  (∀ (graph : Fin 64) (copy : Fin 2) (desc : Nat) (s : State), Goes (exec (.barrierPass graph copy desc) s) (Frame [.evr, .sched, .cores, .golden,
    .collected, .log] s)) ∧
  (∀ (w : CheckerWrite) (s : State), Goes (exec (.checkerWrite w) s) (Frame [.evr, .sched, .grid, .collected, .log] s)) ∧
  (∀ s : State, Goes (exec .writeBufferRoom s) (Frame [.evr, .sched, .grid, .collected, .log] s)) ∧
  (∀ s : State, Goes (exec .claimWrite s) (Frame [.evr, .grid, .log] s)) ∧
  (∀ (camera : Fin 64) (srcFrame : Nat) (graph : Fin 64) (ds : List (Int × Int × Nat × Nat)) (s : State), Goes (exec (.detectionListCommit camera
    srcFrame graph ds) s) (Frame [.evr, .sched, .grid, .collected, .log] s)) ∧
  (∀ s : State, Goes (exec .objectMatch s) (Frame [.grid] s)) ∧
  (∀ s : State, Goes (exec .objGraceExpiry s) (Frame [.ev] s)) ∧
  (∀ (plane1 : Bool) (cell : Fin 524288) (s : State), Goes (exec (.gridCellUe plane1 cell) s) (Frame [.fc, .evr, .so, .grid, .freeCtr, .collected,
    .irq, .log] s)) ∧
  (∀ s : State, Goes (exec .floorCycleStart s) (Frame [.sched, .flr] s)) ∧
  (∀ (engine1 : Bool) (cells : List FloorWrite) (s : State), Goes (exec (.floorCycleComplete engine1 cells) s) (Frame [.fc, .evr, .so, .flr,
    .floorPair, .freeCtr, .collected, .irq, .log] s)) ∧
  (∀ (engine1 : Bool) (unit : Fin 6) (s : State), Goes (exec (.floorEngineFault engine1 unit) s) (Frame [.fc, .evr, .so, .flr, .freeCtr, .collected,
    .irq, .log] s)) ∧
  (∀ (cell : Fin 8192) (s : State), Goes (exec (.floorCellUe cell) s) (Frame [.fc, .evr, .so, .grid, .flr, .freeCtr, .collected, .irq, .log] s)) ∧
  (∀ (chan : Fin 8) (ok : Bool) (s : State), Goes (exec (.gddrEdcRetry chan ok) s) (Frame [.fc, .evr, .so, .gddr, .freeCtr, .collected, .irq, .log]
    s)) ∧
  (∀ (chan : Fin 8) (unit : Nat) (consumer : Option (Fin 64 × Fin 2 × Nat)) (s : State), Goes (exec (.gddrUe chan unit consumer) s) (Frame [.fc, .evr,
    .so, .sched, .cores, .gddr, .poison, .freeCtr, .collected, .irq, .log] s)) ∧
  (∀ (k : TestKind) (s : State), Goes (exec (.testSliceStart k) s) (Frame [.st] s)) ∧
  (∀ (k : TestKind) (lengthOk : Bool) (signatureOk : Bool) (s : State), Goes (exec (.testSliceEnd k lengthOk signatureOk) s) (Frame [.fc, .evr,
    .watch, .so, .sched, .cores, .engs, .gddr, .alt, .st, .freeCtr, .collected, .irq, .log] s)) ∧
  (∀ (k : TestKind) (s : State), Goes (exec (.testSliceAbort k) s) (Frame [.fc, .evr, .so, .st, .freeCtr, .collected, .irq, .log] s))

/-- Frames of stream, journal, power, time and pair commands. For each of its commands, every piece of the state that is not listed
(Piece) is the same after the command as before it: every register, flag, memory and unit outside the list. A piece of the list
may change. The commands are those of streams, events, the journal, power, start-up, device time, the Ethernet ports, the pair
and the debugger. (01_watch: R15; 07_camera_claim_streams: R230, R231, R232, R235, R239, R242, R244, R246, R249, R251, R260;
09_faults_watchdogs: R311, R327; 10_event_journal: R344, R349, R350, R351, R355, R357, R358; 12_startup_selftest: R400;
13_lifecycle_security: R436, R440; 14_power_thermal: R444, R448, R449, R450, R451, R452; 15_network_time: R465, R466, R467,
R468, R470, R471, R477; 16_pair_operation: R485, R486, R487, R489, R491, R493, R494) -/
def Obligations.SystemFrames : Prop :=
  (∀ (port : Fin 16) (vc number : Nat) (hdr : HeaderState) (s : State), Goes (exec (.csiFrameStart port vc number hdr) s) (Frame [.evr, .io,
    .collected, .log] s)) ∧
  (∀ (port : Fin 16) (p : LongPkt) (s : State), Goes (exec (.csiLongPacket port p) s) (Frame [.evr, .io, .collected, .log] s)) ∧
  (∀ (port : Fin 16) (vc number : Nat) (hdr : HeaderState) (s : State), Goes (exec (.csiFrameEnd port vc number hdr) s) (Frame [.evr, .io, .collected,
    .log] s)) ∧
  (∀ (port : Fin 16) (s : State), Goes (exec (.forwardFailure port) s) (Frame [.fc, .evr, .so, .io, .freeCtr, .collected, .irq, .log] s)) ∧
  (∀ (port : Fin 16) (s : State), Goes (exec (.crocusStagingDone port) s) (Frame [.fc, .evr, .so, .io, .freeCtr, .collected, .irq, .log] s)) ∧
  (∀ (port : Fin 16) (s : State), Goes (exec (.crocusInjectionStart port) s) (Frame [.evr, .io, .collected, .log] s)) ∧
  (∀ (port : Fin 16) (s : State), Goes (exec (.crocusInjectionEnd port) s) (Frame [.io] s)) ∧
  (∀ (port : Fin 16) (s : State), Goes (exec (.crocusDeadline port) s) (Frame [.evr, .io, .collected, .log] s)) ∧
  (∀ (port : Fin 16) (p : LongPkt) (s : State), Goes (exec (.claimRecord port p) s) (Frame [.evr, .grid, .io, .collected, .log] s)) ∧
  (∀ (stream : Fin 4) (s : State), Goes (exec (.claimAgeExpiry stream) s) (Frame [.wd, .evr, .pwr, .io, .collected, .irq, .log] s)) ∧
  (∀ (sent : Bool) (s : State), Goes (exec (.verdictBatchSend sent) s) (Frame [.io] s)) ∧
  (∀ (port : Fin 16) (vc dt number : Nat) (hdr : HeaderState) (s : State), Goes (exec (.csiShortPacket port vc dt number hdr) s) (Frame [.io] s)) ∧
  (∀ (port : Fin 16) (locked : Bool) (s : State), Goes (exec (.csiRxLockChange port locked) s) (Frame [.io] s)) ∧
  (∀ (engine : Option (Fin 128)) (code : BitVec 16) (data : BitVec 64) (s : State), Goes (exec (.eventRecord engine code data) s) (Frame [.evr, .log]
    s)) ∧
  (∀ s : State, Goes (exec .journalFlush s) (Frame [.evr, .jnl, .log] s)) ∧
  (∀ (block : Nat) (erase : Bool) (s : State), Goes (exec (.nandProgramFail block erase) s) (Frame [.fc, .evr, .so, .jnl, .freeCtr, .collected, .irq,
    .log] s)) ∧
  (∀ (block : Nat) (s : State), Goes (exec (.nandOpTimeout block) s) (Frame [.fc, .evr, .so, .freeCtr, .collected, .irq, .log] s)) ∧
  (∀ (block : Nat) (s : State), Goes (exec (.readDisturbRefresh block) s) (Frame [.evr, .jnl, .freeCtr, .log] s)) ∧
  (∀ (found : List (Nat × Option Nat)) (s : State), Goes (exec (.retentionScrub found) s) (Frame [.fc, .evr, .so, .jnl, .freeCtr, .collected, .irq,
    .log] s)) ∧
  (∀ s : State, Goes (exec .haltSnapshot s) (Frame [.evr, .jnl, .log] s)) ∧
  (∀ (conv : List (Int × Int)) (s : State), Goes (exec (.temperatureReading conv) s) (Frame [.fc, .evr, .so, .therm, .freeCtr, .collected, .irq, .log]
    s)) ∧
  (∀ s : State, Goes (exec .sensorInvalidLimit s) (Frame [.fc, .evr, .watch, .so, .sched, .cores, .engs, .alt, .freeCtr, .collected, .irq, .log] s)) ∧
  (∀ (sensor : Fin 48) (s : State), Goes (exec (.comparatorTrip125 sensor) s) (Frame [.fc, .evr, .so, .therm, .freeCtr, .collected, .irq, .log] s)) ∧
  (∀ (rail : Fin 9) (mv : Nat) (s : State), Goes (exec (.railWarn rail mv) s) (Frame [.evr, .pwr, .log] s)) ∧
  (∀ (rail : Fin 9) (mv : Nat) (s : State), Goes (exec (.railTrip rail mv) s) (Frame [.fc, .evr, .so, .pwr, .freeCtr, .collected, .irq, .log] s)) ∧
  (∀ (regs : List (Option (Nat × Nat))) (retries : Nat) (status : Bool) (s : State), Goes (exec (.avsbusRead regs retries status) s) (Frame [.fc,
    .evr, .so, .pwr, .freeCtr, .collected, .irq, .log] s)) ∧
  (∀ (t : StartTests) (s : State), Goes (exec (.powerOn t) s) (Frame [.beat, .powered, .xtalOk, .selftestFail, .fc, .wd, .evr, .watch, .si, .tp,
    .lrst, .enc, .so, .i3c, .cmd, .ldr, .pwr, .therm, .time, .tel, .sched, .cores, .engs, .noc, .gddr, .gddrMem, .poison, .ctrl, .alt, .golden, .cmp,
    .grid, .flr, .floorPair, .ev, .io, .jnl, .st, .lc, .secu, .lk, .freeCtr, .wstate, .collected, .irq, .log] s)) ∧
  (∀ s : State, Goes (exec .aonSupplyCollapse s) (Frame [.beat, .powered, .xtalOk, .selftestFail, .fc, .wd, .evr, .watch, .si, .tp, .lrst, .enc, .so,
    .i3c, .cmd, .ldr, .pwr, .therm, .time, .tel, .sched, .cores, .engs, .noc, .gddr, .gddrMem, .poison, .ctrl, .alt, .golden, .cmp, .grid, .flr,
    .floorPair, .ev, .io, .jnl, .st, .lc, .secu, .lk, .freeCtr, .wstate, .collected, .irq, .log] s)) ∧
  (∀ s : State, Goes (exec .standbyPowerDown s) (Frame [.wd, .evr, .pwr, .therm, .time, .tel, .sched, .cores, .engs, .noc, .gddr, .gddrMem, .poison,
    .golden, .cmp, .grid, .ev, .io, .jnl, .secu, .lk, .irq, .log] s)) ∧
  (∀ (port : Fin 2) (x : SyncSample) (s : State), Goes (exec (.ptpSync port x) s) (Frame [.evr, .time, .log] s)) ∧
  (∀ (port : Fin 2) (a : Announce) (s : State), Goes (exec (.ptpAnnounce port a) s) (Frame [.evr, .time, .log] s)) ∧
  (∀ (port : Fin 2) (s : State), Goes (exec (.pdelayReq port) s) (Frame [.time] s)) ∧
  (∀ (port : Fin 2) (s : State), Goes (exec (.delayReqSend port) s) (Frame [.time] s)) ∧
  (∀ (port : Fin 2) (pathDelay : Nat) (asCapable : Bool) (s : State), Goes (exec (.delayResponse port pathDelay asCapable) s) (Frame [.time] s)) ∧
  (∀ s : State, Goes (exec .syncLoss s) (Frame [.evr, .time, .log] s)) ∧
  (∀ (port : Fin 2) (up : Bool) (s : State), Goes (exec (.ethLinkChange port up) s) (Frame [.evr, .time, .log] s)) ∧
  (∀ (port : Fin 2) (s : State), Goes (exec (.timestampLaneMismatch port) s) (Frame [.fc, .evr, .so, .time, .freeCtr, .collected, .irq, .log] s)) ∧
  (∀ (intact : Nat) (s : State), Goes (exec (.deviceTimeMismatch intact) s) (Frame [.fc, .evr, .so, .time, .freeCtr, .collected, .irq, .log] s)) ∧
  (∀ (port : Fin 2) (fcs : Bool) (s : State), Goes (exec (.ethFrameDiscarded port fcs) s) (Frame [.time] s)) ∧
  (∀ (port : Fin 2) (s : State), Goes (exec (.ethPcsFault port) s) (Frame [.fc, .evr, .so, .time, .freeCtr, .collected, .irq, .log] s)) ∧
  (∀ s : State, Goes (exec .linkTrained s) (Frame [.evr, .lk, .log] s)) ∧
  (∀ (m : HelloMsg) (s : State), Goes (exec (.helloMessage m) s) (Frame [.fc, .evr, .so, .lk, .freeCtr, .collected, .irq, .log] s)) ∧
  (∀ (m : BeatMsg) (s : State), Goes (exec (.beatMessage m) s) (Frame [.fc, .evr, .so, .lk, .freeCtr, .collected, .irq, .log] s)) ∧
  (∀ (m : SummaryMsg) (s : State), Goes (exec (.frameSummaryMessage m) s) (Frame [.lk] s)) ∧
  (∀ s : State, Goes (exec .linkCrcRate s) (Frame [.fc, .evr, .so, .lk, .freeCtr, .collected, .irq, .log] s)) ∧
  (∀ (lane : Fin 4) (s : State), Goes (exec (.laneLost lane) s) (Frame [.fc, .evr, .so, .lk, .freeCtr, .collected, .irq, .log] s)) ∧
  (∀ s : State, Goes (exec .partnerMessageLoss s) (Frame [.collected] s)) ∧
  (∀ (n : Fin 4) (s : State), Goes (exec (.stageEvent n) s) (Frame [.evr, .lk, .log] s)) ∧
  (∀ (n : Fin 4) (s : State), Goes (exec (.stageMissing n) s) (Frame [.evr, .lk, .log] s)) ∧
  (∀ s : State, Goes (exec .secOperationComplete s) (Frame [.evr, .cmd, .lc, .secu, .irq, .log] s)) ∧
  (∀ s : State, Goes (exec .debuggerAttach s) (Frame [.lc] s)) ∧
  (∀ (svc : Bool) (s : State), Goes (exec (.debuggerHalt svc) s) (Frame [.wd, .ctrl] s)) ∧
  (∀ (svc : Bool) (s : State), Goes (exec (.debuggerRelease svc) s) (Frame [.wd, .ctrl] s))
end

