-- ==== Sys2Proof/Laws/Memory.lean ====
section
/-!
SUPPORT. The laws of sparse memories (a read after a write, and that every write keeps the canonical form) and of arrays.
-/
namespace Sys2Proof.Machine

set_option Elab.async false

/-! ### Sparse memories -/

theorem Sparse.above_trans {β : Type} {j k : Nat} (h : j < k) : ∀ {m : Sparse β}, Sparse.above k m = true → Sparse.above j m = true
  | [], _ => rfl
  | (a, _) :: m, h' => by
    simp only [Sparse.above, Bool.and_eq_true, decide_eq_true_eq] at h' ⊢
    exact ⟨by omega, Sparse.above_trans h h'.2⟩

theorem Sparse.above_put {β : Type} [DecidableEq β] (d : β) {k a : Nat} (v : β) (hk : k < a) :
    ∀ {m : Sparse β}, Sparse.above k m = true → Sparse.above k (Sparse.put d m a v) = true
  | [], _ => by
    simp only [Sparse.put]
    split <;> simp [Sparse.above, hk]
  | (b, w) :: m, h => by
    have h' := h
    simp only [Sparse.above, Bool.and_eq_true, decide_eq_true_eq] at h
    simp only [Sparse.put]
    split
    · split
      · exact h'
      · simp [Sparse.above, hk, h.1, h.2]
    · split
      · split
        · exact h.2
        · simp [Sparse.above, hk, h.2]
      · simp [Sparse.above, h.1, Sparse.above_put d v hk h.2]

/-- A write keeps the canonical form. -/
theorem Sparse.wf_put {β : Type} [DecidableEq β] (d : β) (a : Nat) (v : β) :
    ∀ {m : Sparse β}, Sparse.wf d m = true → Sparse.wf d (Sparse.put d m a v) = true
  | [], _ => by
    simp only [Sparse.put]
    split
    · rfl
    · simp [Sparse.wf, Sparse.above, *]
  | (b, w) :: m, h => by
    have h' := h
    simp only [Sparse.wf, Bool.and_eq_true, decide_eq_true_eq] at h
    simp only [Sparse.put]
    split
    · rename_i hab
      split
      · exact h'
      · rename_i hv
        simp only [Sparse.wf, Sparse.above, Bool.and_eq_true, decide_eq_true_eq]
        exact ⟨⟨hv, hab, Sparse.above_trans hab h.1.2⟩, h⟩
    · rename_i hab
      split
      · rename_i hb
        split
        · exact h.2
        · rename_i hv
          simp only [Sparse.wf, Bool.and_eq_true, decide_eq_true_eq]
          exact ⟨⟨hv, hb ▸ h.1.2⟩, h.2⟩
      · rename_i hb
        simp only [Sparse.wf, Bool.and_eq_true, decide_eq_true_eq]
        exact ⟨⟨h.1.1, Sparse.above_put d v (by omega) h.1.2⟩, Sparse.wf_put d a v h.2⟩

theorem Sparse.get_of_above {β : Type} {d : β} {a : Nat} : ∀ {m : Sparse β}, Sparse.above a m = true → Sparse.get d m a = d
  | [], _ => rfl
  | (b, _) :: m, h => by
    simp only [Sparse.above, Bool.and_eq_true, decide_eq_true_eq] at h
    rw [Sparse.get, if_neg (by omega), Sparse.get_of_above h.2]

/-- A read after a write to the same key gives the value written. -/
theorem Sparse.get_put_same {β : Type} [DecidableEq β] (d : β) (a : Nat) (v : β) :
    ∀ {m : Sparse β}, Sparse.wf d m = true → Sparse.get d (Sparse.put d m a v) a = v
  | [], _ => by
    simp only [Sparse.put]
    split <;> simp_all [Sparse.get]
  | (b, w) :: m, h => by
    simp only [Sparse.wf, Bool.and_eq_true, decide_eq_true_eq] at h
    simp only [Sparse.put]
    split
    · rename_i hab
      split
      · rename_i hv
        rw [Sparse.get, if_neg (by omega), Sparse.get_of_above (Sparse.above_trans hab h.1.2), hv]
      · simp [Sparse.get]
    · split
      · rename_i hb
        split
        · rename_i hv
          rw [Sparse.get_of_above (hb ▸ h.1.2), hv]
        · simp [Sparse.get]
      · rename_i hb
        rw [Sparse.get, if_neg (by omega), Sparse.get_put_same d a v h.2]

/-- A write leaves every other key alone. -/
theorem Sparse.get_put_other {β : Type} [DecidableEq β] (d : β) {a c : Nat} (v : β) (hc : c ≠ a) :
    ∀ {m : Sparse β}, Sparse.wf d m = true → Sparse.get d (Sparse.put d m a v) c = Sparse.get d m c
  | [], _ => by
    simp only [Sparse.put]
    split <;> simp [Sparse.get]
    omega
  | (b, w) :: m, h => by
    simp only [Sparse.wf, Bool.and_eq_true, decide_eq_true_eq] at h
    simp only [Sparse.put]
    split
    · split
      · rfl
      · rw [Sparse.get, if_neg (by omega)]
    · split
      · rename_i hb
        split
        · rw [Sparse.get.eq_2, if_neg (by omega)]
        · rw [Sparse.get, if_neg (by omega), Sparse.get, if_neg (by omega)]
      · simp only [Sparse.get]
        split
        · rfl
        · exact Sparse.get_put_other d v hc h.2

/-- A memory built by writes is in canonical form. -/
theorem Sparse.wf_foldl {α β : Type} [DecidableEq β] {d : β} {f : Sparse β → α → Sparse β}
    (hf : ∀ m a, Sparse.wf d m = true → Sparse.wf d (f m a) = true) : ∀ (l : List α) {m : Sparse β}, Sparse.wf d m = true → Sparse.wf d (l.foldl f m) = true
  | [], _, h => h
  | a :: l, m, h => Sparse.wf_foldl hf l (hf m a h)

theorem Mem.wf_nil : Mem.wf [] = true := rfl

theorem Mem.wf_write {m : Mem} (a : Nat) (b : Byte) (h : m.wf = true) : (m.write a b).wf = true := Sparse.wf_put 0 a b h

/-- A write of several bytes keeps the canonical form. -/
theorem Mem.wf_writeN : ∀ {m : Mem} (a : Nat) (bs : List Byte), m.wf = true → (m.writeN a bs).wf = true
  | _, _, [], h => h
  | _, a, b :: bs, h => Mem.wf_writeN (a + 1) bs (Mem.wf_write a b h)

theorem Mem.read_write_same {m : Mem} (a : Nat) (b : Byte) (h : m.wf = true) : (m.write a b).read a = b :=
  Sparse.get_put_same 0 a b h

theorem Mem.read_write_other {m : Mem} {a c : Nat} (b : Byte) (hc : c ≠ a) (h : m.wf = true) :
    (m.write a b).read c = m.read c := Sparse.get_put_other 0 b hc h

/-- Every byte outside those written reads as before. -/
theorem Mem.read_writeN_other : ∀ {m : Mem} {a c : Nat} (bs : List Byte), c < a ∨ a + bs.length ≤ c → m.wf = true →
    (m.writeN a bs).read c = m.read c
  | _, _, _, [], _, _ => rfl
  | m, a, c, b :: bs, hc, h => by
    rw [Mem.writeN, Mem.read_writeN_other bs (by simp at hc; omega) (Mem.wf_write a b h),
      Mem.read_write_other b (by simp at hc; omega) h]

/-- Each byte written reads as written. -/
theorem Mem.read_writeN : ∀ {m : Mem} {a i : Nat} (bs : List Byte) (hi : i < bs.length), m.wf = true →
    (m.writeN a bs).read (a + i) = bs[i]
  | m, a, 0, b :: bs, _, h => by
    rw [Mem.writeN, Mem.read_writeN_other bs (by omega) (Mem.wf_write a b h)]
    exact Mem.read_write_same a b h
  | m, a, i + 1, b :: bs, hi, h => by
    have := Mem.read_writeN (m := m.write a b) (a := a + 1) (i := i) bs (by simp at hi; omega) (Mem.wf_write a b h)
    rw [Mem.writeN, show a + (i + 1) = a + 1 + i by omega, this]
    rfl

/-! ### Arrays -/

theorem mem_modify {α : Type} {f : α → α} {x : α} : ∀ {l : List α} {i : Nat}, x ∈ l.modify i f → x ∈ l ∨ ∃ y, l[i]? = some y ∧ x = f y
  | [], i, h => by cases i <;> simp [List.modify] at h
  | a :: l, 0, h => by
    simp only [List.modify_zero_cons, List.mem_cons] at h
    rcases h with h | h
    · exact .inr ⟨a, by simp, h⟩
    · exact .inl (by simp [h])
  | a :: l, i + 1, h => by
    simp only [List.modify_succ_cons, List.mem_cons] at h
    rcases h with h | h
    · exact .inl (by simp [h])
    · rcases mem_modify h with h | ⟨y, hy, h⟩
      · exact .inl (by simp [h])
      · exact .inr ⟨y, by simp [hy], h⟩

theorem mem_mapFrom {α β : Type} {f : Nat → α → β} {x : β} : ∀ {i : Nat} {l : List α}, x ∈ mapFrom f i l → ∃ k, ∃ y ∈ l, x = f k y
  | _, [], h => by simp [mapFrom] at h
  | i, a :: l, h => by
    simp only [mapFrom, List.mem_cons] at h
    rcases h with h | h
    · exact ⟨i, a, by simp, h⟩
    · obtain ⟨k, y, hy, h⟩ := mem_mapFrom h
      exact ⟨k, y, by simp [hy], h⟩

/-- A property of all entries survives a change of one that keeps it. -/
theorem vmod_forall_at {α : Type} {n : Nat} {P : α → Prop} {v : Vector α n} (i : Nat) {f : α → α} (d : α) (h : ∀ x ∈ v.toList, P x)
    (hf : P (vget v i d) → P (f (vget v i d))) : ∀ x ∈ (vmod v i f).toList, P x := by
  intro x hx
  rcases mem_modify hx with hx | ⟨y, hy, rfl⟩
  · exact h x hx
  · have : vget v i d = y := by rw [vget, List.getD_eq_getElem?_getD, hy]; rfl
    rw [this] at hf
    exact hf (h y (List.mem_of_getElem? hy))

theorem vmod_forall {α : Type} {n : Nat} {P : α → Prop} {v : Vector α n} (i : Nat) {f : α → α} (h : ∀ x ∈ v.toList, P x)
    (hf : ∀ x, P x → P (f x)) : ∀ x ∈ (vmod v i f).toList, P x := by
  intro x hx
  rcases mem_modify hx with hx | ⟨y, hy, rfl⟩
  · exact h x hx
  · exact hf y (h y (List.mem_of_getElem? hy))

theorem vset_forall {α : Type} {n : Nat} {P : α → Prop} {v : Vector α n} (i : Nat) {a : α} (h : ∀ x ∈ v.toList, P x) (ha : P a) :
    ∀ x ∈ (vset v i a).toList, P x := by
  intro x hx
  rcases List.mem_or_eq_of_mem_set hx with hx | rfl
  · exact h x hx
  · exact ha

theorem vmap_forall {α β : Type} {n : Nat} {P : α → Prop} {Q : β → Prop} {v : Vector α n} {f : α → β} (h : ∀ x ∈ v.toList, P x)
    (hf : ∀ x, P x → Q (f x)) : ∀ x ∈ (vmap f v).toList, Q x := by
  intro x hx
  simp only [vmap, Vector.toList, List.mem_map] at hx
  obtain ⟨y, hy, rfl⟩ := hx
  exact hf y (h y hy)

theorem vmapIdx_forall {α β : Type} {n : Nat} {P : α → Prop} {Q : β → Prop} {v : Vector α n} {f : Nat → α → β}
    (h : ∀ x ∈ v.toList, P x) (hf : ∀ k x, P x → Q (f k x)) : ∀ x ∈ (vmapIdx f v).toList, Q x := by
  intro x hx
  obtain ⟨k, y, hy, rfl⟩ := mem_mapFrom hx
  exact hf k y (h y hy)

theorem vrep_forall {α : Type} {n : Nat} {P : α → Prop} {a : α} (h : P a) : ∀ x ∈ (vrep n a).toList, P x := by
  intro x hx
  simp only [vrep, Vector.toList] at hx
  rw [List.eq_of_mem_replicate hx]
  exact h

theorem vget_mem {α : Type} {n : Nat} {v : Vector α n} {i : Nat} (d : α) (h : i < n) : vget v i d ∈ v.toList := by
  have h' : i < v.toList.length := by simpa using h
  rw [vget, List.getD_eq_getElem _ _ h']
  exact List.getElem_mem h'

/-- A property of all entries holds of any entry read, if it holds of the default. -/
theorem vget_of_forall {α : Type} {n : Nat} {P : α → Prop} {v : Vector α n} {i : Nat} {d : α} (h : ∀ x ∈ v.toList, P x) (hd : P d) :
    P (vget v i d) := by
  by_cases hi : i < n
  · exact h _ (vget_mem d hi)
  · rw [vget, List.getD_eq_default _ _ (by simpa using hi)]
    exact hd

@[simp] theorem vget_vmod_same {α : Type} {n : Nat} {v : Vector α n} {i : Nat} {f : α → α} {d : α} (h : i < n) :
    vget (vmod v i f) i d = f (vget v i d) := by
  have h' : i < v.toList.length := by simpa using h
  simp [vget, vmod, Vector.toList, List.getD_eq_getElem?_getD]
  simp at *
  simp [h]

@[simp] theorem vget_vmod_other {α : Type} {n : Nat} {v : Vector α n} {i j : Nat} {f : α → α} {d : α} (h : i ≠ j) :
    vget (vmod v i f) j d = vget v j d := by
  simp [vget, vmod, Vector.toList, List.getD_eq_getElem?_getD, h]

@[simp] theorem vget_vset_same {α : Type} {n : Nat} {v : Vector α n} {i : Nat} {a d : α} (h : i < n) : vget (vset v i a) i d = a := by
  have h' : i < v.toArray.toList.length := by simpa using h
  simp [vget, vset, Vector.toList, List.getD_eq_getElem?_getD, List.getElem?_set]
  simp [h]

@[simp] theorem vget_vset_other {α : Type} {n : Nat} {v : Vector α n} {i j : Nat} {a d : α} (h : i ≠ j) :
    vget (vset v i a) j d = vget v j d := by
  simp [vget, vset, Vector.toList, List.getD_eq_getElem?_getD, h]

end Sys2Proof.Machine
end

