-- ==== Sys2Proof/Laws/Rel.lean ====
section
/-!
SUPPORT. How an operation relates the state before it to the state after it: what it leaves unchanged (its frame), and that it
keeps the invariants. The lemmas of the operations, in the files Laws/Rel<Family>.lean, are composed with these.
-/
namespace Sys2Proof.Machine

set_option Elab.async false

/-- An operation that changes at most the listed pieces and keeps the invariants. -/
structure Rel (ps : List Piece) (s t : State) : Prop where
  frame : Frame ps s t
  inv : s.Inv → t.Inv

/-- Every piece of the first list is in the second. -/
def within (ps qs : List Piece) : Bool := ps.all fun p => qs.contains p

theorem State.same_refl (s : State) (x : Piece) : s.same s x := by
  cases x <;> simp [State.same]

theorem State.same_trans {s t u : State} {x : Piece} (h : s.same t x) (h' : t.same u x) : s.same u x := by
  cases x <;> simp_all [State.same]
  all_goals (rw [← h, ← h'])

theorem Rel.refl {ps : List Piece} (s : State) : Rel ps s s := ⟨fun x _ => s.same_refl x, id⟩

theorem within_mem {ps qs : List Piece} (h : within ps qs = true) {x : Piece} (hx : x ∈ ps) : x ∈ qs := by
  simp [within] at h
  exact h x hx

/-- `within`, as a proposition that `auto` decides. -/
def Within (ps qs : List Piece) : Prop := within ps qs = true

theorem Within.auto {ps qs : List Piece} (h : within ps qs = true := by decide) : Within ps qs := h

theorem within_of {ps qs rs : List Piece} (h : Within qs rs) (h' : Within ps qs) : Within ps rs := by
  have h1 := h
  have h2 := h'
  simp only [Within, within, List.all_eq_true, List.contains_eq_mem, decide_eq_true_eq] at h1 h2 ⊢
  exact fun x hx => h1 x (h2 x hx)

/-- Composition: the pieces of both operations are among those listed. -/
theorem Rel.comp {ps qs : List Piece} {s t u : State} (h : Rel ps s t) (h' : Rel qs t u) (w : Within qs ps) : Rel ps s u :=
  ⟨fun x hx => State.same_trans (h.frame x hx) (h'.frame x fun hq => hx (within_mem w hq)), fun i => h'.inv (h.inv i)⟩

/-- What a record update leaves unchanged. -/
def FrameMk (ps : List Piece) (u t : State) : Prop := ∀ x, ps.contains x = false → u.same t x

theorem FrameMk.auto {ps : List Piece} {u t : State} (h : ∀ x, ps.contains x = false → u.same t x := by
    intro x; cases x <;> first | exact fun h => Bool.noConfusion (show true = false from h) | exact fun _ => rfl | exact fun _ => ⟨rfl, rfl, rfl⟩ | exact fun _ => ⟨rfl, rfl⟩) :
    FrameMk ps u t := h

/-- A record update keeps the invariants. -/
def InvMk (u t : State) : Prop := u.Inv → t.Inv

theorem InvMk.auto {u t : State} (h : u.Inv → t.Inv := by
    exact fun h => ⟨h.word, h.outs, ⟨h.mem.gddr, h.mem.cores, h.mem.engs, h.mem.plane0, h.mem.plane1, h.mem.floor, h.mem.buf⟩⟩) : InvMk u t := h

/-- An update that leaves the verdict word and the outputs alone keeps the invariants if it keeps the memories canonical. -/
theorem InvMk.mem {u t : State} (hm : u.MemOk → t.MemOk) (hw : t.watch.verdict = u.watch.verdict := by rfl) (ho : t.so = u.so := by rfl) :
    InvMk u t := fun h => ⟨hw ▸ h.word, ho ▸ h.outs, hm h.mem⟩

/-- A record update: `u` is found from the queue, which no operation changes. -/
theorem Rel.mk_of {ps : List Piece} {s u : State} {a1 a2 a3 a4 a5 a6 a7 a8 a9 a10 a11 a12 a13 a14 a15 a16 a17 a18 a19 a20 a21 a22 a23 a24 a25 a26 a27 a28 a29 a30 a31 a32 a33 a34 a35 a36 a37 a38 a39 a40 a41 a42} (h : Rel ps s u)
    (hf : FrameMk ps u (State.mk u.pending a1 a2 a3 a4 a5 a6 a7 a8 a9 a10 a11 a12 a13 a14 a15 a16 a17 a18 a19 a20 a21 a22 a23 a24 a25 a26 a27 a28 a29 a30 a31 a32 a33 a34 a35 a36 a37 a38 a39 a40 a41 a42)) (hi : InvMk u (State.mk u.pending a1 a2 a3 a4 a5 a6 a7 a8 a9 a10 a11 a12 a13 a14 a15 a16 a17 a18 a19 a20 a21 a22 a23 a24 a25 a26 a27 a28 a29 a30 a31 a32 a33 a34 a35 a36 a37 a38 a39 a40 a41 a42)) : Rel ps s (State.mk u.pending a1 a2 a3 a4 a5 a6 a7 a8 a9 a10 a11 a12 a13 a14 a15 a16 a17 a18 a19 a20 a21 a22 a23 a24 a25 a26 a27 a28 a29 a30 a31 a32 a33 a34 a35 a36 a37 a38 a39 a40 a41 a42) :=
  ⟨fun x hx => State.same_trans (h.frame x hx) (hf x (by simpa using hx)), fun i => hi (h.inv i)⟩

/-- A choice between two operations. -/
theorem Rel.ite {c : Prop} [Decidable c] {ps : List Piece} {s t u : State} (h : c → Rel ps s t) (h' : ¬c → Rel ps s u) :
    Rel ps s (if c then t else u) := by
  split
  · exact h ‹_›
  · exact h' ‹_›

/-- A choice between two operations that use the fact chosen on. -/
theorem Rel.dite {c : Prop} [Decidable c] {ps : List Piece} {s : State} {t : c → State} {u : ¬c → State} (h : ∀ k, Rel ps s (t k))
    (h' : ∀ k, Rel ps s (u k)) : Rel ps s (if k : c then t k else u k) := by
  split
  · exact h _
  · exact h' _

/-- A fold of an operation. -/
theorem Rel.foldl {α : Type} {ps : List Piece} {s u : State} {f : State → α → State} {l : List α} (h : Rel ps s u)
    (hf : ∀ t a, Rel ps t (f t a)) : Rel ps s (l.foldl f u) := by
  induction l generalizing u with
  | nil => exact h
  | cons a l ih => exact ih ⟨fun x hx => State.same_trans (h.frame x hx) ((hf u a).frame x hx), fun i => (hf u a).inv (h.inv i)⟩

/-- An operation for each number below a bound. -/
theorem Rel.each {ps : List Piece} {s u : State} {n : Nat} {f : State → Nat → State} (h : Rel ps s u) (hf : ∀ t a, Rel ps t (f t a)) :
    Rel ps s (u.each n f) := h.foldl hf

/-- A group that is consistent, and off while the outputs are held. -/
def OutGroup.okIn (held : Bool) (x : OutGroup) : Bool := x.ok && !(held && x.on)

theorem OutState.ok_iff (o : OutState) : o.ok = true ↔ ∀ x ∈ o.groups.toList, x.okIn o.held = true := by
  simp only [OutState.ok, List.all_eq_true, OutGroup.okIn]

theorem verdictCrc_mod (n : Nat) : verdictCrc (n % 2 ^ 24) = verdictCrc n := by
  have h1 : BitVec.ofNat 8 (n % 2 ^ 24 / 65536) = BitVec.ofNat 8 (n / 65536) := by apply BitVec.eq_of_toNat_eq; simp only [BitVec.toNat_ofNat]; omega
  have h2 : BitVec.ofNat 8 (n % 2 ^ 24 / 256) = BitVec.ofNat 8 (n / 256) := by apply BitVec.eq_of_toNat_eq; simp only [BitVec.toNat_ofNat]; omega
  have h3 : BitVec.ofNat 8 (n % 2 ^ 24) = BitVec.ofNat 8 n := by apply BitVec.eq_of_toNat_eq; simp only [BitVec.toNat_ofNat]; omega
  simp only [verdictCrc, h1, h2, h3]

/-- The word of 24 bits and their CRC passes the check (R28). -/
theorem wordOk_of_upper (n : Nat) : wordOk (BitVec.ofNat 32 (n * 256 + verdictCrc n)) = true := by
  have hc : verdictCrc n < 256 := BitVec.isLt _
  have h1 : (BitVec.ofNat 32 (n * 256 + verdictCrc n)).toNat % 256 = verdictCrc n := by simp only [BitVec.toNat_ofNat]; omega
  have h2 : (BitVec.ofNat 32 (n * 256 + verdictCrc n)).toNat / 256 = n % 2 ^ 24 := by simp only [BitVec.toNat_ofNat]; omega
  simp only [wordOk, h1, h2, verdictCrc_mod, beq_self_eq_true]

theorem resetWord_ok : wordOk 0x0000000E = true := by decide +kernel

end Sys2Proof.Machine
end

