-- ==== Sys2Proof/Laws/RelOps.lean ====
section
/-!
SUPPORT. What each operation of Machine/Ops.lean leaves unchanged, and that it keeps the invariants.
-/
namespace Sys2Proof.Machine

set_option Elab.async false

theorem State.append_rel : ∀ s a1 a2, Rel [.evr, .log] s (State.append s a1 a2) := by
  intro s a1 a2
  unfold State.append
  dsimp only
  refine .mk_of ?_ .auto .auto
  exact .refl _

theorem State.passRecord_rel : ∀ s a1 a2, Rel [.evr, .log] s (State.passRecord s a1 a2) := by
  intro s a1 a2
  unfold State.passRecord
  dsimp only
  split
  · refine .ite (fun _ => ?_) (fun _ => ?_)
    · refine .mk_of ?_ .auto .auto
      exact .refl _
    · refine .comp ?_ (State.append_rel ..) .auto
      exact .refl _
  · refine .comp ?_ (State.append_rel ..) .auto
    exact .refl _

theorem State.record_rel : ∀ s a1 a2 a3 a4 a5, Rel [.evr, .log] s (State.record s a1 a2 a3 a4 a5) := by
  intro s a1 a2 a3 a4 a5
  unfold State.record
  dsimp only
  refine .ite (fun _ => ?_) (fun _ => ?_)
  · refine .comp ?_ (State.passRecord_rel ..) .auto
    exact .refl _
  · split
    · refine .ite (fun _ => ?_) (fun _ => ?_)
      · refine .comp ?_ (State.passRecord_rel ..) .auto
        refine .mk_of ?_ .auto .auto
        exact .refl _
      · refine .mk_of ?_ .auto .auto
        exact .refl _
    · refine .comp ?_ (State.passRecord_rel ..) .auto
      refine .mk_of ?_ .auto .auto
      exact .refl _

theorem State.event_rel : ∀ s a1 a2, Rel [.evr, .log] s (State.event s a1 a2) := by
  intro s a1 a2
  unfold State.event
  refine .comp ?_ (State.record_rel ..) .auto
  exact .refl _

theorem State.ignoredWrite_rel : ∀ s a1 a2, Rel [.evr, .log] s (State.ignoredWrite s a1 a2) := by
  intro s a1 a2
  unfold State.ignoredWrite
  refine .comp ?_ (State.event_rel ..) .auto
  exact .refl _

theorem State.addClear_rel : ∀ s a1, Rel [.collected] s (State.addClear s a1) := by
  intro s a1
  unfold State.addClear
  dsimp only
  refine .mk_of ?_ .auto .auto
  exact .refl _

theorem State.addDoubt_rel : ∀ s a1, Rel [.collected] s (State.addDoubt s a1) := by
  intro s a1
  unfold State.addDoubt
  dsimp only
  refine .mk_of ?_ .auto .auto
  exact .refl _

theorem State.addTrig_rel : ∀ s a1 a2, Rel [.collected] s (State.addTrig s a1 a2) := by
  intro s a1 a2
  unfold State.addTrig
  dsimp only
  refine .mk_of ?_ .auto .auto
  exact .refl _

theorem State.countFault_rel : ∀ s a1 a2, Rel [.fc] s (State.countFault s a1 a2) := by
  intro s a1 a2
  unfold State.countFault
  dsimp only
  refine .mk_of ?_ .auto .auto
  exact .refl _

theorem State.quietRestart_rel : ∀ s, Rel [.fc] s (State.quietRestart s) := by
  intro s
  unfold State.quietRestart
  dsimp only
  refine .mk_of ?_ .auto .auto
  exact .refl _

theorem State.latchFault_rel : ∀ s a1 a2 a3 a4, Rel [.fc] s (State.latchFault s a1 a2 a3 a4) := by
  intro s a1 a2 a3 a4
  unfold State.latchFault
  dsimp only
  split
  · refine .mk_of ?_ .auto .auto
    exact .refl _
  · refine .mk_of ?_ .auto .auto
    exact .refl _

theorem State.irqSet_rel : ∀ s a1 a2, Rel [.irq] s (State.irqSet s a1 a2) := by
  intro s a1 a2
  unfold State.irqSet
  dsimp only
  refine .mk_of ?_ .auto .auto
  exact .refl _

theorem State.faultNDown_rel : ∀ s a1 a2 a3, Rel [.fc, .irq] s (State.faultNDown s a1 a2 a3) := by
  intro s a1 a2 a3
  unfold State.faultNDown
  dsimp only
  refine .ite (fun _ => ?_) (fun _ => ?_)
  · exact .refl _
  · refine .comp ?_ (State.irqSet_rel ..) .auto
    refine .mk_of ?_ .auto .auto
    exact .refl _

theorem State.ucReaction_rel : ∀ s a1 a2 a3, Rel [.fc, .irq] s (State.ucReaction s a1 a2 a3) := by
  intro s a1 a2 a3
  unfold State.ucReaction
  dsimp only
  refine .ite (fun _ => ?_) (fun _ => ?_)
  · exact .refl _
  · refine .comp ?_ (State.faultNDown_rel ..) .auto
    generalize hx : (State.quietRestart _ : State) = u
    refine .mk_of ?_ .auto .auto
    subst hx
    refine .comp ?_ (State.quietRestart_rel ..) .auto
    refine .comp ?_ (State.latchFault_rel ..) .auto
    exact .refl _

theorem State.faultRecord_rel : ∀ s a1 a2 a3 a4 a5, Rel [.evr, .log] s (State.faultRecord s a1 a2 a3 a4 a5) := by
  intro s a1 a2 a3 a4 a5
  unfold State.faultRecord
  refine .comp ?_ (State.record_rel ..) .auto
  exact .refl _

theorem OutGroup.drop_ok (x : OutGroup) (b : Nat) (h : Bool) : (x.drop b).okIn h = true := by
  simp [OutGroup.okIn, OutGroup.ok, OutGroup.drop, OutChan.drop]

theorem State.outputsOff_rel : ∀ s, Rel [.so] s (State.outputsOff s) := by
  intro s
  refine .mk_of (.refl _) .auto fun h => ⟨h.word, ?_, ⟨h.mem.gddr, h.mem.cores, h.mem.engs, h.mem.plane0, h.mem.plane1, h.mem.floor, h.mem.buf⟩⟩
  rw [OutState.ok_iff]
  exact vmap_forall (fun x _ => trivial) fun x _ => OutGroup.drop_ok x _ _

theorem State.ftReaction_rel : ∀ s a1 a2 a3, Rel [.fc, .so, .collected, .irq] s (State.ftReaction s a1 a2 a3) := by
  intro s a1 a2 a3
  unfold State.ftReaction
  dsimp only
  refine .comp ?_ (State.addTrig_rel ..) .auto
  refine .comp ?_ (State.outputsOff_rel ..) .auto
  refine .comp ?_ (State.faultNDown_rel ..) .auto
  generalize hx : (State.quietRestart _ : State) = u
  refine .mk_of ?_ .auto .auto
  subst hx
  refine .comp ?_ (State.quietRestart_rel ..) .auto
  refine .comp ?_ (State.latchFault_rel ..) .auto
  exact .refl _

theorem State.raiseAt_rel : ∀ s a1 a2 a3 a4 a5, Rel [.fc, .evr, .so, .collected, .irq, .log] s (State.raiseAt s a1 a2 a3 a4 a5) := by
  intro s a1 a2 a3 a4 a5
  unfold State.raiseAt
  dsimp only
  split
  · refine .comp ?_ (State.ucReaction_rel ..) .auto
    refine .comp ?_ (State.faultRecord_rel ..) .auto
    refine .comp ?_ (State.countFault_rel ..) .auto
    exact .refl _
  · refine .comp ?_ (State.ftReaction_rel ..) .auto
    refine .comp ?_ (State.faultRecord_rel ..) .auto
    refine .comp ?_ (State.countFault_rel ..) .auto
    exact .refl _
  · refine .comp ?_ (State.faultRecord_rel ..) .auto
    refine .comp ?_ (State.countFault_rel ..) .auto
    exact .refl _

theorem State.freed_rel : ∀ s, Rel [.freeCtr] s (State.freed s) := by
  intro s
  unfold State.freed
  refine .mk_of ?_ .auto .auto
  exact .refl _

theorem State.raise_rel : ∀ s a1 a2 a3, Rel [.fc, .evr, .so, .freeCtr, .collected, .irq, .log] s (State.raise s a1 a2 a3) := by
  intro s a1 a2 a3
  unfold State.raise
  refine .comp ?_ (State.raiseAt_rel ..) .auto
  refine .comp ?_ (State.freed_rel ..) .auto
  exact .refl _

theorem State.raiseLast_rel : ∀ s a1 a2 a3, Rel [.fc, .evr, .so, .collected, .irq, .log] s (State.raiseLast s a1 a2 a3) := by
  intro s a1 a2 a3
  unfold State.raiseLast
  refine .comp ?_ (State.raiseAt_rel ..) .auto
  exact .refl _

theorem State.raiseCore_rel : ∀ s a1 a2 a3 a4, Rel [.fc, .evr, .so, .freeCtr, .collected, .irq, .log] s (State.raiseCore s a1 a2 a3 a4) := by
  intro s a1 a2 a3 a4
  unfold State.raiseCore
  refine .comp ?_ (State.raiseAt_rel ..) .auto
  refine .comp ?_ (State.freed_rel ..) .auto
  exact .refl _

theorem State.escalate_rel : ∀ s, Rel [.fc, .evr, .so, .collected, .irq, .log] s (State.escalate s) := by
  intro s
  unfold State.escalate
  dsimp only
  refine .comp ?_ (State.ftReaction_rel ..) .auto
  refine .comp ?_ (State.faultRecord_rel ..) .auto
  refine .comp ?_ (State.countFault_rel ..) .auto
  refine .mk_of ?_ .auto .auto
  exact .refl _

theorem State.recover_rel : ∀ s, Rel [.fc, .evr, .enc, .log] s (State.recover s) := by
  intro s
  unfold State.recover
  dsimp only
  generalize hx : (List.foldl _ _ _ : State) = u
  refine .mk_of ?_ .auto .auto
  subst hx
  refine .foldl ?_ ?_
  · exact .refl _
  · intro _ _
    beta_reduce
    refine .comp ?_ (State.record_rel ..) .auto
    exact .refl _

end Sys2Proof.Machine
end

