-- ==== Sys2Proof/Laws/RelFaults.lean ====
section
/-!
SUPPORT. What each operation of Machine/Faults.lean leaves unchanged, and that it keeps the invariants.
-/
namespace Sys2Proof.Machine

set_option Elab.async false

theorem State.taskBeat_rel : ∀ s, Rel [.wd] s (State.taskBeat s) := by
  intro s
  unfold State.taskBeat
  dsimp only
  refine .mk_of ?_ .auto .auto
  exact .refl _

theorem State.faultNRelease_rel : ∀ s, Rel [.fc, .irq] s (State.faultNRelease s) := by
  intro s
  unfold State.faultNRelease
  dsimp only
  refine .ite (fun _ => ?_) (fun _ => ?_)
  · refine .ite (fun _ => ?_) (fun _ => ?_)
    · refine .mk_of ?_ .auto .auto
      exact .refl _
    · refine .comp ?_ (State.irqSet_rel ..) .auto
      refine .mk_of ?_ .auto .auto
      exact .refl _
  · exact .refl _

theorem State.svcBeat_rel : ∀ s, Rel [.wd] s (State.svcBeat s) := by
  intro s
  unfold State.svcBeat
  dsimp only
  refine .ite (fun _ => ?_) (fun _ => ?_)
  · exact .refl _
  · refine .mk_of ?_ .auto .auto
    exact .refl _

theorem State.svcRestart_rel : ∀ s, Rel [.wd] s (State.svcRestart s) := by
  intro s
  unfold State.svcRestart
  dsimp only
  split
  · refine .ite (fun _ => ?_) (fun _ => ?_)
    · refine .mk_of ?_ .auto .auto
      exact .refl _
    · exact .refl _
  · exact .refl _

theorem State.svcRestartBound_rel : ∀ s, Rel [.wd] s (State.svcRestartBound s) := by
  intro s
  unfold State.svcRestartBound
  split
  · refine .ite (fun _ => ?_) (fun _ => ?_)
    · refine .comp ?_ (State.svcRestart_rel ..) .auto
      exact .refl _
    · exact .refl _
  · exact .refl _

theorem State.wakeRequest_rel : ∀ s a1, Rel [.wd, .evr, .pwr, .irq, .log] s (State.wakeRequest s a1) := by
  intro s a1
  unfold State.wakeRequest
  dsimp only
  refine .ite (fun _ => ?_) (fun _ => ?_)
  · refine .mk_of ?_ .auto .auto
    exact .refl _
  · refine .ite (fun _ => ?_) (fun _ => ?_)
    · refine .ite (fun _ => ?_) (fun _ => ?_)
      · generalize hx : (State.event _ _ _ : State) = u
        refine .mk_of ?_ .auto .auto
        subst hx
        refine .comp ?_ (State.event_rel ..) .auto
        refine .mk_of ?_ .auto .auto
        exact .refl _
      · refine .comp ?_ (State.irqSet_rel ..) .auto
        generalize hx : (State.event _ _ _ : State) = u
        refine .mk_of ?_ .auto .auto
        subst hx
        refine .comp ?_ (State.event_rel ..) .auto
        refine .mk_of ?_ .auto .auto
        exact .refl _
    · exact .refl _

theorem State.modTask_rel : ∀ s a1 a2, Rel [.wd] s (State.modTask s a1 a2) := by
  intro s a1 a2
  unfold State.modTask
  dsimp only
  refine .mk_of ?_ .auto .auto
  exact .refl _

theorem State.taskFault_rel : ∀ s a1 a2 a3, Rel [.fc, .wd, .evr, .so, .pwr, .freeCtr, .collected, .irq, .log] s (State.taskFault s a1 a2 a3) := by
  intro s a1 a2 a3
  unfold State.taskFault
  dsimp only
  refine .comp ?_ (State.wakeRequest_rel ..) .auto
  refine .ite (fun _ => ?_) (fun _ => ?_)
  · refine .comp ?_ (State.raiseLast_rel ..) .auto
    refine .comp ?_ (State.modTask_rel ..) .auto
    exact .refl _
  · refine .comp ?_ (State.raise_rel ..) .auto
    refine .comp ?_ (State.modTask_rel ..) .auto
    exact .refl _

theorem State.taskPeriodEnd_rel : ∀ s a1, Rel [.fc, .wd, .evr, .so, .pwr, .freeCtr, .collected, .irq, .log] s (State.taskPeriodEnd s a1) := by
  intro s a1
  unfold State.taskPeriodEnd
  dsimp only
  refine .ite (fun _ => ?_) (fun _ => ?_)
  · refine .comp ?_ (State.modTask_rel ..) .auto
    refine .ite (fun _ => ?_) (fun _ => ?_)
    · exact .refl _
    · refine .comp ?_ (State.taskFault_rel ..) .auto
      exact .refl _
  · exact .refl _

theorem State.svcFault_rel : ∀ s a1 a2, Rel [.fc, .wd, .evr, .so, .freeCtr, .collected, .irq, .log] s (State.svcFault s a1 a2) := by
  intro s a1 a2
  unfold State.svcFault
  dsimp only
  refine .mk_of ?_ .auto .auto
  refine .ite (fun _ => ?_) (fun _ => ?_)
  · refine .comp ?_ (State.raiseLast_rel ..) .auto
    exact .refl _
  · refine .comp ?_ (State.raise_rel ..) .auto
    exact .refl _

theorem State.svcPeriodEnd_rel : ∀ s, Rel [.fc, .wd, .evr, .so, .freeCtr, .collected, .irq, .log] s (State.svcPeriodEnd s) := by
  intro s
  unfold State.svcPeriodEnd
  dsimp only
  refine .ite (fun _ => ?_) (fun _ => ?_)
  · refine .ite (fun _ => ?_) (fun _ => ?_)
    · refine .mk_of ?_ .auto .auto
      exact .refl _
    · refine .comp ?_ (State.svcFault_rel ..) .auto
      exact .refl _
  · exact .refl _

theorem State.standbyTimer_rel : ∀ s, Rel [.wd, .evr, .pwr, .irq, .log] s (State.standbyTimer s) := by
  intro s
  unfold State.standbyTimer
  refine .ite (fun _ => ?_) (fun _ => ?_)
  · refine .comp ?_ (State.wakeRequest_rel ..) .auto
    exact .refl _
  · exact .refl _

theorem State.modHb_rel : ∀ s a1 a2, Rel [.wd] s (State.modHb s a1 a2) := by
  intro s a1 a2
  unfold State.modHb
  dsimp only
  refine .mk_of ?_ .auto .auto
  exact .refl _

theorem State.hbLose_rel : ∀ s a1, Rel [.wd, .evr, .pwr, .irq, .log] s (State.hbLose s a1) := by
  intro s a1
  unfold State.hbLose
  dsimp only
  refine .ite (fun _ => ?_) (fun _ => ?_)
  · refine .ite (fun _ => ?_) (fun _ => ?_)
    · refine .comp ?_ (State.wakeRequest_rel ..) .auto
      refine .comp ?_ (State.event_rel ..) .auto
      refine .comp ?_ (State.modHb_rel ..) .auto
      exact .refl _
    · refine .comp ?_ (State.event_rel ..) .auto
      refine .comp ?_ (State.modHb_rel ..) .auto
      exact .refl _
  · refine .comp ?_ (State.modHb_rel ..) .auto
    exact .refl _

theorem State.hbLost_rel : ∀ s a1 a2, Rel [.wd, .evr, .pwr, .irq, .log] s (State.hbLost s a1 a2) := by
  intro s a1 a2
  unfold State.hbLost
  refine .ite (fun _ => ?_) (fun _ => ?_)
  · refine .comp ?_ (State.hbLose_rel ..) .auto
    exact .refl _
  · exact .refl _

theorem State.quietPeriodEnd_rel : ∀ s, Rel [.fc, .evr, .enc, .so, .collected, .irq, .log] s (State.quietPeriodEnd s) := by
  intro s
  unfold State.quietPeriodEnd
  dsimp only
  refine .ite (fun _ => ?_) (fun _ => ?_)
  · refine .ite (fun _ => ?_) (fun _ => ?_)
    · refine .mk_of ?_ .auto .auto
      exact .refl _
    · refine .ite (fun _ => ?_) (fun _ => ?_)
      · refine .comp ?_ (State.escalate_rel ..) .auto
        exact .refl _
      · refine .comp ?_ (State.recover_rel ..) .auto
        exact .refl _
  · exact .refl _

theorem State.ffClear_rel : ∀ s, Rel [.fc, .evr, .log] s (State.ffClear s) := by
  intro s
  unfold State.ffClear
  dsimp only
  refine .ite (fun _ => ?_) (fun _ => ?_)
  · refine .comp ?_ (State.ignoredWrite_rel ..) .auto
    exact .refl _
  · refine .comp ?_ (State.event_rel ..) .auto
    refine .mk_of ?_ .auto .auto
    exact .refl _

theorem State.clockTrip_rel : ∀ s a1, Rel [.fc, .wd, .evr, .so, .pwr, .freeCtr, .collected, .irq, .log] s (State.clockTrip s a1) := by
  intro s a1
  unfold State.clockTrip
  dsimp only
  refine .comp ?_ (State.wakeRequest_rel ..) .auto
  refine .comp ?_ (State.raise_rel ..) .auto
  refine .mk_of ?_ .auto .auto
  exact .refl _

theorem State.hbEdge_rel : ∀ s a1 a2 a3 a4, Rel [.wd, .evr, .pwr, .irq, .log] s (State.hbEdge s a1 a2 a3 a4) := by
  intro s a1 a2 a3 a4
  unfold State.hbEdge
  dsimp only
  refine .ite (fun _ => ?_) (fun _ => ?_)
  · refine .comp ?_ (State.modHb_rel ..) .auto
    exact .refl _
  · split
    · refine .comp ?_ (State.modHb_rel ..) .auto
      refine .comp ?_ (State.modHb_rel ..) .auto
      exact .refl _
    · refine .ite (fun _ => ?_) (fun _ => ?_)
      · refine .comp ?_ (State.hbLose_rel ..) .auto
        refine .comp ?_ (State.modHb_rel ..) .auto
        refine .comp ?_ (State.modHb_rel ..) .auto
        refine .comp ?_ (State.modHb_rel ..) .auto
        exact .refl _
      · refine .ite (fun _ => ?_) (fun _ => ?_)
        · refine .comp ?_ (State.hbLose_rel ..) .auto
          refine .comp ?_ (State.modHb_rel ..) .auto
          refine .comp ?_ (State.modHb_rel ..) .auto
          exact .refl _
        · refine .ite (fun _ => ?_) (fun _ => ?_)
          · refine .comp ?_ (State.event_rel ..) .auto
            refine .comp ?_ (State.modHb_rel ..) .auto
            refine .comp ?_ (State.modHb_rel ..) .auto
            refine .comp ?_ (State.modHb_rel ..) .auto
            refine .comp ?_ (State.modHb_rel ..) .auto
            exact .refl _
          · refine .comp ?_ (State.modHb_rel ..) .auto
            refine .comp ?_ (State.modHb_rel ..) .auto
            refine .comp ?_ (State.modHb_rel ..) .auto
            exact .refl _

theorem State.rcFreq_rel : ∀ s a1, Rel [.fc, .wd, .evr, .so, .pwr, .freeCtr, .collected, .irq, .log] s (State.rcFreq s a1) := by
  intro s a1
  unfold State.rcFreq
  dsimp only
  refine .ite (fun _ => ?_) (fun _ => ?_)
  · refine .comp ?_ (State.wakeRequest_rel ..) .auto
    refine .comp ?_ (State.raise_rel ..) .auto
    refine .mk_of ?_ .auto .auto
    exact .refl _
  · refine .mk_of ?_ .auto .auto
    exact .refl _

theorem State.svcKick_rel : ∀ s a1, Rel [.fc, .wd, .evr, .so, .freeCtr, .collected, .irq, .log] s (State.svcKick s a1) := by
  intro s a1
  unfold State.svcKick
  dsimp only
  refine .ite (fun _ => ?_) (fun _ => ?_)
  · exact .refl _
  · split
    · exact .refl _
    · refine .ite (fun _ => ?_) (fun _ => ?_)
      · refine .mk_of ?_ .auto .auto
        exact .refl _
      · split
        · refine .mk_of ?_ .auto .auto
          exact .refl _
        · refine .comp ?_ (State.svcFault_rel ..) .auto
          refine .mk_of ?_ .auto .auto
          exact .refl _

theorem State.taskKick_rel : ∀ s a1 a2, Rel [.fc, .wd, .evr, .so, .pwr, .freeCtr, .collected, .irq, .log] s (State.taskKick s a1 a2) := by
  intro s a1 a2
  unfold State.taskKick
  dsimp only
  refine .ite (fun _ => ?_) (fun _ => ?_)
  · refine .comp ?_ (State.event_rel ..) .auto
    exact .refl _
  · refine .ite (fun _ => ?_) (fun _ => ?_)
    · exact .refl _
    · split
      · refine .comp ?_ (State.event_rel ..) .auto
        exact .refl _
      · refine .ite (fun _ => ?_) (fun _ => ?_)
        · refine .comp ?_ (State.modTask_rel ..) .auto
          exact .refl _
        · split
          · refine .comp ?_ (State.modTask_rel ..) .auto
            exact .refl _
          · refine .comp ?_ (State.taskFault_rel ..) .auto
            refine .comp ?_ (State.modTask_rel ..) .auto
            exact .refl _

theorem State.wdMismatch_rel : ∀ s a1 a2, Rel [.fc, .evr, .so, .freeCtr, .collected, .irq, .log] s (State.wdMismatch s a1 a2) := by
  intro s a1 a2
  unfold State.wdMismatch
  refine .comp ?_ (State.raise_rel ..) .auto
  exact .refl _

end Sys2Proof.Machine
end

