-- ==== Sys2Proof/Laws/RelStreams.lean ====
section
/-!
SUPPORT. What each operation of Machine/Streams.lean leaves unchanged, and that it keeps the invariants.
-/
namespace Sys2Proof.Machine

set_option Elab.async false

theorem State.modCrocus_rel : ∀ s a1 a2, Rel [.io] s (State.modCrocus s a1 a2) := by
  intro s a1 a2
  unfold State.modCrocus
  dsimp only
  refine .mk_of ?_ .auto .auto
  exact .refl _

theorem State.modCtx_rel : ∀ s a1 a2, Rel [.io] s (State.modCtx s a1 a2) := by
  intro s a1 a2
  unfold State.modCtx
  dsimp only
  refine .mk_of ?_ .auto .auto
  exact .refl _

theorem State.badFrame_rel : ∀ s a1, Rel [.evr, .io, .log] s (State.badFrame s a1) := by
  intro s a1
  unfold State.badFrame
  dsimp only
  refine .comp ?_ (State.event_rel ..) .auto
  refine .comp ?_ (State.modCtx_rel ..) .auto
  exact .refl _

theorem State.injectionMade_rel : ∀ s a1 a2, Rel [.io] s (State.injectionMade s a1 a2) := by
  intro s a1 a2
  unfold State.injectionMade
  dsimp only
  refine .comp ?_ (State.modCrocus_rel ..) .auto
  exact .refl _

theorem State.modPort_rel : ∀ s a1 a2, Rel [.io] s (State.modPort s a1 a2) := by
  intro s a1 a2
  unfold State.modPort
  dsimp only
  refine .mk_of ?_ .auto .auto
  exact .refl _

theorem State.sends_rel : ∀ s a1 a2, Rel [.io] s (State.sends s a1 a2) := by
  intro s a1 a2
  unfold State.sends
  refine .comp ?_ (State.modPort_rel ..) .auto
  exact .refl _

theorem State.crocusInjectionEnd_rel : ∀ s a1, Rel [.io] s (State.crocusInjectionEnd s a1) := by
  intro s a1
  unfold State.crocusInjectionEnd
  dsimp only
  split
  · refine .ite (fun _ => ?_) (fun _ => ?_)
    · refine .comp ?_ (State.injectionMade_rel ..) .auto
      refine .comp ?_ (State.sends_rel ..) .auto
      exact .refl _
    · exact .refl _
  · exact .refl _

theorem State.modCam_rel : ∀ s a1 a2, Rel [.io] s (State.modCam s a1 a2) := by
  intro s a1 a2
  unfold State.modCam
  dsimp only
  refine .mk_of ?_ .auto .auto
  exact .refl _

theorem State.noteStamp_rel : ∀ s a1 a2, Rel [.io] s (State.noteStamp s a1 a2) := by
  intro s a1 a2
  unfold State.noteStamp
  refine .comp ?_ (State.modCam_rel ..) .auto
  exact .refl _

theorem State.deferral_rel : ∀ s a1, Rel [.evr, .io, .collected, .log] s (State.deferral s a1) := by
  intro s a1
  unfold State.deferral
  dsimp only
  refine .ite (fun _ => ?_) (fun _ => ?_)
  · refine .comp ?_ (State.addDoubt_rel ..) .auto
    refine .comp ?_ (State.event_rel ..) .auto
    refine .comp ?_ (State.modCrocus_rel ..) .auto
    exact .refl _
  · refine .comp ?_ (State.event_rel ..) .auto
    refine .comp ?_ (State.modCrocus_rel ..) .auto
    exact .refl _

theorem State.crocusInjectionStart_rel : ∀ s a1, Rel [.evr, .io, .collected, .log] s (State.crocusInjectionStart s a1) := by
  intro s a1
  unfold State.crocusInjectionStart
  dsimp only
  split
  · refine .ite (fun _ => ?_) (fun _ => ?_)
    · refine .ite (fun _ => ?_) (fun _ => ?_)
      · refine .ite (fun _ => ?_) (fun _ => ?_)
        · refine .comp ?_ (State.noteStamp_rel ..) .auto
          refine .comp ?_ (State.sends_rel ..) .auto
          refine .comp ?_ (State.modCrocus_rel ..) .auto
          exact .refl _
        · refine .comp ?_ (State.sends_rel ..) .auto
          refine .comp ?_ (State.modCrocus_rel ..) .auto
          exact .refl _
      · refine .comp ?_ (State.deferral_rel ..) .auto
        exact .refl _
    · exact .refl _
  · exact .refl _

theorem State.header_rel : ∀ s a1 a2, Rel [.io] s (State.header s a1 a2) := by
  intro s a1 a2
  unfold State.header
  dsimp only
  split
  · exact .refl _
  · refine .comp ?_ (State.modPort_rel ..) .auto
    exact .refl _
  · refine .foldl ?_ ?_
    · refine .comp ?_ (State.modPort_rel ..) .auto
      exact .refl _
    · intro _ _
      beta_reduce
      refine .comp ?_ (State.modCtx_rel ..) .auto
      exact .refl _

theorem State.crocusFrameStart_rel : ∀ s a1, Rel [.evr, .io, .collected, .log] s (State.crocusFrameStart s a1) := by
  intro s a1
  unfold State.crocusFrameStart
  dsimp only
  refine .ite (fun _ => ?_) (fun _ => ?_)
  · refine .comp ?_ (State.modCrocus_rel ..) .auto
    refine .ite (fun _ => ?_) (fun _ => ?_)
    · refine .comp ?_ (State.deferral_rel ..) .auto
      exact .refl _
    · exact .refl _
  · refine .ite (fun _ => ?_) (fun _ => ?_)
    · refine .comp ?_ (State.deferral_rel ..) .auto
      refine .comp ?_ (State.modCrocus_rel ..) .auto
      refine .ite (fun _ => ?_) (fun _ => ?_)
      · refine .comp ?_ (State.deferral_rel ..) .auto
        exact .refl _
      · exact .refl _
    · refine .comp ?_ (State.modCrocus_rel ..) .auto
      refine .comp ?_ (State.modCrocus_rel ..) .auto
      refine .ite (fun _ => ?_) (fun _ => ?_)
      · refine .comp ?_ (State.deferral_rel ..) .auto
        exact .refl _
      · exact .refl _

theorem State.crocusStagingDone_rel : ∀ s a1, Rel [.fc, .evr, .so, .io, .freeCtr, .collected, .irq, .log] s (State.crocusStagingDone s a1) := by
  intro s a1
  unfold State.crocusStagingDone
  dsimp only
  split
  · exact .refl _
  · refine .ite (fun _ => ?_) (fun _ => ?_)
    · refine .comp ?_ (State.modCrocus_rel ..) .auto
      exact .refl _
    · refine .comp ?_ (State.deferral_rel ..) .auto
      refine .comp ?_ (State.modCrocus_rel ..) .auto
      refine .comp ?_ (State.raise_rel ..) .auto
      refine .comp ?_ (State.freed_rel ..) .auto
      exact .refl _

theorem State.ctxFrameEnd_rel : ∀ s a1 a2, Rel [.evr, .io, .log] s (State.ctxFrameEnd s a1 a2) := by
  intro s a1 a2
  unfold State.ctxFrameEnd
  dsimp only
  refine .ite (fun _ => ?_) (fun _ => ?_)
  · refine .ite (fun _ => ?_) (fun _ => ?_)
    · refine .comp ?_ (State.modCtx_rel ..) .auto
      refine .comp ?_ (State.modCtx_rel ..) .auto
      exact .refl _
    · refine .comp ?_ (State.badFrame_rel ..) .auto
      refine .comp ?_ (State.modCtx_rel ..) .auto
      exact .refl _
  · exact .refl _

theorem State.csiFrameEnd_rel : ∀ s a1 a2 a3 a4, Rel [.evr, .io, .collected, .log] s (State.csiFrameEnd s a1 a2 a3 a4) := by
  intro s a1 a2 a3 a4
  unfold State.csiFrameEnd
  dsimp only
  refine .ite (fun _ => ?_) (fun _ => ?_)
  · refine .ite (fun _ => ?_) (fun _ => ?_)
    · refine .comp ?_ (State.header_rel ..) .auto
      exact .refl _
    · refine .ite (fun _ => ?_) (fun _ => ?_)
      · refine .ite (fun _ => ?_) (fun _ => ?_)
        · split
          · refine .ite (fun _ => ?_) (fun _ => ?_)
            · refine .comp ?_ (State.injectionMade_rel ..) .auto
              refine .comp ?_ (State.modCrocus_rel ..) .auto
              refine .comp ?_ (State.sends_rel ..) .auto
              refine .comp ?_ (State.modPort_rel ..) .auto
              refine .foldl ?_ ?_
              · refine .comp ?_ (State.header_rel ..) .auto
                exact .refl _
              · intro _ _
                beta_reduce
                refine .comp ?_ (State.ctxFrameEnd_rel ..) .auto
                exact .refl _
            · refine .comp ?_ (State.modCrocus_rel ..) .auto
              refine .comp ?_ (State.sends_rel ..) .auto
              refine .comp ?_ (State.modPort_rel ..) .auto
              refine .foldl ?_ ?_
              · refine .comp ?_ (State.header_rel ..) .auto
                exact .refl _
              · intro _ _
                beta_reduce
                refine .comp ?_ (State.ctxFrameEnd_rel ..) .auto
                exact .refl _
          · refine .ite (fun _ => ?_) (fun _ => ?_)
            · refine .comp ?_ (State.deferral_rel ..) .auto
              refine .comp ?_ (State.modCrocus_rel ..) .auto
              refine .comp ?_ (State.sends_rel ..) .auto
              refine .comp ?_ (State.modPort_rel ..) .auto
              refine .foldl ?_ ?_
              · refine .comp ?_ (State.header_rel ..) .auto
                exact .refl _
              · intro _ _
                beta_reduce
                refine .comp ?_ (State.ctxFrameEnd_rel ..) .auto
                exact .refl _
            · refine .comp ?_ (State.modCrocus_rel ..) .auto
              refine .comp ?_ (State.sends_rel ..) .auto
              refine .comp ?_ (State.modPort_rel ..) .auto
              refine .foldl ?_ ?_
              · refine .comp ?_ (State.header_rel ..) .auto
                exact .refl _
              · intro _ _
                beta_reduce
                refine .comp ?_ (State.ctxFrameEnd_rel ..) .auto
                exact .refl _
        · refine .comp ?_ (State.sends_rel ..) .auto
          refine .comp ?_ (State.modPort_rel ..) .auto
          refine .foldl ?_ ?_
          · refine .comp ?_ (State.header_rel ..) .auto
            exact .refl _
          · intro _ _
            beta_reduce
            refine .comp ?_ (State.ctxFrameEnd_rel ..) .auto
            exact .refl _
      · refine .foldl ?_ ?_
        · refine .comp ?_ (State.header_rel ..) .auto
          exact .refl _
        · intro _ _
          beta_reduce
          refine .comp ?_ (State.ctxFrameEnd_rel ..) .auto
          exact .refl _
  · exact .refl _

theorem State.ctxFrameStart_rel : ∀ s a1 a2, Rel [.evr, .io, .log] s (State.ctxFrameStart s a1 a2) := by
  intro s a1 a2
  unfold State.ctxFrameStart
  dsimp only
  refine .comp ?_ (State.modCtx_rel ..) .auto
  refine .ite (fun _ => ?_) (fun _ => ?_)
  · refine .comp ?_ (State.badFrame_rel ..) .auto
    refine .comp ?_ (State.modCtx_rel ..) .auto
    exact .refl _
  · exact .refl _

theorem State.crocusAbort_rel : ∀ s p, Rel [.evr, .io, .collected, .log] s (State.crocusAbort s p).1 := by
  intro s p
  unfold State.crocusAbort
  dsimp only
  split
  · exact .comp (.comp (.refl _) (State.modCrocus_rel ..) .auto) (State.deferral_rel ..) .auto
  · exact .refl _

theorem State.maybeAbort_rel (s : State) (c : Prop) [Decidable c] (p : Nat) : Rel [.evr, .io, .collected, .log] s (if c then s.crocusAbort p else (s, [])).1 := by
  split
  · exact State.crocusAbort_rel ..
  · exact .refl _

theorem State.csiFrameStart_rel : ∀ s a1 a2 a3 a4, Rel [.evr, .io, .collected, .log] s (State.csiFrameStart s a1 a2 a3 a4) := by
  intro s a1 a2 a3 a4
  unfold State.csiFrameStart
  dsimp only
  refine .ite (fun _ => ?_) (fun _ => ?_)
  · refine .ite (fun _ => ?_) (fun _ => ?_)
    · refine .comp ?_ (State.header_rel ..) .auto
      exact .refl _
    · refine .ite (fun _ => ?_) (fun _ => ?_)
      · split
        · refine .ite (fun _ => ?_) (fun _ => ?_)
          · refine .comp ?_ (State.noteStamp_rel ..) .auto
            refine .comp ?_ (State.sends_rel ..) .auto
            refine .ite (fun _ => ?_) (fun _ => ?_)
            · refine .comp ?_ (State.modCrocus_rel ..) .auto
              refine .comp ?_ (State.modPort_rel ..) .auto
              refine .ite (fun _ => ?_) (fun _ => ?_)
              · refine .comp ?_ (State.crocusFrameStart_rel ..) .auto
                refine .comp ?_ (State.maybeAbort_rel ..) .auto
                refine .foldl ?_ ?_
                · exact .comp (.refl _) (State.header_rel ..) .auto
                · exact fun _ _ => .comp (.refl _) (State.ctxFrameStart_rel ..) .auto
              · refine .comp ?_ (State.maybeAbort_rel ..) .auto
                refine .foldl ?_ ?_
                · exact .comp (.refl _) (State.header_rel ..) .auto
                · exact fun _ _ => .comp (.refl _) (State.ctxFrameStart_rel ..) .auto
            · refine .comp ?_ (State.modPort_rel ..) .auto
              refine .ite (fun _ => ?_) (fun _ => ?_)
              · refine .comp ?_ (State.crocusFrameStart_rel ..) .auto
                refine .comp ?_ (State.maybeAbort_rel ..) .auto
                refine .foldl ?_ ?_
                · exact .comp (.refl _) (State.header_rel ..) .auto
                · exact fun _ _ => .comp (.refl _) (State.ctxFrameStart_rel ..) .auto
              · refine .comp ?_ (State.maybeAbort_rel ..) .auto
                refine .foldl ?_ ?_
                · exact .comp (.refl _) (State.header_rel ..) .auto
                · exact fun _ _ => .comp (.refl _) (State.ctxFrameStart_rel ..) .auto
          · refine .comp ?_ (State.sends_rel ..) .auto
            refine .comp ?_ (State.modPort_rel ..) .auto
            refine .ite (fun _ => ?_) (fun _ => ?_)
            · refine .comp ?_ (State.crocusFrameStart_rel ..) .auto
              refine .comp ?_ (State.maybeAbort_rel ..) .auto
              refine .foldl ?_ ?_
              · exact .comp (.refl _) (State.header_rel ..) .auto
              · exact fun _ _ => .comp (.refl _) (State.ctxFrameStart_rel ..) .auto
            · refine .comp ?_ (State.maybeAbort_rel ..) .auto
              refine .foldl ?_ ?_
              · exact .comp (.refl _) (State.header_rel ..) .auto
              · exact fun _ _ => .comp (.refl _) (State.ctxFrameStart_rel ..) .auto
        · refine .comp ?_ (State.sends_rel ..) .auto
          refine .comp ?_ (State.modPort_rel ..) .auto
          refine .ite (fun _ => ?_) (fun _ => ?_)
          · refine .comp ?_ (State.crocusFrameStart_rel ..) .auto
            refine .comp ?_ (State.maybeAbort_rel ..) .auto
            refine .foldl ?_ ?_
            · exact .comp (.refl _) (State.header_rel ..) .auto
            · exact fun _ _ => .comp (.refl _) (State.ctxFrameStart_rel ..) .auto
          · refine .comp ?_ (State.maybeAbort_rel ..) .auto
            refine .foldl ?_ ?_
            · exact .comp (.refl _) (State.header_rel ..) .auto
            · exact fun _ _ => .comp (.refl _) (State.ctxFrameStart_rel ..) .auto
      · refine .ite (fun _ => ?_) (fun _ => ?_)
        · refine .comp ?_ (State.crocusFrameStart_rel ..) .auto
          refine .comp ?_ (State.maybeAbort_rel ..) .auto
          refine .foldl ?_ ?_
          · exact .comp (.refl _) (State.header_rel ..) .auto
          · exact fun _ _ => .comp (.refl _) (State.ctxFrameStart_rel ..) .auto
        · refine .comp ?_ (State.maybeAbort_rel ..) .auto
          refine .foldl ?_ ?_
          · exact .comp (.refl _) (State.header_rel ..) .auto
          · exact fun _ _ => .comp (.refl _) (State.ctxFrameStart_rel ..) .auto
  · exact .refl _

theorem State.ctxLine_rel : ∀ s a1 a2, Rel [.io] s (State.ctxLine s a1 a2) := by
  intro s a1 a2
  unfold State.ctxLine
  dsimp only
  refine .comp ?_ (State.modCtx_rel ..) .auto
  exact .refl _

theorem State.margin_rel : ∀ s a1 a2 a3 a4 a5, Rel [.evr, .io, .collected, .log] s (State.margin s a1 a2 a3 a4 a5).1 := by
  intro s a1 a2 a3 a4 a5
  unfold State.margin
  dsimp only
  split
  · split
    · split
      · split
        · exact .comp (.refl _) (State.modCrocus_rel ..) .auto
        · split <;> exact .refl _
      · exact .refl _
    · split
      · exact .comp (.refl _) (State.deferral_rel ..) .auto
      · exact .refl _
  · exact .refl _

theorem State.csiLong_rel : ∀ s a1 a2, Rel [.evr, .io, .collected, .log] s (State.csiLong s a1 a2) := by
  intro s a1 a2
  unfold State.csiLong
  dsimp only
  refine .ite (fun _ => ?_) (fun _ => ?_)
  · refine .ite (fun _ => ?_) (fun _ => ?_)
    · refine .comp ?_ (State.header_rel ..) .auto
      exact .refl _
    · refine .ite (fun _ => ?_) (fun _ => ?_)
      · refine .foldl ?_ ?_
        · refine .ite (fun _ => ?_) (fun _ => ?_)
          · refine .ite (fun _ => ?_) (fun _ => ?_)
            · refine .comp ?_ (State.modPort_rel ..) .auto
              refine .comp ?_ (State.header_rel ..) .auto
              exact .refl _
            · refine .comp ?_ (State.header_rel ..) .auto
              exact .refl _
          · refine .comp ?_ (State.modPort_rel ..) .auto
            refine .ite (fun _ => ?_) (fun _ => ?_)
            · refine .comp ?_ (State.modPort_rel ..) .auto
              refine .comp ?_ (State.header_rel ..) .auto
              exact .refl _
            · refine .comp ?_ (State.header_rel ..) .auto
              exact .refl _
        · intro _ _
          beta_reduce
          refine .ite (fun _ => ?_) (fun _ => ?_)
          · refine .ite (fun _ => ?_) (fun _ => ?_)
            · refine .comp ?_ (State.ctxLine_rel ..) .auto
              refine .ite (fun _ => ?_) (fun _ => ?_)
              · exact .refl _
              · refine .comp ?_ (State.modCtx_rel ..) .auto
                exact .refl _
            · refine .ite (fun _ => ?_) (fun _ => ?_)
              · exact .refl _
              · refine .comp ?_ (State.modCtx_rel ..) .auto
                exact .refl _
          · exact .refl _
      · refine .comp ?_ (State.sends_rel ..) .auto
        refine .comp ?_ (State.margin_rel ..) .auto
        refine .foldl ?_ ?_
        · refine .ite (fun _ => ?_) (fun _ => ?_)
          · refine .ite (fun _ => ?_) (fun _ => ?_)
            · exact .comp (.comp (.refl _) (State.header_rel ..) .auto) (State.modPort_rel ..) .auto
            · exact .comp (.refl _) (State.header_rel ..) .auto
          · refine .comp ?_ (State.modPort_rel ..) .auto
            refine .ite (fun _ => ?_) (fun _ => ?_)
            · exact .comp (.comp (.refl _) (State.header_rel ..) .auto) (State.modPort_rel ..) .auto
            · exact .comp (.refl _) (State.header_rel ..) .auto
        · intro _ _
          beta_reduce
          refine .ite (fun _ => ?_) (fun _ => ?_)
          · refine .ite (fun _ => ?_) (fun _ => ?_)
            · refine .comp ?_ (State.ctxLine_rel ..) .auto
              refine .ite (fun _ => ?_) (fun _ => ?_)
              · exact .refl _
              · exact .comp (.refl _) (State.modCtx_rel ..) .auto
            · refine .ite (fun _ => ?_) (fun _ => ?_)
              · exact .refl _
              · exact .comp (.refl _) (State.modCtx_rel ..) .auto
          · exact .refl _
  · exact .refl _

theorem State.csiShort_rel : ∀ s a1 a2 a3 a4 a5, Rel [.io] s (State.csiShort s a1 a2 a3 a4 a5) := by
  intro s a1 a2 a3 a4 a5
  unfold State.csiShort
  dsimp only
  refine .ite (fun _ => ?_) (fun _ => ?_)
  · refine .ite (fun _ => ?_) (fun _ => ?_)
    · refine .comp ?_ (State.header_rel ..) .auto
      exact .refl _
    · refine .ite (fun _ => ?_) (fun _ => ?_)
      · refine .comp ?_ (State.sends_rel ..) .auto
        refine .comp ?_ (State.header_rel ..) .auto
        exact .refl _
      · refine .comp ?_ (State.header_rel ..) .auto
        exact .refl _
  · exact .refl _

theorem State.floorCycleStart_rel : ∀ s, Rel [.sched, .flr] s (State.floorCycleStart s) := by
  intro s
  unfold State.floorCycleStart
  dsimp only
  refine .ite (fun _ => ?_) (fun _ => ?_)
  · refine .mk_of ?_ .auto .auto
    exact .refl _
  · exact .refl _

theorem State.forwardFail_rel : ∀ s a1, Rel [.fc, .evr, .so, .io, .freeCtr, .collected, .irq, .log] s (State.forwardFail s a1) := by
  intro s a1
  unfold State.forwardFail
  dsimp only
  refine .ite (fun _ => ?_) (fun _ => ?_)
  · refine .comp ?_ (State.modCrocus_rel ..) .auto
    refine .comp ?_ (State.modPort_rel ..) .auto
    refine .comp ?_ (State.sends_rel ..) .auto
    refine .comp ?_ (State.raise_rel ..) .auto
    refine .comp ?_ (State.freed_rel ..) .auto
    exact .refl _
  · refine .ite (fun _ => ?_) (fun _ => ?_)
    · refine .comp ?_ (State.modPort_rel ..) .auto
      refine .comp ?_ (State.raise_rel ..) .auto
      refine .comp ?_ (State.freed_rel ..) .auto
      exact .refl _
    · exact .refl _

theorem State.rxLockChange_rel : ∀ s a1 a2, Rel [.io] s (State.rxLockChange s a1 a2) := by
  intro s a1 a2
  unfold State.rxLockChange
  refine .ite (fun _ => ?_) (fun _ => ?_)
  · refine .comp ?_ (State.modPort_rel ..) .auto
    exact .refl _
  · exact .refl _

end Sys2Proof.Machine
end

