-- ==== Sys2Proof/Laws/RelClaims.lean ====
section
/-!
SUPPORT. What each operation of Machine/Claims.lean leaves unchanged, and that it keeps the invariants.
-/
namespace Sys2Proof.Machine

set_option Elab.async false

theorem State.answerBad_rel : ∀ s a1 a2, Rel [.evr, .io, .collected, .log] s (State.answerBad s a1 a2) := by
  intro s a1 a2
  unfold State.answerBad
  dsimp only
  refine .comp ?_ (State.addDoubt_rel ..) .auto
  refine .comp ?_ (State.event_rel ..) .auto
  refine .comp ?_ (State.modCrocus_rel ..) .auto
  exact .refl _

theorem State.modClaim_rel : ∀ s a1 a2, Rel [.io] s (State.modClaim s a1 a2) := by
  intro s a1 a2
  unfold State.modClaim
  dsimp only
  refine .mk_of ?_ .auto .auto
  exact .refl _

theorem State.claimAgeExpiry_rel : ∀ s a1, Rel [.wd, .evr, .pwr, .io, .collected, .irq, .log] s (State.claimAgeExpiry s a1) := by
  intro s a1
  unfold State.claimAgeExpiry
  dsimp only
  refine .ite (fun _ => ?_) (fun _ => ?_)
  · refine .comp ?_ (State.addDoubt_rel ..) .auto
    refine .ite (fun _ => ?_) (fun _ => ?_)
    · exact .refl _
    · refine .ite (fun _ => ?_) (fun _ => ?_)
      · refine .comp ?_ (State.wakeRequest_rel ..) .auto
        refine .comp ?_ (State.event_rel ..) .auto
        refine .comp ?_ (State.modClaim_rel ..) .auto
        exact .refl _
      · refine .comp ?_ (State.event_rel ..) .auto
        refine .comp ?_ (State.modClaim_rel ..) .auto
        exact .refl _
  · refine .ite (fun _ => ?_) (fun _ => ?_)
    · exact .refl _
    · refine .ite (fun _ => ?_) (fun _ => ?_)
      · refine .comp ?_ (State.wakeRequest_rel ..) .auto
        refine .comp ?_ (State.event_rel ..) .auto
        refine .comp ?_ (State.modClaim_rel ..) .auto
        exact .refl _
      · refine .comp ?_ (State.event_rel ..) .auto
        refine .comp ?_ (State.modClaim_rel ..) .auto
        exact .refl _

theorem State.verdictBatch_rel : ∀ s a1, Rel [.io] s (State.verdictBatch s a1) := by
  intro s a1
  unfold State.verdictBatch
  dsimp only
  split
  · refine .ite (fun _ => ?_) (fun _ => ?_)
    · refine .ite (fun _ => ?_) (fun _ => ?_)
      · generalize hx : (State.sends _ _ _ : State) = u
        refine .mk_of ?_ .auto .auto
        subst hx
        refine .comp ?_ (State.sends_rel ..) .auto
        exact .refl _
      · refine .mk_of ?_ .auto .auto
        exact .refl _
    · exact .refl _
  · exact .refl _

theorem State.verdictExpire_rel : ∀ s, Rel [.io] s (State.verdictExpire s) := by
  intro s
  unfold State.verdictExpire
  refine .ite (fun _ => ?_) (fun _ => ?_)
  · refine .comp ?_ (State.verdictBatch_rel ..) .auto
    exact .refl _
  · exact .refl _

theorem State.crocusDeadlineDue_rel : ∀ s a1, Rel [.evr, .io, .collected, .log] s (State.crocusDeadlineDue s a1) := by
  intro s a1
  unfold State.crocusDeadlineDue
  split
  · refine .ite (fun _ => ?_) (fun _ => ?_)
    · refine .comp ?_ (State.answerBad_rel ..) .auto
      exact .refl _
    · exact .refl _
  · exact .refl _

theorem State.claimsOnArming_rel : ∀ s, Rel [.io] s (State.claimsOnArming s) := by
  intro s
  unfold State.claimsOnArming
  dsimp only
  refine .mk_of ?_ .auto .auto
  exact .refl _

theorem State.verdictWordIn_rel : ∀ s, Rel [.io] s (State.verdictWordIn s) := by
  intro s
  unfold State.verdictWordIn
  dsimp only
  refine .ite (fun _ => ?_) (fun _ => ?_)
  · refine .mk_of ?_ .auto .auto
    exact .refl _
  · exact .refl _

theorem State.modCvu_rel : ∀ s a1 a2, Rel [.io] s (State.modCvu s a1 a2) := by
  intro s a1 a2
  unfold State.modCvu
  dsimp only
  refine .mk_of ?_ .auto .auto
  exact .refl _

theorem State.cvuAlive_rel : ∀ s a1 a2 a3, Rel [.evr, .io, .log] s (State.cvuAlive s a1 a2 a3) := by
  intro s a1 a2 a3
  unfold State.cvuAlive
  refine .ite (fun _ => ?_) (fun _ => ?_)
  · refine .ite (fun _ => ?_) (fun _ => ?_)
    · refine .comp ?_ (State.modCvu_rel ..) .auto
      exact .refl _
    · refine .ite (fun _ => ?_) (fun _ => ?_)
      · exact .refl _
      · refine .comp ?_ (State.ignoredWrite_rel ..) .auto
        exact .refl _
  · exact .refl _

theorem State.cvuFeed_rel : ∀ s a1 a2 a3 a4, Rel [.fc, .evr, .so, .io, .freeCtr, .collected, .irq, .log] s (State.cvuFeed s a1 a2 a3 a4) := by
  intro s a1 a2 a3 a4
  unfold State.cvuFeed
  dsimp only
  refine .ite (fun _ => ?_) (fun _ => ?_)
  · refine .ite (fun _ => ?_) (fun _ => ?_)
    · refine .ite (fun _ => ?_) (fun _ => ?_)
      · refine .comp ?_ (State.modCvu_rel ..) .auto
        exact .refl _
      · refine .ite (fun _ => ?_) (fun _ => ?_)
        · refine .comp ?_ (State.raise_rel ..) .auto
          refine .comp ?_ (State.freed_rel ..) .auto
          refine .comp ?_ (State.event_rel ..) .auto
          refine .comp ?_ (State.modCvu_rel ..) .auto
          refine .comp ?_ (State.freed_rel ..) .auto
          exact .refl _
        · refine .comp ?_ (State.event_rel ..) .auto
          refine .comp ?_ (State.modCvu_rel ..) .auto
          refine .comp ?_ (State.freed_rel ..) .auto
          exact .refl _
    · refine .ite (fun _ => ?_) (fun _ => ?_)
      · exact .refl _
      · refine .comp ?_ (State.ignoredWrite_rel ..) .auto
        exact .refl _
  · exact .refl _

theorem State.claimFails_rel : ∀ s a1 a2 a3 a4, Rel [.evr, .io, .collected, .log] s (State.claimFails s a1 a2 a3 a4) := by
  intro s a1 a2 a3 a4
  unfold State.claimFails
  dsimp only
  refine .comp ?_ (State.addDoubt_rel ..) .auto
  refine .comp ?_ (State.event_rel ..) .auto
  generalize hx : (State.modCam _ _ _ : State) = u
  refine .mk_of ?_ .auto .auto
  subst hx
  refine .comp ?_ (State.modCam_rel ..) .auto
  refine .comp ?_ (State.modClaim_rel ..) .auto
  exact .refl _

theorem State.crocusAnswer_rel : ∀ s a1 a2 a3, Rel [.evr, .io, .collected, .log] s (State.crocusAnswer s a1 a2 a3) := by
  intro s a1 a2 a3
  unfold State.crocusAnswer
  split
  · exact .refl _
  · split
    · refine .ite (fun _ => ?_) (fun _ => ?_)
      · refine .ite (fun _ => ?_) (fun _ => ?_)
        · refine .comp ?_ (State.modCrocus_rel ..) .auto
          exact .refl _
        · refine .comp ?_ (State.answerBad_rel ..) .auto
          exact .refl _
      · exact .refl _
    · exact .refl _

theorem State.claimFrameEnd_rel : ∀ s a1 a2, Rel [.evr, .grid, .io, .collected, .log] s (State.claimFrameEnd s a1 a2) := by
  intro s a1 a2
  unfold State.claimFrameEnd
  dsimp only
  refine .ite (fun _ => ?_) (fun _ => ?_)
  · refine .comp ?_ (State.modCam_rel ..) .auto
    exact .refl _
  · refine .ite (fun _ => ?_) (fun _ => ?_)
    · refine .comp ?_ (State.crocusAnswer_rel ..) .auto
      refine .comp ?_ (State.modCam_rel ..) .auto
      refine .comp ?_ (State.modClaim_rel ..) .auto
      refine .comp ?_ (State.modCam_rel ..) .auto
      exact .refl _
    · generalize hx : (State.modCam _ _ _ : State) = u
      refine .mk_of ?_ .auto .auto
      subst hx
      refine .comp ?_ (State.modCam_rel ..) .auto
      refine .comp ?_ (State.modClaim_rel ..) .auto
      refine .comp ?_ (State.modCam_rel ..) .auto
      exact .refl _

theorem State.claimItems_rel : ∀ s a1 a2, Rel [.grid, .io] s (State.claimItems s a1 a2) := by
  intro s a1 a2
  unfold State.claimItems
  dsimp only
  refine .ite (fun _ => ?_) (fun _ => ?_)
  · refine .comp ?_ (State.modCam_rel ..) .auto
    exact .refl _
  · generalize hx : (State.modCam _ _ _ : State) = u
    refine .mk_of ?_ .auto .auto
    subst hx
    refine .comp ?_ (State.modCam_rel ..) .auto
    exact .refl _

theorem State.claimRecord_rel : ∀ s a1 a2, Rel [.evr, .grid, .io, .collected, .log] s (State.claimRecord s a1 a2) := by
  intro s a1 a2
  unfold State.claimRecord
  dsimp only
  refine .ite (fun _ => ?_) (fun _ => ?_)
  · refine .ite (fun _ => ?_) (fun _ => ?_)
    · refine .comp ?_ (State.claimFails_rel ..) .auto
      refine .ite (fun _ => ?_) (fun _ => ?_)
      · refine .comp ?_ (State.header_rel ..) .auto
        exact .refl _
      · refine .comp ?_ (State.modPort_rel ..) .auto
        refine .comp ?_ (State.header_rel ..) .auto
        exact .refl _
    · refine .ite (fun _ => ?_) (fun _ => ?_)
      · refine .comp ?_ (State.claimFails_rel ..) .auto
        refine .ite (fun _ => ?_) (fun _ => ?_)
        · refine .comp ?_ (State.header_rel ..) .auto
          exact .refl _
        · refine .comp ?_ (State.modPort_rel ..) .auto
          refine .comp ?_ (State.header_rel ..) .auto
          exact .refl _
      · refine .ite (fun _ => ?_) (fun _ => ?_)
        · refine .comp ?_ (State.claimFails_rel ..) .auto
          refine .ite (fun _ => ?_) (fun _ => ?_)
          · refine .comp ?_ (State.header_rel ..) .auto
            exact .refl _
          · refine .comp ?_ (State.modPort_rel ..) .auto
            refine .comp ?_ (State.header_rel ..) .auto
            exact .refl _
        · refine .ite (fun _ => ?_) (fun _ => ?_)
          · refine .comp ?_ (State.claimFails_rel ..) .auto
            refine .comp ?_ (State.modClaim_rel ..) .auto
            refine .ite (fun _ => ?_) (fun _ => ?_)
            · refine .comp ?_ (State.header_rel ..) .auto
              exact .refl _
            · refine .comp ?_ (State.modPort_rel ..) .auto
              refine .comp ?_ (State.header_rel ..) .auto
              exact .refl _
          · refine .ite (fun _ => ?_) (fun _ => ?_)
            · refine .comp ?_ (State.claimFails_rel ..) .auto
              refine .comp ?_ (State.modClaim_rel ..) .auto
              refine .ite (fun _ => ?_) (fun _ => ?_)
              · refine .comp ?_ (State.header_rel ..) .auto
                exact .refl _
              · refine .comp ?_ (State.modPort_rel ..) .auto
                refine .comp ?_ (State.header_rel ..) .auto
                exact .refl _
            · refine .ite (fun _ => ?_) (fun _ => ?_)
              · refine .comp ?_ (State.claimFrameEnd_rel ..) .auto
                refine .comp ?_ (State.modClaim_rel ..) .auto
                refine .ite (fun _ => ?_) (fun _ => ?_)
                · refine .comp ?_ (State.header_rel ..) .auto
                  exact .refl _
                · refine .comp ?_ (State.modPort_rel ..) .auto
                  refine .comp ?_ (State.header_rel ..) .auto
                  exact .refl _
              · refine .comp ?_ (State.claimItems_rel ..) .auto
                refine .comp ?_ (State.modClaim_rel ..) .auto
                refine .ite (fun _ => ?_) (fun _ => ?_)
                · refine .comp ?_ (State.header_rel ..) .auto
                  exact .refl _
                · refine .comp ?_ (State.modPort_rel ..) .auto
                  refine .comp ?_ (State.header_rel ..) .auto
                  exact .refl _
  · exact .refl _

end Sys2Proof.Machine
end

