-- ==== Sys2Proof/Laws/RelCores.lean ====
section
/-!
SUPPORT. What each operation of Machine/Cores.lean leaves unchanged, and that it keeps the invariants.
-/
namespace Sys2Proof.Machine

set_option Elab.async false

theorem State.altSwitch_rel : ∀ s, Rel [.sched, .alt] s (State.altSwitch s) := by
  intro s
  unfold State.altSwitch
  dsimp only
  split
  · refine .mk_of ?_ .auto .auto
    exact .refl _
  · split
    · refine .mk_of ?_ .auto .auto
      exact .refl _
    · refine .mk_of ?_ .auto .auto
      exact .refl _

theorem State.avsTargetChange_rel : ∀ s, Rel [.pwr] s (State.avsTargetChange s) := by
  intro s
  unfold State.avsTargetChange
  dsimp only
  refine .ite (fun _ => ?_) (fun _ => ?_)
  · refine .ite (fun _ => ?_) (fun _ => ?_)
    · refine .mk_of ?_ .auto .auto
      exact .refl _
    · refine .mk_of ?_ .auto .auto
      exact .refl _
  · exact .refl _

theorem State.failRun_rel : ∀ s a1, Rel [.sched, .collected] s (State.failRun s a1) := by
  intro s a1
  unfold State.failRun
  dsimp only
  refine .ite (fun _ => ?_) (fun _ => ?_)
  · refine .comp ?_ (State.addDoubt_rel ..) .auto
    refine .mk_of ?_ .auto .auto
    exact .refl _
  · refine .mk_of ?_ .auto .auto
    exact .refl _

theorem State.comparators_rel : ∀ s a1 a2, Rel [.fc, .evr, .so, .ctrl, .freeCtr, .collected, .irq, .log] s (State.comparators s a1 a2) := by
  intro s a1 a2
  unfold State.comparators
  dsimp only
  refine .ite (fun _ => ?_) (fun _ => ?_)
  · exact .refl _
  · refine .ite (fun _ => ?_) (fun _ => ?_)
    · refine .mk_of ?_ .auto .auto
      refine .ite (fun _ => ?_) (fun _ => ?_)
      · refine .comp ?_ (State.raise_rel ..) .auto
        refine .ite (fun _ => ?_) (fun _ => ?_)
        · refine .comp ?_ (State.raise_rel ..) .auto
          exact .refl _
        · exact .refl _
      · refine .ite (fun _ => ?_) (fun _ => ?_)
        · refine .comp ?_ (State.raise_rel ..) .auto
          exact .refl _
        · exact .refl _
    · refine .ite (fun _ => ?_) (fun _ => ?_)
      · refine .comp ?_ (State.raise_rel ..) .auto
        refine .ite (fun _ => ?_) (fun _ => ?_)
        · refine .comp ?_ (State.raise_rel ..) .auto
          exact .refl _
        · exact .refl _
      · refine .ite (fun _ => ?_) (fun _ => ?_)
        · refine .comp ?_ (State.raise_rel ..) .auto
          exact .refl _
        · exact .refl _

theorem State.modCore_rel (s : State) (a1 : Nat) (f) (hf : ∀ c, c.sram.wf = true → (f c).sram.wf = true := by exact fun _ h => h) :
    Rel [.cores] s (State.modCore s a1 f) := by
  exact .mk_of (.refl _) .auto fun h => ⟨h.word, h.outs, ⟨h.mem.gddr, vmod_forall (P := fun (x : CoreState) => x.sram.wf = true) a1 h.mem.cores hf, h.mem.engs, h.mem.plane0, h.mem.plane1, h.mem.floor, h.mem.buf⟩⟩

theorem State.coreWakeDone_rel : ∀ s a1, Rel [.cores] s (State.coreWakeDone s a1) := by
  intro s a1
  unfold State.coreWakeDone
  split
  · refine .ite (fun _ => ?_) (fun _ => ?_)
    · refine .comp ?_ (State.modCore_rel _ _ _) .auto
      exact .refl _
    · exact .refl _
  · exact .refl _

theorem State.modCoreEngs_rel (s : State) (a1 : Nat) (f) (hf : ∀ e, e.ok = true → (f e).ok = true := by exact fun _ h => h) :
    Rel [.engs] s (State.modCoreEngs s a1 f) := by
  exact .mk_of (.refl _) .auto fun h => ⟨h.word, h.outs, ⟨h.mem.gddr, h.mem.cores,
    vmapIdx_forall (P := fun (x : EngState) => x.ok = true) h.mem.engs fun k x hx => by split <;> simp [hx, hf x], h.mem.plane0, h.mem.plane1, h.mem.floor, h.mem.buf⟩⟩

theorem EngState.ok_wiped {e : EngState} (h : e.ok = true) : ({ e with sram := [] } : EngState).ok = true := by
  simp only [EngState.ok, Bool.and_eq_true] at h ⊢
  exact ⟨⟨rfl, h.1.2⟩, h.2⟩

theorem EngState.ok_writeN {e : EngState} (h : e.ok = true) (a : Nat) (bs : List Byte) :
    ({ e with sram := e.sram.writeN a bs } : EngState).ok = true := by
  simp only [EngState.ok, Bool.and_eq_true] at h ⊢
  exact ⟨⟨Mem.wf_writeN a bs h.1.1, h.1.2⟩, h.2⟩

theorem CoreState.setPower_wf {c : CoreState} {b ps : Nat} (h : c.sram.wf = true) : (c.setPower b ps).sram.wf = true := by
  unfold CoreState.setPower
  split
  · exact h
  · split
    · split <;> exact h
    · split <;> exact h
    · rfl

theorem State.setCorePower_rel : ∀ s a1 a2, Rel [.cores, .engs] s (State.setCorePower s a1 a2) := by
  intro s a1 a2
  unfold State.setCorePower
  dsimp only
  refine .ite (fun _ => ?_) (fun _ => ?_)
  · refine .comp ?_ (State.modCoreEngs_rel _ _ _ fun _ h => EngState.ok_wiped h) .auto
    refine .comp ?_ (State.modCore_rel _ _ _ fun _ h => CoreState.setPower_wf h) .auto
    exact .refl _
  · refine .comp ?_ (State.modCore_rel _ _ _ fun _ h => CoreState.setPower_wf h) .auto
    exact .refl _

theorem State.clockCore_rel : ∀ s a1, Rel [.evr, .pwr, .cores, .log] s (State.clockCore s a1) := by
  intro s a1
  unfold State.clockCore
  dsimp only
  refine .ite (fun _ => ?_) (fun _ => ?_)
  · exact .refl _
  · refine .ite (fun _ => ?_) (fun _ => ?_)
    · refine .comp ?_ (State.modCore_rel _ _ _) .auto
      exact .refl _
    · refine .ite (fun _ => ?_) (fun _ => ?_)
      · exact .refl _
      · refine .comp ?_ (State.event_rel ..) .auto
        refine .mk_of ?_ .auto .auto
        exact .refl _

theorem State.windowOpen_rel : ∀ s a1, Rel [.evr, .pwr, .cores, .engs, .log] s (State.windowOpen s a1) := by
  intro s a1
  unfold State.windowOpen
  dsimp only
  refine .ite (fun _ => ?_) (fun _ => ?_)
  · split
    · refine .comp ?_ (State.modCore_rel _ _ _) .auto
      refine .comp ?_ (State.setCorePower_rel ..) .auto
      exact .refl _
    · refine .comp ?_ (State.clockCore_rel ..) .auto
      refine .comp ?_ (State.modCore_rel _ _ _) .auto
      refine .comp ?_ (State.setCorePower_rel ..) .auto
      exact .refl _
    · exact .refl _
  · exact .refl _

theorem State.windowClose_rel : ∀ s a1, Rel [.evr, .pwr, .cores, .engs, .log] s (State.windowClose s a1) := by
  intro s a1
  unfold State.windowClose
  refine .ite (fun _ => ?_) (fun _ => ?_)
  · refine .comp ?_ (State.clockCore_rel ..) .auto
    refine .comp ?_ (State.modCore_rel _ _ _) .auto
    refine .comp ?_ (State.setCorePower_rel ..) .auto
    exact .refl _
  · exact .refl _

theorem State.windowsBeat_rel : ∀ s, Rel [.evr, .pwr, .cores, .engs, .log] s (State.windowsBeat s) := by
  intro s
  unfold State.windowsBeat
  dsimp only
  generalize hx : (List.foldl _ _ _ : State) = u
  refine .mk_of ?_ .auto .auto
  subst hx
  refine .foldl ?_ ?_
  · exact .refl _
  · intro _ _
    beta_reduce
    refine .comp ?_ (State.windowClose_rel ..) .auto
    refine .comp ?_ (State.windowOpen_rel ..) .auto
    refine .comp ?_ (State.coreWakeDone_rel ..) .auto
    exact .refl _

theorem State.coreOff_rel : ∀ s a1, Rel [.cores, .engs] s (State.coreOff s a1) := by
  intro s a1
  unfold State.coreOff
  split
  · refine .comp ?_ (State.setCorePower_rel ..) .auto
    refine .comp ?_ (State.modCore_rel _ _ _) .auto
    exact .refl _
  · exact .refl _

theorem State.coreOffBound_rel : ∀ s a1, Rel [.cores, .engs] s (State.coreOffBound s a1) := by
  intro s a1
  unfold State.coreOffBound
  split
  · refine .ite (fun _ => ?_) (fun _ => ?_)
    · refine .comp ?_ (State.coreOff_rel ..) .auto
      exact .refl _
    · exact .refl _
  · exact .refl _

theorem State.blockUntilReset_rel : ∀ s, Rel [.watch] s (State.blockUntilReset s) := by
  intro s
  unfold State.blockUntilReset
  dsimp only
  refine .mk_of ?_ .auto .auto
  exact .refl _

theorem State.loseCore_rel : ∀ s a1, Rel [.watch, .sched, .alt, .collected] s (State.loseCore s a1) := by
  intro s a1
  unfold State.loseCore
  dsimp only
  refine .ite (fun _ => ?_) (fun _ => ?_)
  · refine .comp ?_ (State.blockUntilReset_rel ..) .auto
    generalize hx : (List.foldl _ _ _ : State) = u
    refine .mk_of ?_ .auto .auto
    subst hx
    refine .foldl ?_ ?_
    · exact .refl _
    · intro _ _
      beta_reduce
      refine .comp ?_ (State.failRun_rel ..) .auto
      exact .refl _
  · split
    · refine .ite (fun _ => ?_) (fun _ => ?_)
      · generalize hx : (List.foldl _ _ _ : State) = u
        refine .mk_of ?_ .auto .auto
        subst hx
        refine .foldl ?_ ?_
        · exact .refl _
        · intro _ _
          beta_reduce
          refine .comp ?_ (State.failRun_rel ..) .auto
          exact .refl _
      · generalize hx : (List.foldl _ _ _ : State) = u
        refine .mk_of ?_ .auto .auto
        subst hx
        refine .foldl ?_ ?_
        · exact .refl _
        · intro _ _
          beta_reduce
          refine .comp ?_ (State.failRun_rel ..) .auto
          exact .refl _
    · refine .ite (fun _ => ?_) (fun _ => ?_)
      · refine .comp ?_ (State.blockUntilReset_rel ..) .auto
        generalize hx : (List.foldl _ _ _ : State) = u
        refine .mk_of ?_ .auto .auto
        subst hx
        refine .foldl ?_ ?_
        · exact .refl _
        · intro _ _
          beta_reduce
          refine .comp ?_ (State.failRun_rel ..) .auto
          exact .refl _
      · generalize hx : (List.foldl _ _ _ : State) = u
        refine .mk_of ?_ .auto .auto
        subst hx
        refine .foldl ?_ ?_
        · exact .refl _
        · intro _ _
          beta_reduce
          refine .comp ?_ (State.failRun_rel ..) .auto
          exact .refl _

theorem State.coreFault_rel : ∀ s a1 a2 a3, Rel [.fc, .evr, .watch, .so, .sched, .cores, .engs, .alt, .freeCtr, .collected, .irq, .log] s (State.coreFault s a1 a2 a3) := by
  intro s a1 a2 a3
  unfold State.coreFault
  dsimp only
  refine .ite (fun _ => ?_) (fun _ => ?_)
  · exact .refl _
  · refine .comp ?_ (State.loseCore_rel ..) .auto
    refine .comp ?_ (State.modCoreEngs_rel _ _ _) .auto
    refine .comp ?_ (State.modCore_rel _ _ _) .auto
    refine .comp ?_ (State.raiseCore_rel ..) .auto
    exact .refl _

theorem State.modEng_rel (s : State) (a1 : Nat) (f) (hf : ∀ e, e.ok = true → (f e).ok = true := by exact fun _ h => h) :
    Rel [.engs] s (State.modEng s a1 f) := by
  exact .mk_of (.refl _) .auto fun h => ⟨h.word, h.outs, ⟨h.mem.gddr, h.mem.cores, vmod_forall (P := fun (x : EngState) => x.ok = true) a1 h.mem.engs hf, h.mem.plane0, h.mem.plane1, h.mem.floor, h.mem.buf⟩⟩

theorem State.copyConst_rel : ∀ s a1 a2 a3 a4, Rel [.cores, .engs] s (State.copyConst s a1 a2 a3 a4) := by
  intro s a1 a2 a3 a4
  unfold State.copyConst
  dsimp only
  refine .ite (fun _ => ?_) (fun _ => ?_)
  · refine .comp ?_ (State.modCore_rel _ _ _ fun _ h => Mem.wf_writeN _ _ h) .auto
    exact .refl _
  · refine .ite (fun _ => ?_) (fun _ => ?_)
    · refine .comp ?_ (State.modEng_rel _ _ _ fun _ h => EngState.ok_writeN h _ _) .auto
      exact .refl _
    · exact .refl _

theorem State.constantCopyDone_rel : ∀ s a1 a2 a3, Rel [.cores, .engs, .alt] s (State.constantCopyDone s a1 a2 a3) := by
  intro s a1 a2 a3
  unfold State.constantCopyDone
  dsimp only
  refine .ite (fun _ => ?_) (fun _ => ?_)
  · split
    · generalize hx : (List.foldl _ _ _ : State) = u
      refine .mk_of ?_ .auto .auto
      subst hx
      refine .foldl ?_ ?_
      · exact .refl _
      · intro _ _
        beta_reduce
        refine .comp ?_ (State.copyConst_rel ..) .auto
        exact .refl _
    · exact .refl _
  · exact .refl _

theorem State.modChan_rel : ∀ s a1 a2, Rel [.gddr] s (State.modChan s a1 a2) := by
  intro s a1 a2
  unfold State.modChan
  refine .mk_of ?_ .auto .auto
  exact .refl _

theorem State.gddrEdc_rel : ∀ s a1 a2, Rel [.fc, .evr, .so, .gddr, .freeCtr, .collected, .irq, .log] s (State.gddrEdc s a1 a2) := by
  intro s a1 a2
  unfold State.gddrEdc
  dsimp only
  refine .ite (fun _ => ?_) (fun _ => ?_)
  · refine .comp ?_ (State.raise_rel ..) .auto
    refine .comp ?_ (State.modChan_rel ..) .auto
    refine .comp ?_ (State.freed_rel ..) .auto
    exact .refl _
  · refine .comp ?_ (State.raise_rel ..) .auto
    refine .comp ?_ (State.modChan_rel ..) .auto
    refine .comp ?_ (State.freed_rel ..) .auto
    exact .refl _

theorem State.gddrUe_rel : ∀ s a1 a2, Rel [.fc, .evr, .so, .gddr, .poison, .freeCtr, .collected, .irq, .log] s (State.gddrUe s a1 a2) := by
  intro s a1 a2
  unfold State.gddrUe
  dsimp only
  refine .comp ?_ (State.raise_rel ..) .auto
  refine .comp ?_ (State.freed_rel ..) .auto
  generalize hx : (State.modChan _ _ _ : State) = u
  refine .mk_of ?_ .auto .auto
  subst hx
  refine .comp ?_ (State.modChan_rel ..) .auto
  exact .refl _

theorem State.lockstep_rel : ∀ s a1 a2 a3, Rel [.fc, .evr, .so, .ctrl, .freeCtr, .collected, .irq, .log] s (State.lockstep s a1 a2 a3) := by
  intro s a1 a2 a3
  unfold State.lockstep
  dsimp only
  refine .ite (fun _ => ?_) (fun _ => ?_)
  · exact .refl _
  · refine .comp ?_ (State.raiseAt_rel ..) .auto
    refine .comp ?_ (State.freed_rel ..) .auto
    refine .mk_of ?_ .auto .auto
    exact .refl _

theorem State.routerError_rel : ∀ s a1 a2, Rel [.noc, .freeCtr] s (State.routerError s a1 a2) := by
  intro s a1 a2
  unfold State.routerError
  dsimp only
  refine .ite (fun _ => ?_) (fun _ => ?_)
  · generalize hx : (State.freed _ : State) = u
    refine .mk_of ?_ .auto .auto
    subst hx
    refine .comp ?_ (State.freed_rel ..) .auto
    exact .refl _
  · exact .refl _

theorem State.sramCe_rel : ∀ s a1 a2, Rel [.fc, .evr, .so, .cores, .engs, .freeCtr, .collected, .irq, .log] s (State.sramCe s a1 a2) := by
  intro s a1 a2
  unfold State.sramCe
  split
  · refine .comp ?_ (State.raiseCore_rel ..) .auto
    refine .comp ?_ (State.modEng_rel _ _ _) .auto
    exact .refl _
  · refine .comp ?_ (State.raiseCore_rel ..) .auto
    refine .comp ?_ (State.modCore_rel _ _ _) .auto
    exact .refl _

theorem State.tcmEcc_rel : ∀ s a1 a2, Rel [.fc, .evr, .so, .ctrl, .freeCtr, .collected, .irq, .log] s (State.tcmEcc s a1 a2) := by
  intro s a1 a2
  unfold State.tcmEcc
  dsimp only
  refine .ite (fun _ => ?_) (fun _ => ?_)
  · refine .comp ?_ (State.raise_rel ..) .auto
    exact .refl _
  · refine .comp ?_ (State.raise_rel ..) .auto
    refine .mk_of ?_ .auto .auto
    exact .refl _

end Sys2Proof.Machine
end

