-- ==== Sys2Proof/Laws/RelEncoders.lean ====
section
/-!
SUPPORT. What each operation of Machine/Encoders.lean leaves unchanged, and that it keeps the invariants.
-/
namespace Sys2Proof.Machine

set_option Elab.async false

theorem State.crossCheckBeat_rel : ∀ s, Rel [.enc] s (State.crossCheckBeat s) := by
  intro s
  unfold State.crossCheckBeat
  dsimp only
  split
  · refine .ite (fun _ => ?_) (fun _ => ?_)
    · refine .mk_of ?_ .auto .auto
      exact .refl _
    · refine .mk_of ?_ .auto .auto
      exact .refl _
  · exact .refl _

theorem State.takeDistance_rel : ∀ s, Rel [.enc] s (State.takeDistance s) := by
  intro s
  unfold State.takeDistance
  dsimp only
  refine .mk_of ?_ .auto .auto
  exact .refl _

theorem State.holdXchk_rel : ∀ s, Rel [.enc] s (State.holdXchk s) := by
  intro s
  unfold State.holdXchk
  dsimp only
  refine .mk_of ?_ .auto .auto
  exact .refl _

theorem State.crossCheckFault_rel : ∀ s, Rel [.fc, .evr, .enc, .so, .freeCtr, .collected, .irq, .log] s (State.crossCheckFault s) := by
  intro s
  unfold State.crossCheckFault
  dsimp only
  refine .ite (fun _ => ?_) (fun _ => ?_)
  · refine .comp ?_ (State.holdXchk_rel ..) .auto
    refine .comp ?_ (State.raise_rel ..) .auto
    refine .mk_of ?_ .auto .auto
    exact .refl _
  · exact .refl _

theorem State.encoderFault_rel : ∀ s a1, Rel [.fc, .evr, .enc, .so, .freeCtr, .collected, .irq, .log] s (State.encoderFault s a1) := by
  intro s a1
  unfold State.encoderFault
  dsimp only
  refine .ite (fun _ => ?_) (fun _ => ?_)
  · refine .comp ?_ (State.raise_rel ..) .auto
    refine .mk_of ?_ .auto .auto
    refine .ite (fun _ => ?_) (fun _ => ?_)
    · refine .comp ?_ (State.raise_rel ..) .auto
      refine .mk_of ?_ .auto .auto
      refine .ite (fun _ => ?_) (fun _ => ?_)
      · refine .comp ?_ (State.raise_rel ..) .auto
        refine .mk_of ?_ .auto .auto
        exact .refl _
      · exact .refl _
    · refine .ite (fun _ => ?_) (fun _ => ?_)
      · refine .comp ?_ (State.raise_rel ..) .auto
        refine .mk_of ?_ .auto .auto
        exact .refl _
      · exact .refl _
  · refine .ite (fun _ => ?_) (fun _ => ?_)
    · refine .comp ?_ (State.raise_rel ..) .auto
      refine .mk_of ?_ .auto .auto
      refine .ite (fun _ => ?_) (fun _ => ?_)
      · refine .comp ?_ (State.raise_rel ..) .auto
        refine .mk_of ?_ .auto .auto
        exact .refl _
      · exact .refl _
    · refine .ite (fun _ => ?_) (fun _ => ?_)
      · refine .comp ?_ (State.raise_rel ..) .auto
        refine .mk_of ?_ .auto .auto
        exact .refl _
      · exact .refl _

theorem State.measureSpeed_rel : ∀ s, Rel [.watch, .enc] s (State.measureSpeed s) := by
  intro s
  unfold State.measureSpeed
  dsimp only
  refine .mk_of ?_ .auto .auto
  exact .refl _

theorem State.encoderBeat_rel : ∀ s, Rel [.watch, .enc] s (State.encoderBeat s) := by
  intro s
  unfold State.encoderBeat
  dsimp only
  refine .comp ?_ (State.measureSpeed_rel ..) .auto
  refine .mk_of ?_ .auto .auto
  exact .refl _

end Sys2Proof.Machine
end

