-- ==== Sys2Proof/Laws/RelEnergy.lean ====
section
/-!
SUPPORT. What each operation of Machine/Energy.lean leaves unchanged, and that it keeps the invariants.
-/
namespace Sys2Proof.Machine

set_option Elab.async false

theorem State.allocCore_rel : ∀ s a1 a2, Rel [.sched] s (State.allocCore s a1 a2) := by
  intro s a1 a2
  unfold State.allocCore
  dsimp only
  refine .mk_of ?_ .auto .auto
  exact .refl _

theorem State.allocate_rel : ∀ s a1 a2, Rel [.sched] s (State.allocate s a1 a2) := by
  intro s a1 a2
  induction a2 generalizing s a1 with
  | nil => exact .refl _
  | cons x l ih =>
    unfold State.allocate
    dsimp only
    split
    · exact .comp (.comp (.refl _) (State.allocCore_rel ..) .auto) (ih ..) .auto
    · exact .refl _

theorem State.creditGrant_rel : ∀ s, Rel [.sched] s (State.creditGrant s) := by
  intro s
  unfold State.creditGrant
  dsimp only
  refine .mk_of ?_ .auto .auto
  exact .refl _

theorem State.reconcile_rel : ∀ s a1, Rel [.fc, .evr, .so, .pwr, .sched, .freeCtr, .collected, .irq, .log] s (State.reconcile s a1) := by
  intro s a1
  unfold State.reconcile
  dsimp only
  refine .ite (fun _ => ?_) (fun _ => ?_)
  · refine .comp ?_ (State.raise_rel ..) .auto
    refine .comp ?_ (State.freed_rel ..) .auto
    split
    · generalize hx : (State.freed _ : State) = u
      refine .mk_of ?_ .auto .auto
      subst hx
      refine .comp ?_ (State.freed_rel ..) .auto
      exact .refl _
    · refine .comp ?_ (State.event_rel ..) .auto
      generalize hx : (State.freed _ : State) = u
      refine .mk_of ?_ .auto .auto
      subst hx
      refine .comp ?_ (State.freed_rel ..) .auto
      exact .refl _
  · split
    · generalize hx : (State.freed _ : State) = u
      refine .mk_of ?_ .auto .auto
      subst hx
      refine .comp ?_ (State.freed_rel ..) .auto
      exact .refl _
    · refine .comp ?_ (State.event_rel ..) .auto
      generalize hx : (State.freed _ : State) = u
      refine .mk_of ?_ .auto .auto
      subst hx
      refine .comp ?_ (State.freed_rel ..) .auto
      exact .refl _

theorem State.creditReturn_rel : ∀ s, Rel [.sched] s (State.creditReturn s) := by
  intro s
  unfold State.creditReturn
  dsimp only
  refine .mk_of ?_ .auto .auto
  exact .refl _

theorem State.charge_rel : ∀ s a1 a2 a3, Rel [.sched] s (State.charge s a1 a2 a3) := by
  intro s a1 a2 a3
  unfold State.charge
  dsimp only
  refine .mk_of ?_ .auto .auto
  exact .refl _

end Sys2Proof.Machine
end

