-- ==== Sys2Proof/Laws/RelGrid.lean ====
section
/-!
SUPPORT. What each operation of Machine/Grid.lean leaves unchanged, and that it keeps the invariants.
-/
namespace Sys2Proof.Machine

set_option Elab.async false

theorem State.advanceCol_rel : ∀ s, Rel [.grid] s (State.advanceCol s) := by
  intro s
  unfold State.advanceCol
  dsimp only
  refine .mk_of ?_ .auto .auto
  exact .refl _

theorem State.modCell_rel : ∀ s a1 a2, Rel [.grid] s (State.modCell s a1 a2) := by
  intro s a1 a2
  exact .mk_of (.refl _) .auto fun h => ⟨h.word, h.outs, ⟨h.mem.gddr, h.mem.cores, h.mem.engs, Sparse.wf_put _ _ _ h.mem.plane0, h.mem.plane1, h.mem.floor, h.mem.buf⟩⟩

theorem State.gridErr_rel : ∀ s a1, Rel [.evr, .grid, .log] s (State.gridErr s a1) := by
  intro s a1
  unfold State.gridErr
  dsimp only
  refine .ite (fun _ => ?_) (fun _ => ?_)
  · exact .refl _
  · refine .comp ?_ (State.event_rel ..) .auto
    refine .mk_of ?_ .auto .auto
    exact .refl _

theorem State.checkFailed_rel : ∀ s a1, Rel [.sched, .collected] s (State.checkFailed s a1) := by
  intro s a1
  unfold State.checkFailed
  dsimp only
  refine .comp ?_ (State.addDoubt_rel ..) .auto
  refine .mk_of ?_ .auto .auto
  exact .refl _

theorem State.applyChecker_rel : ∀ s a1, Rel [.evr, .sched, .grid, .collected, .log] s (State.applyChecker s a1) := by
  intro s a1
  unfold State.applyChecker
  dsimp only
  refine .ite (fun _ => ?_) (fun _ => ?_)
  · refine .comp ?_ (State.checkFailed_rel ..) .auto
    refine .comp ?_ (State.gridErr_rel ..) .auto
    exact .refl _
  · split
    · refine .comp ?_ (State.modCell_rel ..) .auto
      refine .mk_of ?_ .auto .auto
      exact .refl _
    · exact .refl _

theorem State.applyClaim_rel : ∀ s a1, Rel [.evr, .grid, .log] s (State.applyClaim s a1) := by
  intro s a1
  unfold State.applyClaim
  dsimp only
  refine .ite (fun _ => ?_) (fun _ => ?_)
  · refine .comp ?_ (State.gridErr_rel ..) .auto
    exact .refl _
  · split
    · split
      · generalize hx : (List.foldl _ _ _ : State) = u
        refine .mk_of ?_ .auto .auto
        subst hx
        refine .foldl ?_ ?_
        · exact .refl _
        · intro _ _
          beta_reduce
          split
          · refine .comp ?_ (State.modCell_rel ..) .auto
            exact .refl _
          · exact .refl _
      · generalize hx : (List.foldl _ _ _ : State) = u
        refine .mk_of ?_ .auto .auto
        subst hx
        refine .foldl ?_ ?_
        · exact .refl _
        · intro _ _
          beta_reduce
          split
          · refine .comp ?_ (State.modCell_rel ..) .auto
            exact .refl _
          · exact .refl _
    · exact .refl _

theorem State.bandBeat_rel : ∀ s, Rel [.ev] s (State.bandBeat s) := by
  intro s
  unfold State.bandBeat
  dsimp only
  split
  · refine .mk_of ?_ .auto .auto
    exact .refl _
  · refine .mk_of ?_ .auto .auto
    exact .refl _

theorem State.bandDown_rel : ∀ s, Rel [.ev] s (State.bandDown s) := by
  intro s
  unfold State.bandDown
  dsimp only
  refine .mk_of ?_ .auto .auto
  exact .refl _

theorem State.evaluateMain_rel : ∀ s a1, Rel [.ev] s (State.evaluateMain s a1) := by
  intro s a1
  unfold State.evaluateMain
  dsimp only
  refine .mk_of ?_ .auto .auto
  exact .refl _

theorem State.fieldCheckFailed_rel : ∀ s, Rel [.sched, .collected] s (State.fieldCheckFailed s) := by
  intro s
  unfold State.fieldCheckFailed
  dsimp only
  refine .comp ?_ (State.addDoubt_rel ..) .auto
  refine .mk_of ?_ .auto .auto
  exact .refl _

theorem State.noEvaluation_rel : ∀ s, Rel [.sched, .ev, .collected] s (State.noEvaluation s) := by
  intro s
  unfold State.noEvaluation
  dsimp only
  refine .comp ?_ (State.fieldCheckFailed_rel ..) .auto
  refine .mk_of ?_ .auto .auto
  exact .refl _

theorem State.laneMismatch_rel : ∀ s, Rel [.fc, .evr, .so, .grid, .freeCtr, .collected, .irq, .log] s (State.laneMismatch s) := by
  intro s
  unfold State.laneMismatch
  refine .comp ?_ (State.raise_rel ..) .auto
  refine .comp ?_ (State.gridErr_rel ..) .auto
  exact .refl _

theorem shiftCells_wf (m : Sparse Cell) (nx ny : Int) : Sparse.wf Cell.zero (shiftCells m nx ny) = true := by
  refine Sparse.wf_foldl (fun m a h => ?_) _ rfl
  split
  · exact Sparse.wf_put _ _ _ h
  · exact h

theorem scrolled_wf (b : Bool) (m : Sparse Cell) (nx ny : Int) : Sparse.wf Cell.zero (if b then [] else shiftCells m nx ny) = true := by
  split
  · rfl
  · exact shiftCells_wf ..

theorem State.scroll_rel : ∀ s a1, Rel [.evr, .sched, .grid, .collected, .log] s (State.scroll s a1) := by
  intro s a1
  unfold State.scroll
  dsimp only
  refine .ite (fun _ => ?_) (fun _ => ?_)
  · refine .comp ?_ (State.fieldCheckFailed_rel ..) .auto
    refine .comp ?_ (State.gridErr_rel ..) .auto
    refine .mk_of ?_ .auto (.mem fun m => ⟨m.gddr, m.cores, m.engs, scrolled_wf .., shiftCells_wf .., m.floor, m.buf⟩)
    exact .refl _
  · refine .mk_of ?_ .auto (.mem fun m => ⟨m.gddr, m.cores, m.engs, scrolled_wf .., shiftCells_wf .., m.floor, m.buf⟩)
    exact .refl _

theorem State.rasterise_rel : ∀ s, Rel [.ev] s (State.rasterise s) := by
  intro s
  unfold State.rasterise
  dsimp only
  refine .mk_of ?_ .auto .auto
  exact .refl _

theorem State.objGraceExpiry_rel : ∀ s, Rel [.ev] s (State.objGraceExpiry s) := by
  intro s
  unfold State.objGraceExpiry
  dsimp only
  refine .ite (fun _ => ?_) (fun _ => ?_)
  · exact .refl _
  · refine .mk_of ?_ .auto .auto
    exact .refl _

theorem State.writeBufferRoom_rel : ∀ s, Rel [.evr, .sched, .grid, .collected, .log] s (State.writeBufferRoom s) := by
  intro s
  unfold State.writeBufferRoom
  dsimp only
  split
  · refine .ite (fun _ => ?_) (fun _ => ?_)
    · refine .comp ?_ (State.applyChecker_rel ..) .auto
      refine .mk_of ?_ .auto .auto
      exact .refl _
    · exact .refl _
  · exact .refl _

theorem State.claimWrite_rel : ∀ s, Rel [.evr, .grid, .log] s (State.claimWrite s) := by
  intro s
  unfold State.claimWrite
  dsimp only
  split
  · exact .refl _
  · refine .ite (fun _ => ?_) (fun _ => ?_)
    · refine .comp ?_ (State.applyClaim_rel ..) .auto
      refine .mk_of ?_ .auto .auto
      exact .refl _
    · refine .comp ?_ (State.gridErr_rel ..) .auto
      exact .refl _

theorem State.d0Rules_rel : ∀ s, Rel [.ev] s (State.d0Rules s) := by
  intro s
  unfold State.d0Rules
  dsimp only
  refine .mk_of ?_ .auto .auto
  exact .refl _

theorem State.objectMatch_rel : ∀ s, Rel [.grid] s (State.objectMatch s) := by
  intro s
  unfold State.objectMatch
  dsimp only
  split
  · exact .refl _
  · refine .mk_of ?_ .auto .auto
    exact .refl _

theorem State.masksReady_rel : ∀ s, Rel [.ev] s (State.masksReady s) := by
  intro s
  unfold State.masksReady
  dsimp only
  split
  · exact .refl _
  · refine .mk_of ?_ .auto .auto
    exact .refl _

theorem State.sweepComplete_rel : ∀ s, Rel [.grid] s (State.sweepComplete s) := by
  intro s
  unfold State.sweepComplete
  dsimp only
  split
  · exact .refl _
  · refine .mk_of ?_ .auto (.mem fun m => ⟨m.gddr, m.cores, m.engs, Sparse.wf_foldl (fun _ _ h => Sparse.wf_put _ _ _ h) _ rfl, m.plane0, m.floor, m.buf⟩)
    exact .refl _

theorem State.cellRulePersist_rel : ∀ s, Rel [.ev] s (State.cellRulePersist s) := by
  intro s
  unfold State.cellRulePersist
  dsimp only
  refine .ite (fun _ => ?_) (fun _ => ?_)
  · exact .refl _
  · refine .mk_of ?_ .auto .auto
    exact .refl _

theorem State.gridOnArming_rel : ∀ s, Rel [.grid, .flr] s (State.gridOnArming s) := by
  intro s
  unfold State.gridOnArming
  dsimp only
  refine .mk_of ?_ .auto (.mem fun m => ⟨m.gddr, m.cores, m.engs, rfl, rfl, rfl, m.buf⟩)
  exact .refl _

theorem State.cellUe_rel : ∀ s a1 a2, Rel [.fc, .evr, .so, .grid, .freeCtr, .collected, .irq, .log] s (State.cellUe s a1 a2) := by
  intro s a1 a2
  unfold State.cellUe
  dsimp only
  refine .comp ?_ (State.raise_rel ..) .auto
  refine .comp ?_ (State.gridErr_rel ..) .auto
  refine .ite (fun _ => ?_) (fun _ => ?_)
  · exact .mk_of (.refl _) .auto (.mem fun m => ⟨m.gddr, m.cores, m.engs, m.plane0, Sparse.wf_put _ _ _ m.plane1, m.floor, m.buf⟩)
  · exact .mk_of (.refl _) .auto (.mem fun m => ⟨m.gddr, m.cores, m.engs, Sparse.wf_put _ _ _ m.plane0, m.plane1, m.floor, m.buf⟩)

theorem State.checkerWrite_rel : ∀ s a1, Rel [.evr, .sched, .grid, .collected, .log] s (State.checkerWrite s a1) := by
  intro s a1
  unfold State.checkerWrite
  dsimp only
  refine .ite (fun _ => ?_) (fun _ => ?_)
  · refine .comp ?_ (State.applyChecker_rel ..) .auto
    exact .refl _
  · refine .comp ?_ (State.gridErr_rel ..) .auto
    refine .mk_of ?_ .auto .auto
    exact .refl _

theorem State.detectionCommit_rel : ∀ s a1 a2 a3 a4, Rel [.evr, .sched, .grid, .collected, .log] s (State.detectionCommit s a1 a2 a3 a4) := by
  intro s a1 a2 a3 a4
  unfold State.detectionCommit
  dsimp only
  refine .ite (fun _ => ?_) (fun _ => ?_)
  · refine .comp ?_ (State.checkFailed_rel ..) .auto
    refine .comp ?_ (State.gridErr_rel ..) .auto
    exact .refl _
  · refine .mk_of ?_ .auto .auto
    exact .refl _

end Sys2Proof.Machine
end

