-- ==== Sys2Proof/Laws/RelFloor.lean ====
section
/-!
SUPPORT. What each operation of Machine/Floor.lean leaves unchanged, and that it keeps the invariants.
-/
namespace Sys2Proof.Machine

set_option Elab.async false

theorem State.evaluateFloor_rel : ∀ s, Rel [.ev] s (State.evaluateFloor s) := by
  intro s
  unfold State.evaluateFloor
  dsimp only
  refine .mk_of ?_ .auto .auto
  exact .refl _

theorem State.floorTick_rel : ∀ s a1 a2, Rel [.flr] s (State.floorTick s a1 a2) := by
  intro s a1 a2
  unfold State.floorTick
  dsimp only
  refine .mk_of ?_ .auto (.mem fun m => ⟨m.gddr, m.cores, m.engs, m.plane0, m.plane1, Sparse.wf_foldl (fun _ _ h => Sparse.wf_put _ _ _ h) _ rfl, m.buf⟩)
  exact .refl _

theorem State.floorOccupancy_rel : ∀ s, Rel [.ev, .collected] s (State.floorOccupancy s) := by
  intro s
  unfold State.floorOccupancy
  dsimp only
  refine .ite (fun _ => ?_) (fun _ => ?_)
  · refine .comp ?_ (State.addTrig_rel ..) .auto
    refine .mk_of ?_ .auto .auto
    exact .refl _
  · refine .mk_of ?_ .auto .auto
    exact .refl _

theorem State.floorCellUe_rel : ∀ s a1, Rel [.fc, .evr, .so, .grid, .flr, .freeCtr, .collected, .irq, .log] s (State.floorCellUe s a1) := by
  intro s a1
  unfold State.floorCellUe
  dsimp only
  refine .comp ?_ (State.raise_rel ..) .auto
  refine .comp ?_ (State.gridErr_rel ..) .auto
  refine .mk_of ?_ .auto (.mem fun m => ⟨m.gddr, m.cores, m.engs, m.plane0, m.plane1, Sparse.wf_put _ _ _ m.floor, m.buf⟩)
  exact .refl _

theorem State.floorCellWrite_rel : ∀ s a1, Rel [.flr] s (State.floorCellWrite s a1) := by
  intro s a1
  unfold State.floorCellWrite
  dsimp only
  refine .ite (fun _ => ?_) (fun _ => ?_)
  · refine .mk_of ?_ .auto (.mem fun m => ⟨m.gddr, m.cores, m.engs, m.plane0, m.plane1, Sparse.wf_put _ _ _ m.floor, m.buf⟩)
    exact .refl _
  · exact .refl _

theorem State.floorCommit_rel : ∀ s a1, Rel [.flr] s (State.floorCommit s a1) := by
  intro s a1
  unfold State.floorCommit
  dsimp only
  generalize hx : (List.foldl _ _ _ : State) = u
  refine .mk_of ?_ .auto .auto
  subst hx
  refine .foldl ?_ ?_
  · exact .refl _
  · intro _ _
    beta_reduce
    refine .comp ?_ (State.floorCellWrite_rel ..) .auto
    exact .refl _

theorem State.floorDisagree_rel : ∀ s a1 a2, Rel [.fc, .evr, .so, .floorPair, .freeCtr, .collected, .irq, .log] s (State.floorDisagree s a1 a2) := by
  intro s a1 a2
  unfold State.floorDisagree
  dsimp only
  refine .ite (fun _ => ?_) (fun _ => ?_)
  · exact .refl _
  · refine .comp ?_ (State.raise_rel ..) .auto
    refine .mk_of ?_ .auto .auto
    exact .refl _

theorem State.floorDeliver_rel : ∀ s a1 a2, Rel [.fc, .evr, .so, .flr, .floorPair, .freeCtr, .collected, .irq, .log] s (State.floorDeliver s a1 a2) := by
  intro s a1 a2
  unfold State.floorDeliver
  dsimp only
  refine .ite (fun _ => ?_) (fun _ => ?_)
  · exact .refl _
  · refine .ite (fun _ => ?_) (fun _ => ?_)
    · split
      · refine .comp ?_ (State.floorCommit_rel ..) .auto
        refine .comp ?_ (State.floorDisagree_rel ..) .auto
        refine .mk_of ?_ .auto (.mem fun m => ⟨m.gddr, m.cores, m.engs, m.plane0, m.plane1, by dsimp only; split <;> exact m.floor, m.buf⟩)
        exact .refl _
      · refine .mk_of ?_ .auto (.mem fun m => ⟨m.gddr, m.cores, m.engs, m.plane0, m.plane1, by dsimp only; split <;> exact m.floor, m.buf⟩)
        exact .refl _
    · refine .comp ?_ (State.floorCommit_rel ..) .auto
      refine .mk_of ?_ .auto (.mem fun m => ⟨m.gddr, m.cores, m.engs, m.plane0, m.plane1, by dsimp only; split <;> exact m.floor, m.buf⟩)
      exact .refl _

theorem State.floorEngineFault_rel : ∀ s a1 a2, Rel [.fc, .evr, .so, .flr, .freeCtr, .collected, .irq, .log] s (State.floorEngineFault s a1 a2) := by
  intro s a1 a2
  unfold State.floorEngineFault
  dsimp only
  refine .ite (fun _ => ?_) (fun _ => ?_)
  · exact .refl _
  · split
    · refine .ite (fun _ => ?_) (fun _ => ?_)
      · refine .comp ?_ (State.floorCommit_rel ..) .auto
        refine .comp ?_ (State.raise_rel ..) .auto
        refine .mk_of ?_ .auto (.mem fun m => ⟨m.gddr, m.cores, m.engs, m.plane0, m.plane1, by dsimp only; split <;> exact m.floor, m.buf⟩)
        exact .refl _
      · refine .comp ?_ (State.raise_rel ..) .auto
        refine .mk_of ?_ .auto (.mem fun m => ⟨m.gddr, m.cores, m.engs, m.plane0, m.plane1, by dsimp only; split <;> exact m.floor, m.buf⟩)
        exact .refl _
    · refine .comp ?_ (State.raise_rel ..) .auto
      refine .mk_of ?_ .auto (.mem fun m => ⟨m.gddr, m.cores, m.engs, m.plane0, m.plane1, by dsimp only; split <;> exact m.floor, m.buf⟩)
      exact .refl _

end Sys2Proof.Machine
end

