-- ==== Sys2Proof/Laws/RelJournal.lean ====
section
/-!
SUPPORT. What each operation of Machine/Journal.lean leaves unchanged, and that it keeps the invariants.
-/
namespace Sys2Proof.Machine

set_option Elab.async false

theorem State.scrubBeat_rel : ∀ s, Rel [.jnl] s (State.scrubBeat s) := by
  intro s
  unfold State.scrubBeat
  dsimp only
  refine .ite (fun _ => ?_) (fun _ => ?_)
  · refine .mk_of ?_ .auto .auto
    exact .refl _
  · exact .refl _

theorem State.flushCmd_rel : ∀ s, Rel [.log] s (State.flushCmd s) := by
  intro s
  unfold State.flushCmd
  dsimp only
  refine .mk_of ?_ .auto .auto
  exact .refl _

theorem State.nandFault_rel : ∀ s a1 a2 a3, Rel [.fc, .evr, .so, .freeCtr, .collected, .irq, .log] s (State.nandFault s a1 a2 a3) := by
  intro s a1 a2 a3
  unfold State.nandFault
  refine .comp ?_ (State.raise_rel ..) .auto
  refine .comp ?_ (State.freed_rel ..) .auto
  exact .refl _

theorem State.tagFailure_rel : ∀ s a1 a2, Rel [.fc, .evr, .so, .freeCtr, .collected, .irq, .log] s (State.tagFailure s a1 a2) := by
  intro s a1 a2
  unfold State.tagFailure
  dsimp only
  generalize hx : (State.nandFault _ _ _ _ : State) = u
  refine .mk_of ?_ .auto .auto
  subst hx
  refine .comp ?_ (State.nandFault_rel ..) .auto
  exact .refl _

theorem State.modNblk_rel : ∀ s a1 a2, Rel [.jnl] s (State.modNblk s a1 a2) := by
  intro s a1 a2
  unfold State.modNblk
  dsimp only
  refine .mk_of ?_ .auto .auto
  exact .refl _

theorem State.rdPage_rel : ∀ s, Rel [.fc, .evr, .so, .jnl, .freeCtr, .collected, .irq, .log] s (State.rdPage s) := by
  intro s
  unfold State.rdPage
  dsimp only
  refine .ite (fun _ => ?_) (fun _ => ?_)
  · split
    · refine .ite (fun _ => ?_) (fun _ => ?_)
      · generalize hx : (State.modNblk _ _ _ : State) = u
        refine .mk_of ?_ .auto .auto
        subst hx
        refine .comp ?_ (State.modNblk_rel ..) .auto
        exact .refl _
      · refine .ite (fun _ => ?_) (fun _ => ?_)
        · generalize hx : (State.modNblk _ _ _ : State) = u
          refine .mk_of ?_ .auto .auto
          subst hx
          refine .comp ?_ (State.modNblk_rel ..) .auto
          exact .refl _
        · generalize hx : (State.tagFailure _ _ _ : State) = u
          refine .mk_of ?_ .auto .auto
          subst hx
          refine .comp ?_ (State.tagFailure_rel ..) .auto
          refine .comp ?_ (State.modNblk_rel ..) .auto
          exact .refl _
    · refine .mk_of ?_ .auto .auto
      exact .refl _
  · refine .mk_of ?_ .auto .auto
    exact .refl _

theorem State.format_rel : ∀ s, Rel [.evr, .ldr, .jnl, .log] s (State.format s) := by
  intro s
  unfold State.format
  dsimp only
  refine .ite (fun _ => ?_) (fun _ => ?_)
  · refine .comp ?_ (State.event_rel ..) .auto
    exact .refl _
  · refine .ite (fun _ => ?_) (fun _ => ?_)
    · refine .comp ?_ (State.event_rel ..) .auto
      exact .refl _
    · refine .mk_of ?_ .auto .auto
      exact .refl _

theorem State.clearFirst_rel : ∀ s, Rel [.evr, .jnl, .log] s (State.clearFirst s) := by
  intro s
  unfold State.clearFirst
  dsimp only
  refine .comp ?_ (State.event_rel ..) .auto
  refine .mk_of ?_ .auto .auto
  exact .refl _

theorem State.evidReady_rel : ∀ s, Rel [.jnl] s (State.evidReady s) := by
  intro s
  unfold State.evidReady
  dsimp only
  refine .ite (fun _ => ?_) (fun _ => ?_)
  · exact .refl _
  · split
    · generalize hx : (State.modNblk _ _ _ : State) = u
      refine .mk_of ?_ .auto .auto
      subst hx
      refine .comp ?_ (State.modNblk_rel ..) .auto
      exact .refl _
    · exact .refl _

theorem State.program_rel : ∀ s a1 a2 a3 a4 a5, Rel [.jnl] s (State.program s a1 a2 a3 a4 a5) := by
  intro s a1 a2 a3 a4 a5
  unfold State.program
  dsimp only
  split
  · generalize hx : (State.modNblk _ _ _ : State) = u
    refine .mk_of ?_ .auto .auto
    subst hx
    refine .comp ?_ (State.modNblk_rel ..) .auto
    exact .refl _
  · exact .refl _

theorem State.evidPage_rel : ∀ s a1 a2 a3 a4, Rel [.jnl] s (State.evidPage s a1 a2 a3 a4) := by
  intro s a1 a2 a3 a4
  unfold State.evidPage
  dsimp only
  refine .comp ?_ (State.program_rel ..) .auto
  refine .comp ?_ (State.evidReady_rel ..) .auto
  exact .refl _

theorem State.copyFirst_rel : ∀ s, Rel [.jnl] s (State.copyFirst s) := by
  intro s
  unfold State.copyFirst
  dsimp only
  split
  · refine .ite (fun _ => ?_) (fun _ => ?_)
    · exact .refl _
    · generalize hx : (State.evidPage _ _ _ _ _ : State) = u
      refine .mk_of ?_ .auto .auto
      subst hx
      refine .comp ?_ (State.evidPage_rel ..) .auto
      exact .refl _
  · exact .refl _

theorem State.wearSwap_rel : ∀ s a1, Rel [.evr, .jnl, .log] s (State.wearSwap s a1) := by
  intro s a1
  unfold State.wearSwap
  dsimp only
  split
  · refine .ite (fun _ => ?_) (fun _ => ?_)
    · refine .comp ?_ (State.event_rel ..) .auto
      generalize hx : (State.modNblk _ _ _ : State) = u
      refine .mk_of ?_ .auto .auto
      subst hx
      refine .comp ?_ (State.modNblk_rel ..) .auto
      refine .comp ?_ (State.modNblk_rel ..) .auto
      exact .refl _
    · exact .refl _
  · exact .refl _

theorem State.ringReady_rel : ∀ s, Rel [.evr, .jnl, .log] s (State.ringReady s) := by
  intro s
  unfold State.ringReady
  dsimp only
  refine .ite (fun _ => ?_) (fun _ => ?_)
  · exact .refl _
  · split
    · split
      · generalize hx : (State.modNblk _ _ _ : State) = u
        refine .mk_of ?_ .auto .auto
        subst hx
        refine .comp ?_ (State.modNblk_rel ..) .auto
        refine .comp ?_ (State.wearSwap_rel ..) .auto
        exact .refl _
      · refine .comp ?_ (State.wearSwap_rel ..) .auto
        exact .refl _
    · exact .refl _

theorem State.ringPage_rel : ∀ s a1 a2 a3, Rel [.evr, .jnl, .log] s (State.ringPage s a1 a2 a3) := by
  intro s a1 a2 a3
  unfold State.ringPage
  dsimp only
  refine .comp ?_ (State.program_rel ..) .auto
  refine .comp ?_ (State.ringReady_rel ..) .auto
  exact .refl _

theorem State.copyPage_rel : ∀ s, Rel [.evr, .jnl, .log] s (State.copyPage s) := by
  intro s
  unfold State.copyPage
  dsimp only
  split
  · generalize hx : (State.ringPage _ _ _ _ : State) = u
    refine .mk_of ?_ .auto .auto
    subst hx
    refine .comp ?_ (State.ringPage_rel ..) .auto
    exact .refl _
  · exact .refl _

theorem State.reportLost_rel : ∀ s, Rel [.evr, .log] s (State.reportLost s) := by
  intro s
  unfold State.reportLost
  dsimp only
  refine .ite (fun _ => ?_) (fun _ => ?_)
  · exact .refl _
  · refine .comp ?_ (State.event_rel ..) .auto
    refine .mk_of ?_ .auto .auto
    exact .refl _

theorem State.flush_rel : ∀ s, Rel [.evr, .jnl, .log] s (State.flush s) := by
  intro s
  unfold State.flush
  refine .ite (fun _ => ?_) (fun _ => ?_)
  · refine .comp ?_ (State.reportLost_rel ..) .auto
    refine .comp ?_ (State.copyFirst_rel ..) .auto
    refine .comp ?_ (State.copyPage_rel ..) .auto
    exact .refl _
  · exact .refl _

theorem State.snapPage_rel : ∀ s a1, Rel [.jnl] s (State.snapPage s a1) := by
  intro s a1
  unfold State.snapPage
  refine .comp ?_ (State.evidPage_rel ..) .auto
  exact .refl _

theorem State.haltSnapshot_rel : ∀ s, Rel [.evr, .jnl, .log] s (State.haltSnapshot s) := by
  intro s
  unfold State.haltSnapshot
  dsimp only
  refine .ite (fun _ => ?_) (fun _ => ?_)
  · refine .foldl ?_ ?_
    · refine .comp ?_ (State.snapPage_rel ..) .auto
      refine .foldl ?_ ?_
      · refine .mk_of ?_ .auto .auto
        exact .refl _
      · intro _ _
        beta_reduce
        refine .comp ?_ (State.snapPage_rel ..) .auto
        exact .refl _
    · intro _ _
      beta_reduce
      refine .comp ?_ (State.copyPage_rel ..) .auto
      exact .refl _
  · exact .refl _

theorem State.identify_rel : ∀ s a1, Rel [.ldr, .jnl, .log] s (State.identify s a1) := by
  intro s a1
  unfold State.identify
  dsimp only
  refine .ite (fun _ => ?_) (fun _ => ?_)
  · refine .mk_of ?_ .auto .auto
    exact .refl _
  · refine .mk_of ?_ .auto .auto
    exact .refl _

theorem State.mount_rel : ∀ s a1, Rel [.fc, .evr, .so, .ldr, .jnl, .freeCtr, .collected, .irq, .log] s (State.mount s a1) := by
  intro s a1
  unfold State.mount
  dsimp only
  split
  · refine .ite (fun _ => ?_) (fun _ => ?_)
    · refine .ite (fun _ => ?_) (fun _ => ?_)
      · generalize hx : (State.identify _ _ : State) = u
        refine .mk_of ?_ .auto .auto
        subst hx
        refine .comp ?_ (State.identify_rel ..) .auto
        exact .refl _
      · refine .comp ?_ (State.nandFault_rel ..) .auto
        generalize hx : (State.identify _ _ : State) = u
        refine .mk_of ?_ .auto .auto
        subst hx
        refine .comp ?_ (State.identify_rel ..) .auto
        exact .refl _
    · refine .comp ?_ (State.nandFault_rel ..) .auto
      exact .refl _
  · refine .comp ?_ (State.nandFault_rel ..) .auto
    exact .refl _

theorem State.reloadFirst_rel : ∀ s, Rel [.fc, .evr, .so, .freeCtr, .collected, .irq, .log] s (State.reloadFirst s) := by
  intro s
  unfold State.reloadFirst
  dsimp only
  refine .ite (fun _ => ?_) (fun _ => ?_)
  · split
    · refine .ite (fun _ => ?_) (fun _ => ?_)
      · exact .refl _
      · refine .ite (fun _ => ?_) (fun _ => ?_)
        · refine .mk_of ?_ .auto .auto
          exact .refl _
        · refine .comp ?_ (State.tagFailure_rel ..) .auto
          exact .refl _
    · exact .refl _
  · exact .refl _

theorem State.moveToSpare_rel : ∀ s a1 a2, Rel [.jnl, .freeCtr] s (State.moveToSpare s a1 a2) := by
  intro s a1 a2
  unfold State.moveToSpare
  dsimp only
  split
  · generalize hx : (State.modNblk _ _ _ : State) = u
    refine .mk_of ?_ .auto .auto
    subst hx
    refine .comp ?_ (State.modNblk_rel ..) .auto
    refine .comp ?_ (State.modNblk_rel ..) .auto
    refine .comp ?_ (State.freed_rel ..) .auto
    exact .refl _
  · exact .refl _

theorem State.nandTimeout_rel : ∀ s a1, Rel [.fc, .evr, .so, .freeCtr, .collected, .irq, .log] s (State.nandTimeout s a1) := by
  intro s a1
  unfold State.nandTimeout
  refine .ite (fun _ => ?_) (fun _ => ?_)
  · refine .comp ?_ (State.nandFault_rel ..) .auto
    exact .refl _
  · exact .refl _

theorem State.sparesGone_rel : ∀ s a1, Rel [.fc, .evr, .so, .jnl, .freeCtr, .collected, .irq, .log] s (State.sparesGone s a1) := by
  intro s a1
  unfold State.sparesGone
  dsimp only
  refine .ite (fun _ => ?_) (fun _ => ?_)
  · refine .mk_of ?_ .auto .auto
    exact .refl _
  · refine .comp ?_ (State.nandFault_rel ..) .auto
    refine .mk_of ?_ .auto .auto
    exact .refl _

theorem State.programFail_rel : ∀ s a1 a2, Rel [.fc, .evr, .so, .jnl, .freeCtr, .collected, .irq, .log] s (State.programFail s a1 a2) := by
  intro s a1 a2
  unfold State.programFail
  dsimp only
  refine .ite (fun _ => ?_) (fun _ => ?_)
  · refine .ite (fun _ => ?_) (fun _ => ?_)
    · refine .comp ?_ (State.event_rel ..) .auto
      refine .comp ?_ (State.modNblk_rel ..) .auto
      exact .refl _
    · refine .ite (fun _ => ?_) (fun _ => ?_)
      · refine .comp ?_ (State.nandFault_rel ..) .auto
        refine .comp ?_ (State.modNblk_rel ..) .auto
        refine .comp ?_ (State.event_rel ..) .auto
        refine .comp ?_ (State.modNblk_rel ..) .auto
        exact .refl _
      · refine .ite (fun _ => ?_) (fun _ => ?_)
        · refine .comp ?_ (State.sparesGone_rel ..) .auto
          refine .comp ?_ (State.event_rel ..) .auto
          refine .comp ?_ (State.modNblk_rel ..) .auto
          exact .refl _
        · refine .comp ?_ (State.nandFault_rel ..) .auto
          refine .comp ?_ (State.moveToSpare_rel ..) .auto
          refine .comp ?_ (State.event_rel ..) .auto
          refine .comp ?_ (State.modNblk_rel ..) .auto
          exact .refl _
  · exact .refl _

theorem State.refresh_rel : ∀ s a1 a2, Rel [.evr, .jnl, .freeCtr, .log] s (State.refresh s a1 a2) := by
  intro s a1 a2
  unfold State.refresh
  dsimp only
  refine .ite (fun _ => ?_) (fun _ => ?_)
  · exact .refl _
  · refine .comp ?_ (State.event_rel ..) .auto
    generalize hx : (State.moveToSpare _ _ _ : State) = u
    refine .mk_of ?_ .auto .auto
    subst hx
    refine .comp ?_ (State.moveToSpare_rel ..) .auto
    exact .refl _

theorem State.readDisturb_rel : ∀ s a1, Rel [.evr, .jnl, .freeCtr, .log] s (State.readDisturb s a1) := by
  intro s a1
  unfold State.readDisturb
  dsimp only
  refine .ite (fun _ => ?_) (fun _ => ?_)
  · refine .comp ?_ (State.refresh_rel ..) .auto
    exact .refl _
  · exact .refl _

theorem State.readWin7_rel : ∀ s, Rel [.evr] s (State.readWin7 s) := by
  intro s
  unfold State.readWin7
  dsimp only
  refine .ite (fun _ => ?_) (fun _ => ?_)
  · exact .refl _
  · refine .mk_of ?_ .auto .auto
    exact .refl _

theorem State.readWin0_rel : ∀ s, Rel [.evr] s (State.readWin0 s) := by
  intro s
  unfold State.readWin0
  dsimp only
  split
  · refine .mk_of ?_ .auto .auto
    exact .refl _
  · refine .mk_of ?_ .auto .auto
    exact .refl _

theorem State.report_rel : ∀ s a1 a2 a3, Rel [.evr, .log] s (State.report s a1 a2 a3) := by
  intro s a1 a2 a3
  unfold State.report
  refine .ite (fun _ => ?_) (fun _ => ?_)
  · exact .refl _
  · split
    · refine .ite (fun _ => ?_) (fun _ => ?_)
      · refine .comp ?_ (State.record_rel ..) .auto
        exact .refl _
      · exact .refl _
    · refine .comp ?_ (State.event_rel ..) .auto
      exact .refl _

theorem State.scrubFound_rel : ∀ s a1, Rel [.fc, .evr, .so, .jnl, .freeCtr, .collected, .irq, .log] s (State.scrubFound s a1) := by
  intro s a1
  unfold State.scrubFound
  dsimp only
  refine .ite (fun _ => ?_) (fun _ => ?_)
  · exact .refl _
  · split
    · refine .ite (fun _ => ?_) (fun _ => ?_)
      · refine .comp ?_ (State.nandFault_rel ..) .auto
        refine .mk_of ?_ .auto .auto
        exact .refl _
      · refine .mk_of ?_ .auto .auto
        exact .refl _
    · generalize hx : (State.nandFault _ _ _ _ : State) = u
      refine .mk_of ?_ .auto .auto
      subst hx
      refine .comp ?_ (State.nandFault_rel ..) .auto
      refine .comp ?_ (State.modNblk_rel ..) .auto
      refine .comp ?_ (State.freed_rel ..) .auto
      exact .refl _

theorem State.scrub_rel : ∀ s a1, Rel [.fc, .evr, .so, .jnl, .freeCtr, .collected, .irq, .log] s (State.scrub s a1) := by
  intro s a1
  unfold State.scrub
  dsimp only
  refine .ite (fun _ => ?_) (fun _ => ?_)
  · refine .foldl ?_ ?_
    · refine .foldl ?_ ?_
      · refine .mk_of ?_ .auto .auto
        exact .refl _
      · intro _ _
        beta_reduce
        refine .comp ?_ (State.scrubFound_rel ..) .auto
        exact .refl _
    · intro _ _
      beta_reduce
      refine .comp ?_ (State.refresh_rel ..) .auto
      exact .refl _
  · exact .refl _

end Sys2Proof.Machine
end

