-- ==== Sys2Proof/Laws/RelTime.lean ====
section
/-!
SUPPORT. What each operation of Machine/Time.lean leaves unchanged, and that it keeps the invariants.
-/
namespace Sys2Proof.Machine

set_option Elab.async false

theorem State.holdEvent_rel : ∀ s a1 a2, Rel [.evr, .log] s (State.holdEvent s a1 a2) := by
  intro s a1 a2
  unfold State.holdEvent
  refine .comp ?_ (State.event_rel ..) .auto
  exact .refl _

theorem State.leaveHoldover_rel : ∀ s, Rel [.evr, .time, .log] s (State.leaveHoldover s) := by
  intro s
  unfold State.leaveHoldover
  dsimp only
  refine .ite (fun _ => ?_) (fun _ => ?_)
  · refine .comp ?_ (State.holdEvent_rel ..) .auto
    refine .mk_of ?_ .auto .auto
    exact .refl _
  · exact .refl _

theorem State.servo_rel : ∀ s a1 a2, Rel [.time] s (State.servo s a1 a2) := by
  intro s a1 a2
  unfold State.servo
  dsimp only
  refine .mk_of ?_ .auto .auto
  exact .refl _

theorem State.acceptSample_rel : ∀ s a1 a2, Rel [.evr, .time, .log] s (State.acceptSample s a1 a2) := by
  intro s a1 a2
  unfold State.acceptSample
  dsimp only
  refine .ite (fun _ => ?_) (fun _ => ?_)
  · refine .mk_of ?_ .auto .auto
    exact .refl _
  · refine .comp ?_ (State.servo_rel ..) .auto
    refine .comp ?_ (State.leaveHoldover_rel ..) .auto
    refine .mk_of ?_ .auto .auto
    exact .refl _

theorem State.setTimeRaw_rel : ∀ s a1, Rel [.time] s (State.setTimeRaw s a1) := by
  intro s a1
  unfold State.setTimeRaw
  dsimp only
  refine .mk_of ?_ .auto .auto
  exact .refl _

theorem State.advanceTime_rel : ∀ s a1, Rel [.time] s (State.advanceTime s a1) := by
  intro s a1
  unfold State.advanceTime
  refine .comp ?_ (State.setTimeRaw_rel ..) .auto
  exact .refl _

theorem State.modEth_rel : ∀ s a1 a2, Rel [.time] s (State.modEth s a1 a2) := by
  intro s a1 a2
  unfold State.modEth
  dsimp only
  refine .mk_of ?_ .auto .auto
  exact .refl _

theorem State.ptpSelect_rel : ∀ s, Rel [.evr, .time, .log] s (State.ptpSelect s) := by
  intro s
  unfold State.ptpSelect
  dsimp only
  refine .ite (fun _ => ?_) (fun _ => ?_)
  · generalize hx : (State.modEth _ _ _ : State) = u
    refine .mk_of ?_ .auto .auto
    subst hx
    refine .comp ?_ (State.modEth_rel ..) .auto
    refine .comp ?_ (State.modEth_rel ..) .auto
    exact .refl _
  · refine .comp ?_ (State.event_rel ..) .auto
    generalize hx : (State.modEth _ _ _ : State) = u
    refine .mk_of ?_ .auto .auto
    subst hx
    refine .comp ?_ (State.modEth_rel ..) .auto
    refine .comp ?_ (State.modEth_rel ..) .auto
    exact .refl _

theorem State.announce_rel : ∀ s a1 a2, Rel [.evr, .time, .log] s (State.announce s a1 a2) := by
  intro s a1 a2
  unfold State.announce
  dsimp only
  refine .ite (fun _ => ?_) (fun _ => ?_)
  · refine .comp ?_ (State.ptpSelect_rel ..) .auto
    refine .comp ?_ (State.modEth_rel ..) .auto
    exact .refl _
  · exact .refl _

theorem State.enterHoldover_rel : ∀ s a1, Rel [.evr, .time, .log] s (State.enterHoldover s a1) := by
  intro s a1
  unfold State.enterHoldover
  dsimp only
  refine .ite (fun _ => ?_) (fun _ => ?_)
  · refine .mk_of ?_ .auto .auto
    exact .refl _
  · refine .comp ?_ (State.holdEvent_rel ..) .auto
    refine .mk_of ?_ .auto .auto
    exact .refl _

theorem State.syncLossDue_rel : ∀ s, Rel [.evr, .time, .log] s (State.syncLossDue s) := by
  intro s
  unfold State.syncLossDue
  split
  · refine .ite (fun _ => ?_) (fun _ => ?_)
    · refine .comp ?_ (State.enterHoldover_rel ..) .auto
      exact .refl _
    · exact .refl _
  · exact .refl _

theorem State.telSend_rel : ∀ s a1, Rel [.tel] s (State.telSend s a1) := by
  intro s a1
  unfold State.telSend
  dsimp only
  split
  · exact .refl _
  · refine .mk_of ?_ .auto .auto
    exact .refl _

theorem State.telExpire_rel : ∀ s, Rel [.tel] s (State.telExpire s) := by
  intro s
  unfold State.telExpire
  refine .foldl ?_ ?_
  · exact .refl _
  · intro _ _
    beta_reduce
    refine .ite (fun _ => ?_) (fun _ => ?_)
    · refine .comp ?_ (State.telSend_rel ..) .auto
      exact .refl _
    · exact .refl _

theorem State.telGenerate_rel : ∀ s a1 a2, Rel [.tel] s (State.telGenerate s a1 a2) := by
  intro s a1 a2
  unfold State.telGenerate
  dsimp only
  refine .mk_of ?_ .auto .auto
  exact .refl _

theorem State.telTick_rel : ∀ s, Rel [.tel] s (State.telTick s) := by
  intro s
  unfold State.telTick
  dsimp only
  refine .ite (fun _ => ?_) (fun _ => ?_)
  · refine .ite (fun _ => ?_) (fun _ => ?_)
    · refine .mk_of ?_ .auto .auto
      exact .refl _
    · refine .comp ?_ (State.telGenerate_rel ..) .auto
      exact .refl _
  · exact .refl _

theorem State.telChange_rel : ∀ s a1, Rel [.tel] s (State.telChange s a1) := by
  intro s a1
  unfold State.telChange
  dsimp only
  generalize hx : (State.telGenerate _ _ _ : State) = u
  refine .mk_of ?_ .auto .auto
  subst hx
  refine .comp ?_ (State.telGenerate_rel ..) .auto
  exact .refl _

theorem State.telGapEndDue_rel : ∀ s, Rel [.tel] s (State.telGapEndDue s) := by
  intro s
  unfold State.telGapEndDue
  dsimp only
  refine .ite (fun _ => ?_) (fun _ => ?_)
  · refine .ite (fun _ => ?_) (fun _ => ?_)
    · refine .mk_of ?_ .auto .auto
      exact .refl _
    · refine .comp ?_ (State.telChange_rel ..) .auto
      exact .refl _
  · exact .refl _

theorem State.telBeat_rel : ∀ s, Rel [.tel] s (State.telBeat s) := by
  intro s
  unfold State.telBeat
  dsimp only
  refine .ite (fun _ => ?_) (fun _ => ?_)
  · refine .ite (fun _ => ?_) (fun _ => ?_)
    · refine .comp ?_ (State.telGapEndDue_rel ..) .auto
      exact .refl _
    · refine .comp ?_ (State.telGapEndDue_rel ..) .auto
      refine .mk_of ?_ .auto .auto
      exact .refl _
  · exact .refl _

theorem State.stepTime_rel : ∀ s a1, Rel [.evr, .time, .log] s (State.stepTime s a1) := by
  intro s a1
  unfold State.stepTime
  dsimp only
  refine .comp ?_ (State.event_rel ..) .auto
  refine .mk_of ?_ .auto .auto
  exact .refl _

theorem State.timeStepWrite_rel : ∀ s, Rel [.evr, .time, .log] s (State.timeStepWrite s) := by
  intro s
  unfold State.timeStepWrite
  split
  · refine .ite (fun _ => ?_) (fun _ => ?_)
    · refine .comp ?_ (State.stepTime_rel ..) .auto
      refine .comp ?_ (State.leaveHoldover_rel ..) .auto
      exact .refl _
    · refine .comp ?_ (State.ignoredWrite_rel ..) .auto
      exact .refl _
  · refine .comp ?_ (State.ignoredWrite_rel ..) .auto
    exact .refl _

theorem State.delayAsk_rel : ∀ s a1, Rel [.time] s (State.delayAsk s a1) := by
  intro s a1
  unfold State.delayAsk
  refine .ite (fun _ => ?_) (fun _ => ?_)
  · refine .comp ?_ (State.modEth_rel ..) .auto
    exact .refl _
  · exact .refl _

theorem State.delayDone_rel : ∀ s a1 a2 a3, Rel [.time] s (State.delayDone s a1 a2 a3) := by
  intro s a1 a2 a3
  unfold State.delayDone
  refine .ite (fun _ => ?_) (fun _ => ?_)
  · refine .comp ?_ (State.modEth_rel ..) .auto
    exact .refl _
  · exact .refl _

theorem State.frameDiscarded_rel : ∀ s a1 a2, Rel [.time] s (State.frameDiscarded s a1 a2) := by
  intro s a1 a2
  unfold State.frameDiscarded
  refine .ite (fun _ => ?_) (fun _ => ?_)
  · refine .comp ?_ (State.modEth_rel ..) .auto
    exact .refl _
  · exact .refl _

theorem State.timeStart_rel : ∀ s, Rel [.time, .tel] s (State.timeStart s) := by
  intro s
  unfold State.timeStart
  dsimp only
  generalize hx : (State.modEth _ _ _ : State) = u
  refine .mk_of ?_ .auto .auto
  subst hx
  refine .comp ?_ (State.modEth_rel ..) .auto
  refine .comp ?_ (State.modEth_rel ..) .auto
  exact .refl _

theorem State.linkChange_rel : ∀ s a1 a2, Rel [.evr, .time, .log] s (State.linkChange s a1 a2) := by
  intro s a1 a2
  unfold State.linkChange
  dsimp only
  refine .ite (fun _ => ?_) (fun _ => ?_)
  · refine .comp ?_ (State.ptpSelect_rel ..) .auto
    refine .comp ?_ (State.event_rel ..) .auto
    refine .comp ?_ (State.modEth_rel ..) .auto
    exact .refl _
  · exact .refl _

theorem State.pcsFault_rel : ∀ s a1, Rel [.fc, .evr, .so, .time, .freeCtr, .collected, .irq, .log] s (State.pcsFault s a1) := by
  intro s a1
  unfold State.pcsFault
  refine .ite (fun _ => ?_) (fun _ => ?_)
  · refine .comp ?_ (State.modEth_rel ..) .auto
    refine .comp ?_ (State.raise_rel ..) .auto
    exact .refl _
  · exact .refl _

theorem State.pdelayAnswer_rel : ∀ s a1, Rel [.time] s (State.pdelayAnswer s a1) := by
  intro s a1
  unfold State.pdelayAnswer
  refine .ite (fun _ => ?_) (fun _ => ?_)
  · refine .comp ?_ (State.modEth_rel ..) .auto
    exact .refl _
  · exact .refl _

theorem State.refuseSample_rel : ∀ s a1, Rel [.evr, .time, .log] s (State.refuseSample s a1) := by
  intro s a1
  unfold State.refuseSample
  dsimp only
  refine .comp ?_ (State.enterHoldover_rel ..) .auto
  refine .comp ?_ (State.event_rel ..) .auto
  refine .mk_of ?_ .auto .auto
  exact .refl _

theorem State.ptpSync_rel : ∀ s a1 a2, Rel [.evr, .time, .log] s (State.ptpSync s a1 a2) := by
  intro s a1 a2
  unfold State.ptpSync
  dsimp only
  refine .ite (fun _ => ?_) (fun _ => ?_)
  · refine .ite (fun _ => ?_) (fun _ => ?_)
    · generalize hx : (State.stepTime _ _ : State) = u
      refine .mk_of ?_ .auto .auto
      subst hx
      refine .comp ?_ (State.stepTime_rel ..) .auto
      refine .mk_of ?_ .auto .auto
      exact .refl _
    · refine .ite (fun _ => ?_) (fun _ => ?_)
      · refine .comp ?_ (State.refuseSample_rel ..) .auto
        refine .mk_of ?_ .auto .auto
        exact .refl _
      · refine .comp ?_ (State.acceptSample_rel ..) .auto
        refine .mk_of ?_ .auto .auto
        exact .refl _
  · exact .refl _

theorem State.timeMismatch_rel : ∀ s a1, Rel [.fc, .evr, .so, .time, .freeCtr, .collected, .irq, .log] s (State.timeMismatch s a1) := by
  intro s a1
  unfold State.timeMismatch
  dsimp only
  generalize hx : (State.setTimeRaw _ _ : State) = u
  refine .mk_of ?_ .auto .auto
  subst hx
  refine .comp ?_ (State.setTimeRaw_rel ..) .auto
  refine .comp ?_ (State.raise_rel ..) .auto
  refine .comp ?_ (State.freed_rel ..) .auto
  exact .refl _

theorem State.tsLaneMismatch_rel : ∀ s a1, Rel [.fc, .evr, .so, .time, .freeCtr, .collected, .irq, .log] s (State.tsLaneMismatch s a1) := by
  intro s a1
  unfold State.tsLaneMismatch
  refine .ite (fun _ => ?_) (fun _ => ?_)
  · refine .comp ?_ (State.modEth_rel ..) .auto
    refine .comp ?_ (State.raise_rel ..) .auto
    refine .comp ?_ (State.freed_rel ..) .auto
    exact .refl _
  · exact .refl _

end Sys2Proof.Machine
end

