-- ==== Sys2Proof/Laws/RelLoader.lean ====
section
/-!
SUPPORT. What each operation of Machine/Loader.lean leaves unchanged, and that it keeps the invariants.
-/
namespace Sys2Proof.Machine

set_option Elab.async false

theorem State.abortTransfer_rel : ∀ s, Rel [.evr, .ldr, .log] s (State.abortTransfer s) := by
  intro s
  unfold State.abortTransfer
  dsimp only
  refine .ite (fun _ => ?_) (fun _ => ?_)
  · refine .comp ?_ (State.event_rel ..) .auto
    refine .mk_of ?_ .auto .auto
    exact .refl _
  · exact .refl _

theorem State.abandonLoad_rel : ∀ s, Rel [.evr, .ldr, .pwr, .log] s (State.abandonLoad s) := by
  intro s
  unfold State.abandonLoad
  dsimp only
  refine .ite (fun _ => ?_) (fun _ => ?_)
  · generalize hx : (State.abortTransfer _ : State) = u
    refine .mk_of ?_ .auto .auto
    subst hx
    refine .comp ?_ (State.abortTransfer_rel ..) .auto
    exact .refl _
  · generalize hx : (State.abortTransfer _ : State) = u
    refine .mk_of ?_ .auto .auto
    subst hx
    refine .comp ?_ (State.abortTransfer_rel ..) .auto
    exact .refl _

theorem State.bootWatchdogs_rel : ∀ s, Rel [.wd] s (State.bootWatchdogs s) := by
  intro s
  unfold State.bootWatchdogs
  dsimp only
  refine .mk_of ?_ .auto .auto
  exact .refl _

theorem State.imageBytes_rel : ∀ s a1, Rel [.evr, .ldr, .log] s (State.imageBytes s a1) := by
  intro s a1
  unfold State.imageBytes
  dsimp only
  refine .ite (fun _ => ?_) (fun _ => ?_)
  · refine .comp ?_ (State.abortTransfer_rel ..) .auto
    refine .mk_of ?_ .auto .auto
    exact .refl _
  · refine .mk_of ?_ .auto .auto
    exact .refl _

theorem State.bulkChunk_rel : ∀ s a1 a2 a3, Rel [.evr, .ldr, .io, .log] s (State.bulkChunk s a1 a2 a3) := by
  intro s a1 a2 a3
  unfold State.bulkChunk
  dsimp only
  refine .ite (fun _ => ?_) (fun _ => ?_)
  · exact .refl _
  · refine .ite (fun _ => ?_) (fun _ => ?_)
    · refine .mk_of ?_ .auto .auto
      exact .refl _
    · refine .ite (fun _ => ?_) (fun _ => ?_)
      · refine .comp ?_ (State.abortTransfer_rel ..) .auto
        refine .mk_of ?_ .auto .auto
        exact .refl _
      · refine .comp ?_ (State.imageBytes_rel ..) .auto
        refine .mk_of ?_ .auto .auto
        exact .refl _

theorem State.wdata_rel : ∀ s a1, Rel [.evr, .ldr, .log] s (State.wdata s a1) := by
  intro s a1
  unfold State.wdata
  refine .ite (fun _ => ?_) (fun _ => ?_)
  · refine .comp ?_ (State.ignoredWrite_rel ..) .auto
    exact .refl _
  · refine .ite (fun _ => ?_) (fun _ => ?_)
    · refine .comp ?_ (State.ignoredWrite_rel ..) .auto
      exact .refl _
    · refine .comp ?_ (State.imageBytes_rel ..) .auto
      exact .refl _

theorem State.ldrAbort_rel : ∀ s, Rel [.evr, .ldr, .log] s (State.ldrAbort s) := by
  intro s
  unfold State.ldrAbort
  refine .ite (fun _ => ?_) (fun _ => ?_)
  · refine .comp ?_ (State.abortTransfer_rel ..) .auto
    exact .refl _
  · refine .comp ?_ (State.ignoredWrite_rel ..) .auto
    exact .refl _

theorem State.ldrCommit_rel : ∀ s, Rel [.evr, .ldr, .log] s (State.ldrCommit s) := by
  intro s
  unfold State.ldrCommit
  dsimp only
  refine .ite (fun _ => ?_) (fun _ => ?_)
  · refine .comp ?_ (State.ignoredWrite_rel ..) .auto
    exact .refl _
  · refine .ite (fun _ => ?_) (fun _ => ?_)
    · exact .refl _
    · refine .comp ?_ (State.event_rel ..) .auto
      refine .mk_of ?_ .auto .auto
      exact .refl _

theorem State.ldrClose_rel : ∀ s, Rel [.evr, .ldr, .log] s (State.ldrClose s) := by
  intro s
  unfold State.ldrClose
  dsimp only
  refine .ite (fun _ => ?_) (fun _ => ?_)
  · refine .comp ?_ (State.ignoredWrite_rel ..) .auto
    exact .refl _
  · refine .ite (fun _ => ?_) (fun _ => ?_)
    · exact .refl _
    · refine .ite (fun _ => ?_) (fun _ => ?_)
      · refine .comp ?_ (State.abortTransfer_rel ..) .auto
        exact .refl _
      · refine .mk_of ?_ .auto .auto
        exact .refl _

theorem State.ldrActivate_rel : ∀ s a1, Rel [.evr, .ldr, .log] s (State.ldrActivate s a1) := by
  intro s a1
  unfold State.ldrActivate
  dsimp only
  refine .ite (fun _ => ?_) (fun _ => ?_)
  · refine .comp ?_ (State.ignoredWrite_rel ..) .auto
    exact .refl _
  · refine .ite (fun _ => ?_) (fun _ => ?_)
    · exact .refl _
    · refine .comp ?_ (State.event_rel ..) .auto
      refine .mk_of ?_ .auto .auto
      exact .refl _

theorem State.ldrOpen_rel : ∀ s, Rel [.evr, .ldr, .io, .log] s (State.ldrOpen s) := by
  intro s
  unfold State.ldrOpen
  dsimp only
  refine .ite (fun _ => ?_) (fun _ => ?_)
  · refine .comp ?_ (State.ignoredWrite_rel ..) .auto
    exact .refl _
  · refine .ite (fun _ => ?_) (fun _ => ?_)
    · exact .refl _
    · refine .comp ?_ (State.event_rel ..) .auto
      refine .mk_of ?_ .auto .auto
      exact .refl _

theorem State.clearMemories_rel : ∀ s, Rel [.cores, .engs, .grid, .flr, .ev] s (State.clearMemories s) := by
  intro s
  unfold State.clearMemories
  dsimp only
  refine .mk_of ?_ .auto (.mem fun m => ⟨m.gddr, vmap_forall (Q := fun (x : CoreState) => x.sram.wf = true) m.cores fun _ _ => rfl, vmap_forall (Q := fun (x : EngState) => x.ok = true) m.engs fun _ _ => rfl, rfl, rfl, rfl, m.buf⟩)
  exact .refl _

theorem State.loadStart_rel : ∀ s, Rel [.wd, .enc, .ldr, .sched, .cores, .engs, .golden, .grid, .flr, .ev, .st] s (State.loadStart s) := by
  intro s
  unfold State.loadStart
  dsimp only
  refine .mk_of ?_ .auto .auto
  refine .ite (fun _ => ?_) (fun _ => ?_)
  · refine .comp ?_ (State.bootWatchdogs_rel ..) .auto
    refine .comp ?_ (State.clearMemories_rel ..) .auto
    exact .refl _
  · refine .comp ?_ (State.clearMemories_rel ..) .auto
    exact .refl _

theorem State.serviceExit_rel : ∀ s, Rel [.wd, .evr, .enc, .ldr, .sched, .cores, .engs, .golden, .grid, .flr, .ev, .st, .log] s (State.serviceExit s) := by
  intro s
  unfold State.serviceExit
  refine .comp ?_ (State.loadStart_rel ..) .auto
  refine .comp ?_ (State.abortTransfer_rel ..) .auto
  exact .refl _

theorem State.setParam_rel : ∀ s a1 a2, Rel [.ldr] s (State.setParam s a1 a2) := by
  intro s a1 a2
  unfold State.setParam
  dsimp only
  refine .mk_of ?_ .auto .auto
  exact .refl _

theorem State.serviceEnter_rel : ∀ s, Rel [.ldr] s (State.serviceEnter s) := by
  intro s
  unfold State.serviceEnter
  dsimp only
  refine .mk_of ?_ .auto .auto
  exact .refl _

theorem State.useProfile_rel : ∀ s a1, Rel [.ldr] s (State.useProfile s a1) := by
  intro s a1
  unfold State.useProfile
  dsimp only
  refine .mk_of ?_ .auto .auto
  exact .refl _

theorem State.coverageStart_rel : ∀ s, Rel [.st] s (State.coverageStart s) := by
  intro s
  unfold State.coverageStart
  dsimp only
  refine .mk_of ?_ .auto .auto
  exact .refl _

theorem State.setResult_rel : ∀ s a1 a2, Rel [.ldr] s (State.setResult s a1 a2) := by
  intro s a1 a2
  unfold State.setResult
  dsimp only
  refine .mk_of ?_ .auto .auto
  exact .refl _

theorem State.noteRefusal_rel : ∀ s a1 a2, Rel [.ldr] s (State.noteRefusal s a1 a2) := by
  intro s a1 a2
  unfold State.noteRefusal
  dsimp only
  generalize hx : (State.setResult _ _ _ : State) = u
  refine .mk_of ?_ .auto .auto
  subst hx
  refine .comp ?_ (State.setResult_rel ..) .auto
  exact .refl _

theorem State.slotRefused_rel : ∀ s a1 a2, Rel [.evr, .ldr, .log] s (State.slotRefused s a1 a2) := by
  intro s a1 a2
  unfold State.slotRefused
  refine .comp ?_ (State.event_rel ..) .auto
  refine .comp ?_ (State.noteRefusal_rel ..) .auto
  exact .refl _

theorem State.startUpOver_rel : ∀ s, Rel [.st] s (State.startUpOver s) := by
  intro s
  unfold State.startUpOver
  dsimp only
  refine .ite (fun _ => ?_) (fun _ => ?_)
  · refine .mk_of ?_ .auto .auto
    exact .refl _
  · exact .refl _

theorem State.loadEnd_rel : ∀ s a1 a2, Rel [.ldr, .st, .irq] s (State.loadEnd s a1 a2) := by
  intro s a1 a2
  unfold State.loadEnd
  dsimp only
  refine .comp ?_ (State.irqSet_rel ..) .auto
  refine .comp ?_ (State.startUpOver_rel ..) .auto
  refine .mk_of ?_ .auto .auto
  exact .refl _

theorem State.loadFail_rel : ∀ s a1 a2, Rel [.ldr, .pwr, .st, .irq] s (State.loadFail s a1 a2) := by
  intro s a1 a2
  unfold State.loadFail
  dsimp only
  refine .comp ?_ (State.loadEnd_rel ..) .auto
  refine .mk_of ?_ .auto .auto
  exact .refl _

theorem State.useEntry_rel : ∀ s a1, Rel [.sched, .alt] s (State.useEntry s a1) := by
  intro s a1
  unfold State.useEntry
  dsimp only
  split
  · refine .mk_of ?_ .auto .auto
    exact .refl _
  · refine .mk_of ?_ .auto .auto
    exact .refl _

theorem State.streamsStart_rel : ∀ s, Rel [.io] s (State.streamsStart s) := by
  intro s
  unfold State.streamsStart
  dsimp only
  refine .mk_of ?_ .auto .auto
  exact .refl _

theorem State.watchdogsStart_rel : ∀ s, Rel [.wd] s (State.watchdogsStart s) := by
  intro s
  unfold State.watchdogsStart
  dsimp only
  refine .mk_of ?_ .auto .auto
  exact .refl _

theorem Sparse.above_filter {β : Type} (p : Nat × β → Bool) {k : Nat} : ∀ {m : Sparse β}, Sparse.above k m = true → Sparse.above k (m.filter p) = true
  | [], _ => rfl
  | x :: m, h => by
    simp only [Sparse.above, Bool.and_eq_true, decide_eq_true_eq] at h
    rw [List.filter_cons]
    split
    · simp [Sparse.above, h.1, Sparse.above_filter p h.2]
    · exact Sparse.above_filter p h.2

theorem Sparse.wf_filter {β : Type} [DecidableEq β] {d : β} (p : Nat × β → Bool) : ∀ {m : Sparse β}, Sparse.wf d m = true → Sparse.wf d (m.filter p) = true
  | [], _ => rfl
  | x :: m, h => by
    simp only [Sparse.wf, Bool.and_eq_true, decide_eq_true_eq] at h
    rw [List.filter_cons]
    split
    · simp [Sparse.wf, h.1.1, Sparse.above_filter p h.1.2, Sparse.wf_filter p h.2]
    · exact Sparse.wf_filter p h.2

theorem State.placeGddr_rel : ∀ s, Rel [.gddrMem, .poison] s (State.placeGddr s) := by
  intro s
  unfold State.placeGddr
  dsimp only
  refine .foldl ?_ ?_
  · refine .mk_of ?_ .auto (.mem fun m => ⟨Sparse.wf_filter _ m.gddr, m.cores, m.engs, m.plane0, m.plane1, m.floor, m.buf⟩)
    exact .refl _
  · intro _ _
    beta_reduce
    refine .foldl ?_ ?_
    · exact .refl _
    · intro _ _
      beta_reduce
      refine .foldl ?_ ?_
      · exact .refl _
      · intro _ _
        beta_reduce
        refine .mk_of ?_ .auto (.mem fun m => ⟨Mem.wf_writeN _ _ m.gddr, m.cores, m.engs, m.plane0, m.plane1, m.floor, m.buf⟩)
        exact .refl _

theorem State.placeConst_rel : ∀ s a1 a2 a3 a4, Rel [.cores, .engs] s (State.placeConst s a1 a2 a3 a4) := by
  intro s a1 a2 a3 a4
  unfold State.placeConst
  dsimp only
  refine .ite (fun _ => ?_) (fun _ => ?_)
  · refine .comp ?_ (State.modEng_rel _ _ _ fun _ h => EngState.ok_writeN h _ _) .auto
    exact .refl _
  · refine .ite (fun _ => ?_) (fun _ => ?_)
    · refine .comp ?_ (State.modCore_rel _ _ _ fun _ h => Mem.wf_writeN _ _ h) .auto
      exact .refl _
    · exact .refl _

theorem State.placeSram_rel : ∀ s a1, Rel [.cores, .engs] s (State.placeSram s a1) := by
  intro s a1
  unfold State.placeSram
  refine .foldl ?_ ?_
  · exact .refl _
  · intro _ _
    beta_reduce
    refine .foldl ?_ ?_
    · exact .refl _
    · intro _ _
      beta_reduce
      refine .comp ?_ (State.placeConst_rel ..) .auto
      exact .refl _

theorem State.loadPass_rel : ∀ s a1 a2 a3, Rel [.wd, .evr, .enc, .ldr, .pwr, .time, .tel, .sched, .cores, .engs, .gddrMem, .poison, .ctrl, .alt, .io, .st, .lk, .irq, .log] s (State.loadPass s a1 a2 a3) := by
  intro s a1 a2 a3
  unfold State.loadPass
  dsimp only
  refine .comp ?_ (State.loadEnd_rel ..) .auto
  refine .comp ?_ (State.event_rel ..) .auto
  refine .comp ?_ (State.timeStart_rel ..) .auto
  refine .comp ?_ (State.coverageStart_rel ..) .auto
  refine .comp ?_ (State.watchdogsStart_rel ..) .auto
  refine .comp ?_ (State.streamsStart_rel ..) .auto
  refine .comp ?_ (State.useProfile_rel ..) .auto
  generalize hx : (State.placeGddr _ : State) = u
  refine .mk_of ?_ .auto .auto
  subst hx
  refine .comp ?_ (State.placeGddr_rel ..) .auto
  refine .comp ?_ (State.placeSram_rel ..) .auto
  refine .comp ?_ (State.useEntry_rel ..) .auto
  refine .mk_of ?_ .auto .auto
  exact .refl _

theorem State.imageLoad_rel : ∀ s a1, Rel [.wd, .evr, .enc, .ldr, .pwr, .time, .tel, .sched, .cores, .engs, .gddrMem, .poison, .ctrl, .alt, .io, .jnl, .st, .lk, .irq, .log] s (State.imageLoad s a1) := by
  intro s a1
  unfold State.imageLoad
  dsimp only
  refine .ite (fun _ => ?_) (fun _ => ?_)
  · split
    · refine .comp ?_ (State.loadPass_rel ..) .auto
      refine .comp ?_ (State.haltSnapshot_rel ..) .auto
      exact .refl _
    · refine .ite (fun _ => ?_) (fun _ => ?_)
      · split
        · refine .comp ?_ (State.loadPass_rel ..) .auto
          refine .comp ?_ (State.slotRefused_rel ..) .auto
          refine .comp ?_ (State.haltSnapshot_rel ..) .auto
          exact .refl _
        · refine .comp ?_ (State.loadFail_rel ..) .auto
          refine .comp ?_ (State.slotRefused_rel ..) .auto
          refine .comp ?_ (State.slotRefused_rel ..) .auto
          refine .comp ?_ (State.haltSnapshot_rel ..) .auto
          exact .refl _
      · refine .comp ?_ (State.loadFail_rel ..) .auto
        refine .comp ?_ (State.slotRefused_rel ..) .auto
        refine .comp ?_ (State.haltSnapshot_rel ..) .auto
        exact .refl _
  · exact .refl _

theorem State.setSlot_rel : ∀ s a1 a2, Rel [.ldr] s (State.setSlot s a1 a2) := by
  intro s a1 a2
  unfold State.setSlot
  dsimp only
  refine .mk_of ?_ .auto .auto
  exact .refl _

theorem State.transferDone_rel : ∀ s a1 a2, Rel [.evr, .ldr, .irq, .log] s (State.transferDone s a1 a2) := by
  intro s a1 a2
  unfold State.transferDone
  dsimp only
  refine .comp ?_ (State.irqSet_rel ..) .auto
  refine .comp ?_ (State.event_rel ..) .auto
  refine .mk_of ?_ .auto .auto
  split
  · refine .comp ?_ (State.noteRefusal_rel ..) .auto
    exact .refl _
  · refine .comp ?_ (State.setResult_rel ..) .auto
    exact .refl _

theorem State.stagedVerified_rel : ∀ s a1, Rel [.evr, .ldr, .irq, .log] s (State.stagedVerified s a1) := by
  intro s a1
  unfold State.stagedVerified
  dsimp only
  refine .ite (fun _ => ?_) (fun _ => ?_)
  · split
    · refine .comp ?_ (State.transferDone_rel ..) .auto
      exact .refl _
    · refine .ite (fun _ => ?_) (fun _ => ?_)
      · refine .comp ?_ (State.transferDone_rel ..) .auto
        refine .comp ?_ (State.setSlot_rel ..) .auto
        exact .refl _
      · refine .comp ?_ (State.transferDone_rel ..) .auto
        refine .comp ?_ (State.setSlot_rel ..) .auto
        exact .refl _
  · exact .refl _

end Sys2Proof.Machine
end

