-- ==== Sys2Proof/Laws/RelSafeIo.lean ====
section
/-!
SUPPORT. What each operation of Machine/SafeIo.lean leaves unchanged, and that it keeps the invariants.
-/
namespace Sys2Proof.Machine

set_option Elab.async false

theorem State.demand_rel : ∀ s a1, Rel [.fc, .evr, .si, .so, .freeCtr, .collected, .irq, .log] s (State.demand s a1) := by
  intro s a1
  unfold State.demand
  dsimp only
  refine .ite (fun _ => ?_) (fun _ => ?_)
  · refine .comp ?_ (State.addTrig_rel ..) .auto
    refine .comp ?_ (State.event_rel ..) .auto
    refine .mk_of ?_ .auto .auto
    exact .refl _
  · refine .ite (fun _ => ?_) (fun _ => ?_)
    · refine .ite (fun _ => ?_) (fun _ => ?_)
      · refine .comp ?_ (State.countFault_rel ..) .auto
        refine .comp ?_ (State.event_rel ..) .auto
        refine .mk_of ?_ .auto .auto
        exact .refl _
      · refine .comp ?_ (State.raise_rel ..) .auto
        refine .comp ?_ (State.event_rel ..) .auto
        refine .mk_of ?_ .auto .auto
        exact .refl _
    · refine .comp ?_ (State.event_rel ..) .auto
      refine .mk_of ?_ .auto .auto
      exact .refl _

theorem State.lock_rel : ∀ s a1 a2, Rel [.fc, .evr, .si, .so, .freeCtr, .collected, .irq, .log] s (State.lock s a1 a2) := by
  intro s a1 a2
  unfold State.lock
  dsimp only
  refine .ite (fun _ => ?_) (fun _ => ?_)
  · refine .comp ?_ (State.demand_rel ..) .auto
    refine .mk_of ?_ .auto .auto
    exact .refl _
  · refine .mk_of ?_ .auto .auto
    exact .refl _

theorem State.lockFault_rel : ∀ s a1 a2 a3, Rel [.fc, .evr, .si, .so, .freeCtr, .collected, .irq, .log] s (State.lockFault s a1 a2 a3) := by
  intro s a1 a2 a3
  unfold State.lockFault
  refine .comp ?_ (State.lock_rel ..) .auto
  refine .comp ?_ (State.raise_rel ..) .auto
  exact .refl _

theorem State.discrepancyFault_rel : ∀ s a1, Rel [.fc, .evr, .si, .so, .freeCtr, .collected, .irq, .log] s (State.discrepancyFault s a1) := by
  intro s a1
  unfold State.discrepancyFault
  refine .ite (fun _ => ?_) (fun _ => ?_)
  · refine .comp ?_ (State.lockFault_rel ..) .auto
    refine .mk_of ?_ .auto .auto
    exact .refl _
  · exact .refl _

theorem State.chatterFault_rel : ∀ s a1, Rel [.fc, .evr, .si, .so, .freeCtr, .collected, .irq, .log] s (State.chatterFault s a1) := by
  intro s a1
  unfold State.chatterFault
  refine .ite (fun _ => ?_) (fun _ => ?_)
  · refine .comp ?_ (State.lockFault_rel ..) .auto
    refine .mk_of ?_ .auto .auto
    exact .refl _
  · exact .refl _

theorem State.lrstDiscrepancy_rel : ∀ s, Rel [.fc, .evr, .lrst, .so, .freeCtr, .collected, .irq, .log] s (State.lrstDiscrepancy s) := by
  intro s
  unfold State.lrstDiscrepancy
  dsimp only
  refine .ite (fun _ => ?_) (fun _ => ?_)
  · refine .comp ?_ (State.raise_rel ..) .auto
    refine .mk_of ?_ .auto .auto
    exact .refl _
  · exact .refl _

theorem State.tpStart_rel : ∀ s a1, Rel [.tp] s (State.tpStart s a1) := by
  intro s a1
  unfold State.tpStart
  refine .ite (fun _ => ?_) (fun _ => ?_)
  · refine .mk_of ?_ .auto .auto
    exact .refl _
  · exact .refl _

theorem State.lrstIgnored_rel : ∀ s, Rel [.evr, .lrst, .log] s (State.lrstIgnored s) := by
  intro s
  unfold State.lrstIgnored
  dsimp only
  split
  · exact .refl _
  · refine .comp ?_ (State.event_rel ..) .auto
    refine .mk_of ?_ .auto .auto
    exact .refl _

theorem State.tpPinFault_rel : ∀ s a1, Rel [.fc, .evr, .si, .tp, .so, .freeCtr, .collected, .irq, .log] s (State.tpPinFault s a1) := by
  intro s a1
  unfold State.tpPinFault
  dsimp only
  refine .ite (fun _ => ?_) (fun _ => ?_)
  · refine .foldl ?_ ?_
    · refine .comp ?_ (State.raise_rel ..) .auto
      refine .mk_of ?_ .auto .auto
      exact .refl _
    · intro _ _
      beta_reduce
      refine .comp ?_ (State.lock_rel ..) .auto
      exact .refl _
  · exact .refl _

theorem State.crossShortFault_rel : ∀ s a1 a2, Rel [.fc, .evr, .si, .so, .freeCtr, .collected, .irq, .log] s (State.crossShortFault s a1 a2) := by
  intro s a1 a2
  unfold State.crossShortFault
  refine .ite (fun _ => ?_) (fun _ => ?_)
  · refine .comp ?_ (State.lockFault_rel ..) .auto
    refine .mk_of ?_ .auto .auto
    exact .refl _
  · exact .refl _

theorem State.tpEnd_rel : ∀ s a1, Rel [.tp] s (State.tpEnd s a1) := by
  intro s a1
  unfold State.tpEnd
  refine .mk_of ?_ .auto .auto
  exact .refl _

theorem State.safeInputDemand_rel : ∀ s a1, Rel [.fc, .evr, .si, .so, .freeCtr, .collected, .irq, .log] s (State.safeInputDemand s a1) := by
  intro s a1
  unfold State.safeInputDemand
  refine .ite (fun _ => ?_) (fun _ => ?_)
  · refine .comp ?_ (State.demand_rel ..) .auto
    exact .refl _
  · exact .refl _

theorem State.stuckOnFault_rel : ∀ s a1 a2, Rel [.fc, .evr, .si, .so, .freeCtr, .collected, .irq, .log] s (State.stuckOnFault s a1 a2) := by
  intro s a1 a2
  unfold State.stuckOnFault
  refine .ite (fun _ => ?_) (fun _ => ?_)
  · refine .comp ?_ (State.lockFault_rel ..) .auto
    refine .mk_of ?_ .auto .auto
    exact .refl _
  · exact .refl _

theorem State.safeInputOn_rel : ∀ s a1, Rel [.si] s (State.safeInputOn s a1) := by
  intro s a1
  unfold State.safeInputOn
  refine .ite (fun _ => ?_) (fun _ => ?_)
  · refine .mk_of ?_ .auto .auto
    exact .refl _
  · exact .refl _

theorem State.unlockInputs_rel : ∀ s, Rel [.evr, .si, .log] s (State.unlockInputs s) := by
  intro s
  unfold State.unlockInputs
  refine .foldl ?_ ?_
  · exact .refl _
  · intro _ _
    beta_reduce
    refine .ite (fun _ => ?_) (fun _ => ?_)
    · refine .comp ?_ (State.event_rel ..) .auto
      refine .mk_of ?_ .auto .auto
      exact .refl _
    · exact .refl _

theorem State.lrstTake_rel : ∀ s a1, Rel [.evr, .si, .lrst, .log] s (State.lrstTake s a1) := by
  intro s a1
  unfold State.lrstTake
  dsimp only
  refine .comp ?_ (State.event_rel ..) .auto
  refine .comp ?_ (State.unlockInputs_rel ..) .auto
  refine .mk_of ?_ .auto .auto
  exact .refl _

end Sys2Proof.Machine
end

