-- ==== Sys2Proof/Laws/RelStartUp.lean ====
section
/-!
SUPPORT. What each operation of Machine/StartUp.lean leaves unchanged, and that it keeps the invariants.
-/
namespace Sys2Proof.Machine

set_option Elab.async false

theorem State.failFaultN_rel : ∀ s, Rel [.fc, .freeCtr, .irq] s (State.failFaultN s) := by
  intro s
  unfold State.failFaultN
  dsimp only
  refine .ite (fun _ => ?_) (fun _ => ?_)
  · refine .mk_of ?_ .auto .auto
    exact .refl _
  · refine .comp ?_ (State.irqSet_rel ..) .auto
    generalize hx : (State.freed _ : State) = u
    refine .mk_of ?_ .auto .auto
    subst hx
    refine .comp ?_ (State.freed_rel ..) .auto
    refine .mk_of ?_ .auto .auto
    exact .refl _

theorem State.enterSelftestFail_rel : ∀ s a1 a2 a3 a4, Rel [.selftestFail, .fc, .watch, .so, .ldr, .pwr, .st, .freeCtr, .wstate, .collected, .irq] s (State.enterSelftestFail s a1 a2 a3 a4) := by
  intro s a1 a2 a3 a4
  unfold State.enterSelftestFail
  dsimp only
  generalize hx : (State.failFaultN _ : State) = u
  refine .mk_of ?_ .auto fun h => ⟨resetWord_ok, (OutState.ok_iff _).2 (vmap_forall (P := fun _ => True) (fun _ _ => trivial) fun x _ => OutGroup.drop_ok x _ _), ⟨h.mem.gddr, h.mem.cores, h.mem.engs, h.mem.plane0, h.mem.plane1, h.mem.floor, h.mem.buf⟩⟩
  subst hx
  refine .comp ?_ (State.failFaultN_rel ..) .auto
  exact .refl _

theorem State.bootPeriods_rel : ∀ s, Rel [.wd] s (State.bootPeriods s) := by
  intro s
  unfold State.bootPeriods
  dsimp only
  refine .mk_of ?_ .auto .auto
  exact .refl _

theorem State.drawn_rel : ∀ s, Rel [.secu] s (State.drawn s) := by
  intro s
  unfold State.drawn
  dsimp only
  refine .mk_of ?_ .auto .auto
  exact .refl _

theorem State.cold_rel : ∀ s a1, Rel [.beat, .powered, .xtalOk, .selftestFail, .fc, .wd, .evr, .watch, .si, .tp, .lrst, .enc, .so, .i3c, .cmd, .ldr, .pwr, .therm, .time, .tel, .sched, .cores, .engs, .noc, .gddr, .gddrMem, .poison, .ctrl, .alt, .golden, .cmp, .grid, .flr, .floorPair, .ev, .io, .jnl, .st, .lc, .secu, .lk, .freeCtr, .wstate, .collected, .irq, .log] s (State.cold s a1) := by
  intro s a1
  unfold State.cold
  refine ⟨?_, fun _ => ⟨resetWord_ok, show OutState.reset.ok = true by decide, ⟨rfl, vrep_forall (P := fun (x : CoreState) => x.sram.wf = true) rfl, vrep_forall (P := fun (x : EngState) => x.ok = true) rfl, rfl, rfl, rfl, rfl⟩⟩⟩
  intro x hx
  cases x <;> first | exact rfl | exact ⟨rfl, rfl, rfl⟩ | exact ⟨rfl, rfl⟩ | exact absurd (by decide) hx

theorem State.collapse_rel : ∀ s, Rel [.beat, .powered, .xtalOk, .selftestFail, .fc, .wd, .evr, .watch, .si, .tp, .lrst, .enc, .so, .i3c, .cmd, .ldr, .pwr, .therm, .time, .tel, .sched, .cores, .engs, .noc, .gddr, .gddrMem, .poison, .ctrl, .alt, .golden, .cmp, .grid, .flr, .floorPair, .ev, .io, .jnl, .st, .lc, .secu, .lk, .freeCtr, .wstate, .collected, .irq, .log] s (State.collapse s) := by
  intro s
  unfold State.collapse
  refine .comp ?_ (State.cold_rel ..) .auto
  exact .refl _

theorem State.coreTestFails_rel : ∀ s a1, Rel [.fc, .evr, .watch, .so, .sched, .cores, .engs, .alt, .st, .freeCtr, .collected, .irq, .log] s (State.coreTestFails s a1) := by
  intro s a1
  unfold State.coreTestFails
  dsimp only
  refine .ite (fun _ => ?_) (fun _ => ?_)
  · exact .refl _
  · refine .comp ?_ (State.event_rel ..) .auto
    generalize hx : (State.coreOff _ _ : State) = u
    refine .mk_of ?_ .auto .auto
    subst hx
    refine .comp ?_ (State.coreOff_rel ..) .auto
    refine .comp ?_ (State.coreFault_rel ..) .auto
    exact .refl _

theorem State.coresTested_rel : ∀ s a1 a2, Rel [.fc, .evr, .watch, .so, .sched, .cores, .engs, .alt, .st, .freeCtr, .collected, .irq, .log] s (State.coresTested s a1 a2) := by
  intro s a1 a2
  unfold State.coresTested
  refine .foldl ?_ ?_
  · exact .refl _
  · intro _ _
    beta_reduce
    refine .comp ?_ (State.coreTestFails_rel ..) .auto
    exact .refl _

theorem State.skip_rel : ∀ s a1, Rel [.beat, .time] s (State.skip s a1) := by
  intro s a1
  unfold State.skip
  refine .comp ?_ (State.advanceTime_rel ..) .auto
  refine .mk_of ?_ .auto .auto
  exact .refl _

theorem State.elapse_rel : ∀ s a1, Rel [.beat, .fc, .evr, .enc, .so, .time, .collected, .irq, .log] s (State.elapse s a1) := by
  intro s a1
  unfold State.elapse
  dsimp only
  split
  · refine .ite (fun _ => ?_) (fun _ => ?_)
    · refine .comp ?_ (State.skip_rel ..) .auto
      refine .comp ?_ (State.faultNRelease_rel ..) .auto
      refine .comp ?_ (State.skip_rel ..) .auto
      refine .comp ?_ (State.quietPeriodEnd_rel ..) .auto
      refine .comp ?_ (State.skip_rel ..) .auto
      exact .refl _
    · refine .comp ?_ (State.skip_rel ..) .auto
      exact .refl _
  · refine .comp ?_ (State.skip_rel ..) .auto
    exact .refl _

theorem OutGroup.reset_okIn (h : Bool) : OutGroup.reset.okIn h = true := by cases h <;> decide

theorem State.lockoutKept_rel : ∀ s, Rel [.beat, .powered, .xtalOk, .selftestFail, .fc, .wd, .evr, .watch, .si, .tp, .lrst, .enc, .so, .i3c, .cmd, .ldr, .pwr, .therm, .time, .tel, .sched, .cores, .engs, .noc, .gddr, .gddrMem, .poison, .ctrl, .alt, .golden, .cmp, .grid, .flr, .floorPair, .ev, .io, .jnl, .st, .lc, .secu, .lk, .freeCtr, .wstate, .collected, .irq, .log] s (State.lockoutKept s) := by
  intro s
  unfold State.lockoutKept
  dsimp only
  refine ⟨?_, fun h => ⟨h.word, ?_, ⟨rfl, vmap_forall (P := fun _ => True) (Q := fun (x : CoreState) => x.sram.wf = true) (fun _ _ => trivial) fun _ _ => rfl, vrep_forall (P := fun (x : EngState) => x.ok = true) rfl, rfl, rfl, rfl, rfl⟩⟩⟩
  · intro x hx
    cases x <;> first | exact rfl | exact ⟨rfl, rfl, rfl⟩ | exact ⟨rfl, rfl⟩ | exact absurd (by decide) hx
  · rw [OutState.ok_iff]
    exact vrep_forall (P := fun (x : OutGroup) => x.okIn _ = true) (OutGroup.reset_okIn _)

theorem State.toStep9_rel : ∀ s, Rel [.wd, .enc, .ldr, .sched, .cores, .engs, .golden, .grid, .flr, .ev, .st] s (State.toStep9 s) := by
  intro s
  unfold State.toStep9
  dsimp only
  refine .ite (fun _ => ?_) (fun _ => ?_)
  · refine .comp ?_ (State.bootPeriods_rel ..) .auto
    exact .refl _
  · refine .comp ?_ (State.bootPeriods_rel ..) .auto
    refine .comp ?_ (State.loadStart_rel ..) .auto
    refine .mk_of ?_ .auto .auto
    exact .refl _

theorem State.step4_rel : ∀ s a1, Rel [.pwr] s (State.step4 s a1) := by
  intro s a1
  unfold State.step4
  dsimp only
  refine .mk_of ?_ .auto .auto
  exact .refl _

theorem State.step3_rel : ∀ s, Rel [.fc, .ctrl, .flr] s (State.step3 s) := by
  intro s
  unfold State.step3
  dsimp only
  refine .mk_of ?_ .auto .auto
  exact .refl _

theorem State.step2_rel : ∀ s, Rel [.i3c, .lc, .secu] s (State.step2 s) := by
  intro s
  unfold State.step2
  dsimp only
  split
  · refine .mk_of ?_ .auto .auto
    exact .refl _
  · refine .mk_of ?_ .auto .auto
    refine .comp ?_ (State.drawn_rel ..) .auto
    refine .mk_of ?_ .auto .auto
    exact .refl _

theorem State.stepEffect_rel : ∀ s a1 a2 a3, Rel [.fc, .evr, .watch, .so, .i3c, .ldr, .pwr, .sched, .cores, .engs, .gddr, .ctrl, .alt, .flr, .io, .jnl, .st, .lc, .secu, .freeCtr, .collected, .irq, .log] s (State.stepEffect s a1 a2 a3) := by
  intro s a1 a2 a3
  unfold State.stepEffect
  dsimp only
  split
  · refine .comp ?_ (State.step2_rel ..) .auto
    exact .refl _
  · refine .comp ?_ (State.step3_rel ..) .auto
    exact .refl _
  · refine .comp ?_ (State.step4_rel ..) .auto
    exact .refl _
  · refine .comp ?_ (State.coresTested_rel ..) .auto
    exact .refl _
  · refine .mk_of ?_ .auto .auto
    exact .refl _
  · refine .ite (fun _ => ?_) (fun _ => ?_)
    · refine .comp ?_ (State.reloadFirst_rel ..) .auto
      refine .comp ?_ (State.mount_rel ..) .auto
      refine .comp ?_ (State.coresTested_rel ..) .auto
      exact .refl _
    · refine .comp ?_ (State.mount_rel ..) .auto
      refine .comp ?_ (State.coresTested_rel ..) .auto
      exact .refl _
  · refine .mk_of ?_ .auto .auto
    exact .refl _

theorem State.stepPasses_rel : ∀ s a1 a2 a3 a4, Rel [.selftestFail, .fc, .evr, .watch, .so, .i3c, .ldr, .pwr, .sched, .cores, .engs, .gddr, .ctrl, .alt, .flr, .io, .jnl, .st, .lc, .secu, .freeCtr, .wstate, .collected, .irq, .log] s (State.stepPasses s a1 a2 a3 a4) := by
  intro s a1 a2 a3 a4
  unfold State.stepPasses
  dsimp only
  refine .ite (fun _ => ?_) (fun _ => ?_)
  · refine .comp ?_ (State.enterSelftestFail_rel ..) .auto
    refine .comp ?_ (State.stepEffect_rel ..) .auto
    exact .refl _
  · refine .comp ?_ (State.event_rel ..) .auto
    refine .comp ?_ (State.stepEffect_rel ..) .auto
    exact .refl _

theorem State.testFailed_rel : ∀ s a1, Rel [.selftestFail, .fc, .evr, .watch, .so, .ldr, .pwr, .st, .freeCtr, .wstate, .collected, .irq, .log] s (State.testFailed s a1) := by
  intro s a1
  unfold State.testFailed
  refine .comp ?_ (State.event_rel ..) .auto
  refine .comp ?_ (State.enterSelftestFail_rel ..) .auto
  exact .refl _

theorem State.runStep_rel : ∀ s a1 a2 a3, Rel [.beat, .selftestFail, .fc, .evr, .watch, .enc, .so, .i3c, .ldr, .pwr, .time, .sched, .cores, .engs, .gddr, .ctrl, .alt, .flr, .io, .jnl, .st, .lc, .secu, .freeCtr, .wstate, .collected, .irq, .log] s (State.runStep s a1 a2 a3) := by
  intro s a1 a2 a3
  unfold State.runStep
  dsimp only
  refine .ite (fun _ => ?_) (fun _ => ?_)
  · exact .refl _
  · split
    · refine .ite (fun _ => ?_) (fun _ => ?_)
      · refine .comp ?_ (State.testFailed_rel ..) .auto
        refine .comp ?_ (State.elapse_rel ..) .auto
        refine .mk_of ?_ .auto .auto
        exact .refl _
      · refine .comp ?_ (State.stepPasses_rel ..) .auto
        refine .comp ?_ (State.elapse_rel ..) .auto
        refine .mk_of ?_ .auto .auto
        exact .refl _
    · refine .comp ?_ (State.stepPasses_rel ..) .auto
      refine .comp ?_ (State.elapse_rel ..) .auto
      refine .mk_of ?_ .auto .auto
      exact .refl _

theorem State.runSteps_rel : ∀ s a1 a2 a3, Rel [.beat, .selftestFail, .fc, .evr, .watch, .enc, .so, .i3c, .ldr, .pwr, .time, .sched, .cores, .engs, .gddr, .ctrl, .alt, .flr, .io, .jnl, .st, .lc, .secu, .freeCtr, .wstate, .collected, .irq, .log] s (State.runSteps s a1 a2 a3) := by
  intro s a1 a2 a3
  unfold State.runSteps
  refine .foldl ?_ ?_
  · exact .refl _
  · intro _ _
    beta_reduce
    refine .comp ?_ (State.runStep_rel ..) .auto
    exact .refl _

theorem State.powerOnRecord_rel : ∀ s a1, Rel [.fc, .evr, .so, .ldr, .jnl, .lc, .freeCtr, .collected, .irq, .log] s (State.powerOnRecord s a1) := by
  intro s a1
  unfold State.powerOnRecord
  dsimp only
  split
  · refine .comp ?_ (State.event_rel ..) .auto
    generalize hx : (State.event _ _ _ : State) = u
    refine .mk_of ?_ .auto .auto
    subst hx
    refine .comp ?_ (State.event_rel ..) .auto
    exact .refl _
  · refine .comp ?_ (State.event_rel ..) .auto
    exact .refl _

theorem State.powerUp_rel : ∀ s a1, Rel [.beat, .powered, .xtalOk, .selftestFail, .fc, .wd, .evr, .watch, .si, .tp, .lrst, .enc, .so, .i3c, .cmd, .ldr, .pwr, .therm, .time, .tel, .sched, .cores, .engs, .noc, .gddr, .gddrMem, .poison, .ctrl, .alt, .golden, .cmp, .grid, .flr, .floorPair, .ev, .io, .jnl, .st, .lc, .secu, .lk, .freeCtr, .wstate, .collected, .irq, .log] s (State.powerUp s a1) := by
  intro s a1
  unfold State.powerUp
  dsimp only
  refine .comp ?_ (State.toStep9_rel ..) .auto
  refine .comp ?_ (State.runSteps_rel ..) .auto
  refine .comp ?_ (State.powerOnRecord_rel ..) .auto
  generalize hx : (State.cold _ _ : State) = u
  refine .mk_of ?_ .auto .auto
  subst hx
  refine .comp ?_ (State.cold_rel ..) .auto
  exact .refl _

theorem State.lockoutSequence_rel : ∀ s a1, Rel [.beat, .powered, .xtalOk, .selftestFail, .fc, .wd, .evr, .watch, .si, .tp, .lrst, .enc, .so, .i3c, .cmd, .ldr, .pwr, .therm, .time, .tel, .sched, .cores, .engs, .noc, .gddr, .gddrMem, .poison, .ctrl, .alt, .golden, .cmp, .grid, .flr, .floorPair, .ev, .io, .jnl, .st, .lc, .secu, .lk, .freeCtr, .wstate, .collected, .irq, .log] s (State.lockoutSequence s a1) := by
  intro s a1
  unfold State.lockoutSequence
  refine .ite (fun _ => ?_) (fun _ => ?_)
  · refine .comp ?_ (State.powerUp_rel ..) .auto
    exact .refl _
  · refine .comp ?_ (State.toStep9_rel ..) .auto
    refine .comp ?_ (State.runSteps_rel ..) .auto
    refine .comp ?_ (State.lockoutKept_rel ..) .auto
    exact .refl _

theorem State.powerOnSteps_rel : ∀ s a1, Rel [.beat, .powered, .xtalOk, .selftestFail, .fc, .wd, .evr, .watch, .si, .tp, .lrst, .enc, .so, .i3c, .cmd, .ldr, .pwr, .therm, .time, .tel, .sched, .cores, .engs, .noc, .gddr, .gddrMem, .poison, .ctrl, .alt, .golden, .cmp, .grid, .flr, .floorPair, .ev, .io, .jnl, .st, .lc, .secu, .lk, .freeCtr, .wstate, .collected, .irq, .log] s (State.powerOnSteps s a1) := by
  intro s a1
  unfold State.powerOnSteps
  refine .ite (fun _ => ?_) (fun _ => ?_)
  · refine .comp ?_ (State.powerUp_rel ..) .auto
    exact .refl _
  · exact .refl _

theorem State.pressTakes_rel : ∀ s a1, Rel [.beat, .powered, .xtalOk, .selftestFail, .fc, .wd, .evr, .watch, .si, .tp, .lrst, .enc, .so, .i3c, .cmd, .ldr, .pwr, .therm, .time, .tel, .sched, .cores, .engs, .noc, .gddr, .gddrMem, .poison, .ctrl, .alt, .golden, .cmp, .grid, .flr, .floorPair, .ev, .io, .jnl, .st, .lc, .secu, .lk, .freeCtr, .wstate, .collected, .irq, .log] s (State.pressTakes s a1) := by
  intro s a1
  unfold State.pressTakes
  refine .ite (fun _ => ?_) (fun _ => ?_)
  · refine .ite (fun _ => ?_) (fun _ => ?_)
    · refine .ite (fun _ => ?_) (fun _ => ?_)
      · refine .comp ?_ (State.lockoutSequence_rel ..) .auto
        refine .comp ?_ (State.lrstTake_rel ..) .auto
        exact .refl _
      · refine .comp ?_ (State.lrstTake_rel ..) .auto
        exact .refl _
    · refine .comp ?_ (State.lrstTake_rel ..) .auto
      exact .refl _
  · exact .refl _

theorem State.wakeSteps_rel : ∀ s a1, Rel [.beat, .selftestFail, .fc, .wd, .evr, .watch, .enc, .so, .i3c, .ldr, .pwr, .time, .sched, .cores, .engs, .gddr, .ctrl, .alt, .golden, .grid, .flr, .ev, .io, .jnl, .st, .lc, .secu, .freeCtr, .wstate, .collected, .irq, .log] s (State.wakeSteps s a1) := by
  intro s a1
  unfold State.wakeSteps
  dsimp only
  refine .ite (fun _ => ?_) (fun _ => ?_)
  · refine .ite (fun _ => ?_) (fun _ => ?_)
    · refine .comp ?_ (State.bootPeriods_rel ..) .auto
      refine .comp ?_ (State.runSteps_rel ..) .auto
      refine .comp ?_ (State.bootWatchdogs_rel ..) .auto
      refine .mk_of ?_ .auto .auto
      exact .refl _
    · refine .ite (fun _ => ?_) (fun _ => ?_)
      · generalize hx : (State.bootPeriods _ : State) = u
        refine .mk_of ?_ .auto .auto
        subst hx
        refine .comp ?_ (State.bootPeriods_rel ..) .auto
        refine .comp ?_ (State.runSteps_rel ..) .auto
        refine .comp ?_ (State.bootWatchdogs_rel ..) .auto
        refine .mk_of ?_ .auto .auto
        exact .refl _
      · refine .comp ?_ (State.toStep9_rel ..) .auto
        refine .comp ?_ (State.runSteps_rel ..) .auto
        refine .comp ?_ (State.bootWatchdogs_rel ..) .auto
        refine .mk_of ?_ .auto .auto
        exact .refl _
  · exact .refl _

end Sys2Proof.Machine
end

