-- ==== Sys2Proof/Laws/RelSecurity.lean ====
section
/-!
SUPPORT. What each operation of Machine/Security.lean leaves unchanged, and that it keeps the invariants.
-/
namespace Sys2Proof.Machine

set_option Elab.async false

theorem State.secRefuse_rel : ∀ s a1 a2, Rel [.evr, .secu, .log] s (State.secRefuse s a1 a2) := by
  intro s a1 a2
  unfold State.secRefuse
  dsimp only
  refine .comp ?_ (State.event_rel ..) .auto
  refine .mk_of ?_ .auto .auto
  exact .refl _

theorem Rel.opStart {ps : List Piece} {s u : State} {a1 a2 f} (w : Within [.evr, .secu, .log] ps) (h : Rel ps s u) (hf : ∀ t, Rel ps t (f t)) :
    Rel ps s (State.opStart u a1 a2 f) := by
  unfold State.opStart
  refine .ite (fun _ => .comp h (State.ignoredWrite_rel ..) (within_of w .auto)) (fun _ => ?_)
  refine .ite (fun _ => .comp h (State.secRefuse_rel ..) (within_of w .auto)) (fun _ => ?_)
  exact .ite (fun _ => .comp h (State.secRefuse_rel ..) (within_of w .auto)) (fun _ => .comp h (hf _) (by simp [Within, within]))

theorem State.secStart_rel : ∀ s a1 a2, Rel [.secu] s (State.secStart s a1 a2) := by
  intro s a1 a2
  unfold State.secStart
  dsimp only
  refine .mk_of ?_ .auto .auto
  exact .refl _

theorem State.attest_rel : ∀ s a1, Rel [.evr, .secu, .log] s (State.attest s a1) := by
  intro s a1
  unfold State.attest
  dsimp only
  refine .opStart .auto ?_ ?_
  · exact .refl _
  · intro _
    beta_reduce
    refine .ite (fun _ => ?_) (fun _ => ?_)
    · refine .mk_of ?_ .auto .auto
      exact .refl _
    · refine .comp ?_ (State.secStart_rel ..) .auto
      exact .refl _

theorem State.bufEmpty_rel : ∀ s, Rel [.secu] s (State.bufEmpty s) := by
  intro s
  unfold State.bufEmpty
  dsimp only
  exact .mk_of (.refl _) .auto fun h => ⟨h.word, h.outs, ⟨h.mem.gddr, h.mem.cores, h.mem.engs, h.mem.plane0, h.mem.plane1, h.mem.floor, rfl⟩⟩

theorem State.bufPut_rel : ∀ s a1, Rel [.secu] s (State.bufPut s a1) := by
  intro s a1
  unfold State.bufPut
  dsimp only
  exact .mk_of (.refl _) .auto fun h => ⟨h.word, h.outs, ⟨h.mem.gddr, h.mem.cores, h.mem.engs, h.mem.plane0, h.mem.plane1, h.mem.floor, Mem.wf_writeN _ _ rfl⟩⟩

theorem State.bufRead_rel : ∀ s, Rel [.secu] s (State.bufRead s) := by
  intro s
  unfold State.bufRead
  dsimp only
  refine .mk_of ?_ .auto .auto
  exact .refl _

theorem State.bufWrite_rel : ∀ s a1, Rel [.secu] s (State.bufWrite s a1) := by
  intro s a1
  unfold State.bufWrite
  dsimp only
  exact .mk_of (.refl _) .auto fun h => ⟨h.word, h.outs, ⟨h.mem.gddr, h.mem.cores, h.mem.engs, h.mem.plane0, h.mem.plane1, h.mem.floor, Sparse.wf_foldl (fun _ _ h => Mem.wf_write _ _ h) _ h.mem.buf⟩⟩

theorem State.certProgram_rel : ∀ s, Rel [.evr, .lc, .secu, .log] s (State.certProgram s) := by
  intro s
  unfold State.certProgram
  dsimp only
  refine .opStart .auto ?_ ?_
  · exact .refl _
  · intro _
    beta_reduce
    refine .ite (fun _ => ?_) (fun _ => ?_)
    · refine .comp ?_ (State.secStart_rel ..) .auto
      refine .comp ?_ (State.event_rel ..) .auto
      refine .mk_of ?_ .auto .auto
      exact .refl _
    · refine .comp ?_ (State.secStart_rel ..) .auto
      exact .refl _

theorem State.certRead_rel : ∀ s, Rel [.evr, .secu, .log] s (State.certRead s) := by
  intro s
  unfold State.certRead
  refine .opStart .auto ?_ ?_
  · exact .refl _
  · intro _
    beta_reduce
    split
    · refine .comp ?_ (State.secStart_rel ..) .auto
      refine .comp ?_ (State.bufPut_rel ..) .auto
      exact .refl _
    · refine .comp ?_ (State.secStart_rel ..) .auto
      exact .refl _

theorem State.idGenerate_rel : ∀ s a1 a2, Rel [.evr, .lc, .secu, .log] s (State.idGenerate s a1 a2) := by
  intro s a1 a2
  unfold State.idGenerate
  dsimp only
  refine .opStart .auto ?_ ?_
  · exact .refl _
  · intro _
    beta_reduce
    refine .ite (fun _ => ?_) (fun _ => ?_)
    · refine .comp ?_ (State.secStart_rel ..) .auto
      exact .refl _
    · refine .ite (fun _ => ?_) (fun _ => ?_)
      · refine .comp ?_ (State.secStart_rel ..) .auto
        exact .refl _
      · refine .ite (fun _ => ?_) (fun _ => ?_)
        · refine .comp ?_ (State.secStart_rel ..) .auto
          refine .comp ?_ (State.drawn_rel ..) .auto
          exact .refl _
        · refine .ite (fun _ => ?_) (fun _ => ?_)
          · refine .comp ?_ (State.secStart_rel ..) .auto
            refine .comp ?_ (State.event_rel ..) .auto
            refine .comp ?_ (State.bufPut_rel ..) .auto
            generalize hx : (State.drawn _ : State) = u
            refine .mk_of ?_ .auto .auto
            subst hx
            refine .comp ?_ (State.drawn_rel ..) .auto
            exact .refl _
          · refine .comp ?_ (State.secStart_rel ..) .auto
            generalize hx : (State.drawn _ : State) = u
            refine .mk_of ?_ .auto .auto
            subst hx
            refine .comp ?_ (State.drawn_rel ..) .auto
            exact .refl _

theorem State.keyOp_rel : ∀ s, Rel [.evr, .lc, .secu, .log] s (State.keyOp s) := by
  intro s
  unfold State.keyOp
  dsimp only
  refine .opStart .auto ?_ ?_
  · exact .refl _
  · intro _
    beta_reduce
    refine .ite (fun _ => ?_) (fun _ => ?_)
    · refine .comp ?_ (State.secStart_rel ..) .auto
      refine .comp ?_ (State.event_rel ..) .auto
      refine .mk_of ?_ .auto .auto
      exact .refl _
    · refine .comp ?_ (State.secStart_rel ..) .auto
      exact .refl _

theorem State.debuggerAttach_rel : ∀ s, Rel [.lc] s (State.debuggerAttach s) := by
  intro s
  unfold State.debuggerAttach
  dsimp only
  refine .ite (fun _ => ?_) (fun _ => ?_)
  · refine .mk_of ?_ .auto .auto
    exact .refl _
  · exact .refl _

theorem State.debuggerHalt_rel : ∀ s a1, Rel [.wd, .ctrl] s (State.debuggerHalt s a1) := by
  intro s a1
  unfold State.debuggerHalt
  dsimp only
  refine .ite (fun _ => ?_) (fun _ => ?_)
  · refine .ite (fun _ => ?_) (fun _ => ?_)
    · refine .mk_of ?_ .auto .auto
      exact .refl _
    · refine .mk_of ?_ .auto .auto
      exact .refl _
  · exact .refl _

theorem State.debuggerRelease_rel : ∀ s a1, Rel [.wd, .ctrl] s (State.debuggerRelease s a1) := by
  intro s a1
  unfold State.debuggerRelease
  dsimp only
  refine .ite (fun _ => ?_) (fun _ => ?_)
  · refine .mk_of ?_ .auto .auto
    exact .refl _
  · refine .mk_of ?_ .auto .auto
    exact .refl _

theorem State.lcAccept_rel : ∀ s a1 a2, Rel [.evr, .lc, .log] s (State.lcAccept s a1 a2) := by
  intro s a1 a2
  unfold State.lcAccept
  dsimp only
  refine .comp ?_ (State.event_rel ..) .auto
  refine .mk_of ?_ .auto .auto
  exact .refl _

theorem State.lcApply_rel : ∀ s a1, Rel [.beat, .powered, .xtalOk, .selftestFail, .fc, .wd, .evr, .watch, .si, .tp, .lrst, .enc, .so, .i3c, .cmd, .ldr, .pwr, .therm, .time, .tel, .sched, .cores, .engs, .noc, .gddr, .gddrMem, .poison, .ctrl, .alt, .golden, .cmp, .grid, .flr, .floorPair, .ev, .io, .jnl, .st, .lc, .secu, .lk, .freeCtr, .wstate, .collected, .irq, .log] s (State.lcApply s a1) := by
  intro s a1
  unfold State.lcApply
  dsimp only
  split
  · exact .refl _
  · refine .ite (fun _ => ?_) (fun _ => ?_)
    · refine .mk_of ?_ .auto .auto
      exact .refl _
    · refine .ite (fun _ => ?_) (fun _ => ?_)
      · split
        · refine .comp ?_ (State.raise_rel ..) .auto
          refine .mk_of ?_ .auto .auto
          exact .refl _
        · refine .comp ?_ (State.cold_rel ..) .auto
          refine .mk_of ?_ .auto .auto
          exact .refl _
      · exact .refl _

theorem State.storeReport_rel : ∀ s a1, Rel [.jnl] s (State.storeReport s a1) := by
  intro s a1
  unfold State.storeReport
  refine .ite (fun _ => ?_) (fun _ => ?_)
  · refine .foldl ?_ ?_
    · exact .refl _
    · intro _ _
      beta_reduce
      refine .comp ?_ (State.evidPage_rel ..) .auto
      exact .refl _
  · exact .refl _

theorem State.secEnd_rel : ∀ s a1 a2, Rel [.evr, .secu, .irq, .log] s (State.secEnd s a1 a2) := by
  intro s a1 a2
  unfold State.secEnd
  dsimp only
  refine .comp ?_ (State.irqSet_rel ..) .auto
  refine .ite (fun _ => ?_) (fun _ => ?_)
  · refine .mk_of ?_ .auto .auto
    exact .refl _
  · refine .comp ?_ (State.event_rel ..) .auto
    refine .mk_of ?_ .auto .auto
    exact .refl _

theorem State.reportSigned_rel : ∀ s, Rel [.evr, .jnl, .secu, .irq, .log] s (State.reportSigned s) := by
  intro s
  unfold State.reportSigned
  dsimp only
  split
  · refine .ite (fun _ => ?_) (fun _ => ?_)
    · refine .comp ?_ (State.secEnd_rel ..) .auto
      refine .ite (fun _ => ?_) (fun _ => ?_)
      · refine .comp ?_ (State.storeReport_rel ..) .auto
        refine .comp ?_ (State.event_rel ..) .auto
        generalize hx : (State.bufPut _ _ : State) = u
        refine .mk_of ?_ .auto .auto
        subst hx
        refine .comp ?_ (State.bufPut_rel ..) .auto
        exact .refl _
      · refine .comp ?_ (State.event_rel ..) .auto
        generalize hx : (State.bufPut _ _ : State) = u
        refine .mk_of ?_ .auto .auto
        subst hx
        refine .comp ?_ (State.bufPut_rel ..) .auto
        exact .refl _
    · exact .refl _
  · exact .refl _

theorem State.secComplete_rel : ∀ s, Rel [.evr, .cmd, .lc, .secu, .irq, .log] s (State.secComplete s) := by
  intro s
  unfold State.secComplete
  dsimp only
  split
  · exact .refl _
  · refine .ite (fun _ => ?_) (fun _ => ?_)
    · exact .refl _
    · refine .ite (fun _ => ?_) (fun _ => ?_)
      · split
        · refine .mk_of ?_ .auto .auto
          refine .ite (fun _ => ?_) (fun _ => ?_)
          · refine .comp ?_ (State.lcAccept_rel ..) .auto
            refine .comp ?_ (State.secEnd_rel ..) .auto
            exact .refl _
          · refine .comp ?_ (State.secEnd_rel ..) .auto
            exact .refl _
        · refine .ite (fun _ => ?_) (fun _ => ?_)
          · refine .comp ?_ (State.lcAccept_rel ..) .auto
            refine .comp ?_ (State.secEnd_rel ..) .auto
            exact .refl _
          · refine .comp ?_ (State.secEnd_rel ..) .auto
            exact .refl _
      · refine .comp ?_ (State.secEnd_rel ..) .auto
        exact .refl _

end Sys2Proof.Machine
end

