-- ==== Sys2Proof/Laws/RelMailbox.lean ====
section
/-!
SUPPORT. What each operation of Machine/Mailbox.lean leaves unchanged, and that it keeps the invariants.
-/
namespace Sys2Proof.Machine

set_option Elab.async false

theorem State.answer_rel : ∀ s a1 a2 a3 a4, Rel [.cmd] s (State.answer s a1 a2 a3 a4) := by
  intro s a1 a2 a3 a4
  unfold State.answer
  dsimp only
  refine .mk_of ?_ .auto .auto
  exact .refl _

theorem State.postResult_rel : ∀ s a1, Rel [.evr, .cmd, .irq, .log] s (State.postResult s a1) := by
  intro s a1
  unfold State.postResult
  dsimp only
  refine .comp ?_ (State.irqSet_rel ..) .auto
  refine .comp ?_ (State.event_rel ..) .auto
  refine .mk_of ?_ .auto .auto
  exact .refl _

theorem State.postResults_rel : ∀ s a1, Rel [.evr, .cmd, .irq, .log] s (State.postResults s a1) := by
  intro s a1
  unfold State.postResults
  dsimp only
  refine .foldl ?_ ?_
  · refine .mk_of ?_ .auto .auto
    exact .refl _
  · intro _ _
    beta_reduce
    refine .comp ?_ (State.postResult_rel ..) .auto
    exact .refl _

theorem State.lcCommand_rel : ∀ s a1 a2, Rel [.evr, .cmd, .secu, .log] s (State.lcCommand s a1 a2) := by
  intro s a1 a2
  unfold State.lcCommand
  dsimp only
  refine .ite (fun _ => ?_) (fun _ => ?_)
  · refine .comp ?_ (State.answer_rel ..) .auto
    refine .comp ?_ (State.secRefuse_rel ..) .auto
    exact .refl _
  · refine .mk_of ?_ .auto .auto
    exact .refl _

theorem State.joinTrigger_rel : ∀ s a1 a2 a3, Rel [.cmd, .collected] s (State.joinTrigger s a1 a2 a3) := by
  intro s a1 a2 a3
  unfold State.joinTrigger
  refine .comp ?_ (State.answer_rel ..) .auto
  refine .comp ?_ (State.addTrig_rel ..) .auto
  exact .refl _

theorem State.takeIntent_rel : ∀ s a1, Rel [.watch] s (State.takeIntent s a1) := by
  intro s a1
  unfold State.takeIntent
  dsimp only
  refine .mk_of ?_ .auto .auto
  exact .refl _

theorem State.runCommand_rel : ∀ s a1 a2 a3, Rel [.wd, .evr, .watch, .enc, .cmd, .ldr, .sched, .cores, .engs, .golden, .grid, .flr, .ev, .jnl, .st, .secu, .collected, .log] s (State.runCommand s a1 a2 a3) := by
  intro s a1 a2 a3
  unfold State.runCommand
  dsimp only
  split
  · refine .ite (fun _ => ?_) (fun _ => ?_)
    · refine .comp ?_ (State.joinTrigger_rel ..) .auto
      exact .refl _
    · refine .comp ?_ (State.answer_rel ..) .auto
      exact .refl _
  · refine .ite (fun _ => ?_) (fun _ => ?_)
    · refine .comp ?_ (State.answer_rel ..) .auto
      exact .refl _
    · refine .ite (fun _ => ?_) (fun _ => ?_)
      · refine .comp ?_ (State.answer_rel ..) .auto
        exact .refl _
      · refine .comp ?_ (State.joinTrigger_rel ..) .auto
        exact .refl _
  · refine .ite (fun _ => ?_) (fun _ => ?_)
    · refine .comp ?_ (State.joinTrigger_rel ..) .auto
      exact .refl _
    · refine .comp ?_ (State.answer_rel ..) .auto
      exact .refl _
  · refine .ite (fun _ => ?_) (fun _ => ?_)
    · refine .comp ?_ (State.answer_rel ..) .auto
      refine .comp ?_ (State.useProfile_rel ..) .auto
      exact .refl _
    · refine .comp ?_ (State.answer_rel ..) .auto
      exact .refl _
  · refine .ite (fun _ => ?_) (fun _ => ?_)
    · refine .comp ?_ (State.answer_rel ..) .auto
      refine .comp ?_ (State.setParam_rel ..) .auto
      exact .refl _
    · refine .comp ?_ (State.answer_rel ..) .auto
      exact .refl _
  · refine .ite (fun _ => ?_) (fun _ => ?_)
    · refine .comp ?_ (State.answer_rel ..) .auto
      exact .refl _
    · refine .comp ?_ (State.answer_rel ..) .auto
      refine .comp ?_ (State.takeIntent_rel ..) .auto
      exact .refl _
  · refine .ite (fun _ => ?_) (fun _ => ?_)
    · refine .comp ?_ (State.answer_rel ..) .auto
      refine .comp ?_ (State.serviceEnter_rel ..) .auto
      exact .refl _
    · refine .comp ?_ (State.answer_rel ..) .auto
      exact .refl _
  · refine .ite (fun _ => ?_) (fun _ => ?_)
    · refine .comp ?_ (State.answer_rel ..) .auto
      refine .comp ?_ (State.serviceExit_rel ..) .auto
      exact .refl _
    · refine .comp ?_ (State.answer_rel ..) .auto
      exact .refl _
  · refine .ite (fun _ => ?_) (fun _ => ?_)
    · refine .comp ?_ (State.answer_rel ..) .auto
      refine .comp ?_ (State.clearFirst_rel ..) .auto
      exact .refl _
    · refine .comp ?_ (State.answer_rel ..) .auto
      exact .refl _
  · refine .comp ?_ (State.lcCommand_rel ..) .auto
    exact .refl _

theorem State.cmdStart_rel : ∀ s a1 a2 a3, Rel [.wd, .evr, .watch, .enc, .cmd, .ldr, .sched, .cores, .engs, .golden, .grid, .flr, .ev, .jnl, .st, .secu, .collected, .log] s (State.cmdStart s a1 a2 a3) := by
  intro s a1 a2 a3
  unfold State.cmdStart
  dsimp only
  refine .ite (fun _ => ?_) (fun _ => ?_)
  · refine .comp ?_ (State.answer_rel ..) .auto
    exact .refl _
  · refine .ite (fun _ => ?_) (fun _ => ?_)
    · refine .comp ?_ (State.answer_rel ..) .auto
      exact .refl _
    · refine .ite (fun _ => ?_) (fun _ => ?_)
      · refine .comp ?_ (State.answer_rel ..) .auto
        exact .refl _
      · refine .ite (fun _ => ?_) (fun _ => ?_)
        · refine .comp ?_ (State.answer_rel ..) .auto
          refine .mk_of ?_ .auto .auto
          exact .refl _
        · refine .ite (fun _ => ?_) (fun _ => ?_)
          · refine .comp ?_ (State.answer_rel ..) .auto
            refine .mk_of ?_ .auto .auto
            exact .refl _
          · refine .comp ?_ (State.runCommand_rel ..) .auto
            refine .mk_of ?_ .auto .auto
            exact .refl _

theorem State.cmdGo_rel : ∀ s a1, Rel [.wd, .evr, .watch, .enc, .cmd, .ldr, .sched, .cores, .engs, .golden, .grid, .flr, .ev, .jnl, .st, .secu, .collected, .log] s (State.cmdGo s a1) := by
  intro s a1
  unfold State.cmdGo
  refine .ite (fun _ => ?_) (fun _ => ?_)
  · refine .comp ?_ (State.cmdStart_rel ..) .auto
    exact .refl _
  · refine .comp ?_ (State.ignoredWrite_rel ..) .auto
    exact .refl _

theorem State.mailbox_rel : ∀ s a1 a2, Rel [.wd, .evr, .watch, .enc, .cmd, .ldr, .sched, .cores, .engs, .golden, .grid, .flr, .ev, .jnl, .st, .secu, .collected, .log] s (State.mailbox s a1 a2) := by
  intro s a1 a2
  unfold State.mailbox
  dsimp only
  refine .ite (fun _ => ?_) (fun _ => ?_)
  · refine .comp ?_ (State.cmdGo_rel ..) .auto
    refine .mk_of ?_ .auto .auto
    exact .refl _
  · exact .refl _

end Sys2Proof.Machine
end

