-- ==== Sys2Proof/Laws/RelOutputs.lean ====
section
/-!
SUPPORT. What each operation of Machine/Outputs.lean leaves unchanged, and that it keeps the invariants.
-/
namespace Sys2Proof.Machine

set_option Elab.async false

theorem State.modGrp_rel (s : State) (g : Nat) (f)
    (hf : (s.grp g).okIn s.so.held = true → (f (s.grp g)).okIn s.so.held = true) : Rel [.so] s (State.modGrp s g f) := by
  exact .mk_of (.refl _) .auto fun h => ⟨h.word,
    (OutState.ok_iff _).2 (vmod_forall_at (P := fun x => x.okIn s.so.held = true) g OutGroup.default ((OutState.ok_iff _).1 h.outs) hf),
    ⟨h.mem.gddr, h.mem.cores, h.mem.engs, h.mem.plane0, h.mem.plane1, h.mem.floor, h.mem.buf⟩⟩

theorem OutGroup.okIn_iff (held : Bool) (x : OutGroup) :
    x.okIn held = true ↔ (x.on = false → x.a.high = false ∧ x.b.high = false ∧ x.pulse = none) ∧ (held = true → x.on = false) := by
  unfold OutGroup.okIn OutGroup.ok
  cases x.on <;> cases held <;> simp [and_assoc]

theorem State.pulsesFallDue_rel : ∀ s, Rel [.so] s (State.pulsesFallDue s) := by
  intro s
  unfold State.pulsesFallDue
  dsimp only
  refine .foldl ?_ ?_
  · exact .refl _
  · intro _ _
    beta_reduce
    refine .comp ?_ (State.modGrp_rel _ _ _ fun h => by
      rw [OutGroup.okIn_iff] at h ⊢
      exact ⟨fun o => ⟨by have := h.1 o; dsimp only; split <;> exact this.1, by have := h.1 o; dsimp only; split <;> exact this.2.1, (h.1 o).2.2⟩, h.2⟩) .auto
    exact .refl _

theorem State.readbackFailure_rel : ∀ s a1 a2, Rel [.fc, .evr, .so, .freeCtr, .collected, .irq, .log] s (State.readbackFailure s a1 a2) := by
  intro s a1 a2
  unfold State.readbackFailure
  split
  · refine .comp ?_ (State.raise_rel ..) .auto
    refine .comp ?_ (State.modGrp_rel _ _ _ fun h => by
        rw [OutGroup.okIn_iff] at h ⊢
        unfold OutGroup.modChan
        split <;> exact h) .auto
    exact .refl _
  · exact .refl _

theorem State.pulseReturn_rel : ∀ s a1, Rel [.so] s (State.pulseReturn s a1) := by
  intro s a1
  unfold State.pulseReturn
  dsimp only
  refine .comp ?_ (State.modGrp_rel _ _ _ fun h => by
      rw [OutGroup.okIn_iff] at h ⊢
      split
      · rename_i p hp
        split
        · refine ⟨fun o => ?_, ?_⟩
          · have : (s.grp a1).on = false := by revert o; unfold OutGroup.modChan; split <;> exact id
            simp [(h.1 this).2.2] at hp
          · unfold OutGroup.modChan; split <;> exact h.2
        · exact h
      · exact h) .auto
  exact .refl _

theorem State.offPulseEnd_rel : ∀ s a1, Rel [.fc, .evr, .so, .freeCtr, .collected, .irq, .log] s (State.offPulseEnd s a1) := by
  intro s a1
  unfold State.offPulseEnd
  dsimp only
  split
  · refine .comp ?_ (State.pulseReturn_rel ..) .auto
    exact .refl _
  · split
    · refine .comp ?_ (State.pulseReturn_rel ..) .auto
      exact .refl _
    · refine .comp ?_ (State.modGrp_rel _ _ _ fun h => by
        rw [OutGroup.okIn_iff] at h ⊢
        first
        | exact ⟨fun o => ⟨(h.1 o).1, (h.1 o).2.1, rfl⟩, h.2⟩
        | unfold OutGroup.modChan; split <;> exact ⟨fun o => ⟨(h.1 o).1, (h.1 o).2.1, rfl⟩, h.2⟩) .auto
      refine .comp ?_ (State.pulseReturn_rel ..) .auto
      exact .refl _
    · refine .comp ?_ (State.raise_rel ..) .auto
      refine .comp ?_ (State.modGrp_rel _ _ _ fun h => by
        rw [OutGroup.okIn_iff] at h ⊢
        first
        | exact ⟨fun o => ⟨(h.1 o).1, (h.1 o).2.1, rfl⟩, h.2⟩
        | unfold OutGroup.modChan; split <;> exact ⟨fun o => ⟨(h.1 o).1, (h.1 o).2.1, rfl⟩, h.2⟩) .auto
      refine .comp ?_ (State.pulseReturn_rel ..) .auto
      exact .refl _

theorem State.offPulseStart_rel : ∀ s a1 a2, Rel [.so] s (State.offPulseStart s a1 a2) := by
  intro s a1 a2
  unfold State.offPulseStart
  dsimp only
  refine .ite (fun _ => ?_) (fun _ => ?_)
  · refine .comp ?_ (State.modGrp_rel _ _ _ fun _ => by
      have hm := ‹s.pulseMayStart a1 a2 = true›
      simp only [State.pulseMayStart, Bool.and_eq_true, Bool.not_eq_true'] at hm
      rw [OutGroup.okIn_iff]
      unfold OutGroup.modChan
      split <;> simp_all) .auto
    exact .refl _
  · exact .refl _

theorem OutGroup.latchOver_ok {held : Bool} {x : OutGroup} (b : Nat) (h : x.okIn held = true) : (x.latchOver b).okIn held = true := by
  rw [OutGroup.okIn_iff] at h ⊢
  unfold OutGroup.latchOver OutGroup.modChan OutChan.command
  split
  · dsimp only
    split
    · rename_i o
      split <;> simp_all
    · exact h
  · exact h

theorem OutGroup.turnOn_ok {held : Bool} (b : Nat) (x : OutGroup) (h : held = false) : (x.turnOn b).okIn held = true := by
  rw [OutGroup.okIn_iff]
  simp [OutGroup.turnOn, h]

theorem OutGroup.turnOff_ok {held : Bool} (b w : Nat) (x : OutGroup) : (x.turnOff b w).okIn held = true := by
  rw [OutGroup.okIn_iff]
  simp [OutGroup.turnOff, OutChan.command]

theorem State.driveGroup_rel : ∀ s a1, Rel [.so] s (State.driveGroup s a1) := by
  intro s a1
  unfold State.driveGroup
  dsimp only
  refine .comp ?_ (State.modGrp_rel _ _ _ fun h => by
    have hl := OutGroup.latchOver_ok s.beat h
    split
    · rename_i c
      refine OutGroup.turnOn_ok s.beat _ ?_
      revert c; cases s.so.held <;> simp
    · split
      · exact OutGroup.turnOff_ok s.beat _ _
      · exact hl) .auto
  exact .refl _

theorem State.driveGroups_rel : ∀ s, Rel [.so] s (State.driveGroups s) := by
  intro s
  unfold State.driveGroups
  refine .foldl ?_ ?_
  · exact .refl _
  · intro _ _
    beta_reduce
    refine .comp ?_ (State.driveGroup_rel ..) .auto
    exact .refl _

end Sys2Proof.Machine
end

