-- ==== Sys2Proof/Laws/RelPair.lean ====
section
/-!
SUPPORT. What each operation of Machine/Pair.lean leaves unchanged, and that it keeps the invariants.
-/
namespace Sys2Proof.Machine

set_option Elab.async false

theorem State.linkTo_rel : ∀ s a1, Rel [.evr, .lk, .log] s (State.linkTo s a1) := by
  intro s a1
  unfold State.linkTo
  dsimp only
  refine .ite (fun _ => ?_) (fun _ => ?_)
  · exact .refl _
  · refine .comp ?_ (State.event_rel ..) .auto
    refine .mk_of ?_ .auto .auto
    exact .refl _

theorem State.align_rel : ∀ s a1, Rel [.evr, .lk, .log] s (State.align s a1) := by
  intro s a1
  unfold State.align
  dsimp only
  refine .comp ?_ (State.event_rel ..) .auto
  refine .comp ?_ (State.linkTo_rel ..) .auto
  refine .mk_of ?_ .auto .auto
  exact .refl _

theorem State.linkCrcFail_rel : ∀ s, Rel [.lk] s (State.linkCrcFail s) := by
  intro s
  unfold State.linkCrcFail
  dsimp only
  refine .mk_of ?_ .auto .auto
  exact .refl _

theorem State.linkDown_rel : ∀ s, Rel [.evr, .lk, .log] s (State.linkDown s) := by
  intro s
  unfold State.linkDown
  dsimp only
  refine .comp ?_ (State.linkTo_rel ..) .auto
  refine .mk_of ?_ .auto .auto
  exact .refl _

theorem State.linkFault_rel : ∀ s a1 a2, Rel [.fc, .evr, .so, .lk, .freeCtr, .collected, .irq, .log] s (State.linkFault s a1 a2) := by
  intro s a1 a2
  unfold State.linkFault
  refine .comp ?_ (State.linkDown_rel ..) .auto
  refine .comp ?_ (State.raise_rel ..) .auto
  exact .refl _

theorem State.beatMsg_rel : ∀ s a1, Rel [.fc, .evr, .so, .lk, .freeCtr, .collected, .irq, .log] s (State.beatMsg s a1) := by
  intro s a1
  unfold State.beatMsg
  dsimp only
  refine .ite (fun _ => ?_) (fun _ => ?_)
  · refine .ite (fun _ => ?_) (fun _ => ?_)
    · refine .ite (fun _ => ?_) (fun _ => ?_)
      · refine .comp ?_ (State.linkFault_rel ..) .auto
        refine .mk_of ?_ .auto .auto
        exact .refl _
      · refine .mk_of ?_ .auto .auto
        exact .refl _
    · refine .comp ?_ (State.linkCrcFail_rel ..) .auto
      exact .refl _
  · exact .refl _

theorem State.linkTrain_rel : ∀ s, Rel [.evr, .lk, .log] s (State.linkTrain s) := by
  intro s
  unfold State.linkTrain
  refine .ite (fun _ => ?_) (fun _ => ?_)
  · refine .ite (fun _ => ?_) (fun _ => ?_)
    · refine .comp ?_ (State.linkTo_rel ..) .auto
      exact .refl _
    · exact .refl _
  · refine .ite (fun _ => ?_) (fun _ => ?_)
    · exact .refl _
    · refine .comp ?_ (State.linkDown_rel ..) .auto
      exact .refl _

theorem State.partnerLoss_rel : ∀ s, Rel [.collected] s (State.partnerLoss s) := by
  intro s
  unfold State.partnerLoss
  refine .ite (fun _ => ?_) (fun _ => ?_)
  · refine .comp ?_ (State.addDoubt_rel ..) .auto
    exact .refl _
  · exact .refl _

theorem State.pairJudge_rel : ∀ s, Rel [.evr, .lk, .collected, .log] s (State.pairJudge s) := by
  intro s
  unfold State.pairJudge
  dsimp only
  refine .ite (fun _ => ?_) (fun _ => ?_)
  · refine .ite (fun _ => ?_) (fun _ => ?_)
    · refine .comp ?_ (State.addDoubt_rel ..) .auto
      generalize hx : (List.foldl _ _ _ : State) = u
      refine .mk_of ?_ .auto .auto
      subst hx
      refine .foldl ?_ ?_
      · refine .mk_of ?_ .auto .auto
        exact .refl _
      · intro _ _
        beta_reduce
        refine .comp ?_ (State.event_rel ..) .auto
        refine .mk_of ?_ .auto .auto
        exact .refl _
    · refine .ite (fun _ => ?_) (fun _ => ?_)
      · refine .comp ?_ (State.addClear_rel ..) .auto
        generalize hx : (List.foldl _ _ _ : State) = u
        refine .mk_of ?_ .auto .auto
        subst hx
        refine .foldl ?_ ?_
        · refine .mk_of ?_ .auto .auto
          exact .refl _
        · intro _ _
          beta_reduce
          refine .comp ?_ (State.event_rel ..) .auto
          refine .mk_of ?_ .auto .auto
          exact .refl _
      · generalize hx : (List.foldl _ _ _ : State) = u
        refine .mk_of ?_ .auto .auto
        subst hx
        refine .foldl ?_ ?_
        · refine .mk_of ?_ .auto .auto
          exact .refl _
        · intro _ _
          beta_reduce
          refine .comp ?_ (State.event_rel ..) .auto
          refine .mk_of ?_ .auto .auto
          exact .refl _
  · exact .refl _

theorem State.stageDoubts_rel : ∀ s, Rel [.collected] s (State.stageDoubts s) := by
  intro s
  unfold State.stageDoubts
  dsimp only
  refine .ite (fun _ => ?_) (fun _ => ?_)
  · refine .comp ?_ (State.addDoubt_rel ..) .auto
    refine .ite (fun _ => ?_) (fun _ => ?_)
    · refine .comp ?_ (State.addDoubt_rel ..) .auto
      exact .refl _
    · exact .refl _
  · refine .ite (fun _ => ?_) (fun _ => ?_)
    · refine .comp ?_ (State.addDoubt_rel ..) .auto
      exact .refl _
    · exact .refl _

theorem State.modStage_rel : ∀ s a1 a2, Rel [.lk] s (State.modStage s a1 a2) := by
  intro s a1 a2
  unfold State.modStage
  dsimp only
  refine .mk_of ?_ .auto .auto
  exact .refl _

theorem State.stageViolation_rel : ∀ s a1 a2, Rel [.evr, .lk, .log] s (State.stageViolation s a1 a2) := by
  intro s a1 a2
  unfold State.stageViolation
  dsimp only
  refine .comp ?_ (State.event_rel ..) .auto
  generalize hx : (State.modStage _ _ _ : State) = u
  refine .mk_of ?_ .auto .auto
  subst hx
  refine .comp ?_ (State.modStage_rel ..) .auto
  exact .refl _

theorem State.stageMissingDue_rel : ∀ s a1, Rel [.evr, .lk, .log] s (State.stageMissingDue s a1) := by
  intro s a1
  unfold State.stageMissingDue
  refine .ite (fun _ => ?_) (fun _ => ?_)
  · refine .comp ?_ (State.stageViolation_rel ..) .auto
    exact .refl _
  · exact .refl _

theorem State.stageEventDue_rel : ∀ s a1, Rel [.evr, .lk, .log] s (State.stageEventDue s a1) := by
  intro s a1
  unfold State.stageEventDue
  refine .ite (fun _ => ?_) (fun _ => ?_)
  · refine .ite (fun _ => ?_) (fun _ => ?_)
    · refine .comp ?_ (State.stageViolation_rel ..) .auto
      exact .refl _
    · refine .comp ?_ (State.modStage_rel ..) .auto
      exact .refl _
  · exact .refl _

theorem State.stagesSettle_rel : ∀ s, Rel [.evr, .lk, .log] s (State.stagesSettle s) := by
  intro s
  unfold State.stagesSettle
  dsimp only
  refine .foldl ?_ ?_
  · refine .foldl ?_ ?_
    · exact .refl _
    · intro _ _
      beta_reduce
      refine .comp ?_ (State.stageEventDue_rel ..) .auto
      exact .refl _
  · intro _ _
    beta_reduce
    refine .comp ?_ (State.stageMissingDue_rel ..) .auto
    exact .refl _

theorem State.linkCrcRateDue_rel : ∀ s, Rel [.fc, .evr, .so, .lk, .freeCtr, .collected, .irq, .log] s (State.linkCrcRateDue s) := by
  intro s
  unfold State.linkCrcRateDue
  dsimp only
  refine .ite (fun _ => ?_) (fun _ => ?_)
  · refine .comp ?_ (State.linkFault_rel ..) .auto
    refine .mk_of ?_ .auto .auto
    exact .refl _
  · exact .refl _

theorem State.summarySend_rel : ∀ s, Rel [.lk] s (State.summarySend s) := by
  intro s
  unfold State.summarySend
  dsimp only
  refine .ite (fun _ => ?_) (fun _ => ?_)
  · refine .mk_of ?_ .auto .auto
    exact .refl _
  · exact .refl _

theorem State.pairCount_rel : ∀ s, Rel [.lk] s (State.pairCount s) := by
  intro s
  unfold State.pairCount
  dsimp only
  refine .ite (fun _ => ?_) (fun _ => ?_)
  · refine .mk_of ?_ .auto .auto
    exact .refl _
  · exact .refl _

theorem State.stagesTick_rel : ∀ s, Rel [.lk] s (State.stagesTick s) := by
  intro s
  unfold State.stagesTick
  dsimp only
  refine .mk_of ?_ .auto .auto
  exact .refl _

theorem State.pairSend_rel : ∀ s, Rel [.lk, .freeCtr] s (State.pairSend s) := by
  intro s
  unfold State.pairSend
  dsimp only
  refine .ite (fun _ => ?_) (fun _ => ?_)
  · generalize hx : (State.freed _ : State) = u
    refine .mk_of ?_ .auto .auto
    subst hx
    refine .comp ?_ (State.freed_rel ..) .auto
    exact .refl _
  · refine .ite (fun _ => ?_) (fun _ => ?_)
    · refine .mk_of ?_ .auto .auto
      exact .refl _
    · exact .refl _

theorem State.frameSummary_rel : ∀ s a1, Rel [.lk] s (State.frameSummary s a1) := by
  intro s a1
  unfold State.frameSummary
  dsimp only
  refine .ite (fun _ => ?_) (fun _ => ?_)
  · refine .ite (fun _ => ?_) (fun _ => ?_)
    · refine .mk_of ?_ .auto .auto
      exact .refl _
    · refine .comp ?_ (State.linkCrcFail_rel ..) .auto
      exact .refl _
  · exact .refl _

theorem State.hello_rel : ∀ s a1, Rel [.fc, .evr, .so, .lk, .freeCtr, .collected, .irq, .log] s (State.hello s a1) := by
  intro s a1
  unfold State.hello
  dsimp only
  refine .ite (fun _ => ?_) (fun _ => ?_)
  · refine .ite (fun _ => ?_) (fun _ => ?_)
    · refine .ite (fun _ => ?_) (fun _ => ?_)
      · refine .ite (fun _ => ?_) (fun _ => ?_)
        · refine .comp ?_ (State.align_rel ..) .auto
          refine .mk_of ?_ .auto .auto
          exact .refl _
        · refine .mk_of ?_ .auto .auto
          exact .refl _
      · refine .ite (fun _ => ?_) (fun _ => ?_)
        · refine .mk_of ?_ .auto .auto
          exact .refl _
        · refine .comp ?_ (State.raise_rel ..) .auto
          refine .mk_of ?_ .auto .auto
          exact .refl _
    · refine .comp ?_ (State.linkCrcFail_rel ..) .auto
      exact .refl _
  · exact .refl _

theorem State.laneLost_rel : ∀ s a1, Rel [.fc, .evr, .so, .lk, .freeCtr, .collected, .irq, .log] s (State.laneLost s a1) := by
  intro s a1
  unfold State.laneLost
  refine .ite (fun _ => ?_) (fun _ => ?_)
  · refine .comp ?_ (State.linkFault_rel ..) .auto
    exact .refl _
  · refine .ite (fun _ => ?_) (fun _ => ?_)
    · refine .comp ?_ (State.linkDown_rel ..) .auto
      exact .refl _
    · exact .refl _

theorem State.linkTrained_rel : ∀ s, Rel [.evr, .lk, .log] s (State.linkTrained s) := by
  intro s
  unfold State.linkTrained
  dsimp only
  refine .ite (fun _ => ?_) (fun _ => ?_)
  · refine .comp ?_ (State.linkTo_rel ..) .auto
    refine .mk_of ?_ .auto .auto
    exact .refl _
  · exact .refl _

end Sys2Proof.Machine
end

