-- ==== Sys2Proof/Laws/RelPower.lean ====
section
/-!
SUPPORT. What each operation of Machine/Power.lean leaves unchanged, and that it keeps the invariants.
-/
namespace Sys2Proof.Machine

set_option Elab.async false

theorem State.modPrim_rel : ∀ s a1 a2, Rel [.pwr] s (State.modPrim s a1 a2) := by
  intro s a1 a2
  unfold State.modPrim
  dsimp only
  refine .mk_of ?_ .auto .auto
  exact .refl _

theorem State.accPowerUp_rel : ∀ s a1, Rel [.evr, .pwr, .log] s (State.accPowerUp s a1) := by
  intro s a1
  unfold State.accPowerUp
  refine .comp ?_ (State.event_rel ..) .auto
  refine .comp ?_ (State.modPrim_rel ..) .auto
  exact .refl _

theorem State.accAtOrigin_rel : ∀ s, Rel [.evr, .pwr, .log] s (State.accAtOrigin s) := by
  intro s
  unfold State.accAtOrigin
  refine .foldl ?_ ?_
  · exact .refl _
  · intro _ _
    beta_reduce
    refine .ite (fun _ => ?_) (fun _ => ?_)
    · refine .comp ?_ (State.accPowerUp_rel ..) .auto
      exact .refl _
    · exact .refl _

theorem State.offBeatsOver_rel : ∀ s a1, Rel [.evr, .pwr, .log] s (State.offBeatsOver s a1) := by
  intro s a1
  unfold State.offBeatsOver
  refine .ite (fun _ => ?_) (fun _ => ?_)
  · refine .comp ?_ (State.accPowerUp_rel ..) .auto
    exact .refl _
  · exact .refl _

theorem State.pwrToRst_rel : ∀ s a1, Rel [.pwr] s (State.pwrToRst s a1) := by
  intro s a1
  unfold State.pwrToRst
  refine .ite (fun _ => ?_) (fun _ => ?_)
  · refine .comp ?_ (State.modPrim_rel ..) .auto
    exact .refl _
  · exact .refl _

theorem State.rstToOff_rel : ∀ s a1, Rel [.pwr] s (State.rstToOff s a1) := by
  intro s a1
  unfold State.rstToOff
  refine .ite (fun _ => ?_) (fun _ => ?_)
  · refine .comp ?_ (State.modPrim_rel ..) .auto
    exact .refl _
  · exact .refl _

theorem State.accPowerDown_rel : ∀ s a1 a2 a3, Rel [.evr, .pwr, .log] s (State.accPowerDown s a1 a2 a3) := by
  intro s a1 a2 a3
  unfold State.accPowerDown
  refine .comp ?_ (State.event_rel ..) .auto
  refine .comp ?_ (State.modPrim_rel ..) .auto
  exact .refl _

theorem State.accStartCycle_rel : ∀ s a1 a2, Rel [.evr, .pwr, .log] s (State.accStartCycle s a1 a2) := by
  intro s a1 a2
  unfold State.accStartCycle
  refine .comp ?_ (State.modPrim_rel ..) .auto
  refine .comp ?_ (State.accPowerDown_rel ..) .auto
  exact .refl _

theorem State.autoCycle_rel : ∀ s a1, Rel [.evr, .pwr, .log] s (State.autoCycle s a1) := by
  intro s a1
  unfold State.autoCycle
  dsimp only
  refine .ite (fun _ => ?_) (fun _ => ?_)
  · refine .ite (fun _ => ?_) (fun _ => ?_)
    · refine .comp ?_ (State.accStartCycle_rel ..) .auto
      refine .ite (fun _ => ?_) (fun _ => ?_)
      · refine .comp ?_ (State.modPrim_rel ..) .auto
        exact .refl _
      · exact .refl _
    · refine .ite (fun _ => ?_) (fun _ => ?_)
      · refine .ite (fun _ => ?_) (fun _ => ?_)
        · refine .comp ?_ (State.modPrim_rel ..) .auto
          exact .refl _
        · exact .refl _
      · refine .comp ?_ (State.event_rel ..) .auto
        refine .comp ?_ (State.modPrim_rel ..) .auto
        refine .ite (fun _ => ?_) (fun _ => ?_)
        · refine .comp ?_ (State.modPrim_rel ..) .auto
          exact .refl _
        · exact .refl _
  · refine .ite (fun _ => ?_) (fun _ => ?_)
    · refine .comp ?_ (State.modPrim_rel ..) .auto
      exact .refl _
    · exact .refl _

theorem State.accBeat_rel : ∀ s, Rel [.evr, .pwr, .log] s (State.accBeat s) := by
  intro s
  unfold State.accBeat
  refine .foldl ?_ ?_
  · exact .refl _
  · intro _ _
    beta_reduce
    refine .comp ?_ (State.autoCycle_rel ..) .auto
    refine .comp ?_ (State.rstToOff_rel ..) .auto
    refine .comp ?_ (State.offBeatsOver_rel ..) .auto
    refine .comp ?_ (State.pwrToRst_rel ..) .auto
    exact .refl _

theorem State.accIgnored_rel : ∀ s, Rel [.evr, .log] s (State.accIgnored s) := by
  intro s
  unfold State.accIgnored
  refine .comp ?_ (State.ignoredWrite_rel ..) .auto
  exact .refl _

theorem State.accCycleReq_rel : ∀ s a1, Rel [.evr, .pwr, .log] s (State.accCycleReq s a1) := by
  intro s a1
  unfold State.accCycleReq
  refine .ite (fun _ => ?_) (fun _ => ?_)
  · refine .comp ?_ (State.accIgnored_rel ..) .auto
    exact .refl _
  · split
    · refine .comp ?_ (State.accStartCycle_rel ..) .auto
      exact .refl _
    · refine .comp ?_ (State.accStartCycle_rel ..) .auto
      exact .refl _
    · refine .comp ?_ (State.accIgnored_rel ..) .auto
      exact .refl _

theorem State.accOffReq_rel : ∀ s a1, Rel [.evr, .pwr, .log] s (State.accOffReq s a1) := by
  intro s a1
  unfold State.accOffReq
  refine .ite (fun _ => ?_) (fun _ => ?_)
  · refine .comp ?_ (State.accIgnored_rel ..) .auto
    exact .refl _
  · refine .ite (fun _ => ?_) (fun _ => ?_)
    · exact .refl _
    · refine .comp ?_ (State.accPowerDown_rel ..) .auto
      exact .refl _

theorem State.accOnReq_rel : ∀ s a1, Rel [.evr, .pwr, .log] s (State.accOnReq s a1) := by
  intro s a1
  unfold State.accOnReq
  refine .ite (fun _ => ?_) (fun _ => ?_)
  · refine .comp ?_ (State.accIgnored_rel ..) .auto
    exact .refl _
  · split
    · refine .comp ?_ (State.accPowerUp_rel ..) .auto
      exact .refl _
    · exact .refl _
    · refine .comp ?_ (State.accIgnored_rel ..) .auto
      exact .refl _

theorem State.voltageCheck_rel : ∀ s, Rel [.fc, .evr, .so, .pwr, .freeCtr, .collected, .irq, .log] s (State.voltageCheck s) := by
  intro s
  unfold State.voltageCheck
  dsimp only
  refine .ite (fun _ => ?_) (fun _ => ?_)
  · exact .refl _
  · refine .ite (fun _ => ?_) (fun _ => ?_)
    · refine .mk_of ?_ .auto .auto
      exact .refl _
    · refine .ite (fun _ => ?_) (fun _ => ?_)
      · refine .comp ?_ (State.raise_rel ..) .auto
        refine .mk_of ?_ .auto .auto
        exact .refl _
      · exact .refl _

theorem State.currentCheck_rel : ∀ s a1, Rel [.fc, .evr, .so, .pwr, .freeCtr, .collected, .irq, .log] s (State.currentCheck s a1) := by
  intro s a1
  unfold State.currentCheck
  dsimp only
  refine .ite (fun _ => ?_) (fun _ => ?_)
  · refine .comp ?_ (State.raise_rel ..) .auto
    refine .mk_of ?_ .auto .auto
    exact .refl _
  · refine .mk_of ?_ .auto .auto
    exact .refl _

theorem State.regRead_rel : ∀ s a1 a2 a3, Rel [.pwr] s (State.regRead s a1 a2 a3) := by
  intro s a1 a2 a3
  unfold State.regRead
  dsimp only
  refine .mk_of ?_ .auto .auto
  exact .refl _

theorem State.regUnread_rel : ∀ s a1, Rel [.fc, .evr, .so, .pwr, .freeCtr, .collected, .irq, .log] s (State.regUnread s a1) := by
  intro s a1
  unfold State.regUnread
  dsimp only
  refine .ite (fun _ => ?_) (fun _ => ?_)
  · refine .ite (fun _ => ?_) (fun _ => ?_)
    · refine .comp ?_ (State.raise_rel ..) .auto
      refine .mk_of ?_ .auto .auto
      exact .refl _
    · refine .mk_of ?_ .auto .auto
      exact .refl _
  · refine .mk_of ?_ .auto .auto
    exact .refl _

theorem State.avsRead_rel : ∀ s a1 a2 a3, Rel [.fc, .evr, .so, .pwr, .freeCtr, .collected, .irq, .log] s (State.avsRead s a1 a2 a3) := by
  intro s a1 a2 a3
  unfold State.avsRead
  dsimp only
  refine .ite (fun _ => ?_) (fun _ => ?_)
  · refine .ite (fun _ => ?_) (fun _ => ?_)
    · refine .comp ?_ (State.raise_rel ..) .auto
      refine .comp ?_ (State.voltageCheck_rel ..) .auto
      refine .comp ?_ (State.currentCheck_rel ..) .auto
      refine .ite (fun _ => ?_) (fun _ => ?_)
      · generalize hx : (List.foldl _ _ _ : State) = u
        refine .mk_of ?_ .auto .auto
        subst hx
        refine .foldl ?_ ?_
        · refine .mk_of ?_ .auto .auto
          exact .refl _
        · intro _ _
          beta_reduce
          split
          · refine .comp ?_ (State.regRead_rel ..) .auto
            exact .refl _
          · refine .comp ?_ (State.regUnread_rel ..) .auto
            exact .refl _
      · refine .foldl ?_ ?_
        · refine .mk_of ?_ .auto .auto
          exact .refl _
        · intro _ _
          beta_reduce
          split
          · refine .comp ?_ (State.regRead_rel ..) .auto
            exact .refl _
          · refine .comp ?_ (State.regUnread_rel ..) .auto
            exact .refl _
    · refine .comp ?_ (State.voltageCheck_rel ..) .auto
      refine .comp ?_ (State.currentCheck_rel ..) .auto
      refine .ite (fun _ => ?_) (fun _ => ?_)
      · generalize hx : (List.foldl _ _ _ : State) = u
        refine .mk_of ?_ .auto .auto
        subst hx
        refine .foldl ?_ ?_
        · refine .mk_of ?_ .auto .auto
          exact .refl _
        · intro _ _
          beta_reduce
          split
          · refine .comp ?_ (State.regRead_rel ..) .auto
            exact .refl _
          · refine .comp ?_ (State.regUnread_rel ..) .auto
            exact .refl _
      · refine .foldl ?_ ?_
        · refine .mk_of ?_ .auto .auto
          exact .refl _
        · intro _ _
          beta_reduce
          split
          · refine .comp ?_ (State.regRead_rel ..) .auto
            exact .refl _
          · refine .comp ?_ (State.regUnread_rel ..) .auto
            exact .refl _
  · exact .refl _

theorem State.thermBeat_rel : ∀ s, Rel [.evr, .therm, .log] s (State.thermBeat s) := by
  intro s
  unfold State.thermBeat
  dsimp only
  refine .ite (fun _ => ?_) (fun _ => ?_)
  · refine .mk_of ?_ .auto .auto
    exact .refl _
  · refine .comp ?_ (State.event_rel ..) .auto
    refine .mk_of ?_ .auto .auto
    exact .refl _

theorem State.hbPersistSet_rel : ∀ s a1, Rel [.wd] s (State.hbPersistSet s a1) := by
  intro s a1
  unfold State.hbPersistSet
  refine .ite (fun _ => ?_) (fun _ => ?_)
  · refine .comp ?_ (State.modHb_rel ..) .auto
    exact .refl _
  · exact .refl _

theorem State.overcurrentEnd_rel : ∀ s, Rel [.pwr] s (State.overcurrentEnd s) := by
  intro s
  unfold State.overcurrentEnd
  dsimp only
  refine .mk_of ?_ .auto .auto
  exact .refl _

theorem State.mainLost_rel : ∀ s, Rel [.pwr, .therm, .time, .tel, .sched, .cores, .engs, .noc, .gddr, .gddrMem, .poison, .golden, .cmp, .grid, .ev, .io, .jnl, .secu, .lk, .log] s (State.mainLost s) := by
  intro s
  unfold State.mainLost
  dsimp only
  refine .mk_of ?_ .auto (.mem fun m => ⟨rfl, vmap_forall (Q := fun (x : CoreState) => x.sram.wf = true) m.cores fun _ _ => rfl, vrep_forall (P := fun (x : EngState) => x.ok = true) rfl, rfl, rfl, m.floor, rfl⟩)
  exact .refl _

theorem State.wakeWrite_rel : ∀ s, Rel [.evr, .pwr, .log] s (State.wakeWrite s) := by
  intro s
  unfold State.wakeWrite
  dsimp only
  refine .ite (fun _ => ?_) (fun _ => ?_)
  · refine .mk_of ?_ .auto .auto
    exact .refl _
  · refine .ite (fun _ => ?_) (fun _ => ?_)
    · refine .comp ?_ (State.event_rel ..) .auto
      refine .mk_of ?_ .auto .auto
      exact .refl _
    · exact .refl _

theorem State.standbyEnter_rel : ∀ s, Rel [.wd, .evr, .pwr, .therm, .time, .tel, .sched, .cores, .engs, .noc, .gddr, .gddrMem, .poison, .golden, .cmp, .grid, .ev, .io, .jnl, .secu, .lk, .irq, .log] s (State.standbyEnter s) := by
  intro s
  unfold State.standbyEnter
  dsimp only
  refine .ite (fun _ => ?_) (fun _ => ?_)
  · split
    · refine .ite (fun _ => ?_) (fun _ => ?_)
      · refine .comp ?_ (State.wakeWrite_rel ..) .auto
        refine .comp ?_ (State.event_rel ..) .auto
        generalize hx : (State.mainLost _ : State) = u
        refine .mk_of ?_ .auto .auto
        subst hx
        refine .comp ?_ (State.mainLost_rel ..) .auto
        exact .refl _
      · refine .comp ?_ (State.wakeRequest_rel ..) .auto
        refine .comp ?_ (State.event_rel ..) .auto
        generalize hx : (State.mainLost _ : State) = u
        refine .mk_of ?_ .auto .auto
        subst hx
        refine .comp ?_ (State.mainLost_rel ..) .auto
        exact .refl _
    · refine .comp ?_ (State.event_rel ..) .auto
      generalize hx : (State.mainLost _ : State) = u
      refine .mk_of ?_ .auto .auto
      subst hx
      refine .comp ?_ (State.mainLost_rel ..) .auto
      exact .refl _
  · exact .refl _

theorem State.sensorLimit_rel : ∀ s, Rel [.fc, .evr, .watch, .so, .sched, .cores, .engs, .alt, .freeCtr, .collected, .irq, .log] s (State.sensorLimit s) := by
  intro s
  unfold State.sensorLimit
  refine .foldl ?_ ?_
  · exact .refl _
  · intro _ _
    beta_reduce
    refine .ite (fun _ => ?_) (fun _ => ?_)
    · refine .comp ?_ (State.coreFault_rel ..) .auto
      exact .refl _
    · exact .refl _

theorem State.standbyReq_rel : ∀ s, Rel [.evr, .ldr, .pwr, .sched, .log] s (State.standbyReq s) := by
  intro s
  unfold State.standbyReq
  dsimp only
  refine .ite (fun _ => ?_) (fun _ => ?_)
  · refine .foldl ?_ ?_
    · refine .mk_of ?_ .auto .auto
      exact .refl _
    · intro _ _
      beta_reduce
      refine .ite (fun _ => ?_) (fun _ => ?_)
      · exact .refl _
      · refine .comp ?_ (State.accPowerDown_rel ..) .auto
        exact .refl _
  · refine .comp ?_ (State.ignoredWrite_rel ..) .auto
    exact .refl _

theorem State.comparatorTrip_rel : ∀ s a1, Rel [.fc, .evr, .so, .therm, .freeCtr, .collected, .irq, .log] s (State.comparatorTrip s a1) := by
  intro s a1
  unfold State.comparatorTrip
  dsimp only
  refine .comp ?_ (State.raise_rel ..) .auto
  refine .mk_of ?_ .auto .auto
  exact .refl _

theorem State.setMv_rel : ∀ s a1 a2, Rel [.pwr] s (State.setMv s a1 a2) := by
  intro s a1 a2
  unfold State.setMv
  dsimp only
  refine .mk_of ?_ .auto .auto
  exact .refl _

theorem State.railTripFault_rel : ∀ s a1 a2, Rel [.fc, .evr, .so, .pwr, .freeCtr, .collected, .irq, .log] s (State.railTripFault s a1 a2) := by
  intro s a1 a2
  unfold State.railTripFault
  dsimp only
  refine .ite (fun _ => ?_) (fun _ => ?_)
  · refine .comp ?_ (State.raise_rel ..) .auto
    generalize hx : (State.setMv _ _ _ : State) = u
    refine .mk_of ?_ .auto .auto
    subst hx
    refine .comp ?_ (State.setMv_rel ..) .auto
    exact .refl _
  · exact .refl _

theorem State.railWarnEvent_rel : ∀ s a1 a2, Rel [.evr, .pwr, .log] s (State.railWarnEvent s a1 a2) := by
  intro s a1 a2
  unfold State.railWarnEvent
  dsimp only
  refine .ite (fun _ => ?_) (fun _ => ?_)
  · refine .comp ?_ (State.event_rel ..) .auto
    generalize hx : (State.setMv _ _ _ : State) = u
    refine .mk_of ?_ .auto .auto
    subst hx
    refine .comp ?_ (State.setMv_rel ..) .auto
    exact .refl _
  · exact .refl _

theorem State.temperature_rel : ∀ s a1, Rel [.fc, .evr, .so, .therm, .freeCtr, .collected, .irq, .log] s (State.temperature s a1) := by
  intro s a1
  unfold State.temperature
  dsimp only
  generalize hx : (List.foldl _ _ _ : State) = u
  refine .mk_of ?_ .auto .auto
  subst hx
  refine .foldl ?_ ?_
  · refine .foldl ?_ ?_
    · refine .mk_of ?_ .auto .auto
      exact .refl _
    · intro _ _
      beta_reduce
      refine .ite (fun _ => ?_) (fun _ => ?_)
      · refine .comp ?_ (State.event_rel ..) .auto
        exact .refl _
      · exact .refl _
  · intro _ _
    beta_reduce
    refine .comp ?_ (State.raise_rel ..) .auto
    exact .refl _

end Sys2Proof.Machine
end

