-- ==== Sys2Proof/Laws/RelTensors.lean ====
section
/-!
SUPPORT. What each operation of Machine/Tensors.lean leaves unchanged, and that it keeps the invariants.
-/
namespace Sys2Proof.Machine

set_option Elab.async false

theorem State.modRun_rel : ∀ s a1 a2, Rel [.sched] s (State.modRun s a1 a2) := by
  intro s a1 a2
  unfold State.modRun
  dsimp only
  refine .mk_of ?_ .auto .auto
  exact .refl _

end Sys2Proof.Machine
end

