-- ==== Sys2Proof/Laws/RelRuns.lean ====
section
/-!
SUPPORT. What each operation of Machine/Runs.lean leaves unchanged, and that it keeps the invariants.
-/
namespace Sys2Proof.Machine

set_option Elab.async false

theorem State.applyForecast_rel : ∀ s, Rel [.evr, .sched, .collected, .log] s (State.applyForecast s) := by
  intro s
  unfold State.applyForecast
  dsimp only
  refine .ite (fun _ => ?_) (fun _ => ?_)
  · refine .comp ?_ (State.addDoubt_rel ..) .auto
    generalize hx : (List.foldl _ _ _ : State) = u
    refine .mk_of ?_ .auto .auto
    subst hx
    refine .foldl ?_ ?_
    · exact .refl _
    · intro _ _
      beta_reduce
      refine .ite (fun _ => ?_) (fun _ => ?_)
      · exact .refl _
      · refine .comp ?_ (State.event_rel ..) .auto
        exact .refl _
  · generalize hx : (List.foldl _ _ _ : State) = u
    refine .mk_of ?_ .auto .auto
    subst hx
    refine .foldl ?_ ?_
    · exact .refl _
    · intro _ _
      beta_reduce
      refine .ite (fun _ => ?_) (fun _ => ?_)
      · exact .refl _
      · refine .comp ?_ (State.event_rel ..) .auto
        exact .refl _

theorem State.barrierFailures_rel : ∀ s, Rel [.evr, .log] s (State.barrierFailures s) := by
  intro s
  unfold State.barrierFailures
  refine .foldl ?_ ?_
  · exact .refl _
  · intro _ _
    beta_reduce
    refine .ite (fun _ => ?_) (fun _ => ?_)
    · refine .comp ?_ (State.event_rel ..) .auto
      exact .refl _
    · exact .refl _

theorem State.goldenDone_rel : ∀ s a1, Rel [.golden] s (State.goldenDone s a1) := by
  intro s a1
  unfold State.goldenDone
  dsimp only
  refine .mk_of ?_ .auto .auto
  exact .refl _

theorem State.noteDone_rel : ∀ s a1, Rel [.sched] s (State.noteDone s a1) := by
  intro s a1
  unfold State.noteDone
  dsimp only
  refine .ite (fun _ => ?_) (fun _ => ?_)
  · refine .mk_of ?_ .auto .auto
    exact .refl _
  · exact .refl _

theorem State.retireDesc_rel : ∀ s a1 a2 a3, Rel [.evr, .sched, .cores, .golden, .collected, .log] s (State.retireDesc s a1 a2 a3) := by
  intro s a1 a2 a3
  unfold State.retireDesc
  dsimp only
  refine .comp ?_ (State.noteDone_rel ..) .auto
  refine .ite (fun _ => ?_) (fun _ => ?_)
  · refine .comp ?_ (State.goldenDone_rel ..) .auto
    refine .ite (fun _ => ?_) (fun _ => ?_)
    · refine .ite (fun _ => ?_) (fun _ => ?_)
      · refine .comp ?_ (State.modRun_rel ..) .auto
        refine .comp ?_ (State.event_rel ..) .auto
        refine .comp ?_ (State.modRun_rel ..) .auto
        refine .mk_of ?_ .auto (.mem fun m => ⟨m.gddr, vmap_forall (P := fun (x : CoreState) => x.sram.wf = true) (Q := fun (x : CoreState) => x.sram.wf = true) m.cores fun _ h => h, m.engs, m.plane0, m.plane1, m.floor, m.buf⟩)
        exact .refl _
      · refine .comp ?_ (State.failRun_rel ..) .auto
        refine .comp ?_ (State.event_rel ..) .auto
        refine .comp ?_ (State.modRun_rel ..) .auto
        refine .mk_of ?_ .auto (.mem fun m => ⟨m.gddr, vmap_forall (P := fun (x : CoreState) => x.sram.wf = true) (Q := fun (x : CoreState) => x.sram.wf = true) m.cores fun _ h => h, m.engs, m.plane0, m.plane1, m.floor, m.buf⟩)
        exact .refl _
    · refine .ite (fun _ => ?_) (fun _ => ?_)
      · refine .comp ?_ (State.failRun_rel ..) .auto
        refine .comp ?_ (State.event_rel ..) .auto
        refine .comp ?_ (State.modRun_rel ..) .auto
        refine .mk_of ?_ .auto (.mem fun m => ⟨m.gddr, vmap_forall (P := fun (x : CoreState) => x.sram.wf = true) (Q := fun (x : CoreState) => x.sram.wf = true) m.cores fun _ h => h, m.engs, m.plane0, m.plane1, m.floor, m.buf⟩)
        exact .refl _
      · refine .comp ?_ (State.modRun_rel ..) .auto
        refine .mk_of ?_ .auto (.mem fun m => ⟨m.gddr, vmap_forall (P := fun (x : CoreState) => x.sram.wf = true) (Q := fun (x : CoreState) => x.sram.wf = true) m.cores fun _ h => h, m.engs, m.plane0, m.plane1, m.floor, m.buf⟩)
        exact .refl _
  · refine .ite (fun _ => ?_) (fun _ => ?_)
    · refine .ite (fun _ => ?_) (fun _ => ?_)
      · refine .comp ?_ (State.modRun_rel ..) .auto
        refine .comp ?_ (State.event_rel ..) .auto
        refine .comp ?_ (State.modRun_rel ..) .auto
        refine .mk_of ?_ .auto (.mem fun m => ⟨m.gddr, vmap_forall (P := fun (x : CoreState) => x.sram.wf = true) (Q := fun (x : CoreState) => x.sram.wf = true) m.cores fun _ h => h, m.engs, m.plane0, m.plane1, m.floor, m.buf⟩)
        exact .refl _
      · refine .comp ?_ (State.failRun_rel ..) .auto
        refine .comp ?_ (State.event_rel ..) .auto
        refine .comp ?_ (State.modRun_rel ..) .auto
        refine .mk_of ?_ .auto (.mem fun m => ⟨m.gddr, vmap_forall (P := fun (x : CoreState) => x.sram.wf = true) (Q := fun (x : CoreState) => x.sram.wf = true) m.cores fun _ h => h, m.engs, m.plane0, m.plane1, m.floor, m.buf⟩)
        exact .refl _
    · refine .ite (fun _ => ?_) (fun _ => ?_)
      · refine .comp ?_ (State.failRun_rel ..) .auto
        refine .comp ?_ (State.event_rel ..) .auto
        refine .comp ?_ (State.modRun_rel ..) .auto
        refine .mk_of ?_ .auto (.mem fun m => ⟨m.gddr, vmap_forall (P := fun (x : CoreState) => x.sram.wf = true) (Q := fun (x : CoreState) => x.sram.wf = true) m.cores fun _ h => h, m.engs, m.plane0, m.plane1, m.floor, m.buf⟩)
        exact .refl _
      · refine .comp ?_ (State.modRun_rel ..) .auto
        refine .mk_of ?_ .auto (.mem fun m => ⟨m.gddr, vmap_forall (P := fun (x : CoreState) => x.sram.wf = true) (Q := fun (x : CoreState) => x.sram.wf = true) m.cores fun _ h => h, m.engs, m.plane0, m.plane1, m.floor, m.buf⟩)
        exact .refl _

theorem State.barrierPass_rel : ∀ s a1 a2 a3, Rel [.evr, .sched, .cores, .golden, .collected, .log] s (State.barrierPass s a1 a2 a3) := by
  intro s a1 a2 a3
  unfold State.barrierPass
  refine .ite (fun _ => ?_) (fun _ => ?_)
  · refine .comp ?_ (State.retireDesc_rel ..) .auto
    exact .refl _
  · exact .refl _

theorem State.startCancel_rel : ∀ s a1, Rel [.sched] s (State.startCancel s a1) := by
  intro s a1
  unfold State.startCancel
  refine .comp ?_ (State.modRun_rel ..) .auto
  exact .refl _

theorem State.shedCheck_rel : ∀ s, Rel [.sched, .collected] s (State.shedCheck s) := by
  intro s
  unfold State.shedCheck
  dsimp only
  refine .ite (fun _ => ?_) (fun _ => ?_)
  · refine .ite (fun _ => ?_) (fun _ => ?_)
    · refine .comp ?_ (State.addDoubt_rel ..) .auto
      generalize hx : (List.foldl _ _ _ : State) = u
      refine .mk_of ?_ .auto .auto
      subst hx
      refine .foldl ?_ ?_
      · exact .refl _
      · intro _ _
        beta_reduce
        refine .comp ?_ (State.failRun_rel ..) .auto
        refine .ite (fun _ => ?_) (fun _ => ?_)
        · refine .comp ?_ (State.startCancel_rel ..) .auto
          exact .refl _
        · exact .refl _
    · generalize hx : (List.foldl _ _ _ : State) = u
      refine .mk_of ?_ .auto .auto
      subst hx
      refine .foldl ?_ ?_
      · exact .refl _
      · intro _ _
        beta_reduce
        refine .comp ?_ (State.failRun_rel ..) .auto
        refine .ite (fun _ => ?_) (fun _ => ?_)
        · refine .comp ?_ (State.startCancel_rel ..) .auto
          exact .refl _
        · exact .refl _
  · exact .refl _

theorem State.creditAllocate_rel : ∀ s, Rel [.sched] s (State.creditAllocate s) := by
  intro s
  unfold State.creditAllocate
  dsimp only
  generalize hx : (State.allocate _ _ _ : State) = u
  refine .mk_of ?_ .auto .auto
  subst hx
  refine .comp ?_ (State.allocate_rel ..) .auto
  exact .refl _

theorem State.markOverruns_rel : ∀ s, Rel [.evr, .sched, .collected, .log] s (State.markOverruns s) := by
  intro s
  unfold State.markOverruns
  dsimp only
  refine .ite (fun _ => ?_) (fun _ => ?_)
  · generalize hx : (List.foldl _ _ _ : State) = u
    refine .mk_of ?_ .auto .auto
    subst hx
    refine .foldl ?_ ?_
    · exact .refl _
    · intro _ _
      beta_reduce
      refine .ite (fun _ => ?_) (fun _ => ?_)
      · refine .comp ?_ (State.startCancel_rel ..) .auto
        exact .refl _
      · refine .comp ?_ (State.event_rel ..) .auto
        refine .comp ?_ (State.startCancel_rel ..) .auto
        exact .refl _
  · refine .comp ?_ (State.addDoubt_rel ..) .auto
    generalize hx : (List.foldl _ _ _ : State) = u
    refine .mk_of ?_ .auto .auto
    subst hx
    refine .foldl ?_ ?_
    · exact .refl _
    · intro _ _
      beta_reduce
      refine .ite (fun _ => ?_) (fun _ => ?_)
      · refine .comp ?_ (State.startCancel_rel ..) .auto
        exact .refl _
      · refine .comp ?_ (State.event_rel ..) .auto
        refine .comp ?_ (State.startCancel_rel ..) .auto
        exact .refl _

theorem State.newRuns_rel : ∀ s, Rel [.sched] s (State.newRuns s) := by
  intro s
  unfold State.newRuns
  dsimp only
  refine .mk_of ?_ .auto .auto
  exact .refl _

theorem State.numericFlags_rel : ∀ s, Rel [.evr, .engs, .log] s (State.numericFlags s) := by
  intro s
  unfold State.numericFlags
  dsimp only
  generalize hx : (List.foldl _ _ _ : State) = u
  refine .mk_of ?_ .auto (.mem fun m => ⟨m.gddr, m.cores, vmapIdx_forall (P := fun (x : EngState) => x.ok = true) (Q := fun (x : EngState) => x.ok = true) m.engs fun _ _ h => h, m.plane0, m.plane1, m.floor, m.buf⟩)
  subst hx
  refine .foldl ?_ ?_
  · exact .refl _
  · intro _ _
    beta_reduce
    refine .ite (fun _ => ?_) (fun _ => ?_)
    · exact .refl _
    · refine .comp ?_ (State.record_rel ..) .auto
      exact .refl _

theorem State.cancelRun_rel : ∀ s a1, Rel [.sched, .cores, .engs] s (State.cancelRun s a1) := by
  intro s a1
  unfold State.cancelRun
  dsimp only
  refine .comp ?_ (State.modRun_rel ..) .auto
  refine .mk_of ?_ .auto (.mem fun m => ⟨m.gddr, vmap_forall (P := fun (x : CoreState) => x.sram.wf = true) (Q := fun (x : CoreState) => x.sram.wf = true) m.cores fun _ h => h, vmapIdx_forall (P := fun (x : EngState) => x.ok = true) (Q := fun (x : EngState) => x.ok = true) m.engs fun _ _ h => h, m.plane0, m.plane1, m.floor, m.buf⟩)
  exact .refl _

theorem State.cancelBound_rel : ∀ s, Rel [.sched, .cores, .engs] s (State.cancelBound s) := by
  intro s
  unfold State.cancelBound
  refine .foldl ?_ ?_
  · exact .refl _
  · intro _ _
    beta_reduce
    split
    · refine .ite (fun _ => ?_) (fun _ => ?_)
      · refine .comp ?_ (State.cancelRun_rel ..) .auto
        exact .refl _
      · exact .refl _
    · exact .refl _

theorem State.goldenFail_rel : ∀ s a1, Rel [.fc, .evr, .watch, .so, .sched, .cores, .engs, .alt, .golden, .freeCtr, .collected, .irq, .log] s (State.goldenFail s a1) := by
  intro s a1
  unfold State.goldenFail
  dsimp only
  refine .ite (fun _ => ?_) (fun _ => ?_)
  · refine .comp ?_ (State.coreFault_rel ..) .auto
    refine .mk_of ?_ .auto .auto
    exact .refl _
  · exact .refl _

theorem State.runReady_rel : ∀ s a1, Rel [.sched] s (State.runReady s a1) := by
  intro s a1
  unfold State.runReady
  refine .ite (fun _ => ?_) (fun _ => ?_)
  · refine .comp ?_ (State.modRun_rel ..) .auto
    exact .refl _
  · exact .refl _

theorem State.compareUnequal_rel : ∀ s a1 a2 a3, Rel [.evr, .sched, .cmp, .collected, .log] s (State.compareUnequal s a1 a2 a3) := by
  intro s a1 a2 a3
  unfold State.compareUnequal
  dsimp only
  refine .ite (fun _ => ?_) (fun _ => ?_)
  · refine .comp ?_ (State.addDoubt_rel ..) .auto
    generalize hx : (State.event _ _ _ : State) = u
    refine .mk_of ?_ .auto .auto
    subst hx
    refine .comp ?_ (State.event_rel ..) .auto
    generalize hx : (State.modRun _ _ _ : State) = u
    refine .mk_of ?_ .auto .auto
    subst hx
    refine .comp ?_ (State.modRun_rel ..) .auto
    exact .refl _
  · generalize hx : (State.event _ _ _ : State) = u
    refine .mk_of ?_ .auto .auto
    subst hx
    refine .comp ?_ (State.event_rel ..) .auto
    generalize hx : (State.modRun _ _ _ : State) = u
    refine .mk_of ?_ .auto .auto
    subst hx
    refine .comp ?_ (State.modRun_rel ..) .auto
    exact .refl _

theorem State.compareExecute_rel : ∀ s a1 a2, Rel [.evr, .sched, .cores, .golden, .cmp, .collected, .log] s (State.compareExecute s a1 a2) := by
  intro s a1 a2
  unfold State.compareExecute
  dsimp only
  refine .ite (fun _ => ?_) (fun _ => ?_)
  · refine .comp ?_ (State.retireDesc_rel ..) .auto
    refine .comp ?_ (State.retireDesc_rel ..) .auto
    refine .ite (fun _ => ?_) (fun _ => ?_)
    · refine .comp ?_ (State.modRun_rel ..) .auto
      exact .refl _
    · refine .comp ?_ (State.compareUnequal_rel ..) .auto
      exact .refl _
  · exact .refl _

theorem State.descFail_rel : ∀ s a1 a2 a3, Rel [.sched, .cores, .collected] s (State.descFail s a1 a2 a3) := by
  intro s a1 a2 a3
  unfold State.descFail
  dsimp only
  refine .ite (fun _ => ?_) (fun _ => ?_)
  · refine .comp ?_ (State.failRun_rel ..) .auto
    generalize hx : (State.modRun _ _ _ : State) = u
    refine .mk_of ?_ .auto (.mem fun m => ⟨m.gddr, vmap_forall (P := fun (x : CoreState) => x.sram.wf = true) (Q := fun (x : CoreState) => x.sram.wf = true) m.cores fun _ h => h, m.engs, m.plane0, m.plane1, m.floor, m.buf⟩)
    subst hx
    refine .comp ?_ (State.modRun_rel ..) .auto
    exact .refl _
  · exact .refl _

theorem State.startCopy_rel : ∀ s a1, Rel [.sched] s (State.startCopy s a1) := by
  intro s a1
  unfold State.startCopy
  dsimp only
  refine .ite (fun _ => ?_) (fun _ => ?_)
  · exact .refl _
  · refine .ite (fun _ => ?_) (fun _ => ?_)
    · refine .comp ?_ (State.modRun_rel ..) .auto
      exact .refl _
    · generalize hx : (State.modRun _ _ _ : State) = u
      refine .mk_of ?_ .auto .auto
      subst hx
      refine .comp ?_ (State.modRun_rel ..) .auto
      exact .refl _

theorem State.dispatch_rel : ∀ s a1, Rel [.evr, .sched, .cores, .golden, .collected, .log] s (State.dispatch s a1) := by
  intro s a1
  unfold State.dispatch
  dsimp only
  split
  · exact .refl _
  · refine .ite (fun _ => ?_) (fun _ => ?_)
    · refine .comp ?_ (State.failRun_rel ..) .auto
      refine .comp ?_ (State.modRun_rel ..) .auto
      exact .refl _
    · refine .ite (fun _ => ?_) (fun _ => ?_)
      · refine .comp ?_ (State.retireDesc_rel ..) .auto
        refine .ite (fun _ => ?_) (fun _ => ?_)
        · refine .comp ?_ (State.modRun_rel ..) .auto
          refine .comp ?_ (State.modCore_rel _ _ _) .auto
          refine .comp ?_ (State.charge_rel ..) .auto
          refine .comp ?_ (State.startCopy_rel ..) .auto
          exact .refl _
        · refine .comp ?_ (State.modCore_rel _ _ _) .auto
          refine .comp ?_ (State.charge_rel ..) .auto
          refine .comp ?_ (State.startCopy_rel ..) .auto
          exact .refl _
      · refine .ite (fun _ => ?_) (fun _ => ?_)
        · refine .comp ?_ (State.modRun_rel ..) .auto
          refine .comp ?_ (State.modCore_rel _ _ _) .auto
          refine .comp ?_ (State.charge_rel ..) .auto
          refine .comp ?_ (State.startCopy_rel ..) .auto
          exact .refl _
        · refine .comp ?_ (State.modCore_rel _ _ _) .auto
          refine .comp ?_ (State.charge_rel ..) .auto
          refine .comp ?_ (State.startCopy_rel ..) .auto
          exact .refl _

theorem State.microopsCancelled_rel : ∀ s a1, Rel [.sched, .cores, .engs] s (State.microopsCancelled s a1) := by
  intro s a1
  unfold State.microopsCancelled
  refine .ite (fun _ => ?_) (fun _ => ?_)
  · refine .comp ?_ (State.cancelRun_rel ..) .auto
    exact .refl _
  · exact .refl _

end Sys2Proof.Machine
end

