-- ==== Sys2Proof/Laws/RelSelfTest.lean ====
section
/-!
SUPPORT. What each operation of Machine/SelfTest.lean leaves unchanged, and that it keeps the invariants.
-/
namespace Sys2Proof.Machine

set_option Elab.async false

theorem State.testFault_rel : ∀ s a1 a2 a3, Rel [.fc, .evr, .so, .freeCtr, .collected, .irq, .log] s (State.testFault s a1 a2 a3) := by
  intro s a1 a2 a3
  unfold State.testFault
  dsimp only
  split
  · refine .comp ?_ (State.raiseCore_rel ..) .auto
    exact .refl _
  · refine .comp ?_ (State.raiseCore_rel ..) .auto
    exact .refl _
  · refine .ite (fun _ => ?_) (fun _ => ?_)
    · refine .comp ?_ (State.raise_rel ..) .auto
      exact .refl _
    · refine .comp ?_ (State.raise_rel ..) .auto
      refine .comp ?_ (State.freed_rel ..) .auto
      exact .refl _

theorem State.modCov_rel : ∀ s a1 a2, Rel [.st] s (State.modCov s a1 a2) := by
  intro s a1 a2
  unfold State.modCov
  dsimp only
  split
  · refine .mk_of ?_ .auto .auto
    exact .refl _
  · refine .mk_of ?_ .auto .auto
    exact .refl _
  · refine .mk_of ?_ .auto .auto
    exact .refl _

theorem State.coverageExpiry_rel : ∀ s a1, Rel [.fc, .evr, .so, .st, .freeCtr, .collected, .irq, .log] s (State.coverageExpiry s a1) := by
  intro s a1
  unfold State.coverageExpiry
  dsimp only
  refine .ite (fun _ => ?_) (fun _ => ?_)
  · refine .ite (fun _ => ?_) (fun _ => ?_)
    · refine .comp ?_ (State.testFault_rel ..) .auto
      generalize hx : (State.modCov _ _ _ : State) = u
      refine .mk_of ?_ .auto .auto
      subst hx
      refine .comp ?_ (State.modCov_rel ..) .auto
      exact .refl _
    · refine .comp ?_ (State.modCov_rel ..) .auto
      exact .refl _
  · exact .refl _

theorem State.coverageTick_rel : ∀ s, Rel [.fc, .evr, .so, .st, .freeCtr, .collected, .irq, .log] s (State.coverageTick s) := by
  intro s
  unfold State.coverageTick
  refine .foldl ?_ ?_
  · exact .refl _
  · intro _ _
    beta_reduce
    refine .comp ?_ (State.coverageExpiry_rel ..) .auto
    exact .refl _

theorem State.coverageJudged_rel : ∀ s, Rel [.st] s (State.coverageJudged s) := by
  intro s
  unfold State.coverageJudged
  dsimp only
  refine .mk_of ?_ .auto .auto
  exact .refl _

theorem State.rotate_rel : ∀ s, Rel [.st] s (State.rotate s) := by
  intro s
  unfold State.rotate
  dsimp only
  refine .mk_of ?_ .auto .auto
  exact .refl _

theorem State.dropSlice_rel : ∀ s a1, Rel [.st] s (State.dropSlice s a1) := by
  intro s a1
  unfold State.dropSlice
  dsimp only
  refine .mk_of ?_ .auto .auto
  exact .refl _

theorem State.sliceIncomplete_rel : ∀ s, Rel [.st] s (State.sliceIncomplete s) := by
  intro s
  unfold State.sliceIncomplete
  dsimp only
  refine .mk_of ?_ .auto .auto
  exact .refl _

theorem State.sliceAbort_rel : ∀ s a1, Rel [.fc, .evr, .so, .st, .freeCtr, .collected, .irq, .log] s (State.sliceAbort s a1) := by
  intro s a1
  unfold State.sliceAbort
  dsimp only
  split
  · exact .refl _
  · refine .ite (fun _ => ?_) (fun _ => ?_)
    · exact .refl _
    · refine .ite (fun _ => ?_) (fun _ => ?_)
      · refine .comp ?_ (State.testFault_rel ..) .auto
        refine .comp ?_ (State.event_rel ..) .auto
        generalize hx : (State.modCov _ _ _ : State) = u
        refine .mk_of ?_ .auto .auto
        subst hx
        refine .comp ?_ (State.modCov_rel ..) .auto
        refine .comp ?_ (State.sliceIncomplete_rel ..) .auto
        refine .comp ?_ (State.dropSlice_rel ..) .auto
        exact .refl _
      · refine .comp ?_ (State.event_rel ..) .auto
        generalize hx : (State.modCov _ _ _ : State) = u
        refine .mk_of ?_ .auto .auto
        subst hx
        refine .comp ?_ (State.modCov_rel ..) .auto
        refine .comp ?_ (State.sliceIncomplete_rel ..) .auto
        refine .comp ?_ (State.dropSlice_rel ..) .auto
        exact .refl _

theorem State.sliceFails_rel : ∀ s a1, Rel [.fc, .evr, .watch, .so, .sched, .cores, .engs, .alt, .st, .freeCtr, .collected, .irq, .log] s (State.sliceFails s a1) := by
  intro s a1
  unfold State.sliceFails
  dsimp only
  split
  · refine .comp ?_ (State.coreFault_rel ..) .auto
    refine .comp ?_ (State.modCov_rel ..) .auto
    exact .refl _
  · refine .comp ?_ (State.coreFault_rel ..) .auto
    refine .comp ?_ (State.modCov_rel ..) .auto
    exact .refl _
  · refine .comp ?_ (State.raise_rel ..) .auto
    refine .comp ?_ (State.freed_rel ..) .auto
    refine .comp ?_ (State.modCov_rel ..) .auto
    exact .refl _

theorem State.testDone_rel : ∀ s a1, Rel [.evr, .gddr, .st, .log] s (State.testDone s a1) := by
  intro s a1
  unfold State.testDone
  dsimp only
  split
  · refine .ite (fun _ => ?_) (fun _ => ?_)
    · generalize hx : (State.event _ _ _ : State) = u
      refine .mk_of ?_ .auto .auto
      subst hx
      refine .comp ?_ (State.event_rel ..) .auto
      refine .comp ?_ (State.modCov_rel ..) .auto
      exact .refl _
    · refine .comp ?_ (State.event_rel ..) .auto
      refine .comp ?_ (State.modCov_rel ..) .auto
      exact .refl _
  · refine .comp ?_ (State.modChan_rel ..) .auto
    refine .comp ?_ (State.event_rel ..) .auto
    refine .comp ?_ (State.modCov_rel ..) .auto
    exact .refl _
  · refine .comp ?_ (State.event_rel ..) .auto
    refine .comp ?_ (State.modCov_rel ..) .auto
    exact .refl _

theorem State.sliceEnd_rel : ∀ s a1 a2 a3, Rel [.fc, .evr, .watch, .so, .sched, .cores, .engs, .gddr, .alt, .st, .freeCtr, .collected, .irq, .log] s (State.sliceEnd s a1 a2 a3) := by
  intro s a1 a2 a3
  unfold State.sliceEnd
  dsimp only
  split
  · exact .refl _
  · refine .ite (fun _ => ?_) (fun _ => ?_)
    · refine .comp ?_ (State.sliceIncomplete_rel ..) .auto
      refine .comp ?_ (State.dropSlice_rel ..) .auto
      exact .refl _
    · refine .ite (fun _ => ?_) (fun _ => ?_)
      · exact .refl _
      · refine .ite (fun _ => ?_) (fun _ => ?_)
        · refine .comp ?_ (State.dropSlice_rel ..) .auto
          exact .refl _
        · refine .ite (fun _ => ?_) (fun _ => ?_)
          · refine .comp ?_ (State.sliceFails_rel ..) .auto
            refine .comp ?_ (State.dropSlice_rel ..) .auto
            exact .refl _
          · refine .ite (fun _ => ?_) (fun _ => ?_)
            · refine .comp ?_ (State.modCov_rel ..) .auto
              refine .comp ?_ (State.dropSlice_rel ..) .auto
              exact .refl _
            · refine .comp ?_ (State.testDone_rel ..) .auto
              refine .comp ?_ (State.dropSlice_rel ..) .auto
              exact .refl _

theorem State.sliceStart_rel : ∀ s a1, Rel [.st] s (State.sliceStart s a1) := by
  intro s a1
  unfold State.sliceStart
  dsimp only
  refine .ite (fun _ => ?_) (fun _ => ?_)
  · refine .mk_of ?_ .auto .auto
    exact .refl _
  · exact .refl _

end Sys2Proof.Machine
end

