-- ==== Sys2Proof/Laws/RelWatch.lean ====
section
/-!
SUPPORT. What each operation of Machine/Watch.lean leaves unchanged, and that it keeps the invariants.
-/
namespace Sys2Proof.Machine

set_option Elab.async false

theorem State.armFramesReached_rel : ∀ s, Rel [.collected] s (State.armFramesReached s) := by
  intro s
  unfold State.armFramesReached
  refine .ite (fun _ => ?_) (fun _ => ?_)
  · refine .comp ?_ (State.addTrig_rel ..) .auto
    exact .refl _
  · exact .refl _

theorem State.armTimeoutDue_rel : ∀ s, Rel [.collected] s (State.armTimeoutDue s) := by
  intro s
  unfold State.armTimeoutDue
  refine .ite (fun _ => ?_) (fun _ => ?_)
  · refine .comp ?_ (State.addTrig_rel ..) .auto
    exact .refl _
  · exact .refl _

theorem State.ss1MaxTimeDue_rel : ∀ s, Rel [.fc, .evr, .so, .freeCtr, .collected, .irq, .log] s (State.ss1MaxTimeDue s) := by
  intro s
  unfold State.ss1MaxTimeDue
  refine .ite (fun _ => ?_) (fun _ => ?_)
  · refine .comp ?_ (State.addTrig_rel ..) .auto
    refine .comp ?_ (State.raise_rel ..) .auto
    exact .refl _
  · exact .refl _

theorem State.rampCheck_rel : ∀ s, Rel [.fc, .evr, .so, .freeCtr, .collected, .irq, .log] s (State.rampCheck s) := by
  intro s
  unfold State.rampCheck
  refine .ite (fun _ => ?_) (fun _ => ?_)
  · refine .comp ?_ (State.addTrig_rel ..) .auto
    refine .comp ?_ (State.raise_rel ..) .auto
    exact .refl _
  · refine .ite (fun _ => ?_) (fun _ => ?_)
    · refine .comp ?_ (State.addTrig_rel ..) .auto
      refine .comp ?_ (State.raise_rel ..) .auto
      exact .refl _
    · exact .refl _

theorem State.retrustBlock_rel : ∀ s, Rel [.watch] s (State.retrustBlock s) := by
  intro s
  unfold State.retrustBlock
  dsimp only
  refine .ite (fun _ => ?_) (fun _ => ?_)
  · refine .mk_of ?_ .auto .auto
    exact .refl _
  · exact .refl _

theorem State.retrust_rel : ∀ s, Rel [.collected] s (State.retrust s) := by
  intro s
  unfold State.retrust
  refine .ite (fun _ => ?_) (fun _ => ?_)
  · refine .comp ?_ (State.addTrig_rel ..) .auto
    exact .refl _
  · exact .refl _

theorem State.enterWatch_verdict (s : State) (x : WState) (c : Nat) : (s.enterWatch x c).verdict = s.watch.verdict := by
  cases x <;> rfl

theorem State.enter_rel : ∀ s a1, Rel [.watch, .wstate, .collected] s (State.enter s a1) := by
  intro s a1
  unfold State.enter
  refine .mk_of ?_ .auto fun h => ⟨(State.enterWatch_verdict ..).symm ▸ h.word, h.outs, ⟨h.mem.gddr, h.mem.cores, h.mem.engs, h.mem.plane0, h.mem.plane1, h.mem.floor, h.mem.buf⟩⟩
  exact .refl _

theorem State.watchIrq_rel : ∀ s a1 a2, Rel [.irq] s (State.watchIrq s a1 a2) := by
  intro s a1 a2
  unfold State.watchIrq
  refine .ite (fun _ => ?_) (fun _ => ?_)
  · refine .comp ?_ (State.irqSet_rel ..) .auto
    exact .refl _
  · exact .refl _

theorem State.haltRecord_rel : ∀ s, Rel [.evr, .log] s (State.haltRecord s) := by
  intro s
  unfold State.haltRecord
  split
  · refine .comp ?_ (State.event_rel ..) .auto
    exact .refl _
  · refine .comp ?_ (State.event_rel ..) .auto
    exact .refl _

theorem State.commitRecords_rel : ∀ s a1 a2, Rel [.evr, .log] s (State.commitRecords s a1 a2) := by
  intro s a1 a2
  unfold State.commitRecords
  dsimp only
  refine .ite (fun _ => ?_) (fun _ => ?_)
  · refine .comp ?_ (State.event_rel ..) .auto
    split
    · refine .ite (fun _ => ?_) (fun _ => ?_)
      · generalize hx : (State.haltRecord _ : State) = u
        refine .mk_of ?_ .auto .auto
        subst hx
        refine .comp ?_ (State.haltRecord_rel ..) .auto
        refine .comp ?_ (State.event_rel ..) .auto
        exact .refl _
      · refine .comp ?_ (State.event_rel ..) .auto
        exact .refl _
    · exact .refl _
  · split
    · refine .ite (fun _ => ?_) (fun _ => ?_)
      · generalize hx : (State.haltRecord _ : State) = u
        refine .mk_of ?_ .auto .auto
        subst hx
        refine .comp ?_ (State.haltRecord_rel ..) .auto
        refine .comp ?_ (State.event_rel ..) .auto
        exact .refl _
      · refine .comp ?_ (State.event_rel ..) .auto
        exact .refl _
    · exact .refl _

end Sys2Proof.Machine
end

