-- ==== Sys2Proof/Laws/RelBeat.lean ====
section
/-!
SUPPORT. What each operation of Machine/Beat.lean leaves unchanged, and that it keeps the invariants.
-/
namespace Sys2Proof.Machine

set_option Elab.async false

theorem OutGroup.sample_ok {held : Bool} {x : OutGroup} (h : x.okIn held = true) (b w r : Nat) (p q : Bool) :
    (x.sample b w r p q).okIn held = true := by
  rw [OutGroup.okIn_iff] at h ⊢
  unfold OutGroup.sample OutGroup.modChan
  dsimp only
  split
  · exact h
  · split <;> split <;> (cases held <;> simp_all)

theorem State.samples_rel : ∀ s a1, Rel [.si, .tp, .lrst, .so] s (State.samples s a1) := by
  intro s a1
  unfold State.samples
  dsimp only
  refine .mk_of ?_ .auto fun h => ⟨h.word, (OutState.ok_iff _).2 (vmapIdx_forall (P := fun x => x.okIn s.so.held = true) ((OutState.ok_iff _).1 h.outs) fun _ _ hx => OutGroup.sample_ok hx ..), ⟨h.mem.gddr, h.mem.cores, h.mem.engs, h.mem.plane0, h.mem.plane1, h.mem.floor, h.mem.buf⟩⟩
  exact .refl _

theorem State.evaluateGrid_rel : ∀ s a1, Rel [.fc, .evr, .so, .sched, .grid, .ev, .freeCtr, .collected, .irq, .log] s (State.evaluateGrid s a1) := by
  intro s a1
  unfold State.evaluateGrid
  dsimp only
  refine .ite (fun _ => ?_) (fun _ => ?_)
  · generalize hx : (State.noEvaluation _ : State) = u
    refine .mk_of ?_ .auto .auto
    subst hx
    refine .comp ?_ (State.noEvaluation_rel ..) .auto
    exact .refl _
  · split
    · generalize hx : (State.evaluateMain _ _ : State) = u
      refine .mk_of ?_ .auto .auto
      subst hx
      refine .comp ?_ (State.evaluateMain_rel ..) .auto
      exact .refl _
    · refine .comp ?_ (State.laneMismatch_rel ..) .auto
      generalize hx : (State.evaluateMain _ _ : State) = u
      refine .mk_of ?_ .auto .auto
      subst hx
      refine .comp ?_ (State.evaluateMain_rel ..) .auto
      exact .refl _
    · generalize hx : (State.noEvaluation _ : State) = u
      refine .mk_of ?_ .auto .auto
      subst hx
      refine .comp ?_ (State.noEvaluation_rel ..) .auto
      exact .refl _

theorem State.evaluate_rel : ∀ s a1, Rel [.fc, .evr, .so, .sched, .grid, .ev, .freeCtr, .collected, .irq, .log] s (State.evaluate s a1) := by
  intro s a1
  unfold State.evaluate
  refine .ite (fun _ => ?_) (fun _ => ?_)
  · refine .comp ?_ (State.evaluateFloor_rel ..) .auto
    refine .comp ?_ (State.evaluateGrid_rel ..) .auto
    exact .refl _
  · refine .mk_of ?_ .auto .auto
    exact .refl _

theorem State.schedBeat_rel : ∀ s, Rel [.evr, .pwr, .sched, .cores, .engs, .log] s (State.schedBeat s) := by
  intro s
  unfold State.schedBeat
  dsimp only
  refine .ite (fun _ => ?_) (fun _ => ?_)
  · refine .comp ?_ (State.creditAllocate_rel ..) .auto
    refine .comp ?_ (State.creditGrant_rel ..) .auto
    refine .comp ?_ (State.accBeat_rel ..) .auto
    refine .comp ?_ (State.avsTargetChange_rel ..) .auto
    refine .comp ?_ (State.windowsBeat_rel ..) .auto
    exact .refl _
  · refine .comp ?_ (State.accBeat_rel ..) .auto
    refine .comp ?_ (State.avsTargetChange_rel ..) .auto
    refine .comp ?_ (State.windowsBeat_rel ..) .auto
    exact .refl _

theorem State.stateCode_rel : ∀ s a1, Rel [.fc, .evr, .so, .freeCtr, .collected, .irq, .log] s (State.stateCode s a1) := by
  intro s a1
  unfold State.stateCode
  refine .ite (fun _ => ?_) (fun _ => ?_)
  · refine .comp ?_ (State.raise_rel ..) .auto
    refine .comp ?_ (State.freed_rel ..) .auto
    exact .refl _
  · exact .refl _

theorem State.engineBeat_rel : ∀ s a1, Rel [.noc, .grid] s (State.engineBeat s a1) := by
  intro s a1
  unfold State.engineBeat
  dsimp only
  refine .mk_of ?_ .auto .auto
  exact .refl _

theorem State.openBeat_rel : ∀ s a1, Rel [.fc, .wd, .evr, .si, .tp, .lrst, .enc, .so, .pwr, .therm, .sched, .cores, .engs, .noc, .ctrl, .grid, .ev, .lk, .freeCtr, .collected, .irq, .log] s (State.openBeat s a1) := by
  intro s a1
  unfold State.openBeat
  dsimp only
  refine .comp ?_ (State.schedBeat_rel ..) .auto
  refine .comp ?_ (State.evaluate_rel ..) .auto
  refine .comp ?_ (State.crossCheckBeat_rel ..) .auto
  refine .comp ?_ (State.engineBeat_rel ..) .auto
  refine .comp ?_ (State.stateCode_rel ..) .auto
  refine .comp ?_ (State.comparators_rel ..) .auto
  refine .comp ?_ (State.samples_rel ..) .auto
  refine .comp ?_ (State.pulsesFallDue_rel ..) .auto
  refine .comp ?_ (State.faultNRelease_rel ..) .auto
  refine .comp ?_ (State.svcBeat_rel ..) .auto
  refine .comp ?_ (State.taskBeat_rel ..) .auto
  refine .comp ?_ (State.shedCheck_rel ..) .auto
  refine .comp ?_ (State.thermBeat_rel ..) .auto
  refine .comp ?_ (State.linkTrain_rel ..) .auto
  exact .refl _

theorem State.takeDoubt_rel : ∀ s a1, Rel [.watch] s (State.takeDoubt s a1) := by
  intro s a1
  unfold State.takeDoubt
  dsimp only
  refine .mk_of ?_ .auto .auto
  exact .refl _

theorem State.startUpFault_rel : ∀ s, Rel [.selftestFail, .fc, .watch, .so, .ldr, .pwr, .st, .freeCtr, .wstate, .collected, .irq] s (State.startUpFault s) := by
  intro s
  unfold State.startUpFault
  refine .ite (fun _ => ?_) (fun _ => ?_)
  · refine .comp ?_ (State.enterSelftestFail_rel ..) .auto
    exact .refl _
  · exact .refl _

theorem State.each_def (s : State) (n : Nat) (f : State → Nat → State) : s.each n f = (upto n).foldl f s := by
  rfl

theorem State.settleWatchdogs_rel : ∀ s, Rel [.fc, .wd, .evr, .so, .pwr, .freeCtr, .collected, .irq, .log] s (State.settleWatchdogs s) := by
  intro s
  unfold State.settleWatchdogs
  dsimp only
  refine .comp ?_ (State.standbyTimer_rel ..) .auto
  refine .each ?_ ?_
  · refine .comp ?_ (State.svcRestartBound_rel ..) .auto
    refine .ite (fun _ => ?_) (fun _ => ?_)
    · refine .each ?_ ?_
      · exact .refl _
      · intro _ _
        beta_reduce
        refine .ite (fun _ => ?_) (fun _ => ?_)
        · exact .refl _
        · refine .comp ?_ (State.taskPeriodEnd_rel ..) .auto
          exact .refl _
    · refine .comp ?_ (State.svcPeriodEnd_rel ..) .auto
      refine .each ?_ ?_
      · exact .refl _
      · intro _ _
        beta_reduce
        refine .ite (fun _ => ?_) (fun _ => ?_)
        · exact .refl _
        · refine .comp ?_ (State.taskPeriodEnd_rel ..) .auto
          exact .refl _
  · intro _ _
    beta_reduce
    refine .comp ?_ (State.hbPersistSet_rel ..) .auto
    refine .comp ?_ (State.hbLost_rel ..) .auto
    exact .refl _

theorem State.settleStreams_rel : ∀ s, Rel [.fc, .wd, .evr, .so, .pwr, .time, .tel, .io, .lk, .freeCtr, .collected, .irq, .log] s (State.settleStreams s) := by
  intro s
  unfold State.settleStreams
  dsimp only
  refine .comp ?_ (State.pairJudge_rel ..) .auto
  refine .comp ?_ (State.partnerLoss_rel ..) .auto
  refine .comp ?_ (State.stageDoubts_rel ..) .auto
  refine .comp ?_ (State.stagesSettle_rel ..) .auto
  refine .comp ?_ (State.linkCrcRateDue_rel ..) .auto
  refine .comp ?_ (State.syncLossDue_rel ..) .auto
  refine .comp ?_ (State.telExpire_rel ..) .auto
  refine .comp ?_ (State.verdictExpire_rel ..) .auto
  refine .each ?_ ?_
  · refine .each ?_ ?_
    · exact .refl _
    · intro _ _
      beta_reduce
      refine .comp ?_ (State.claimAgeExpiry_rel ..) .auto
      exact .refl _
  · intro _ _
    beta_reduce
    refine .comp ?_ (State.crocusDeadlineDue_rel ..) .auto
    refine .comp ?_ (State.crocusInjectionEnd_rel ..) .auto
    refine .comp ?_ (State.crocusInjectionStart_rel ..) .auto
    exact .refl _

theorem State.frameClears_rel : ∀ s, Rel [.io, .collected] s (State.frameClears s) := by
  intro s
  unfold State.frameClears
  dsimp only
  refine .ite (fun _ => ?_) (fun _ => ?_)
  · refine .comp ?_ (State.addClear_rel ..) .auto
    refine .ite (fun _ => ?_) (fun _ => ?_)
    · refine .mk_of ?_ .auto .auto
      exact .refl _
    · refine .comp ?_ (State.addClear_rel ..) .auto
      exact .refl _
  · refine .ite (fun _ => ?_) (fun _ => ?_)
    · refine .mk_of ?_ .auto .auto
      exact .refl _
    · refine .comp ?_ (State.addClear_rel ..) .auto
      exact .refl _

theorem State.countFrame_rel : ∀ s, Rel [.watch, .collected] s (State.countFrame s) := by
  intro s
  unfold State.countFrame
  dsimp only
  refine .ite (fun _ => ?_) (fun _ => ?_)
  · refine .mk_of ?_ .auto .auto
    exact .refl _
  · exact .refl _

theorem State.frameEnds_rel : ∀ s a1, Rel [.fc, .evr, .watch, .so, .pwr, .sched, .io, .freeCtr, .collected, .irq, .log] s (State.frameEnds s a1) := by
  intro s a1
  unfold State.frameEnds
  refine .comp ?_ (State.reconcile_rel ..) .auto
  refine .comp ?_ (State.barrierFailures_rel ..) .auto
  refine .comp ?_ (State.markOverruns_rel ..) .auto
  refine .comp ?_ (State.frameClears_rel ..) .auto
  refine .comp ?_ (State.countFrame_rel ..) .auto
  exact .refl _

theorem State.frameTravel_rel : ∀ s, Rel [.evr, .enc, .sched, .grid, .flr, .collected, .log] s (State.frameTravel s) := by
  intro s
  unfold State.frameTravel
  dsimp only
  refine .comp ?_ (State.floorTick_rel ..) .auto
  refine .comp ?_ (State.scroll_rel ..) .auto
  refine .comp ?_ (State.takeDistance_rel ..) .auto
  exact .refl _

theorem State.intentTakes_rel : ∀ s, Rel [.watch] s (State.intentTakes s) := by
  intro s
  unfold State.intentTakes
  dsimp only
  refine .mk_of ?_ .auto .auto
  exact .refl _

theorem State.checkReturns_rel : ∀ s, Rel [.sched] s (State.checkReturns s) := by
  intro s
  unfold State.checkReturns
  dsimp only
  refine .mk_of ?_ .auto .auto
  exact .refl _

theorem State.frameBegins_rel : ∀ s, Rel [.fc, .evr, .watch, .so, .tel, .sched, .alt, .golden, .ev, .st, .lk, .freeCtr, .collected, .irq, .log] s (State.frameBegins s) := by
  intro s
  unfold State.frameBegins
  dsimp only
  generalize hx : (State.rotate _ : State) = u
  refine .mk_of ?_ .auto .auto
  subst hx
  refine .comp ?_ (State.rotate_rel ..) .auto
  refine .comp ?_ (State.summarySend_rel ..) .auto
  refine .comp ?_ (State.telTick_rel ..) .auto
  refine .comp ?_ (State.rasterise_rel ..) .auto
  refine .comp ?_ (State.coverageJudged_rel ..) .auto
  refine .comp ?_ (State.applyForecast_rel ..) .auto
  generalize hx : (State.altSwitch _ : State) = u
  refine .mk_of ?_ .auto .auto
  subst hx
  refine .comp ?_ (State.altSwitch_rel ..) .auto
  refine .comp ?_ (State.coverageTick_rel ..) .auto
  refine .comp ?_ (State.checkReturns_rel ..) .auto
  refine .comp ?_ (State.intentTakes_rel ..) .auto
  exact .refl _

theorem State.frameTick_rel : ∀ s a1, Rel [.fc, .evr, .watch, .enc, .so, .pwr, .tel, .sched, .engs, .alt, .golden, .grid, .flr, .ev, .io, .st, .lk, .freeCtr, .collected, .irq, .log] s (State.frameTick s a1) := by
  intro s a1
  unfold State.frameTick
  refine .ite (fun _ => ?_) (fun _ => ?_)
  · refine .ite (fun _ => ?_) (fun _ => ?_)
    · refine .comp ?_ (State.frameBegins_rel ..) .auto
      refine .comp ?_ (State.newRuns_rel ..) .auto
      refine .comp ?_ (State.numericFlags_rel ..) .auto
      refine .comp ?_ (State.takeDistance_rel ..) .auto
      exact .refl _
    · refine .comp ?_ (State.frameBegins_rel ..) .auto
      refine .comp ?_ (State.frameTravel_rel ..) .auto
      refine .comp ?_ (State.newRuns_rel ..) .auto
      refine .comp ?_ (State.numericFlags_rel ..) .auto
      refine .comp ?_ (State.frameEnds_rel ..) .auto
      exact .refl _
  · exact .refl _

theorem State.tickSettle_rel : ∀ s, Rel [.fc, .evr, .watch, .enc, .so, .pwr, .tel, .sched, .engs, .alt, .golden, .grid, .flr, .ev, .io, .st, .lk, .freeCtr, .collected, .irq, .log] s (State.tickSettle s) := by
  intro s
  unfold State.tickSettle
  refine .ite (fun _ => ?_) (fun _ => ?_)
  · refine .comp ?_ (State.frameTick_rel ..) .auto
    refine .comp ?_ (State.freed_rel ..) .auto
    exact .refl _
  · exact .refl _

theorem State.settleOutputs_rel : ∀ s, Rel [.fc, .evr, .so, .freeCtr, .collected, .irq, .log] s (State.settleOutputs s) := by
  intro s
  unfold State.settleOutputs
  refine .each ?_ ?_
  · exact .refl _
  · intro _ _
    beta_reduce
    refine .comp ?_ (State.offPulseStart_rel ..) .auto
    refine .comp ?_ (State.offPulseStart_rel ..) .auto
    refine .comp ?_ (State.offPulseEnd_rel ..) .auto
    refine .comp ?_ (State.readbackFailure_rel ..) .auto
    refine .comp ?_ (State.readbackFailure_rel ..) .auto
    exact .refl _

theorem State.settleInputs_rel : ∀ s, Rel [.fc, .evr, .si, .tp, .lrst, .enc, .so, .freeCtr, .collected, .irq, .log] s (State.settleInputs s) := by
  intro s
  unfold State.settleInputs
  dsimp only
  refine .comp ?_ (State.crossCheckFault_rel ..) .auto
  refine .comp ?_ (State.encoderFault_rel ..) .auto
  refine .comp ?_ (State.encoderFault_rel ..) .auto
  refine .comp ?_ (State.lrstIgnored_rel ..) .auto
  refine .comp ?_ (State.lrstDiscrepancy_rel ..) .auto
  refine .each ?_ ?_
  · refine .each ?_ ?_
    · refine .each ?_ ?_
      · refine .each ?_ ?_
        · exact .refl _
        · intro _ _
          beta_reduce
          refine .comp ?_ (State.chatterFault_rel ..) .auto
          refine .comp ?_ (State.crossShortFault_rel ..) .auto
          refine .comp ?_ (State.crossShortFault_rel ..) .auto
          refine .comp ?_ (State.stuckOnFault_rel ..) .auto
          refine .comp ?_ (State.stuckOnFault_rel ..) .auto
          refine .comp ?_ (State.discrepancyFault_rel ..) .auto
          exact .refl _
      · intro _ _
        beta_reduce
        refine .comp ?_ (State.tpPinFault_rel ..) .auto
        exact .refl _
    · intro _ _
      beta_reduce
      refine .comp ?_ (State.safeInputOn_rel ..) .auto
      refine .comp ?_ (State.safeInputDemand_rel ..) .auto
      exact .refl _
  · intro _ _
    beta_reduce
    refine .comp ?_ (State.tpEnd_rel ..) .auto
    refine .comp ?_ (State.tpStart_rel ..) .auto
    exact .refl _

theorem State.setFsync_rel : ∀ s a1 a2, Rel [.sched] s (State.setFsync s a1 a2) := by
  intro s a1 a2
  unfold State.setFsync
  dsimp only
  refine .mk_of ?_ .auto .auto
  exact .refl _

theorem State.fsyncAssert_rel : ∀ s a1, Rel [.sched] s (State.fsyncAssert s a1) := by
  intro s a1
  unfold State.fsyncAssert
  refine .ite (fun _ => ?_) (fun _ => ?_)
  · refine .comp ?_ (State.setFsync_rel ..) .auto
    exact .refl _
  · exact .refl _

theorem State.settleCores_rel : ∀ s, Rel [.fc, .evr, .watch, .so, .sched, .cores, .engs, .alt, .golden, .jnl, .freeCtr, .collected, .irq, .log] s (State.settleCores s) := by
  intro s
  unfold State.settleCores
  dsimp only
  refine .comp ?_ (State.scrubBeat_rel ..) .auto
  refine .foldl ?_ ?_
  · refine .comp ?_ (State.cancelBound_rel ..) .auto
    refine .each ?_ ?_
    · refine .comp ?_ (State.sensorLimit_rel ..) .auto
      exact .refl _
    · intro _ _
      beta_reduce
      refine .comp ?_ (State.goldenFail_rel ..) .auto
      refine .comp ?_ (State.coreOffBound_rel ..) .auto
      exact .refl _
  · intro _ _
    beta_reduce
    refine .comp ?_ (State.runReady_rel ..) .auto
    exact .refl _

theorem State.settleWrites_rel : ∀ s, Rel [.evr, .sched, .grid, .collected, .log] s (State.settleWrites s) := by
  intro s
  unfold State.settleWrites
  dsimp only
  refine .foldl ?_ ?_
  · refine .foldl ?_ ?_
    · exact .refl _
    · intro _ _
      beta_reduce
      refine .comp ?_ (State.writeBufferRoom_rel ..) .auto
      exact .refl _
  · intro _ _
    beta_reduce
    refine .comp ?_ (State.claimWrite_rel ..) .auto
    exact .refl _

theorem State.settleGridTimes_rel : ∀ s, Rel [.grid, .ev] s (State.settleGridTimes s) := by
  intro s
  unfold State.settleGridTimes
  dsimp only
  refine .ite (fun _ => ?_) (fun _ => ?_)
  · refine .comp ?_ (State.objectMatch_rel ..) .auto
    refine .ite (fun _ => ?_) (fun _ => ?_)
    · refine .comp ?_ (State.masksReady_rel ..) .auto
      refine .ite (fun _ => ?_) (fun _ => ?_)
      · refine .comp ?_ (State.sweepComplete_rel ..) .auto
        exact .refl _
      · exact .refl _
    · refine .ite (fun _ => ?_) (fun _ => ?_)
      · refine .comp ?_ (State.sweepComplete_rel ..) .auto
        exact .refl _
      · exact .refl _
  · refine .ite (fun _ => ?_) (fun _ => ?_)
    · refine .comp ?_ (State.masksReady_rel ..) .auto
      refine .ite (fun _ => ?_) (fun _ => ?_)
      · refine .comp ?_ (State.sweepComplete_rel ..) .auto
        exact .refl _
      · exact .refl _
    · refine .ite (fun _ => ?_) (fun _ => ?_)
      · refine .comp ?_ (State.sweepComplete_rel ..) .auto
        exact .refl _
      · exact .refl _

theorem State.settleGrid_rel : ∀ s, Rel [.evr, .sched, .grid, .ev, .lk, .collected, .log] s (State.settleGrid s) := by
  intro s
  unfold State.settleGrid
  dsimp only
  refine .comp ?_ (State.bandDown_rel ..) .auto
  refine .comp ?_ (State.bandBeat_rel ..) .auto
  refine .comp ?_ (State.pairCount_rel ..) .auto
  generalize hx : (State.floorOccupancy _ : State) = u
  refine .mk_of ?_ .auto .auto
  subst hx
  refine .comp ?_ (State.floorOccupancy_rel ..) .auto
  refine .comp ?_ (State.d0Rules_rel ..) .auto
  refine .comp ?_ (State.objGraceExpiry_rel ..) .auto
  refine .comp ?_ (State.cellRulePersist_rel ..) .auto
  refine .comp ?_ (State.settleGridTimes_rel ..) .auto
  refine .comp ?_ (State.settleWrites_rel ..) .auto
  exact .refl _

theorem State.fsyncRelease_rel : ∀ s a1, Rel [.sched] s (State.fsyncRelease s a1) := by
  intro s a1
  unfold State.fsyncRelease
  refine .ite (fun _ => ?_) (fun _ => ?_)
  · exact .refl _
  · refine .comp ?_ (State.setFsync_rel ..) .auto
    exact .refl _

theorem State.settle_rel : ∀ s, Rel [.fc, .wd, .evr, .watch, .si, .tp, .lrst, .enc, .so, .pwr, .therm, .time, .tel, .sched, .cores, .engs, .noc, .gddr, .gddrMem, .poison, .alt, .golden, .cmp, .grid, .flr, .ev, .io, .jnl, .st, .secu, .lk, .freeCtr, .collected, .irq, .log] s (State.settle s) := by
  intro s
  unfold State.settle
  dsimp only
  refine .comp ?_ (State.standbyEnter_rel ..) .auto
  refine .comp ?_ (State.armTimeoutDue_rel ..) .auto
  refine .comp ?_ (State.retrust_rel ..) .auto
  refine .comp ?_ (State.armFramesReached_rel ..) .auto
  refine .comp ?_ (State.retrustBlock_rel ..) .auto
  refine .comp ?_ (State.overcurrentEnd_rel ..) .auto
  refine .comp ?_ (State.quietPeriodEnd_rel ..) .auto
  refine .comp ?_ (State.rampCheck_rel ..) .auto
  refine .comp ?_ (State.ss1MaxTimeDue_rel ..) .auto
  refine .each ?_ ?_
  · refine .comp ?_ (State.settleStreams_rel ..) .auto
    refine .comp ?_ (State.settleCores_rel ..) .auto
    refine .comp ?_ (State.settleGrid_rel ..) .auto
    refine .comp ?_ (State.settleWatchdogs_rel ..) .auto
    refine .comp ?_ (State.settleOutputs_rel ..) .auto
    refine .comp ?_ (State.settleInputs_rel ..) .auto
    refine .comp ?_ (State.tickSettle_rel ..) .auto
    exact .refl _
  · intro _ _
    beta_reduce
    refine .comp ?_ (State.fsyncRelease_rel ..) .auto
    refine .comp ?_ (State.fsyncAssert_rel ..) .auto
    exact .refl _

theorem State.latchSpeed_rel : ∀ s a1, Rel [.watch] s (State.latchSpeed s a1) := by
  intro s a1
  unfold State.latchSpeed
  dsimp only
  split
  · refine .mk_of ?_ .auto .auto
    exact .refl _
  · refine .mk_of ?_ .auto .auto
    exact .refl _
  · exact .refl _

theorem State.entryEffects_rel : ∀ s a1, Rel [.evr, .so, .ldr, .pwr, .sched, .grid, .flr, .io, .lc, .log] s (State.entryEffects s a1) := by
  intro s a1
  unfold State.entryEffects
  dsimp only
  split
  · refine .ite (fun _ => ?_) (fun _ => ?_)
    · generalize hx : (State.claimsOnArming _ : State) = u
      refine .mk_of ?_ .auto .auto
      subst hx
      refine .comp ?_ (State.claimsOnArming_rel ..) .auto
      refine .comp ?_ (State.gridOnArming_rel ..) .auto
      exact .refl _
    · refine .comp ?_ (State.claimsOnArming_rel ..) .auto
      refine .comp ?_ (State.gridOnArming_rel ..) .auto
      exact .refl _
  · generalize hx : (State.abandonLoad _ : State) = u
    refine .mk_of ?_ .auto .auto
    subst hx
    refine .comp ?_ (State.abandonLoad_rel ..) .auto
    exact .refl _
  · refine .ite (fun _ => ?_) (fun _ => ?_)
    · refine .mk_of ?_ .auto fun h => ⟨h.word, (OutState.ok_iff _).2 fun x hx => by have := (OutState.ok_iff _).1 h.outs x hx; rw [OutGroup.okIn_iff] at this ⊢; exact ⟨this.1, fun h => nomatch h⟩, ⟨h.mem.gddr, h.mem.cores, h.mem.engs, h.mem.plane0, h.mem.plane1, h.mem.floor, h.mem.buf⟩⟩
      exact .refl _
    · exact .refl _
  · exact .refl _

theorem State.takeTransition_rel : ∀ s a1, Rel [.evr, .watch, .so, .ldr, .pwr, .sched, .grid, .flr, .io, .lc, .wstate, .collected, .log] s (State.takeTransition s a1) := by
  intro s a1
  unfold State.takeTransition
  split
  · refine .comp ?_ (State.latchSpeed_rel ..) .auto
    refine .comp ?_ (State.entryEffects_rel ..) .auto
    refine .comp ?_ (State.enter_rel ..) .auto
    exact .refl _
  · exact .refl _

theorem State.frameCounters_rel : ∀ s, Rel [.evr, .pwr, .sched, .lk, .log] s (State.frameCounters s) := by
  intro s
  unfold State.frameCounters
  dsimp only
  refine .ite (fun _ => ?_) (fun _ => ?_)
  · refine .ite (fun _ => ?_) (fun _ => ?_)
    · refine .comp ?_ (State.accAtOrigin_rel ..) .auto
      refine .mk_of ?_ .auto .auto
      exact .refl _
    · refine .ite (fun _ => ?_) (fun _ => ?_)
      · refine .ite (fun _ => ?_) (fun _ => ?_)
        · refine .mk_of ?_ .auto .auto
          exact .refl _
        · refine .comp ?_ (State.stagesTick_rel ..) .auto
          refine .mk_of ?_ .auto .auto
          exact .refl _
      · exact .refl _
  · exact .refl _

theorem State.nextBeat_rel : ∀ s, Rel [.beat, .evr, .watch, .enc, .pwr, .time, .sched, .lk, .collected, .log] s (State.nextBeat s) := by
  intro s
  unfold State.nextBeat
  dsimp only
  refine .comp ?_ (State.encoderBeat_rel ..) .auto
  refine .comp ?_ (State.frameCounters_rel ..) .auto
  refine .comp ?_ (State.advanceTime_rel ..) .auto
  generalize hx : (State.creditReturn _ : State) = u
  refine .mk_of ?_ .auto .auto
  subst hx
  refine .comp ?_ (State.creditReturn_rel ..) .auto
  exact .refl _

theorem State.cleanBeat_rel : ∀ s, Rel [.watch] s (State.cleanBeat s) := by
  intro s
  unfold State.cleanBeat
  dsimp only
  refine .mk_of ?_ .auto .auto
  exact .refl _

/-- The word that a beat commits carries its CRC (R28). -/
theorem State.commitWord_ok (s : State) : wordOk s.commitWord = true := by
  unfold State.commitWord
  split
  · exact resetWord_ok
  · exact wordOk_of_upper _

theorem State.commit_rel : ∀ s a1 a2, Rel [.evr, .watch, .so, .cmd, .tel, .io, .lk, .freeCtr, .irq, .log] s (State.commit s a1 a2) := by
  intro s a1 a2
  unfold State.commit
  dsimp only
  refine .comp ?_ (State.driveGroups_rel ..) .auto
  refine .comp ?_ (State.pairSend_rel ..) .auto
  refine .comp ?_ (State.telBeat_rel ..) .auto
  refine .comp ?_ (State.verdictWordIn_rel ..) .auto
  refine .comp ?_ (State.cleanBeat_rel ..) .auto
  refine .comp ?_ (State.postResults_rel ..) .auto
  refine .comp ?_ (State.watchIrq_rel ..) .auto
  refine .comp ?_ (State.commitRecords_rel ..) .auto
  refine .mk_of ?_ .auto fun h => ⟨State.commitWord_ok s, h.outs, ⟨h.mem.gddr, h.mem.cores, h.mem.engs, h.mem.plane0, h.mem.plane1, h.mem.floor, h.mem.buf⟩⟩
  exact .refl _

theorem State.beatStep_rel : ∀ s a1, Rel [.beat, .selftestFail, .fc, .wd, .evr, .watch, .si, .tp, .lrst, .enc, .so, .cmd, .ldr, .pwr, .therm, .time, .tel, .sched, .cores, .engs, .noc, .gddr, .gddrMem, .poison, .ctrl, .alt, .golden, .cmp, .grid, .flr, .ev, .io, .jnl, .st, .lc, .secu, .lk, .freeCtr, .wstate, .collected, .irq, .log] s (State.beatStep s a1) := by
  intro s a1
  unfold State.beatStep
  dsimp only
  refine .comp ?_ (State.openBeat_rel ..) .auto
  refine .comp ?_ (State.commit_rel ..) .auto
  refine .comp ?_ (State.takeTransition_rel ..) .auto
  refine .comp ?_ (State.nextBeat_rel ..) .auto
  refine .comp ?_ (State.takeDoubt_rel ..) .auto
  refine .comp ?_ (State.startUpFault_rel ..) .auto
  refine .comp ?_ (State.settle_rel ..) .auto
  exact .refl _

end Sys2Proof.Machine
end

