-- ==== Sys2Proof/Laws/RelCompute.lean ====
section
/-!
SUPPORT. What each operation of Machine/Compute.lean leaves unchanged, and that it keeps the invariants.
-/
namespace Sys2Proof.Machine

set_option Elab.async false

theorem State.memWrite_rel : ∀ s a1 a2 a3, Rel [.cores, .engs, .gddrMem, .poison] s (State.memWrite s a1 a2 a3) := by
  intro s a1 a2 a3
  unfold State.memWrite
  split
  · refine .comp ?_ (State.modEng_rel _ _ _ fun _ h => EngState.ok_writeN h _ _) .auto
    exact .refl _
  · refine .comp ?_ (State.modCore_rel _ _ _ fun _ h => Mem.wf_writeN _ _ h) .auto
    exact .refl _
  · refine .mk_of ?_ .auto (.mem fun m => ⟨Mem.wf_writeN _ _ m.gddr, m.cores, m.engs, m.plane0, m.plane1, m.floor, m.buf⟩)
    exact .refl _

theorem EngState.wr_ok {e : EngState} (h : e.ok = true) (a n v : Nat) : (e.wr a n v).ok = true := EngState.ok_writeN h _ _

theorem EngState.putRaw_ok {e : EngState} (h : e.ok = true) (f a v : Nat) : (e.putRaw f a v).ok = true := by
  unfold EngState.putRaw
  split
  · exact wr_ok h ..
  · exact wr_ok h ..

theorem EngState.putAcc_ok {e : EngState} (h : e.ok = true) (a : Nat) (v : BitVec 32) : (e.putAcc a v).ok = true := by
  simp only [EngState.ok, Bool.and_eq_true] at h ⊢
  exact ⟨⟨h.1.1, Sparse.wf_put _ _ _ h.1.2⟩, h.2⟩

theorem EngState.putRacc_ok {e : EngState} (h : e.ok = true) (a v : Nat) : (e.putRacc a v).ok = true := by
  simp only [EngState.ok, Bool.and_eq_true] at h ⊢
  exact ⟨h.1, Sparse.wf_put _ _ _ h.2⟩

theorem EngState.flag_ok {e : EngState} (h : e.ok = true) (fs : List Nat) : (e.flag fs).ok = true := h
theorem EngState.rounded_ok {e : EngState} (h : e.ok = true) (m : RoundMode) : (e.rounded m).ok = true := h
theorem EngState.putEnv_ok {e : EngState} (h : e.ok = true) (d r : Nat) (m : RoundMode) (v : Flagged Env) : (e.putEnv d r m v).ok = true :=
  rounded_ok (flag_ok (wr_ok (wr_ok h ..) ..) _) _

theorem EngState.store_ok {e : EngState} (h : e.ok = true) (m : RoundMode) (f d : Nat) (zp : Int) (v : FVal) : (e.store m f d zp v).ok = true := by
  unfold EngState.store
  split
  · exact rounded_ok (flag_ok (putRaw_ok h ..) _) _
  · split
    · exact rounded_ok (flag_ok (putRaw_ok h ..) _) _
    · dsimp only
      split
      · exact rounded_ok (flag_ok (putRaw_ok h ..) _) _
      · exact flag_ok (putRaw_ok h ..) _
      · exact flag_ok (putRaw_ok h ..) _

theorem EngState.mxPack_ok {e : EngState} (h : e.ok = true) (x : OpCtx) (a b c d f : Nat) : (e.mxPack x a b c d f).ok = true := by
  unfold EngState.mxPack
  have hl : ∀ (l : List Nat) (g : EngState → Nat → EngState) (e' : EngState), e'.ok = true → (∀ t i, t.ok = true → (g t i).ok = true) → (l.foldl g e').ok = true := by
    intro l g
    induction l with
    | nil => exact fun _ h _ => h
    | cons a l ih => exact fun e' h hg => ih _ (hg e' a h) hg
  refine hl _ _ _ (wr_ok h ..) fun t i ht => ?_
  dsimp only
  split
  · exact store_ok ht ..
  · exact store_ok ht ..

/-- Every micro-operation keeps the memories of its engine in canonical form. -/
theorem EngState.run_ok {e : EngState} (h : e.ok = true) (x : OpCtx) (op : MicroOp) : (e.run x op).ok = true := by
  unfold EngState.run
  split
  · exact h
  · exact putRacc_ok (putAcc_ok h ..) ..
  · unfold EngState.mac; split <;> exact flag_ok (putAcc_ok h ..) _
  · exact flag_ok (flag_ok (putAcc_ok h ..) _) _
  · unfold EngState.drain
    dsimp only
    split
    · exact rounded_ok (flag_ok (putRaw_ok h ..) _) _
    · exact store_ok h ..
  · exact putRacc_ok (flag_ok (putAcc_ok h ..) _) ..
  · exact putEnv_ok h ..
  · exact putEnv_ok h ..
  · exact putEnv_ok h ..
  · exact store_ok h ..
  · unfold EngState.act
    split
    · exact store_ok h ..
    · split
      · exact store_ok h ..
      · split
        · exact store_ok h ..
        · exact putRaw_ok h ..
  · unfold EngState.convert
    split
    · split
      · exact putEnv_ok h ..
      · exact putEnv_ok h ..
    · exact store_ok h ..
  · exact mxPack_ok h ..
  · unfold EngState.threshold; split <;> exact wr_ok h ..
  · exact wr_ok h ..
  · exact h

theorem State.microEffect_rel : ∀ s a1 a2 a3, Rel [.cores, .engs, .gddrMem, .poison] s (State.microEffect s a1 a2 a3) := by
  intro s a1 a2 a3
  unfold State.microEffect
  split
  · refine .comp ?_ (State.memWrite_rel ..) .auto
    exact .refl _
  · refine .comp ?_ (State.modEng_rel _ _ _ fun _ h => EngState.run_ok h _ _) .auto
    exact .refl _

theorem State.modEntry_rel : ∀ s a1 a2 a3, Rel [.cores] s (State.modEntry s a1 a2 a3) := by
  intro s a1 a2 a3
  unfold State.modEntry
  refine .comp ?_ (State.modCore_rel _ _ _) .auto
  exact .refl _

theorem State.microopIssue_rel : ∀ s a1 a2 a3, Rel [.sched, .cores, .engs, .gddrMem, .poison] s (State.microopIssue s a1 a2 a3) := by
  intro s a1 a2 a3
  unfold State.microopIssue
  dsimp only
  refine .ite (fun _ => ?_) (fun _ => ?_)
  · refine .comp ?_ (State.microEffect_rel ..) .auto
    refine .comp ?_ (State.modEng_rel _ _ _) .auto
    refine .comp ?_ (State.modEntry_rel ..) .auto
    refine .comp ?_ (State.charge_rel ..) .auto
    exact .refl _
  · exact .refl _

theorem State.microopRetire_rel : ∀ s a1 a2, Rel [.evr, .sched, .cores, .engs, .golden, .collected, .log] s (State.microopRetire s a1 a2) := by
  intro s a1 a2
  unfold State.microopRetire
  dsimp only
  split
  · exact .refl _
  · refine .ite (fun _ => ?_) (fun _ => ?_)
    · exact .refl _
    · split
      · refine .ite (fun _ => ?_) (fun _ => ?_)
        · refine .comp ?_ (State.retireDesc_rel ..) .auto
          refine .comp ?_ (State.modEng_rel _ _ _) .auto
          refine .comp ?_ (State.modEntry_rel ..) .auto
          exact .refl _
        · refine .comp ?_ (State.modEng_rel _ _ _) .auto
          refine .comp ?_ (State.modEntry_rel ..) .auto
          exact .refl _
      · refine .comp ?_ (State.modEng_rel _ _ _) .auto
        refine .comp ?_ (State.modEntry_rel ..) .auto
        exact .refl _

end Sys2Proof.Machine
end

