-- ==== Sys2Proof/Laws/RelRegisters.lean ====
section
/-!
SUPPORT. What each operation of Machine/Registers.lean leaves unchanged, and that it keeps the invariants.
-/
namespace Sys2Proof.Machine

set_option Elab.async false

theorem State.accRequest_rel : ∀ s a1 a2, Rel [.evr, .pwr, .log] s (State.accRequest s a1 a2) := by
  intro s a1 a2
  unfold State.accRequest
  split
  · refine .comp ?_ (State.accOnReq_rel ..) .auto
    exact .refl _
  · refine .comp ?_ (State.accOffReq_rel ..) .auto
    exact .refl _
  · refine .comp ?_ (State.accCycleReq_rel ..) .auto
    exact .refl _
  · exact .refl _

theorem State.bridgeTimeout_rel : ∀ s a1, Rel [.evr, .freeCtr, .log] s (State.bridgeTimeout s a1) := by
  intro s a1
  unfold State.bridgeTimeout
  refine .ite (fun _ => ?_) (fun _ => ?_)
  · exact .refl _
  · split
    · refine .comp ?_ (State.event_rel ..) .auto
      exact .refl _
    · refine .comp ?_ (State.event_rel ..) .auto
      refine .comp ?_ (State.freed_rel ..) .auto
      exact .refl _

theorem State.bufClear_rel : ∀ s, Rel [.evr, .secu, .log] s (State.bufClear s) := by
  intro s
  unfold State.bufClear
  refine .opStart .auto ?_ ?_
  · exact .refl _
  · intro _
    beta_reduce
    refine .comp ?_ (State.secStart_rel ..) .auto
    refine .comp ?_ (State.bufEmpty_rel ..) .auto
    exact .refl _

theorem State.writeGrid_rel : ∀ s a1 a2, Rel [.grid] s (State.writeGrid s a1 a2) := by
  intro s a1 a2
  unfold State.writeGrid
  dsimp only
  split
  · refine .mk_of ?_ .auto .auto
    exact .refl _
  · refine .mk_of ?_ .auto .auto
    exact .refl _
  · exact .refl _

theorem State.writeIo_rel : ∀ s a1 a2, Rel [.lrst, .enc] s (State.writeIo s a1 a2) := by
  intro s a1 a2
  unfold State.writeIo
  dsimp only
  split
  · refine .mk_of ?_ .auto .auto
    exact .refl _
  · refine .mk_of ?_ .auto .auto
    exact .refl _
  · exact .refl _

theorem State.writeLdrCtrl_rel : ∀ s a1 a2, Rel [.evr, .ldr, .io, .log] s (State.writeLdrCtrl s a1 a2) := by
  intro s a1 a2
  unfold State.writeLdrCtrl
  split
  · exact .refl _
  · refine .comp ?_ (State.ldrOpen_rel ..) .auto
    exact .refl _
  · refine .comp ?_ (State.ldrClose_rel ..) .auto
    exact .refl _
  · refine .comp ?_ (State.ldrAbort_rel ..) .auto
    exact .refl _
  · refine .comp ?_ (State.ldrActivate_rel ..) .auto
    exact .refl _
  · refine .comp ?_ (State.ldrCommit_rel ..) .auto
    exact .refl _
  · refine .comp ?_ (State.ignoredWrite_rel ..) .auto
    exact .refl _

theorem State.writeLdr_rel : ∀ s a1 a2 a3, Rel [.evr, .ldr, .io, .log] s (State.writeLdr s a1 a2 a3) := by
  intro s a1 a2 a3
  unfold State.writeLdr
  dsimp only
  split
  · refine .mk_of ?_ .auto .auto
    exact .refl _
  · refine .comp ?_ (State.writeLdrCtrl_rel ..) .auto
    exact .refl _
  · refine .mk_of ?_ .auto .auto
    exact .refl _
  · refine .mk_of ?_ .auto .auto
    exact .refl _
  · refine .comp ?_ (State.wdata_rel ..) .auto
    exact .refl _
  · exact .refl _

theorem State.writeJnlCmd_rel : ∀ s a1, Rel [.fc, .evr, .so, .ldr, .jnl, .freeCtr, .collected, .irq, .log] s (State.writeJnlCmd s a1) := by
  intro s a1
  unfold State.writeJnlCmd
  dsimp only
  refine .ite (fun _ => ?_) (fun _ => ?_)
  · refine .comp ?_ (State.rdPage_rel ..) .auto
    refine .ite (fun _ => ?_) (fun _ => ?_)
    · refine .comp ?_ (State.flushCmd_rel ..) .auto
      refine .ite (fun _ => ?_) (fun _ => ?_)
      · refine .comp ?_ (State.format_rel ..) .auto
        exact .refl _
      · exact .refl _
    · refine .ite (fun _ => ?_) (fun _ => ?_)
      · refine .comp ?_ (State.format_rel ..) .auto
        exact .refl _
      · exact .refl _
  · refine .ite (fun _ => ?_) (fun _ => ?_)
    · refine .comp ?_ (State.flushCmd_rel ..) .auto
      refine .ite (fun _ => ?_) (fun _ => ?_)
      · refine .comp ?_ (State.format_rel ..) .auto
        exact .refl _
      · exact .refl _
    · refine .ite (fun _ => ?_) (fun _ => ?_)
      · refine .comp ?_ (State.format_rel ..) .auto
        exact .refl _
      · exact .refl _

theorem State.writeJnl_rel : ∀ s a1 a2, Rel [.fc, .evr, .so, .ldr, .jnl, .freeCtr, .collected, .irq, .log] s (State.writeJnl s a1 a2) := by
  intro s a1 a2
  unfold State.writeJnl
  dsimp only
  split
  · refine .mk_of ?_ .auto .auto
    exact .refl _
  · refine .comp ?_ (State.writeJnlCmd_rel ..) .auto
    exact .refl _
  · refine .mk_of ?_ .auto .auto
    exact .refl _
  · refine .mk_of ?_ .auto .auto
    exact .refl _
  · refine .mk_of ?_ .auto .auto
    exact .refl _
  · exact .refl _

theorem State.writePwr_rel : ∀ s a1 a2, Rel [.evr, .ldr, .pwr, .sched, .log] s (State.writePwr s a1 a2) := by
  intro s a1 a2
  unfold State.writePwr
  dsimp only
  split
  · refine .mk_of ?_ .auto .auto
    exact .refl _
  · refine .ite (fun _ => ?_) (fun _ => ?_)
    · refine .comp ?_ (State.wakeWrite_rel ..) .auto
      refine .ite (fun _ => ?_) (fun _ => ?_)
      · refine .comp ?_ (State.standbyReq_rel ..) .auto
        exact .refl _
      · exact .refl _
    · refine .ite (fun _ => ?_) (fun _ => ?_)
      · refine .comp ?_ (State.standbyReq_rel ..) .auto
        exact .refl _
      · exact .refl _
  · refine .comp ?_ (State.accRequest_rel ..) .auto
    refine .comp ?_ (State.accRequest_rel ..) .auto
    exact .refl _
  · exact .refl _

theorem State.writeCores_rel : ∀ s a1 a2, Rel [.engs, .noc] s (State.writeCores s a1 a2) := by
  intro s a1 a2
  unfold State.writeCores
  dsimp only
  refine .ite (fun _ => ?_) (fun _ => ?_)
  · refine .mk_of ?_ .auto .auto
    exact .refl _
  · refine .ite (fun _ => ?_) (fun _ => ?_)
    · refine .comp ?_ (State.modEng_rel _ _ _) .auto
      exact .refl _
    · exact .refl _

theorem State.writeRec_rel : ∀ s a1 a2 a3, Rel [.evr, .log] s (State.writeRec s a1 a2 a3) := by
  intro s a1 a2 a3
  unfold State.writeRec
  dsimp only
  split
  · refine .ite (fun _ => ?_) (fun _ => ?_)
    · refine .mk_of ?_ .auto .auto
      exact .refl _
    · refine .comp ?_ (State.ignoredWrite_rel ..) .auto
      refine .mk_of ?_ .auto .auto
      exact .refl _
  · refine .mk_of ?_ .auto .auto
    exact .refl _
  · exact .refl _

theorem State.writeWd_rel : ∀ s a1 a2 a3, Rel [.wd, .evr, .log] s (State.writeWd s a1 a2 a3) := by
  intro s a1 a2 a3
  unfold State.writeWd
  dsimp only
  split
  · refine .mk_of ?_ .auto .auto
    exact .refl _
  · refine .comp ?_ (State.ignoredWrite_rel ..) .auto
    exact .refl _
  · refine .mk_of ?_ .auto .auto
    exact .refl _
  · refine .mk_of ?_ .auto .auto
    exact .refl _
  · refine .comp ?_ (State.ignoredWrite_rel ..) .auto
    exact .refl _
  · exact .refl _

theorem State.writeCvu_rel : ∀ s a1 a2 a3 a4, Rel [.fc, .evr, .so, .io, .freeCtr, .collected, .irq, .log] s (State.writeCvu s a1 a2 a3 a4) := by
  intro s a1 a2 a3 a4
  unfold State.writeCvu
  dsimp only
  refine .ite (fun _ => ?_) (fun _ => ?_)
  · exact .refl _
  · refine .ite (fun _ => ?_) (fun _ => ?_)
    · refine .comp ?_ (State.ignoredWrite_rel ..) .auto
      exact .refl _
    · split
      · refine .ite (fun _ => ?_) (fun _ => ?_)
        · refine .comp ?_ (State.modCvu_rel ..) .auto
          exact .refl _
        · refine .comp ?_ (State.ignoredWrite_rel ..) .auto
          refine .comp ?_ (State.modCvu_rel ..) .auto
          exact .refl _
      · refine .comp ?_ (State.modCvu_rel ..) .auto
        exact .refl _
      · refine .comp ?_ (State.modCvu_rel ..) .auto
        exact .refl _
      · refine .comp ?_ (State.cvuFeed_rel ..) .auto
        exact .refl _
      · refine .comp ?_ (State.cvuFeed_rel ..) .auto
        exact .refl _
      · refine .comp ?_ (State.cvuFeed_rel ..) .auto
        exact .refl _
      · refine .comp ?_ (State.modCvu_rel ..) .auto
        exact .refl _
      · refine .comp ?_ (State.cvuAlive_rel ..) .auto
        exact .refl _
      · refine .comp ?_ (State.modCvu_rel ..) .auto
        exact .refl _
      · exact .refl _

theorem State.writeStreams_rel : ∀ s a1 a2, Rel [.io] s (State.writeStreams s a1 a2) := by
  intro s a1 a2
  unfold State.writeStreams
  dsimp only
  refine .ite (fun _ => ?_) (fun _ => ?_)
  · split
    · refine .comp ?_ (State.modPort_rel ..) .auto
      exact .refl _
    · refine .comp ?_ (State.modCrocus_rel ..) .auto
      exact .refl _
    · exact .refl _
  · refine .ite (fun _ => ?_) (fun _ => ?_)
    · refine .ite (fun _ => ?_) (fun _ => ?_)
      · refine .comp ?_ (State.modCtx_rel ..) .auto
        exact .refl _
      · exact .refl _
    · refine .ite (fun _ => ?_) (fun _ => ?_)
      · refine .ite (fun _ => ?_) (fun _ => ?_)
        · refine .comp ?_ (State.modClaim_rel ..) .auto
          exact .refl _
        · exact .refl _
      · refine .ite (fun _ => ?_) (fun _ => ?_)
        · refine .mk_of ?_ .auto .auto
          exact .refl _
        · refine .mk_of ?_ .auto .auto
          exact .refl _

theorem State.writeSecCtrl_rel : ∀ s a1 a2, Rel [.evr, .lc, .secu, .log] s (State.writeSecCtrl s a1 a2) := by
  intro s a1 a2
  unfold State.writeSecCtrl
  split
  · refine .comp ?_ (State.idGenerate_rel ..) .auto
    exact .refl _
  · refine .comp ?_ (State.certProgram_rel ..) .auto
    exact .refl _
  · refine .comp ?_ (State.certRead_rel ..) .auto
    exact .refl _
  · refine .comp ?_ (State.keyOp_rel ..) .auto
    exact .refl _
  · refine .comp ?_ (State.attest_rel ..) .auto
    exact .refl _
  · refine .comp ?_ (State.bufClear_rel ..) .auto
    exact .refl _
  · refine .comp ?_ (State.ignoredWrite_rel ..) .auto
    exact .refl _

theorem State.writeLc_rel : ∀ s a1 a2 a3, Rel [.evr, .lc, .secu, .log] s (State.writeLc s a1 a2 a3) := by
  intro s a1 a2 a3
  unfold State.writeLc
  dsimp only
  split
  · refine .comp ?_ (State.writeSecCtrl_rel ..) .auto
    exact .refl _
  · refine .mk_of ?_ .auto .auto
    exact .refl _
  · refine .comp ?_ (State.bufWrite_rel ..) .auto
    exact .refl _
  · refine .ite (fun _ => ?_) (fun _ => ?_)
    · refine .mk_of ?_ .auto .auto
      exact .refl _
    · exact .refl _

theorem State.irqClear_rel : ∀ s a1, Rel [.irq] s (State.irqClear s a1) := by
  intro s a1
  unfold State.irqClear
  dsimp only
  refine .mk_of ?_ .auto .auto
  exact .refl _

theorem State.writeGlobal_rel : ∀ s a1 a2, Rel [.wd, .evr, .watch, .enc, .i3c, .cmd, .ldr, .sched, .cores, .engs, .golden, .grid, .flr, .ev, .jnl, .st, .secu, .collected, .irq, .log] s (State.writeGlobal s a1 a2) := by
  intro s a1 a2
  unfold State.writeGlobal
  dsimp only
  refine .ite (fun _ => ?_) (fun _ => ?_)
  · refine .mk_of ?_ .auto .auto
    exact .refl _
  · split
    · refine .comp ?_ (State.irqClear_rel ..) .auto
      exact .refl _
    · refine .mk_of ?_ .auto .auto
      exact .refl _
    · refine .mk_of ?_ .auto .auto
      exact .refl _
    · refine .mk_of ?_ .auto .auto
      exact .refl _
    · refine .comp ?_ (State.cmdGo_rel ..) .auto
      exact .refl _
    · exact .refl _

theorem State.writeTime_rel : ∀ s a1 a2, Rel [.evr, .time, .log] s (State.writeTime s a1 a2) := by
  intro s a1 a2
  unfold State.writeTime
  dsimp only
  split
  · refine .mk_of ?_ .auto .auto
    exact .refl _
  · refine .ite (fun _ => ?_) (fun _ => ?_)
    · refine .comp ?_ (State.timeStepWrite_rel ..) .auto
      exact .refl _
    · exact .refl _
  · refine .comp ?_ (State.modEth_rel ..) .auto
    exact .refl _
  · refine .comp ?_ (State.modEth_rel ..) .auto
    exact .refl _
  · exact .refl _

theorem State.writeField_rel : ∀ s a1 a2, Rel [.fc, .wd, .evr, .watch, .lrst, .enc, .so, .i3c, .cmd, .ldr, .pwr, .time, .sched, .cores, .engs, .noc, .golden, .grid, .flr, .ev, .io, .jnl, .st, .lc, .secu, .freeCtr, .collected, .irq, .log] s (State.writeField s a1 a2) := by
  intro s a1 a2
  unfold State.writeField
  dsimp only
  split
  · refine .comp ?_ (State.writeGlobal_rel ..) .auto
    exact .refl _
  · refine .ite (fun _ => ?_) (fun _ => ?_)
    · refine .mk_of ?_ .auto .auto
      exact .refl _
    · refine .ite (fun _ => ?_) (fun _ => ?_)
      · refine .mk_of ?_ .auto .auto
        exact .refl _
      · exact .refl _
  · refine .comp ?_ (State.writeGrid_rel ..) .auto
    exact .refl _
  · refine .comp ?_ (State.writeCores_rel ..) .auto
    exact .refl _
  · refine .comp ?_ (State.writeStreams_rel ..) .auto
    exact .refl _
  · refine .comp ?_ (State.writeCvu_rel ..) .auto
    exact .refl _
  · refine .comp ?_ (State.writeIo_rel ..) .auto
    exact .refl _
  · refine .ite (fun _ => ?_) (fun _ => ?_)
    · refine .comp ?_ (State.ffClear_rel ..) .auto
      exact .refl _
    · exact .refl _
  · refine .comp ?_ (State.writeWd_rel ..) .auto
    exact .refl _
  · refine .comp ?_ (State.writeRec_rel ..) .auto
    exact .refl _
  · refine .comp ?_ (State.writeJnl_rel ..) .auto
    exact .refl _
  · refine .comp ?_ (State.writePwr_rel ..) .auto
    exact .refl _
  · refine .comp ?_ (State.writeTime_rel ..) .auto
    exact .refl _
  · refine .comp ?_ (State.writeLdr_rel ..) .auto
    exact .refl _
  · refine .comp ?_ (State.writeLc_rel ..) .auto
    exact .refl _
  · refine .ite (fun _ => ?_) (fun _ => ?_)
    · refine .mk_of ?_ .auto .auto
      exact .refl _
    · exact .refl _
  · exact .refl _

theorem State.regWrite_rel : ∀ s a1 a2, Rel [.fc, .wd, .evr, .watch, .lrst, .enc, .so, .i3c, .cmd, .ldr, .pwr, .time, .sched, .cores, .engs, .noc, .golden, .grid, .flr, .ev, .io, .jnl, .st, .lc, .secu, .freeCtr, .collected, .irq, .log] s (State.regWrite s a1 a2) := by
  intro s a1 a2
  unfold State.regWrite
  split
  · refine .comp ?_ (State.ignoredWrite_rel ..) .auto
    exact .refl _
  · refine .ite (fun _ => ?_) (fun _ => ?_)
    · refine .comp ?_ (State.ignoredWrite_rel ..) .auto
      exact .refl _
    · refine .comp ?_ (State.writeField_rel ..) .auto
      exact .refl _

theorem State.sideTime_rel : ∀ s a1, Rel [.time, .tel] s (State.sideTime s a1) := by
  intro s a1
  unfold State.sideTime
  dsimp only
  split
  · refine .mk_of ?_ .auto .auto
    exact .refl _
  · refine .mk_of ?_ .auto .auto
    exact .refl _
  · refine .comp ?_ (State.modEth_rel ..) .auto
    exact .refl _
  · refine .comp ?_ (State.modEth_rel ..) .auto
    exact .refl _
  · refine .mk_of ?_ .auto .auto
    exact .refl _
  · exact .refl _

theorem State.sideCores_rel : ∀ s a1, Rel [.cores, .engs, .noc, .gddr] s (State.sideCores s a1) := by
  intro s a1
  unfold State.sideCores
  dsimp only
  refine .ite (fun _ => ?_) (fun _ => ?_)
  · split
    · refine .comp ?_ (State.modChan_rel ..) .auto
      exact .refl _
    · refine .comp ?_ (State.modChan_rel ..) .auto
      exact .refl _
    · exact .refl _
  · refine .ite (fun _ => ?_) (fun _ => ?_)
    · refine .mk_of ?_ .auto .auto
      exact .refl _
    · refine .ite (fun _ => ?_) (fun _ => ?_)
      · refine .ite (fun _ => ?_) (fun _ => ?_)
        · refine .comp ?_ (State.modEng_rel _ _ _) .auto
          exact .refl _
        · exact .refl _
      · refine .ite (fun _ => ?_) (fun _ => ?_)
        · refine .comp ?_ (State.modCore_rel _ _ _) .auto
          exact .refl _
        · exact .refl _

theorem State.sideIo_rel : ∀ s a1, Rel [.si, .lrst] s (State.sideIo s a1) := by
  intro s a1
  unfold State.sideIo
  dsimp only
  refine .ite (fun _ => ?_) (fun _ => ?_)
  · refine .mk_of ?_ .auto .auto
    exact .refl _
  · refine .ite (fun _ => ?_) (fun _ => ?_)
    · refine .mk_of ?_ .auto .auto
      exact .refl _
    · exact .refl _

theorem State.sideRec_rel : ∀ s a1, Rel [.evr] s (State.sideRec s a1) := by
  intro s a1
  unfold State.sideRec
  dsimp only
  split
  · refine .mk_of ?_ .auto .auto
    exact .refl _
  · refine .mk_of ?_ .auto .auto
    exact .refl _
  · refine .comp ?_ (State.readWin7_rel ..) .auto
    exact .refl _
  · exact .refl _

theorem State.sideGlobal_rel : ∀ s a1, Rel [.i3c, .cmd] s (State.sideGlobal s a1) := by
  intro s a1
  unfold State.sideGlobal
  dsimp only
  split
  · refine .mk_of ?_ .auto .auto
    exact .refl _
  · refine .mk_of ?_ .auto .auto
    exact .refl _
  · refine .mk_of ?_ .auto .auto
    exact .refl _
  · refine .mk_of ?_ .auto .auto
    exact .refl _
  · exact .refl _

theorem State.sideStreams_rel : ∀ s a1, Rel [.io] s (State.sideStreams s a1) := by
  intro s a1
  unfold State.sideStreams
  dsimp only
  refine .ite (fun _ => ?_) (fun _ => ?_)
  · refine .ite (fun _ => ?_) (fun _ => ?_)
    · refine .comp ?_ (State.modPort_rel ..) .auto
      exact .refl _
    · exact .refl _
  · refine .ite (fun _ => ?_) (fun _ => ?_)
    · refine .ite (fun _ => ?_) (fun _ => ?_)
      · refine .comp ?_ (State.modCtx_rel ..) .auto
        exact .refl _
      · exact .refl _
    · refine .ite (fun _ => ?_) (fun _ => ?_)
      · refine .ite (fun _ => ?_) (fun _ => ?_)
        · refine .comp ?_ (State.modClaim_rel ..) .auto
          exact .refl _
        · exact .refl _
      · refine .ite (fun _ => ?_) (fun _ => ?_)
        · refine .mk_of ?_ .auto .auto
          exact .refl _
        · exact .refl _

theorem State.readSide_rel : ∀ s a1, Rel [.fc, .wd, .evr, .watch, .si, .lrst, .i3c, .cmd, .pwr, .time, .tel, .sched, .cores, .engs, .noc, .gddr, .ctrl, .cmp, .grid, .floorPair, .io, .jnl, .st, .secu, .lk, .log] s (State.readSide s a1) := by
  intro s a1
  unfold State.readSide
  dsimp only
  split
  · refine .comp ?_ (State.sideGlobal_rel ..) .auto
    exact .refl _
  · refine .ite (fun _ => ?_) (fun _ => ?_)
    · refine .mk_of ?_ .auto .auto
      exact .refl _
    · exact .refl _
  · refine .ite (fun _ => ?_) (fun _ => ?_)
    · refine .comp ?_ (State.advanceCol_rel ..) .auto
      exact .refl _
    · exact .refl _
  · refine .comp ?_ (State.sideCores_rel ..) .auto
    exact .refl _
  · refine .ite (fun _ => ?_) (fun _ => ?_)
    · refine .mk_of ?_ .auto .auto
      exact .refl _
    · exact .refl _
  · refine .comp ?_ (State.sideStreams_rel ..) .auto
    exact .refl _
  · refine .ite (fun _ => ?_) (fun _ => ?_)
    · refine .comp ?_ (State.modCvu_rel ..) .auto
      exact .refl _
    · exact .refl _
  · refine .comp ?_ (State.sideIo_rel ..) .auto
    exact .refl _
  · refine .ite (fun _ => ?_) (fun _ => ?_)
    · refine .mk_of ?_ .auto .auto
      exact .refl _
    · exact .refl _
  · refine .ite (fun _ => ?_) (fun _ => ?_)
    · refine .comp ?_ (State.modHb_rel ..) .auto
      exact .refl _
    · refine .ite (fun _ => ?_) (fun _ => ?_)
      · refine .comp ?_ (State.modHb_rel ..) .auto
        exact .refl _
      · exact .refl _
  · refine .comp ?_ (State.sideRec_rel ..) .auto
    exact .refl _
  · split
    · refine .mk_of ?_ .auto .auto
      exact .refl _
    · refine .mk_of ?_ .auto .auto
      exact .refl _
    · refine .mk_of ?_ .auto .auto
      exact .refl _
    · exact .refl _
  · refine .ite (fun _ => ?_) (fun _ => ?_)
    · refine .mk_of ?_ .auto .auto
      exact .refl _
    · exact .refl _
  · refine .comp ?_ (State.sideTime_rel ..) .auto
    exact .refl _
  · refine .ite (fun _ => ?_) (fun _ => ?_)
    · refine .comp ?_ (State.bufRead_rel ..) .auto
      exact .refl _
    · exact .refl _
  · refine .ite (fun _ => ?_) (fun _ => ?_)
    · refine .mk_of ?_ .auto .auto
      exact .refl _
    · exact .refl _
  · split
    · refine .mk_of ?_ .auto .auto
      exact .refl _
    · refine .mk_of ?_ .auto .auto
      exact .refl _
    · exact .refl _
  · split
    · refine .mk_of ?_ .auto .auto
      exact .refl _
    · refine .mk_of ?_ .auto .auto
      exact .refl _
    · refine .mk_of ?_ .auto .auto
      exact .refl _
    · exact .refl _
  · exact .refl _

end Sys2Proof.Machine
end

