-- ==== Sys2Proof/Laws/RelI3c.lean ====
section
/-!
SUPPORT. What each operation of Machine/I3c.lean leaves unchanged, and that it keeps the invariants.
-/
namespace Sys2Proof.Machine

set_option Elab.async false

theorem State.busAnswer_rel : ∀ s a1 a2, Rel [.i3c] s (State.busAnswer s a1 a2) := by
  intro s a1 a2
  unfold State.busAnswer
  dsimp only
  refine .mk_of ?_ .auto .auto
  exact .refl _

theorem State.nackRead_rel : ∀ s, Rel [.i3c] s (State.nackRead s) := by
  intro s
  unfold State.nackRead
  dsimp only
  refine .comp ?_ (State.busAnswer_rel ..) .auto
  refine .mk_of ?_ .auto .auto
  exact .refl _

theorem State.readWord_rel : ∀ s a, Rel [.fc, .wd, .evr, .watch, .si, .lrst, .i3c, .cmd, .pwr, .time, .tel, .sched, .cores, .engs, .noc, .gddr, .ctrl, .cmp, .grid, .floorPair, .io, .jnl, .st, .secu, .lk, .freeCtr, .log] s (State.readWord s a).1 := by
  intro s a
  unfold State.readWord
  dsimp only
  refine .comp (.comp ?_ (State.bridgeTimeout_rel ..) .auto) (State.readSide_rel ..) .auto
  exact .ite (fun _ => .comp (.refl _) (State.readWin0_rel ..) .auto) fun _ => .refl _

theorem State.burst_rel (n : Nat) : ∀ s a, Rel [.fc, .wd, .evr, .watch, .si, .lrst, .i3c, .cmd, .pwr, .time, .tel, .sched, .cores, .engs, .noc, .gddr, .ctrl, .cmp, .grid, .floorPair, .io, .jnl, .st, .secu, .lk, .freeCtr, .log] s (State.burst s a n).1 := by
  induction n with
  | zero => exact fun _ _ => .refl _
  | succ n ih =>
    intro s a
    unfold State.burst
    split
    · exact .refl _
    · exact .comp (.comp (.refl _) (State.readWord_rel ..) .auto) (ih ..) .auto

theorem State.busRead_rel : ∀ s a1, Rel [.fc, .wd, .evr, .watch, .si, .lrst, .i3c, .cmd, .pwr, .time, .tel, .sched, .cores, .engs, .noc, .gddr, .ctrl, .cmp, .grid, .floorPair, .io, .jnl, .st, .secu, .lk, .freeCtr, .log] s (State.busRead s a1) := by
  intro s a1
  unfold State.busRead
  dsimp only
  refine .ite (fun _ => ?_) (fun _ => ?_)
  · refine .comp ?_ (State.nackRead_rel ..) .auto
    exact .refl _
  · refine .comp ?_ (State.busAnswer_rel ..) .auto
    refine .mk_of ?_ .auto .auto
    exact .comp (.refl _) (State.burst_rel ..) .auto

theorem State.busReset_rel : ∀ s, Rel [.i3c] s (State.busReset s) := by
  intro s
  unfold State.busReset
  dsimp only
  refine .mk_of ?_ .auto .auto
  exact .refl _

theorem State.streamWrite_rel : ∀ s a1 a2, Rel [.evr, .ldr, .secu, .log] s (State.streamWrite s a1 a2) := by
  intro s a1 a2
  unfold State.streamWrite
  refine .ite (fun _ => ?_) (fun _ => ?_)
  · exact .refl _
  · refine .ite (fun _ => ?_) (fun _ => ?_)
    · refine .comp ?_ (State.ignoredWrite_rel ..) .auto
      exact .refl _
    · refine .ite (fun _ => ?_) (fun _ => ?_)
      · refine .comp ?_ (State.wdata_rel ..) .auto
        exact .refl _
      · refine .comp ?_ (State.bufWrite_rel ..) .auto
        exact .refl _

theorem State.wordsWrite_rel : ∀ s a1 a2, Rel [.fc, .wd, .evr, .watch, .lrst, .enc, .so, .i3c, .cmd, .ldr, .pwr, .time, .sched, .cores, .engs, .noc, .golden, .grid, .flr, .ev, .io, .jnl, .st, .lc, .secu, .freeCtr, .collected, .irq, .log] s (State.wordsWrite s a1 a2) := by
  intro s a1 a2
  induction s, a1, a2 using State.wordsWrite.induct with
  | case1 s a b0 b1 b2 b3 bs ih =>
    rw [State.wordsWrite]
    exact .comp (.comp (.refl _) (State.regWrite_rel ..) .auto) ih .auto
  | case2 s a l h =>
    rw [State.wordsWrite.eq_2 _ _ _ h]
    exact .refl _

theorem State.busWrite_rel : ∀ s a1 a2, Rel [.fc, .wd, .evr, .watch, .lrst, .enc, .so, .i3c, .cmd, .ldr, .pwr, .time, .sched, .cores, .engs, .noc, .golden, .grid, .flr, .ev, .io, .jnl, .st, .lc, .secu, .freeCtr, .collected, .irq, .log] s (State.busWrite s a1 a2) := by
  intro s a1 a2
  unfold State.busWrite
  dsimp only
  refine .ite (fun _ => ?_) (fun _ => ?_)
  · exact .refl _
  · refine .ite (fun _ => ?_) (fun _ => ?_)
    · refine .mk_of ?_ .auto .auto
      exact .refl _
    · refine .ite (fun _ => ?_) (fun _ => ?_)
      · refine .comp ?_ (State.streamWrite_rel ..) .auto
        exact .refl _
      · refine .comp ?_ (State.wordsWrite_rel ..) .auto
        exact .refl _

theorem State.cccRead_rel : ∀ s a1, Rel [.i3c] s (State.cccRead s a1) := by
  intro s a1
  unfold State.cccRead
  refine .ite (fun _ => ?_) (fun _ => ?_)
  · exact .refl _
  · refine .ite (fun _ => ?_) (fun _ => ?_)
    · refine .comp ?_ (State.busAnswer_rel ..) .auto
      exact .refl _
    · refine .comp ?_ (State.busAnswer_rel ..) .auto
      exact .refl _

theorem State.cccSet_rel : ∀ s a1, Rel [.i3c, .irq] s (State.cccSet s a1) := by
  intro s a1
  unfold State.cccSet
  dsimp only
  refine .ite (fun _ => ?_) (fun _ => ?_)
  · exact .refl _
  · refine .mk_of ?_ .auto .auto
    exact .refl _

theorem State.entdaa_rel : ∀ s a1 a2, Rel [.i3c, .irq] s (State.entdaa s a1 a2) := by
  intro s a1 a2
  unfold State.entdaa
  refine .ite (fun _ => ?_) (fun _ => ?_)
  · exact .refl _
  · refine .comp ?_ (State.busAnswer_rel ..) .auto
    refine .ite (fun _ => ?_) (fun _ => ?_)
    · refine .mk_of ?_ .auto .auto
      exact .refl _
    · exact .refl _

theorem State.getStatus_rel : ∀ s, Rel [.i3c] s (State.getStatus s) := by
  intro s
  unfold State.getStatus
  dsimp only
  refine .ite (fun _ => ?_) (fun _ => ?_)
  · refine .comp ?_ (State.cccRead_rel ..) .auto
    exact .refl _
  · generalize hx : (State.cccRead _ _ : State) = u
    refine .mk_of ?_ .auto .auto
    subst hx
    refine .comp ?_ (State.cccRead_rel ..) .auto
    exact .refl _

theorem State.hdrRead_rel : ∀ s a1 a2, Rel [.fc, .wd, .evr, .watch, .si, .lrst, .i3c, .cmd, .pwr, .time, .tel, .sched, .cores, .engs, .noc, .gddr, .ctrl, .cmp, .grid, .floorPair, .io, .jnl, .st, .secu, .lk, .freeCtr, .log] s (State.hdrRead s a1 a2) := by
  intro s a1 a2
  unfold State.hdrRead
  dsimp only
  refine .ite (fun _ => ?_) (fun _ => ?_)
  · exact .refl _
  · refine .ite (fun _ => ?_) (fun _ => ?_)
    · refine .comp ?_ (State.busRead_rel ..) .auto
      exact .refl _
    · refine .comp ?_ (State.busAnswer_rel ..) .auto
      refine .comp ?_ (State.busRead_rel ..) .auto
      exact .refl _

theorem State.hdrWrite_rel : ∀ s a1 a2 a3, Rel [.fc, .wd, .evr, .watch, .lrst, .enc, .so, .i3c, .cmd, .ldr, .pwr, .time, .sched, .cores, .engs, .noc, .golden, .grid, .flr, .ev, .io, .jnl, .st, .lc, .secu, .freeCtr, .collected, .irq, .log] s (State.hdrWrite s a1 a2 a3) := by
  intro s a1 a2 a3
  unfold State.hdrWrite
  dsimp only
  refine .ite (fun _ => ?_) (fun _ => ?_)
  · exact .refl _
  · refine .ite (fun _ => ?_) (fun _ => ?_)
    · refine .mk_of ?_ .auto .auto
      exact .refl _
    · split
      · refine .comp ?_ (State.busWrite_rel ..) .auto
        refine .comp ?_ (State.busAnswer_rel ..) .auto
        exact .refl _
      · exact .refl _

theorem State.ibiRequest_rel : ∀ s a1, Rel [.i3c, .irq] s (State.ibiRequest s a1) := by
  intro s a1
  unfold State.ibiRequest
  dsimp only
  split
  · refine .ite (fun _ => ?_) (fun _ => ?_)
    · refine .ite (fun _ => ?_) (fun _ => ?_)
      · refine .comp ?_ (State.busAnswer_rel ..) .auto
        refine .mk_of ?_ .auto .auto
        exact .refl _
      · refine .mk_of ?_ .auto .auto
        exact .refl _
    · exact .refl _
  · exact .refl _

theorem State.readReg_rel : ∀ s a1, Rel [.fc, .wd, .evr, .watch, .si, .lrst, .enc, .so, .i3c, .cmd, .ldr, .pwr, .time, .tel, .sched, .cores, .engs, .noc, .gddr, .ctrl, .golden, .cmp, .grid, .flr, .floorPair, .ev, .io, .jnl, .st, .lc, .secu, .lk, .freeCtr, .collected, .irq, .log] s (State.readReg s a1) := by
  intro s a1
  unfold State.readReg
  refine .ite (fun _ => ?_) (fun _ => ?_)
  · exact .refl _
  · refine .comp ?_ (State.busRead_rel ..) .auto
    refine .comp ?_ (State.busWrite_rel ..) .auto
    exact .refl _

theorem State.registerWrite_rel : ∀ s a1 a2, Rel [.fc, .wd, .evr, .watch, .lrst, .enc, .so, .i3c, .cmd, .ldr, .pwr, .time, .sched, .cores, .engs, .noc, .golden, .grid, .flr, .ev, .io, .jnl, .st, .lc, .secu, .freeCtr, .collected, .irq, .log] s (State.registerWrite s a1 a2) := by
  intro s a1 a2
  unfold State.registerWrite
  dsimp only
  refine .ite (fun _ => ?_) (fun _ => ?_)
  · exact .refl _
  · split
    · refine .comp ?_ (State.busWrite_rel ..) .auto
      refine .ite (fun _ => ?_) (fun _ => ?_)
      · generalize hx : (State.busAnswer _ _ _ : State) = u
        refine .mk_of ?_ .auto .auto
        subst hx
        refine .comp ?_ (State.busAnswer_rel ..) .auto
        exact .refl _
      · refine .comp ?_ (State.busAnswer_rel ..) .auto
        exact .refl _
    · refine .ite (fun _ => ?_) (fun _ => ?_)
      · generalize hx : (State.busAnswer _ _ _ : State) = u
        refine .mk_of ?_ .auto .auto
        subst hx
        refine .comp ?_ (State.busAnswer_rel ..) .auto
        exact .refl _
      · refine .comp ?_ (State.busAnswer_rel ..) .auto
        exact .refl _

theorem State.rstact_rel : ∀ s a1, Rel [.i3c] s (State.rstact s a1) := by
  intro s a1
  unfold State.rstact
  refine .ite (fun _ => ?_) (fun _ => ?_)
  · exact .refl _
  · refine .comp ?_ (State.busAnswer_rel ..) .auto
    exact .refl _

end Sys2Proof.Machine
end

