-- ==== Sys2Proof/Laws/RelStep.lean ====
section
/-!
SUPPORT. What each operation of Machine/Step.lean leaves unchanged, and that it keeps the invariants.
-/
namespace Sys2Proof.Machine

set_option Elab.async false

theorem State.withFetchWord_rel : ∀ s a1 a2, Rel [.pending] s (State.withFetchWord s a1 a2) := by
  intro s a1 a2
  unfold State.withFetchWord
  split
  · exact ⟨fun x hx => by cases x <;> first | exact rfl | exact ⟨rfl, rfl, rfl⟩ | exact ⟨rfl, rfl⟩ | exact absurd (by decide) hx, fun h => ⟨h.word, h.outs, ⟨h.mem.gddr, h.mem.cores, h.mem.engs, h.mem.plane0, h.mem.plane1, h.mem.floor, h.mem.buf⟩⟩⟩
  · exact .refl _

end Sys2Proof.Machine
end

