-- ==== Sys2Proof/Laws/RelSteps.lean ====
section
/-!
SUPPORT. What each operation of Machine/Steps.lean leaves unchanged, and that it keeps the invariants.
-/
namespace Sys2Proof.Machine

set_option Elab.async false

theorem State.crystalStop_rel : ∀ s, Rel [.xtalOk, .fc, .evr, .so, .freeCtr, .collected, .irq, .log] s (State.crystalStop s) := by
  intro s
  unfold State.crystalStop
  refine .ite (fun _ => ?_) (fun _ => ?_)
  · refine .comp ?_ (State.raise_rel ..) .auto
    refine .comp ?_ (State.freed_rel ..) .auto
    refine .mk_of ?_ .auto .auto
    exact .refl _
  · exact .refl _

theorem State.encoderEdge_rel : ∀ s a1 a2 a3 a4, Rel [.enc] s (State.encoderEdge s a1 a2 a3 a4) := by
  intro s a1 a2 a3 a4
  unfold State.encoderEdge
  dsimp only
  refine .mk_of ?_ .auto .auto
  exact .refl _

theorem Rel.mainReg {ps : List Piece} {s u : State} {a1 f} (w : Within [.evr, .log] ps) (h : Rel ps s u) (hf : ∀ t, Rel ps t (f t)) :
    Rel ps s (State.mainReg u a1 f) := by
  unfold State.mainReg
  exact .ite (fun _ => .comp h (hf _) (by simp [Within, within])) (fun _ => .comp h (State.ignoredWrite_rel ..) (within_of w .auto))

end Sys2Proof.Machine
end

