-- ==== Sys2Proof/Laws/Exec.lean ====
section
/-!
SUPPORT. What a command answers: from what its operation does while the island, or the main domain, has its supplies.
-/
namespace Sys2Proof.Machine

set_option Elab.async false

@[simp] theorem goes_next {t : State} {p : State → Prop} : Goes (.next t) p ↔ p t :=
  ⟨fun ⟨_, h, hp⟩ => by injection h with h; exact h ▸ hp, fun h => ⟨t, rfl, h⟩⟩

theorem Goes.mono {a : Answer} {p q : State → Prop} (h : Goes a p) (hpq : ∀ t, p t → q t) : Goes a q :=
  let ⟨t, e, hp⟩ := h
  ⟨t, e, hpq t hp⟩

theorem Goes.and {a : Answer} {p q : State → Prop} (h : Goes a p) (h' : Goes a q) : Goes a fun t => p t ∧ q t := by
  obtain ⟨t, rfl, hp⟩ := h
  exact goes_next.2 ⟨hp, goes_next.1 h'⟩

/-- A command of the powered island answers what its operation does. -/
theorem goes_island {s : State} {f : State → State} {p : State → Prop} (h : s.powered = true) (hp : p (f s)) : Goes (s.island f) p :=
  ⟨f s, by simp [State.island, h], hp⟩

/-- A command of the powered main domain answers what its operation does. -/
theorem goes_main {s : State} {f : State → State} {p : State → Prop} (h : s.powered = true) (hm : s.pwr.mainOn = true) (hp : p (f s)) :
    Goes (s.inMainDomain f) p :=
  ⟨f s, by simp [State.inMainDomain, h, hm], hp⟩

theorem island_rel {s : State} {f : State → State} {ps : List Piece} (h : Rel ps s (f s)) : Goes (s.island f) (Rel ps s) := by
  refine ⟨_, rfl, ?_⟩
  split
  · exact h
  · exact .refl _

theorem main_rel {s : State} {f : State → State} {ps : List Piece} (h : Rel ps s (f s)) : Goes (s.inMainDomain f) (Rel ps s) := by
  refine ⟨_, rfl, ?_⟩
  split
  · exact h
  · exact .refl _

theorem island_frame {s : State} {f : State → State} {ps : List Piece} (h : Rel ps s (f s)) : Goes (s.island f) (Frame ps s) :=
  (island_rel h).mono fun _ h => h.frame

theorem main_frame {s : State} {f : State → State} {ps : List Piece} (h : Rel ps s (f s)) : Goes (s.inMainDomain f) (Frame ps s) :=
  (main_rel h).mono fun _ h => h.frame

/-- A frame with more pieces. -/
theorem Frame.weaken {ps qs : List Piece} {s t : State} (h : Frame ps s t) (w : Within ps qs) : Frame qs s t :=
  fun x hx => h x fun hp => hx (within_mem w hp)

theorem Rel.weaken {ps qs : List Piece} {s t : State} (h : Rel ps s t) (w : Within ps qs) : Rel qs s t := ⟨h.frame.weaken w, h.inv⟩

/-- An operation that acts only under a condition. -/
theorem Rel.cond {c : Prop} [Decidable c] {ps : List Piece} {s t : State} (h : Rel ps s t) : Rel ps s (if c then t else s) :=
  .ite (fun _ => h) fun _ => .refl _

end Sys2Proof.Machine
end

