-- ==== Sys2Proof/Laws/RegisterAccess.lean ====
section
/-!
SUPPORT. What a write to each of the registers with a row of its own does: the operation that it starts while the register can
be reached, and the ignored write while it cannot (R506).
-/
namespace Sys2Proof.Machine

set_option Elab.async false

theorem State.regWrite_main {a : Nat} (s : State) (w : Nat) (h : regDom a = some .main) :
    s.regWrite a w = if s.pwr.mainOn then s.writeField a w else s.ignoredWrite a 3 := by
  simp only [State.regWrite, h]
  cases s.pwr.mainOn <;> simp

theorem State.regWrite_island {a : Nat} (s : State) (w : Nat) (h : regDom a = some .island) (hm : mainWritable a = false) :
    s.regWrite a w = s.writeField a w := by
  simp [State.regWrite, h, hm]

/-- The domains of the registers with rows of their own. -/
theorem regDom_rows :
    (regDom ldrCtrlAddr = some .main ∧ regDom secCtrlAddr = some .main ∧ regDom 0x0D0004 = some .main ∧ regDom 0x0B0034 = some .main) ∧
      regDom 0x080014 = some .island ∧ regDom 0x0C0004 = some .island ∧ regDom 0x0C0014 = some .island := by decide +kernel

theorem State.regWrite_ldrOpen (s : State) : s.regWrite ldrCtrlAddr 1 = if s.pwr.mainOn then s.ldrOpen else s.ignoredWrite ldrCtrlAddr 3 :=
  s.regWrite_main 1 regDom_rows.1.1

theorem State.regWrite_ldrClose (s : State) : s.regWrite ldrCtrlAddr 2 = if s.pwr.mainOn then s.ldrClose else s.ignoredWrite ldrCtrlAddr 3 :=
  s.regWrite_main 2 regDom_rows.1.1

theorem State.regWrite_ldrAbort (s : State) : s.regWrite ldrCtrlAddr 4 = if s.pwr.mainOn then s.ldrAbort else s.ignoredWrite ldrCtrlAddr 3 :=
  s.regWrite_main 4 regDom_rows.1.1

theorem State.regWrite_ldrActivate (s : State) (b : Bool) :
    s.regWrite ldrCtrlAddr (8 + 256 * b2n b) = if s.pwr.mainOn then s.ldrActivate b else s.ignoredWrite ldrCtrlAddr 3 := by
  cases b
  · exact s.regWrite_main 8 regDom_rows.1.1
  · exact s.regWrite_main 264 regDom_rows.1.1

theorem State.regWrite_ldrCommit (s : State) : s.regWrite ldrCtrlAddr 16 = if s.pwr.mainOn then s.ldrCommit else s.ignoredWrite ldrCtrlAddr 3 :=
  s.regWrite_main 16 regDom_rows.1.1

theorem State.regWrite_certProgram (s : State) : s.regWrite secCtrlAddr 2 = if s.pwr.mainOn then s.certProgram else s.ignoredWrite secCtrlAddr 3 :=
  s.regWrite_main 2 regDom_rows.1.2.1

theorem State.regWrite_certRead (s : State) : s.regWrite secCtrlAddr 3 = if s.pwr.mainOn then s.certRead else s.ignoredWrite secCtrlAddr 3 :=
  s.regWrite_main 3 regDom_rows.1.2.1

theorem State.regWrite_keyOp (s : State) : s.regWrite secCtrlAddr 4 = if s.pwr.mainOn then s.keyOp else s.ignoredWrite secCtrlAddr 3 :=
  s.regWrite_main 4 regDom_rows.1.2.1

theorem State.regWrite_attest (s : State) (b : Bool) :
    s.regWrite secCtrlAddr (5 + 256 * b2n b) = if s.pwr.mainOn then s.attest b else s.ignoredWrite secCtrlAddr 3 := by
  cases b
  · exact s.regWrite_main 5 regDom_rows.1.2.1
  · exact s.regWrite_main 261 regDom_rows.1.2.1

theorem State.regWrite_bufClear (s : State) : s.regWrite secCtrlAddr 6 = if s.pwr.mainOn then s.bufClear else s.ignoredWrite secCtrlAddr 3 :=
  s.regWrite_main 6 regDom_rows.1.2.1

theorem State.regWrite_ffClear (s : State) : s.regWrite 0x080014 1 = s.ffClear :=
  s.regWrite_island 1 regDom_rows.2.1 rfl

theorem State.regWrite_standbyReq (s : State) : s.regWrite 0x0C0004 1 = s.standbyReq :=
  s.regWrite_island 1 regDom_rows.2.2.1 rfl

theorem State.regWrite_accOn (s : State) (k : Fin 2) : s.regWrite 0x0C0014 (16 ^ k.val) = s.accOnReq k.val := by
  rw [s.regWrite_island _ regDom_rows.2.2.2 rfl]
  match k with
  | 0 => rfl
  | 1 => rfl

theorem State.regWrite_accOff (s : State) (k : Fin 2) : s.regWrite 0x0C0014 (2 * 16 ^ k.val) = s.accOffReq k.val := by
  rw [s.regWrite_island _ regDom_rows.2.2.2 rfl]
  match k with
  | 0 => rfl
  | 1 => rfl

theorem State.regWrite_accCycle (s : State) (k : Fin 2) : s.regWrite 0x0C0014 (3 * 16 ^ k.val) = s.accCycleReq k.val := by
  rw [s.regWrite_island _ regDom_rows.2.2.2 rfl]
  match k with
  | 0 => rfl
  | 1 => rfl

theorem State.regWrite_timeStep (s : State) : s.regWrite 0x0D0004 1 = if s.pwr.mainOn then s.timeStepWrite else s.ignoredWrite 0x0D0004 3 :=
  s.regWrite_main 1 regDom_rows.1.2.2.1

theorem State.regWrite_jnlFormat (s : State) : s.regWrite 0x0B0034 1 = if s.pwr.mainOn then s.format else s.ignoredWrite 0x0B0034 3 :=
  s.regWrite_main 1 regDom_rows.1.2.2.2

theorem State.regWrite_jnlFlush (s : State) : s.regWrite 0x0B0034 2 = if s.pwr.mainOn then s.flushCmd else s.ignoredWrite 0x0B0034 3 :=
  s.regWrite_main 2 regDom_rows.1.2.2.2

theorem State.regWrite_jnlRdPage (s : State) : s.regWrite 0x0B0034 4 = if s.pwr.mainOn then s.rdPage else s.ignoredWrite 0x0B0034 3 :=
  s.regWrite_main 4 regDom_rows.1.2.2.2

theorem regDom_cvuAlive : ∀ u : Fin 16, regDom (cvuAddr u.val 0x24) = some .main := by decide +kernel

theorem State.regWrite_cvuAlive (s : State) (u : Fin 16) (w : Nat) :
    s.regWrite (cvuAddr u.val 0x24) w =
      if s.pwr.mainOn then (if u.val < 8 then s.ignoredWrite (cvuAddr u.val 0x24) 2 else s.cvuAlive u.val (w % 65536) false)
      else s.ignoredWrite (cvuAddr u.val 0x24) 3 := by
  rw [s.regWrite_main w (regDom_cvuAlive u)]
  congr 1
  have h1 : cvuAddr u.val 0x24 % 65536 / 64 = u.val := by revert u; decide
  have h2 : cvuAddr u.val 0x24 % 65536 % 64 = 0x24 := by revert u; decide
  have h3 : cvuAddr u.val 0x24 / 65536 = 6 := by revert u; decide
  unfold State.writeField
  simp only [h1, h2, h3]
  unfold State.writeCvu
  rfl

end Sys2Proof.Machine
end

