-- ==== Sys2Proof/Laws/Access.lean ====
section
/-!
SUPPORT. What a command of the mailbox and a read of one register come down to.
-/
namespace Sys2Proof.Machine

set_option Elab.async false

/-! ### The mailbox -/

theorem vmapIdx_toList {α β : Type} {n : Nat} (f : Nat → α → β) (v : Vector α n) : (vmapIdx f v).toList = mapFrom f 0 v.toList := rfl

theorem mapFrom_const {α β : Type} (g : Nat → β) : ∀ (i : Nat) (l : List α), mapFrom (fun k _ => g k) i l = (List.range l.length).map fun k => g (i + k)
  | _, [] => rfl
  | i, a :: l => by
    simp only [mapFrom, mapFrom_const g (i + 1) l, List.length_cons, List.range_succ_eq_map, List.map_cons, List.map_map]
    refine congrArg₂ _ rfl (List.map_congr_left fun k _ => ?_)
    simp [Nat.add_assoc, Nat.add_comm 1]

theorem State.withMail_words (s : State) (c : CmdGo) : (s.withMail c).cmd.words.toList = mailWords c := by
  have h : s.cmd.words.toList.length = 8 := by simp
  show mapFrom _ 0 s.cmd.words.toList = _
  rw [mapFrom_const (fun i => (mailWords c).getD i 0), h]
  rfl

theorem State.mailbox_eq (s : State) (code : Nat) (c : CmdGo) (hp : s.powered = true) (hc : cmdCode (mailWords c) = code) :
    s.mailbox code c = (s.withMail c).cmdStart (mailWords c) c.alive.toNat c.crc.toNat := by
  show (if cmdCode (mailWords c) = code ∧ s.powered = true then (s.withMail c).cmdGo 0xA5 else s) = _
  rw [if_pos ⟨hc, hp⟩]
  show (s.withMail c).cmdStart (s.withMail c).cmd.words.toList _ _ = _
  rw [State.withMail_words]
  rfl

theorem State.mailbox_rel_of {ps : List Piece} {code : Nat} (h : ∀ (t : State) (w1 alive : Nat), Rel ps t (t.runCommand code w1 alive))
    (w : Within [.cmd] ps) (s : State) (c : CmdGo) : Rel ps s (s.mailbox code c) := by
  by_cases hp : cmdCode (mailWords c) = code ∧ s.powered = true
  · have hw : Rel ps s (s.withMail c) := .comp (.refl _) (.mk_of (ps := [.cmd]) (.refl _) .auto .auto) w
    have ha : ∀ (t : State) (a b r : Nat) (o : Option Trigger), Rel ps t (t.answer a b r o) := fun t a b r o =>
      .comp (.refl _) (State.answer_rel t a b r o) w
    rw [s.mailbox_eq code c hp.2 hp.1]
    refine .comp (qs := ps) hw ?_ (by simp [Within, within])
    unfold State.cmdStart
    dsimp only
    rw [hp.1]
    refine .ite (fun _ => ha ..) fun _ => .ite (fun _ => ha ..) fun _ => .ite (fun _ => ha ..) fun _ => ?_
    have h1 : Rel ps (s.withMail c) { s.withMail c with cmd := { (s.withMail c).cmd with aliveLast := c.alive.toNat } } :=
      .comp (.refl _) (.mk_of (ps := [.cmd]) (.refl _) .auto .auto) w
    have hw' : Within ps ps := by simp [Within, within]
    exact .ite (fun _ => .comp h1 (ha ..) hw') fun _ => .ite (fun _ => .comp h1 (ha ..) hw') fun _ => .comp h1 (h ..) hw'
  · show Rel ps s (if cmdCode (mailWords c) = code ∧ s.powered = true then (s.withMail c).cmdGo 0xA5 else s)
    rw [if_neg hp]
    exact .refl _

theorem State.run1_rel : ∀ t w a, Rel [.cmd, .collected] t (State.runCommand t 1 w a) := by
  intro t w a
  refine .ite (fun _ => ?_) fun _ => .comp (.refl _) (State.answer_rel ..) .auto
  exact .comp (.comp (.refl _) (State.addTrig_rel ..) .auto) (State.answer_rel ..) .auto

theorem State.run2_rel : ∀ t w a, Rel [.cmd, .collected] t (State.runCommand t 2 w a) := by
  intro t w a
  refine .ite (fun _ => .comp (.refl _) (State.answer_rel ..) .auto) fun _ => .ite (fun _ => .comp (.refl _) (State.answer_rel ..) .auto) fun _ => ?_
  exact .comp (.comp (.refl _) (State.addTrig_rel ..) .auto) (State.answer_rel ..) .auto

theorem State.run3_rel : ∀ t w a, Rel [.cmd, .collected] t (State.runCommand t 3 w a) := by
  intro t w a
  refine .ite (fun _ => ?_) fun _ => .comp (.refl _) (State.answer_rel ..) .auto
  exact .comp (.comp (.refl _) (State.addTrig_rel ..) .auto) (State.answer_rel ..) .auto

theorem State.run4_rel : ∀ t w a, Rel [.cmd, .ldr] t (State.runCommand t 4 w a) := by
  intro t w a
  refine .ite (fun _ => ?_) fun _ => .comp (.refl _) (State.answer_rel ..) .auto
  exact .comp (.comp (.refl _) (State.useProfile_rel ..) .auto) (State.answer_rel ..) .auto

theorem State.run5_rel : ∀ t w a, Rel [.cmd, .ldr] t (State.runCommand t 5 w a) := by
  intro t w a
  refine .ite (fun _ => ?_) fun _ => .comp (.refl _) (State.answer_rel ..) .auto
  exact .comp (.comp (.refl _) (State.setParam_rel ..) .auto) (State.answer_rel ..) .auto

theorem State.run6_rel : ∀ t w a, Rel [.watch, .cmd] t (State.runCommand t 6 w a) := by
  intro t w a
  refine .ite (fun _ => .comp (.refl _) (State.answer_rel ..) .auto) fun _ => ?_
  exact .comp (.comp (.refl _) (State.takeIntent_rel ..) .auto) (State.answer_rel ..) .auto

theorem State.run7_rel : ∀ t w a, Rel [.cmd, .ldr] t (State.runCommand t 7 w a) := by
  intro t w a
  refine .ite (fun _ => ?_) fun _ => .comp (.refl _) (State.answer_rel ..) .auto
  exact .comp (.comp (.refl _) (State.serviceEnter_rel ..) .auto) (State.answer_rel ..) .auto

theorem State.run8_rel : ∀ t w a, Rel [.wd, .evr, .enc, .cmd, .ldr, .sched, .cores, .engs, .golden, .grid, .flr, .ev, .st, .log] t (State.runCommand t 8 w a) := by
  intro t w a
  refine .ite (fun _ => ?_) fun _ => .comp (.refl _) (State.answer_rel ..) .auto
  exact .comp (.comp (.refl _) (State.serviceExit_rel ..) .auto) (State.answer_rel ..) .auto

theorem State.run9_rel : ∀ t w a, Rel [.evr, .cmd, .jnl, .log] t (State.runCommand t 9 w a) := by
  intro t w a
  refine .ite (fun _ => ?_) fun _ => .comp (.refl _) (State.answer_rel ..) .auto
  exact .comp (.comp (.refl _) (State.clearFirst_rel ..) .auto) (State.answer_rel ..) .auto

theorem State.run10_rel : ∀ t w a, Rel [.evr, .cmd, .secu, .log] t (State.runCommand t 10 w a) := by
  intro t w a
  exact .comp (.refl _) (State.lcCommand_rel ..) .auto

/-! ### Reads of one register -/

/-- A read of a register that no self-test slice holds (R505, R507): its word answers, with the side effects of the read. -/
theorem State.readReg_eq (s : State) (a : Nat) (ha : a % 4 = 0) (hc : regCore a = none) (hh : s.i3c.hdr = false) :
    s.readReg a =
      (let t : State := { s with i3c := { s.i3c with readAddr := a } }
       ({ (t.readWord a).1 with i3c := { (t.readWord a).1.i3c with readAddr := (a + 4) % 2 ^ 24 } } : State).busAnswer true
         (leBytes 4 (t.readWord a).2)) := by
  unfold State.readReg State.busWrite State.busRead
  simp only [hh, ha, ne_eq, not_true_eq_false, if_false, Bool.false_eq_true, List.isEmpty_nil, if_true, State.readHeld, hc, State.burst, List.append_nil]

theorem State.readReg_rel_of {ps : List Piece} {a : Nat} (ha : a % 4 = 0) (hc : regCore a = none)
    (h : ∀ t : State, Rel ps t (t.readWord a).1) (w : Within [.i3c] ps) (s : State) : Rel ps s (s.readReg a) := by
  by_cases hh : s.i3c.hdr = true
  · simp only [State.readReg, hh, if_true]
    exact .refl _
  · rw [s.readReg_eq a ha hc (by simpa using hh)]
    have hw' : Within ps ps := by simp [Within, within]
    have h1 : Rel ps s { s with i3c := { s.i3c with readAddr := a } } := .comp (.refl _) (.mk_of (ps := [.i3c]) (.refl _) .auto .auto) w
    refine .comp ?_ (State.busAnswer_rel ..) w
    generalize hx : (State.readWord _ a).1 = u
    have hu : Rel ps s u := by rw [← hx]; exact .comp h1 (h _) hw'
    exact .comp hu (.mk_of (ps := [.i3c]) (.refl _) .auto .auto) w

theorem State.readWord_island {a : Nat} (s : State) (hd : regDom a = some .island) (ha : a ≠ 0x0A0020) :
    s.readWord a = (s.readSide a, s.regWord a) := by
  simp [State.readWord, ha, State.bridgeTimeout, hd]

theorem State.readWord_on {a : Nat} (s : State) (hm : s.pwr.mainOn = true) (ha : a ≠ 0x0A0020) :
    s.readWord a = (s.readSide a, s.regWord a) := by
  simp [State.readWord, ha, State.bridgeTimeout, hm]

theorem regDom_reads :
    regDom 0x010004 = some .island ∧ regDom 0x000024 = some .island ∧ regDom 0x0D0008 = some .island ∧ regDom 0x0A003C = some .island ∧
      regDom 0x0A0020 = some .island := by decide +kernel

theorem State.readWord_watch (s : State) : Rel [.watch] s (s.readWord 0x010004).1 := by
  rw [s.readWord_island regDom_reads.1 (by decide)]
  exact .mk_of (.refl _) .auto .auto

theorem State.readWord_beatLo (s : State) : Rel [.i3c] s (s.readWord 0x000024).1 := by
  rw [s.readWord_island regDom_reads.2.1 (by decide)]
  exact .mk_of (.refl _) .auto .auto

theorem State.readWord_timeLo (s : State) : Rel [.time] s (s.readWord 0x0D0008).1 := by
  rw [s.readWord_island regDom_reads.2.2.1 (by decide)]
  exact .mk_of (.refl _) .auto .auto

theorem State.readWord_recWin7 (s : State) : Rel [.evr] s (s.readWord 0x0A003C).1 := by
  rw [s.readWord_island regDom_reads.2.2.2.1 (by decide)]
  exact State.readWin7_rel s

theorem State.readWord_recWin0 (s : State) : Rel [.evr] s (s.readWord 0x0A0020).1 := by
  have h : (s.readWord 0x0A0020).1 = s.readWin0 := by
    show (s.readWin0.bridgeTimeout 0x0A0020).readSide 0x0A0020 = _
    simp only [State.bridgeTimeout, regDom_reads.2.2.2.2, or_true, if_true]
    rfl
  rw [h]
  exact State.readWin0_rel s

theorem State.readWord_gridData3 (s : State) : Rel [.evr, .grid, .freeCtr, .log] s (s.readWord 0x020034).1 := by
  show Rel _ s ((s.bridgeTimeout 0x020034).readSide 0x020034)
  refine .comp (.comp (.refl _) (State.bridgeTimeout_rel s 0x020034) .auto) ?_ (.auto (ps := [.grid]))
  show Rel _ _ (if 0x34 = 0x34 ∧ (s.bridgeTimeout 0x020034).pwr.mainOn = true then (s.bridgeTimeout 0x020034).advanceCol else s.bridgeTimeout 0x020034)
  exact .ite (fun _ => State.advanceCol_rel _) fun _ => .refl _

theorem State.readWord_secBuf (s : State) : Rel [.evr, .secu, .freeCtr, .log] s (s.readWord secBufAddr).1 := by
  show Rel _ s ((s.bridgeTimeout secBufAddr).readSide secBufAddr)
  refine .comp (.comp (.refl _) (State.bridgeTimeout_rel s secBufAddr) .auto) ?_ (.auto (ps := [.secu]))
  show Rel _ _ (if 0x4C = 0x4C ∧ (s.bridgeTimeout secBufAddr).pwr.mainOn = true then (s.bridgeTimeout secBufAddr).bufRead else s.bridgeTimeout secBufAddr)
  exact .ite (fun _ => State.bufRead_rel _) fun _ => .refl _

end Sys2Proof.Machine
end

