-- ==== Sys2Proof/Laws/Reactions.lean ====
section
/-!
SUPPORT. What raising a fault does, said once for every command that raises one (R299 to R307).
-/
namespace Sys2Proof.Machine

set_option Elab.async false

theorem Frame.fc_eq {ps : List Piece} {s t : State} (h : Frame ps s t) (w : Piece.fc ∉ ps) : t.fc = s.fc := h .fc w
theorem Frame.so_eq {ps : List Piece} {s t : State} (h : Frame ps s t) (w : Piece.so ∉ ps) : t.so = s.so := h .so w

theorem State.keptImg_eq {s t : State} (hl : t.ldr = s.ldr) (hp : t.pwr = s.pwr) : t.keptImg = s.keptImg := by
  simp only [State.keptImg, hl, hp]

/-- The reactions are about fault collection and the outputs only. -/
theorem Reacts.of_eq {s t u : State} {src info : Nat} {c : FaultClass} (h : Reacts s src c info t) (hf : u.fc = t.fc) (ho : u.so = t.so) :
    Reacts s src c info u := by
  refine ⟨hf ▸ h.counted, fun e => ?_, fun e f => ?_⟩
  · have := h.fatal e
    exact ⟨hf ▸ this.active, hf ▸ this.info, hf ▸ this.latched, hf ▸ this.faultN, ho ▸ this.held, ho ▸ this.off⟩
  · have := h.uncorrected e f
    exact ⟨hf ▸ this.active, hf ▸ this.info, hf ▸ this.last, hf ▸ this.latched, hf ▸ this.faultN, hf ▸ this.quiet⟩

/-- A frame without fault collection and outputs keeps a reaction. -/
theorem Reacts.frame {s t u : State} {src info : Nat} {c : FaultClass} {ps : List Piece} (h : Reacts s src c info t) (hr : Rel ps t u)
    (w : ps.contains .fc = false ∧ ps.contains .so = false) : Reacts s src c info u :=
  h.of_eq (hr.frame .fc (by simpa using w.1)) (hr.frame .so (by simpa using w.2))

/-- What a reaction needs of the state before it: fault collection, the beat and the image. -/
theorem Reacts.source {s s' t : State} {src info : Nat} {c : FaultClass} (h : Reacts s' src c info t) (hf : s'.fc = s.fc)
    (hb : s'.beat = s.beat) (hl : s'.keptImg = s.keptImg := by rfl) : Reacts s src c info t := by
  have hp : s'.promote src = s.promote src := by simp only [State.promote, State.keptFld, hl]
  have hc : s'.classOf src c = s.classOf src c := by cases c <;> simp only [State.classOf, hp]
  have hq : s'.quietBeats = s.quietBeats := by simp only [State.quietBeats, State.keptFld, hl]
  have ha : s'.ftActive = s.ftActive := by simp only [State.ftActive, hf]
  refine ⟨by rw [h.counted, hf, hc], fun e => h.fatal (hc.trans e), fun e f => ?_⟩
  have := h.uncorrected (hc.trans e) (ha.trans f)
  exact ⟨this.active, this.info, this.last, this.latched, this.faultN, by rw [this.quiet, hb, hq]⟩

theorem vget_vmod {α : Type} {n : Nat} (v : Vector α n) (i : Nat) (f : α → α) (d : α) (h : i < n) : vget (vmod v i f) i d = f (vget v i d) :=
  vget_vmod_same h

theorem OutChan.drop_high (c : OutChan) (b : Nat) : (c.drop b).high = false := rfl

theorem State.outputsOff_off (s : State) : ∀ g ∈ s.outputsOff.so.groups.toList, g.on = false ∧ g.a.high = false ∧ g.b.high = false :=
  vmap_forall (P := fun _ => True) (fun _ _ => trivial) fun _ _ => ⟨rfl, rfl, rfl⟩

theorem State.latchFault_some (s : State) (src : Nat) (c : FaultClass) (info cycle : Nat) :
    (s.latchFault src c info cycle).fc.latch.isSome = true := by
  unfold State.latchFault
  split
  · rfl
  · rename_i l h
    simp [h]

theorem State.latchFault_rest (s : State) (src : Nat) (c : FaultClass) (info cycle : Nat) :
    (s.latchFault src c info cycle).fc.cnt = s.fc.cnt ∧ (s.latchFault src c info cycle).fc.info = s.fc.info ∧
      (s.latchFault src c info cycle).beat = s.beat ∧ (s.latchFault src c info cycle).keptImg = s.keptImg := by
  unfold State.latchFault
  split <;> exact ⟨rfl, rfl, rfl, rfl⟩

theorem State.faultNDown_fc (s : State) (src : Nat) (c : FaultClass) (info : Nat) :
    (s.faultNDown src c info).fc = { s.fc with faultNLow := true } := by
  unfold State.faultNDown
  split
  · rename_i h
    rw [← h]
  · exact (State.irqSet_rel ..).frame .fc (by decide)

theorem State.ftReaction_fatal (s : State) (src info cycle : Nat) (h : src < 128) :
    Fatal src info (s.ftReaction src info cycle) ∧ (s.ftReaction src info cycle).fc.cnt = s.fc.cnt ∧
      (⟨.halt, 0x22⟩ : Trigger) ∈ (s.ftReaction src info cycle).watch.trig := by
  have hfc : (s.ftReaction src info cycle).fc = { (s.latchFault src .ft info cycle).quietRestart.fc with
      activeFt := (s.latchFault src .ft info cycle).quietRestart.fc.activeFt ||| BitVec.twoPow 128 src
      info := vset (s.latchFault src .ft info cycle).quietRestart.fc.info src info, faultNLow := true } := by
    simp only [State.ftReaction]
    rw [(State.addTrig_rel ..).frame .fc (by decide), (State.outputsOff_rel ..).frame .fc (by decide), State.faultNDown_fc]
  have hso : (s.ftReaction src info cycle).so.held = true ∧
      ∀ g ∈ (s.ftReaction src info cycle).so.groups.toList, g.on = false ∧ g.a.high = false ∧ g.b.high = false := by
    simp only [State.ftReaction]
    rw [(State.addTrig_rel ..).frame .so (by decide)]
    exact ⟨rfl, State.outputsOff_off _⟩
  refine ⟨⟨?_, ?_, ?_, ?_, hso.1, hso.2⟩, ?_, ?_⟩
  · rw [hfc]; simp [h]
  · rw [hfc]; exact vget_vset_same h
  · rw [hfc]; exact State.latchFault_some ..
  · rw [hfc]
  · rw [hfc]; exact (State.latchFault_rest ..).1
  · simp [State.ftReaction, State.addTrig]

theorem State.ucReaction_uncorrected (s : State) (src info cycle : Nat) (h : src < 128) (hf : s.ftActive = false) :
    Uncorrected s src info (s.ucReaction src info cycle) := by
  have hr := s.latchFault_rest src .uc info cycle
  have hfc : (s.ucReaction src info cycle).fc = { (s.latchFault src .uc info cycle).quietRestart.fc with
      activeUc := (s.latchFault src .uc info cycle).quietRestart.fc.activeUc ||| BitVec.twoPow 128 src, lastUc := src
      info := vset (s.latchFault src .uc info cycle).quietRestart.fc.info src info, faultNLow := true } := by
    simp only [State.ucReaction, hf, Bool.false_eq_true, if_false]
    rw [State.faultNDown_fc]
  refine ⟨?_, ?_, ?_, ?_, ?_, ?_⟩
  · rw [hfc]; simp [h]
  · rw [hfc]; exact vget_vset_same h
  · rw [hfc]
  · rw [hfc]; exact State.latchFault_some ..
  · rw [hfc]
  · rw [hfc]
    simp only [State.quietRestart, hr.2.2.1, State.quietBeats, State.keptFld, hr.2.2.2]

theorem State.ucReaction_cnt (s : State) (src info cycle : Nat) : (s.ucReaction src info cycle).fc.cnt = s.fc.cnt := by
  unfold State.ucReaction
  split
  · rfl
  · rw [State.faultNDown_fc]
    exact (State.latchFault_rest ..).1

/-- What a fault does (R299 to R307). -/
theorem State.raiseAt_reacts (s : State) (src : Nat) (c : FaultClass) (info : Nat) (port : EvPort) (cycle : Nat) (h : src < 128) :
    Reacts s src c info (s.raiseAt src c info port cycle) := by
  let s1 := (s.countFault src (s.classOf src c)).faultRecord port src (s.classOf src c) info false
  have hfc : s1.fc = { s.fc with cnt := vmod s.fc.cnt src (·.count (s.classOf src c)) } := (State.faultRecord_rel ..).frame .fc (by decide)
  have hb : s1.beat = s.beat := (State.faultRecord_rel ..).frame .beat (by decide)
  have hl : s1.keptImg = s.keptImg := State.keptImg_eq ((State.faultRecord_rel ..).frame .ldr (by decide)) ((State.faultRecord_rel ..).frame .pwr (by decide))
  have hcnt : vget s1.fc.cnt src ⟨0, 0, 0⟩ = (vget s.fc.cnt src ⟨0, 0, 0⟩).count (s.classOf src c) := by rw [hfc]; exact vget_vmod_same h
  have he : s.raiseAt src c info port cycle = match s.classOf src c with
      | .uc => s1.ucReaction src info cycle
      | .ft => s1.ftReaction src info cycle
      | _ => s1 := rfl
  rw [he]
  refine ⟨?_, fun e => ?_, fun e f => ?_⟩
  · rw [← hcnt]
    split
    · rw [State.ucReaction_cnt]
    · rw [(State.ftReaction_fatal s1 src info cycle h).2.1]
    · rfl
  · rw [e]
    exact (State.ftReaction_fatal s1 src info cycle h).1
  · rw [e]
    have hu := s1.ucReaction_uncorrected src info cycle h (by simp only [State.ftActive, hfc]; exact f)
    refine ⟨hu.active, hu.info, hu.last, hu.latched, hu.faultN, ?_⟩
    rw [hu.quiet, hb]
    simp only [State.quietBeats, State.keptFld, hl]

theorem State.raise_reacts (s : State) (src : Nat) (c : FaultClass) (info : Nat) (h : src < 128) : Reacts s src c info (s.raise src c info) :=
  (State.raiseAt_reacts s.freed src c info _ _ h).source rfl rfl

theorem State.raiseLast_reacts (s : State) (src : Nat) (c : FaultClass) (info : Nat) (h : src < 128) :
    Reacts s src c info (s.raiseLast src c info) := State.raiseAt_reacts s src c info _ _ h

theorem State.raiseCore_reacts (s : State) (src : Nat) (c : FaultClass) (info e : Nat) (h : src < 128) :
    Reacts s src c info (s.raiseCore src c info e) := (State.raiseAt_reacts s.freed src c info _ _ h).source rfl rfl

/-- A fatal fault is a trigger to HALT with cause 0x22 (R17). -/
theorem State.raiseAt_trig (s : State) (src info : Nat) (port : EvPort) (cycle : Nat) (h : src < 128) :
    (⟨.halt, 0x22⟩ : Trigger) ∈ (s.raiseAt src .ft info port cycle).watch.trig := (State.ftReaction_fatal _ src info cycle h).2.2

end Sys2Proof.Machine
end

