-- ==== Sys2Proof/Laws/Effects.lean ====
section
/-!
SUPPORT. Lemmas about what commands do: the sweep of a sparse memory.
-/
namespace Sys2Proof.Machine

set_option Elab.async false

/-! ### Sparse memories, rewritten entry by entry -/

theorem Sparse.above_lt {β : Type} {j : Nat} {x : Nat × β} : ∀ {l : Sparse β}, Sparse.above j l = true → x ∈ l → j < x.1
  | [], _, h => by cases h
  | y :: l, hy, hx => by
    simp only [Sparse.above, Bool.and_eq_true, decide_eq_true_eq] at hy
    cases hx with
    | head => exact hy.1
    | tail _ hx => exact Sparse.above_lt hy.2 hx

theorem Sparse.get_unlisted {β : Type} {d : β} {k : Nat} : ∀ {m : Sparse β}, (∀ v, (k, v) ∉ m) → Sparse.get d m k = d
  | [], _ => rfl
  | (j, w) :: m, h => by
    have hj : j ≠ k := fun e => h w (by simp [e])
    rw [Sparse.get, if_neg hj]
    exact Sparse.get_unlisted fun v hv => h v (List.mem_cons_of_mem _ hv)

/-- Every entry of a memory rewritten into another one: a listed key reads as its new value, any other as before. -/
theorem Sparse.get_rewriteInto {β : Type} [DecidableEq β] {d : β} (f : Nat → β → β) (k : Nat) : ∀ {m : Sparse β} {a : Sparse β},
    Sparse.wf d m = true → Sparse.wf d a = true →
    ((∃ v, (k, v) ∈ m) → Sparse.get d (m.foldl (fun a kv => Sparse.put d a kv.1 (f kv.1 kv.2)) a) k = f k (Sparse.get d m k)) ∧
      ((¬∃ v, (k, v) ∈ m) → Sparse.get d (m.foldl (fun a kv => Sparse.put d a kv.1 (f kv.1 kv.2)) a) k = Sparse.get d a k)
  | [], a, _, _ => by simp
  | (j, w) :: m, a, hm, ha => by
    simp only [Sparse.wf, Bool.and_eq_true, decide_eq_true_eq] at hm
    obtain ⟨⟨hw, hj⟩, hm⟩ := hm
    have ih := Sparse.get_rewriteInto f k hm (Sparse.wf_put d j (f j w) ha)
    rw [List.foldl_cons]
    by_cases hk : k = j
    · subst hk
      have hn : ¬∃ v, (k, v) ∈ m := fun ⟨v, hv⟩ => Nat.lt_irrefl _ (Sparse.above_lt hj hv)
      refine ⟨fun _ => ?_, fun h => absurd ⟨w, by simp⟩ h⟩
      rw [ih.2 hn, Sparse.get_put_same d k _ ha]
      simp [Sparse.get]
    · have hg : Sparse.get d ((j, w) :: m) k = Sparse.get d m k := by simp [Sparse.get, Ne.symm hk]
      have he : (∃ v, (k, v) ∈ (j, w) :: m) ↔ ∃ v, (k, v) ∈ m := by simp [hk]
      rw [hg, he, ← Sparse.get_put_other d (f j w) hk ha]
      exact ih

/-- A memory rewritten entry by entry: every key reads as its new value, where an unlisted key keeps its value. -/
theorem Sparse.get_rewrite {β : Type} [DecidableEq β] {d : β} (f : Nat → β → β) (k : Nat) {m : Sparse β} (hm : Sparse.wf d m = true)
    (hd : f k d = d) : Sparse.get d (m.foldl (fun a kv => Sparse.put d a kv.1 (f kv.1 kv.2)) []) k = f k (Sparse.get d m k) := by
  by_cases h : ∃ v, (k, v) ∈ m
  · exact (Sparse.get_rewriteInto f k hm rfl).1 h
  · rw [(Sparse.get_rewriteInto f k hm rfl).2 h, Sparse.get_unlisted (fun v hv => h ⟨v, hv⟩), hd]
    rfl

/-! ### The sweep (R61) -/

theorem ageI_zero (n : Nat) : ageI n 0 = 0 := by
  simp [ageI]

/-- The sweep leaves a cleared cell cleared. -/
theorem State.sweepCell_zero (s : State) (k : Nat) : s.sweepCell k Cell.zero = Cell.zero := by
  have h (o f : Int) : Cell.zero.classify o f = .agree := by simp [Cell.classify, Cell.zero]
  have hm : midRadius 0 0 = (0, 0) := by decide
  simp only [State.sweepCell]
  simp [Cell.zero, ageI_zero, hm] at h ⊢
  simp [h]

/-! ### The beat -/

/-- What the watch holds, beside what it collects, is unchanged. -/
theorem Frame.watch_field {α : Type} {ps : List Piece} {s t : State} (h : Frame ps s t) (w : Piece.watch ∉ ps) (f : WatchState → α)
    (hf : ∀ w : WatchState, f w = f { w with trig := s.watch.trig, causes := s.watch.causes, clears := s.watch.clears } := by exact fun _ => rfl) : f t.watch = f s.watch := by
  rw [hf t.watch]; exact congrArg f (h .watch w)

theorem Frame.watch_eq {ps : List Piece} {s t : State} (h : Frame ps s t) (w : Piece.watch ∉ ps) (c : Piece.collected ∉ ps) : t.watch = s.watch := by
  have h1 := h .watch w
  obtain ⟨a, b, d⟩ := h .collected c
  simp only [State.same] at h1
  rw [← a, ← b, ← d] at h1
  exact h1

theorem State.nextBeat_beat (s : State) : s.nextBeat.beat = (s.beat + 1) % 2 ^ 48 := by
  unfold State.nextBeat
  simp only
  rw [(State.encoderBeat_rel _).frame .beat (by decide), (State.frameCounters_rel _).frame .beat (by decide), (State.advanceTime_rel _ _).frame .beat (by decide)]
  show (s.creditReturn.beat + 1) % _ = _
  rw [(State.creditReturn_rel _).frame .beat (by decide)]

theorem State.encoderBeat_watch (s : State) : ∃ v, s.encoderBeat.watch = { s.watch with speed := v } := ⟨_, rfl⟩

theorem State.nextBeat_watch (s : State) : ∃ v, s.nextBeat.watch = { s.watch with causes := 0, clears := 0, trig := [], speed := v } := by
  unfold State.nextBeat
  obtain ⟨v, hv⟩ := State.encoderBeat_watch (({ s.creditReturn with
    beat := (s.creditReturn.beat + 1) % 2 ^ 48
    watch := { s.creditReturn.watch with causes := 0, clears := 0, trig := [] } } : State).advanceTime 50).frameCounters
  refine ⟨v, hv.trans ?_⟩
  rw [(State.frameCounters_rel _).frame.watch_eq (by decide) (by decide), (State.advanceTime_rel _ _).frame.watch_eq (by decide) (by decide)]
  show { s.creditReturn.watch with causes := 0, clears := 0, trig := [], speed := v } = _
  rw [(State.creditReturn_rel _).frame.watch_eq (by decide) (by decide)]

theorem State.commit_watch (s : State) (o : Option Trigger) (d : BitVec 8) :
    (s.commit o d).watch = { s.watch with
      verdict := s.commitWord
      cleanCnt := if s.watch.doubt == 0 then s.watch.cleanCnt else 0
      frameClean := (s.commit o d).watch.frameClean
      sticky := s.watch.sticky ||| s.watch.doubt } := by
  unfold State.commit
  dsimp only
  generalize hs1 : ({ s with watch := { s.watch with verdict := s.commitWord }, tel := { s.tel with prevWord := s.watch.verdict.toNat } } : State) = s1
  generalize hs2 : State.postResults _ _ = s2
  have e2 : s2.watch = s1.watch := by
    rw [← hs2, (State.postResults_rel _ _).frame.watch_eq (by decide) (by decide), (State.watchIrq_rel _ _ _).frame.watch_eq (by decide) (by decide),
      (State.commitRecords_rel _ _ _).frame.watch_eq (by decide) (by decide)]
  have e3 : ∀ t : State, (t.cleanBeat.verdictWordIn.telBeat.pairSend.driveGroups).watch = t.cleanBeat.watch := by
    intro t
    rw [(State.driveGroups_rel _).frame.watch_eq (by decide) (by decide), (State.pairSend_rel _).frame.watch_eq (by decide) (by decide),
      (State.telBeat_rel _).frame.watch_eq (by decide) (by decide), (State.verdictWordIn_rel _).frame.watch_eq (by decide) (by decide)]
  rw [e3]
  simp only [State.cleanBeat, e2, ← hs1]

theorem State.takeTransition_watch (s : State) (g : Trigger) :
    ∃ a b, (s.takeTransition (some g)).watch = { s.enterWatch g.target g.cause with floorVEntry := a, ss1VEntry := b } := by
  have h : ((s.enter g).entryEffects g).watch = s.enterWatch g.target g.cause :=
    (State.entryEffects_rel _ _).frame.watch_eq (by decide) (by decide)
  simp only [State.takeTransition, State.latchSpeed]
  split
  all_goals exact ⟨_, _, by simp only [h]; rfl⟩

theorem State.enterWatch_fields (s : State) (g : WState) (c : Nat) :
    (s.enterWatch g c).wstate = g ∧ (s.enterWatch g c).lastFrom = s.watch.wstate ∧ (s.enterWatch g c).lastTo = g ∧
      (s.enterWatch g c).lastCause = c ∧ (s.enterWatch g c).lastBeat = s.beat ∧ (s.enterWatch g c).sticky = s.watch.sticky ∧
      (s.enterWatch g c).doubt = if g = .stopped then 0 else s.watch.doubt := by
  cases g <;> exact ⟨rfl, rfl, rfl, rfl, rfl, rfl, rfl⟩

theorem WState.code_lt (w : WState) : w.code < 8 := by cases w <;> decide

theorem State.verdictWord_bits (s : State) :
    bits s.verdictWord.toNat 29 3 = s.watch.wstate.code ∧ bits s.verdictWord.toNat 17 8 = s.doubtField ∧ bits s.verdictWord.toNat 8 4 = s.beat % 16 := by
  have hd : s.doubtField < 256 := by
    unfold State.doubtField
    split
    · decide
    · exact s.watch.doubt.isLt
  have hw := s.watch.wstate.code_lt
  have hc : verdictCrc s.verdictUpper < 256 := BitVec.isLt _
  simp only [State.verdictWord, State.verdictUpper, packNat, bits, BitVec.toNat_ofNat] at hc ⊢
  generalize verdictCrc _ = c at hc ⊢
  omega

/-! ### The frame tick -/

theorem State.frameBegins_effect (x : State) :
    let t := x.frameBegins
    t.sched.tickDue = false ∧ t.watch.intent = x.watch.intentNext.getD x.watch.intent ∧ t.watch.intentNext = none ∧
    t.watch.intentAge = satInc 255 x.watch.intentAge ∧ t.watch.frameClean = (t.watch.doubt == 0 && t.watch.intent.mode == 0) ∧
    t.watch.cleanCnt = x.watch.cleanCnt ∧ t.watch.countBeat = x.watch.countBeat ∧ t.watch.partialFrame = x.watch.partialFrame ∧
    t.watch.armTicks = x.watch.armTicks ∧
    t.golden.done = 0 ∧ t.ev.maskDue = some x.beat ∧
    t.ev.closing = (x.ev.mainField, x.ev.band, x.ev.maskPsi) ∧ t.st.lbistCore = t.sched.frame % 32 := by
  unfold State.frameBegins
  dsimp only
  generalize hs1 : State.altSwitch _ = s1
  generalize hs2 : ({ s1 with golden := { s1.golden with done := 0 }, sched := { s1.sched with classesFrom := none } } : State) = s2
  generalize hr : State.coverageJudged _ = r
  have hc := (State.coverageTick_rel x.intentTakes.checkReturns).frame
  have ha := (State.altSwitch_rel x.intentTakes.checkReturns.coverageTick).frame
  rw [hs1] at ha
  have hrel : Rel [.evr, .sched, .collected, .log, .st] s2 r := by
    rw [← hr]; exact .comp (.comp (.refl _) (State.applyForecast_rel s2) .auto) (State.coverageJudged_rel _) .auto
  have h3 : Rel [.tel, .lk] r.rasterise r.rasterise.telTick.summarySend :=
    .comp (.comp (.refl _) (State.telTick_rel _) .auto) (State.summarySend_rel _) .auto
  generalize r.rasterise.telTick.summarySend = s3 at h3 ⊢
  have hw {α : Type} (f : WatchState → α) (hf : ∀ (w : WatchState) a b c, f w = f { w with trig := a, causes := b, clears := c }) :
      f s3.watch = f x.intentTakes.watch := by
    rw [h3.frame.watch_field (by decide) f (fun w => hf w _ _ _)]
    show f r.watch = _
    rw [hrel.frame.watch_field (by decide) f (fun w => hf w _ _ _), ← hs2]
    show f s1.watch = _
    rw [ha.watch_field (by decide) f (fun w => hf w _ _ _), hc.watch_field (by decide) f (fun w => hf w _ _ _)]
    rfl
  have hbeat : r.beat = x.beat := by
    rw [hrel.frame .beat (by decide), ← hs2]
    show s1.beat = _
    rw [ha .beat (by decide), hc .beat (by decide)]; rfl
  have hev : r.ev = x.ev := by
    rw [hrel.frame .ev (by decide), ← hs2]
    show s1.ev = _
    rw [ha .ev (by decide), hc .ev (by decide)]; rfl
  have hg : s3.golden.done = 0 := by
    rw [h3.frame .golden (by decide)]
    show r.golden.done = 0
    rw [hrel.frame .golden (by decide), ← hs2]
  have he : s3.ev = r.rasterise.ev := h3.frame .ev (by decide)
  refine ⟨rfl, hw (·.intent) (fun _ _ _ _ => rfl), hw (·.intentNext) (fun _ _ _ _ => rfl), hw (·.intentAge) (fun _ _ _ _ => rfl), rfl,
    hw (·.cleanCnt) (fun _ _ _ _ => rfl), hw (·.countBeat) (fun _ _ _ _ => rfl), hw (·.partialFrame) (fun _ _ _ _ => rfl),
    hw (·.armTicks) (fun _ _ _ _ => rfl), hg, ?_, ?_, rfl⟩
  · show s3.ev.maskDue = _
    rw [he]; show some r.beat = _; rw [hbeat]
  · show s3.ev.closing = _
    rw [he]; show (r.ev.mainField, r.ev.band, r.ev.maskPsi) = _; rw [hev]

theorem State.takeDistance_sums (s : State) (e : Nat) : (s.takeDistance.encAt e).frameSum = 0 := by
  show (vget (vmap (fun x : Encoder => { x with frameSum := 0 }) s.enc.enc) e Encoder.default).frameSum = 0
  exact (vget_of_forall (P := fun x : Encoder => x.frameSum = 0) (vmap_forall (P := fun _ => True) (fun _ _ => trivial) fun _ _ => rfl) rfl)


/-- What a tick does to the watch's count before the new frame begins. -/
theorem State.frameTick_eq (s : State) (a : Nat) (h : s.sched.tickDue = true) :
    s.frameTick a = (if s.sched.frame = 0 then (s.takeDistance.numericFlags).newRuns
      else (((s.frameEnds a).numericFlags).newRuns).frameTravel).frameBegins := by
  unfold State.frameTick
  rw [if_pos h]
  split <;> rfl

theorem State.frameEnds_effect (s : State) (a : Nat) :
    Rel [.fc, .evr, .so, .pwr, .sched, .io, .freeCtr, .collected, .irq, .log] s.countFrame (s.frameEnds a) ∧
      (s.frameEnds a).pwr.energy = 0 ∧ (s.frameEnds a).pwr.frameUnread = false ∧ (s.frameEnds a).io.claimFail = false := by
  have h1 : Rel [.evr, .sched, .io, .collected, .log] s.countFrame s.countFrame.frameClears.markOverruns.barrierFailures :=
    .comp (.comp (.comp (.refl _) (State.frameClears_rel _) .auto) (State.markOverruns_rel _) .auto) (State.barrierFailures_rel _) .auto
  have hio : s.countFrame.frameClears.markOverruns.barrierFailures.io.claimFail = false := by
    rw [(State.barrierFailures_rel _).frame .io (by decide), (State.markOverruns_rel _).frame .io (by decide)]
    unfold State.frameClears
    dsimp only
    cases hc : s.countFrame.io.claimFail <;> split <;> first | rfl | exact hc
  have h2 := State.reconcile_rel s.countFrame.frameClears.markOverruns.barrierFailures a
  refine ⟨.comp (.comp (.refl _) h1 .auto) h2 .auto, ?_, ?_, ?_⟩
  · show (State.reconcile _ a).pwr.energy = 0
    generalize s.countFrame.frameClears.markOverruns.barrierFailures = u
    unfold State.reconcile
    dsimp only
    split
    · rw [(State.raise_rel _ _ _ _).frame .pwr (by decide)]
      show (State.freed _).pwr.energy = _
      split
      · rfl
      · show (State.event _ _ _).pwr.energy = _
        rw [(State.event_rel _ _ _).frame .pwr (by decide)]
    · split
      · rfl
      · rw [(State.event_rel _ _ _).frame .pwr (by decide)]
  · show (State.reconcile _ a).pwr.frameUnread = false
    generalize s.countFrame.frameClears.markOverruns.barrierFailures = u
    unfold State.reconcile
    dsimp only
    split
    · rw [(State.raise_rel _ _ _ _).frame .pwr (by decide)]
      show (State.freed _).pwr.frameUnread = _
      split
      · rfl
      · show (State.event _ _ _).pwr.frameUnread = _
        rw [(State.event_rel _ _ _).frame .pwr (by decide)]
    · split
      · rfl
      · rw [(State.event_rel _ _ _).frame .pwr (by decide)]
  · show (State.reconcile _ a).io.claimFail = false
    rw [h2.frame .io (by decide)]
    exact hio

/-! ### Security operations -/

theorem State.secEnd_effect (s : State) (op code : Nat) :
    (s.secEnd op code).secu = { s.secu with op := none, result := code, lastOp := op } ∧ (s.secEnd op code).i3c.irqStatus = s.i3c.irqStatus ||| 0x40 ∧
      Rel [.evr, .secu, .irq, .log] s (s.secEnd op code) := by
  refine ⟨?_, ?_, State.secEnd_rel ..⟩
  · unfold State.secEnd
    dsimp only
    rw [(State.irqSet_rel _ _ _).frame .secu (by decide)]
    split
    · rfl
    · rw [(State.event_rel _ _ _).frame .secu (by decide)]
  · unfold State.secEnd
    dsimp only
    split
    · rfl
    · show (State.event _ _ _).i3c.irqStatus ||| _ = _
      rw [((State.event_rel _ _ _).frame .irq (by decide)).1]
      rfl

theorem Mem.foldl_write (p : Nat) : ∀ (l : List Byte) (k : Nat) (m : Mem), p + k + l.length ≤ 65536 →
    ((List.range' k l.length).zip l).foldl (fun (m : Mem) (x : Nat × Byte) => m.write ((p + x.1) % 65536) x.2) m = m.writeN (p + k) l
  | [], _, _, _ => rfl
  | b :: l, k, m, h => by
    simp only [List.length_cons] at h
    rw [List.length_cons, List.range'_succ, List.zip_cons_cons, List.foldl_cons, Mem.foldl_write p l (k + 1) _ (by omega), Nat.mod_eq_of_lt (by show p + k < 65536; omega)]
    rfl

/-- A record keeps a flush request. -/
theorem State.record_flushDue (s : State) (port : EvPort) (code source : Nat) (cls : FaultClass) (data : Nat) (h : s.jnl.flushDue = true) :
    (s.record port code source cls data).jnl.flushDue = true := by
  have hap : ∀ (u : State) n e, u.jnl.flushDue = true → (u.append n e).jnl.flushDue = true := by
    intro u n e hu
    show (u.jnl.flushDue || e.cls == .uc || e.cls == .ft) = true
    simp [hu]
  have hpass : ∀ (u : State) p e, u.jnl.flushDue = true → (u.passRecord p e).jnl.flushDue = true := by
    intro u p e hu
    unfold State.passRecord
    dsimp only
    split
    · split
      · exact hu
      · exact hap _ _ _ hu
    · exact hap _ _ _ hu
  unfold State.record
  dsimp only
  split
  · exact hpass _ _ _ h
  · split
    · split
      · exact hpass _ _ _ h
      · exact h
    · exact hpass _ _ _ h

/-! ### Commands and their answers -/

theorem Accepted.run {s : State} {code : Nat} {c : CmdGo} (h : Accepted s code c) (hp : s.powered = true) :
    s.mailbox code c = ({ s.withMail c with cmd := { (s.withMail c).cmd with aliveLast := c.alive.toNat } } : State).runCommand code (mailArg c) c.alive.toNat := by
  rw [s.mailbox_eq code c hp h.code]
  unfold State.cmdStart
  dsimp only
  have hb : (s.withMail c).cmd.busy = false := h.idle
  have ha : (s.withMail c).cmd.aliveLast = s.cmd.aliveLast := rfl
  rw [if_neg (by simp [hb]), if_neg (by simp [h.crc]), if_neg (by simp [ha, ← h.alive]), if_neg (by simp [h.format]), if_neg (by simp [h.args]), h.code]
  rfl

theorem island_eq {s : State} (hp : s.powered = true) (f : State → State) : s.island f = .next (f s) := by simp [State.island, hp]

theorem main_eq {s : State} (hp : s.powered = true) (hm : s.pwr.mainOn = true) (f : State → State) : s.inMainDomain f = .next (f s) := by
  simp [State.inMainDomain, hp, hm]

theorem goes_of_eq {a : Answer} {t : State} {p : State → Prop} (h : a = .next t) (hp : p t) : Goes a p := ⟨t, h, hp⟩

theorem firstCode_cons_false (c : Nat) (l : List (Bool × Nat)) : firstCode ((false, c) :: l) = firstCode l := by simp [firstCode]

theorem firstCode_zero {l : List (Bool × Nat)} (h : firstCode l = 0) {b : Bool} {c : Nat} (hm : (b, c) ∈ l) (hc : ∀ x ∈ l, x.2 ≠ 0) : b = false := by
  cases b with
  | false => rfl
  | true =>
    unfold firstCode at h
    cases hf : l.find? (·.1) with
    | none => simp only [List.find?_eq_none] at hf; exact absurd (hf _ hm) (by simp)
    | some x =>
      rw [hf] at h
      exact absurd h (hc x (List.mem_of_find?_eq_some hf))

theorem keyCode_target {s : State} {b : List Byte} (h : s.keyCode b = 0) : u8 b 5 < 4 := by
  unfold State.keyCode at h
  dsimp only at h
  have := firstCode_zero h (List.mem_cons_of_mem _ List.mem_cons_self) (by simp)
  simp only [Bool.or_eq_false_iff, decide_eq_false_iff_not] at this
  omega

/-- A read of one register that no slice holds: what the word's read leaves, and the answer. -/
theorem State.readReg_island (s : State) (a : Nat) (ha : a % 4 = 0) (hc : regCore a = none) (hh : s.i3c.hdr = false)
    (hd : s.pwr.mainOn = true ∨ regDom a = some .island) (h2 : a ≠ 0x0A0020) :
    s.readReg a =
      (let x : State := { s with i3c := { s.i3c with readAddr := a } }
       ({ x.readSide a with i3c := { (x.readSide a).i3c with readAddr := (a + 4) % 2 ^ 24 } } : State).busAnswer true (leBytes 4 (x.regWord a))) := by
  rw [s.readReg_eq a ha hc hh]
  dsimp only
  rcases hd with hd | hd
  · rw [State.readWord_on _ (by exact hd) h2]
  · rw [State.readWord_island _ hd h2]

theorem mapFrom_getElem? {α β : Type} (f : Nat → α → β) : ∀ (k : Nat) (l : List α) (i : Nat), (mapFrom f k l)[i]? = (l[i]?).map (f (k + i))
  | _, [], _ => by simp [mapFrom]
  | k, a :: l, 0 => by simp [mapFrom]
  | k, a :: l, i + 1 => by
    simp only [mapFrom, List.getElem?_cons_succ, mapFrom_getElem? f (k + 1) l i]
    congr 2
    omega

theorem vget_vmapIdx {α β : Type} {n i : Nat} (f : Nat → α → β) (v : Vector α n) (d : β) (e : α) (h : i < n) :
    vget (vmapIdx f v) i d = f i (vget v i e) := by
  have hl : i < v.toList.length := by simpa using h
  have h1 : (vmapIdx f v).toList = mapFrom f 0 v.toList := rfl
  have hv : ∀ {γ : Type} (w : Vector γ n) (x : γ), vget w i x = (w.toList[i]?).getD x := by
    intro γ w x
    simp [vget]
  rw [hv, hv, h1, mapFrom_getElem?, List.getElem?_eq_getElem hl]
  simp

theorem vget_vmap {α β : Type} {n i : Nat} (f : α → β) (v : Vector α n) (d : β) (e : α) (h : i < n) :
    vget (vmap f v) i d = f (vget v i e) := by
  have hl : i < v.toList.length := by simpa using h
  have h1 : (vmap f v).toList = v.toList.map f := by simp [vmap]
  have hv : ∀ {γ : Type} (w : Vector γ n) (x : γ), vget w i x = (w.toList[i]?).getD x := by
    intro γ w x
    simp [vget]
  rw [hv, hv, h1, List.getElem?_map, List.getElem?_eq_getElem hl]
  simp

end Sys2Proof.Machine
end

