-- ==== Sys2Proof/Laws/Commands.lean ====
section
/-!
SUPPORT. What every command can do, said once: it answers, keeps the queue and the invariant, and moves the watch only if it is one of
six; and the table of the watch.
-/
namespace Sys2Proof.Machine

set_option Elab.async false

/-- The commands that may reset the watch or move it (R15, R289, R398, R400, R453). -/
def movesWatch : Instr → Bool
  | .beat _ | .powerOn _ | .aonSupplyCollapse | .wake _ | .lrstPressAccepted _ | .lcApply _ => true
  | _ => false

/-- What every command keeps. -/
structure CmdOk (c : Instr) (s t : State) : Prop where
  pending : t.pending = s.pending
  inv : s.Inv → t.Inv
  wstate : movesWatch c = false → t.watch.wstate = s.watch.wstate

theorem cmdRel {c : Instr} {s : State} {ps : List Piece} (h : Goes (exec c s) (Rel ps s)) (hp : Piece.pending ∉ ps) (hw : movesWatch c = true ∨ Piece.wstate ∉ ps) :
    Goes (exec c s) (CmdOk c s) :=
  h.mono fun _ r => ⟨r.frame .pending hp, r.inv, fun e => r.frame .wstate (hw.resolve_left (by simp [e]))⟩

theorem exec_ok (c : Instr) (s : State) : Goes (exec c s) (CmdOk c s) := by
  cases c with
  | beat i => exact cmdRel (ps := [.beat, .selftestFail, .fc, .wd, .evr, .watch, .si, .tp, .lrst, .enc, .so, .cmd, .ldr, .pwr, .therm, .time, .tel, .sched, .cores, .engs, .noc, .gddr, .gddrMem, .poison, .ctrl, .alt, .golden, .cmp, .grid, .flr, .ev, .io, .jnl, .st, .lc, .secu, .lk, .freeCtr, .wstate, .collected, .irq, .log]) (by show Goes (s.island fun s => if s.clocked then s.beatStep i else s) (Rel [.beat, .selftestFail, .fc, .wd, .evr, .watch, .si, .tp, .lrst, .enc, .so, .cmd, .ldr, .pwr, .therm, .time, .tel, .sched, .cores, .engs, .noc, .gddr, .gddrMem, .poison, .ctrl, .alt, .golden, .cmp, .grid, .flr, .ev, .io, .jnl, .st, .lc, .secu, .lk, .freeCtr, .wstate, .collected, .irq, .log] s); exact island_rel (.ite (fun _ => State.beatStep_rel ..) fun _ => .refl _)) (by decide) (.inl rfl)
  | ss1MaxTime => exact cmdRel (ps := [.fc, .evr, .so, .freeCtr, .collected, .irq, .log]) (by show Goes (s.island fun s => s.ss1MaxTimeDue) (Rel [.fc, .evr, .so, .freeCtr, .collected, .irq, .log] s); exact island_rel (State.ss1MaxTimeDue_rel ..)) (by decide) (.inr (by decide))
  | encCrosscheckFault => exact cmdRel (ps := [.fc, .evr, .enc, .so, .freeCtr, .collected, .irq, .log]) (by show Goes (s.island fun s => s.crossCheckFault) (Rel [.fc, .evr, .enc, .so, .freeCtr, .collected, .irq, .log] s); exact island_rel (State.crossCheckFault_rel ..)) (by decide) (.inr (by decide))
  | cellRulePersist => exact cmdRel (ps := [.ev]) (by show Goes (s.inMainDomain fun s => s.cellRulePersist) (Rel [.ev] s); exact main_rel (State.cellRulePersist_rel ..)) (by decide) (.inr (by decide))
  | bandDown => exact cmdRel (ps := [.ev]) (by show Goes (s.inMainDomain fun s => s.bandDown) (Rel [.ev] s); exact main_rel (State.bandDown_rel ..)) (by decide) (.inr (by decide))
  | floorOccupancyConfirmed => exact cmdRel (ps := [.ev, .collected]) (by show Goes (s.island fun s => s.floorOccupancy) (Rel [.ev, .collected] s); exact island_rel (State.floorOccupancy_rel ..)) (by decide) (.inr (by decide))
  | frameTick estimatedUj => exact cmdRel (ps := [.fc, .evr, .watch, .enc, .so, .pwr, .tel, .sched, .engs, .alt, .golden, .grid, .flr, .ev, .io, .st, .lk, .freeCtr, .collected, .irq, .log]) (by show Goes (s.island fun s => s.frameTick estimatedUj) (Rel [.fc, .evr, .watch, .enc, .so, .pwr, .tel, .sched, .engs, .alt, .golden, .grid, .flr, .ev, .io, .st, .lk, .freeCtr, .collected, .irq, .log] s); exact island_rel (State.frameTick_rel ..)) (by decide) (.inr (by decide))
  | sweepComplete => exact cmdRel (ps := [.grid]) (by show Goes (s.inMainDomain fun s => s.sweepComplete) (Rel [.grid] s); exact main_rel (State.sweepComplete_rel ..)) (by decide) (.inr (by decide))
  | masksReady => exact cmdRel (ps := [.ev]) (by show Goes (s.inMainDomain fun s => s.masksReady) (Rel [.ev] s); exact main_rel (State.masksReady_rel ..)) (by decide) (.inr (by decide))
  | armFramesReached => exact cmdRel (ps := [.collected]) (by show Goes (s.island fun s => s.armFramesReached) (Rel [.collected] s); exact island_rel (State.armFramesReached_rel ..)) (by decide) (.inr (by decide))
  | retrust => exact cmdRel (ps := [.collected]) (by show Goes (s.island fun s => s.retrust) (Rel [.collected] s); exact island_rel (State.retrust_rel ..)) (by decide) (.inr (by decide))
  | armTimeout => exact cmdRel (ps := [.collected]) (by show Goes (s.island fun s => s.armTimeoutDue) (Rel [.collected] s); exact island_rel (State.armTimeoutDue_rel ..)) (by decide) (.inr (by decide))
  | retrustBlock => exact cmdRel (ps := [.watch]) (by show Goes (s.island fun s => s.retrustBlock) (Rel [.watch] s); exact island_rel (State.retrustBlock_rel ..)) (by decide) (.inr (by decide))
  | microopsCancelled graph => exact cmdRel (ps := [.sched, .cores, .engs]) (by show Goes (s.inMainDomain fun s => s.microopsCancelled graph.val) (Rel [.sched, .cores, .engs] s); exact main_rel (State.microopsCancelled_rel ..)) (by decide) (.inr (by decide))
  | constantCopyDone graph copy index => exact cmdRel (ps := [.cores, .engs, .alt]) (by show Goes (s.inMainDomain fun s => s.constantCopyDone graph.val copy.val index.val) (Rel [.cores, .engs, .alt] s); exact main_rel (State.constantCopyDone_rel ..)) (by decide) (.inr (by decide))
  | coverageExpiry k => exact cmdRel (ps := [.fc, .evr, .so, .st, .freeCtr, .collected, .irq, .log]) (by show Goes (s.inMainDomain fun s => s.coverageExpiry k) (Rel [.fc, .evr, .so, .st, .freeCtr, .collected, .irq, .log] s); exact main_rel (State.coverageExpiry_rel ..)) (by decide) (.inr (by decide))
  | telegramSend late => exact cmdRel (ps := [.tel]) (by show Goes (s.inMainDomain fun s => s.telSend late) (Rel [.tel] s); exact main_rel (State.telSend_rel ..)) (by decide) (.inr (by decide))
  | telegramGapEnd => exact cmdRel (ps := [.tel]) (by show Goes (s.inMainDomain fun s => s.telGapEndDue) (Rel [.tel] s); exact main_rel (State.telGapEndDue_rel ..)) (by decide) (.inr (by decide))
  | fsyncAssert n => exact cmdRel (ps := [.sched]) (by show Goes (s.island fun s => s.fsyncAssert n.val) (Rel [.sched] s); exact island_rel (State.fsyncAssert_rel ..)) (by decide) (.inr (by decide))
  | fsyncRelease n => exact cmdRel (ps := [.sched]) (by show Goes (s.island fun s => s.fsyncRelease n.val) (Rel [.sched] s); exact island_rel (State.fsyncRelease_rel ..)) (by decide) (.inr (by decide))
  | goldenFail core => exact cmdRel (ps := [.fc, .evr, .watch, .so, .sched, .cores, .engs, .alt, .golden, .freeCtr, .collected, .irq, .log]) (by show Goes (s.inMainDomain fun s => s.goldenFail core.val) (Rel [.fc, .evr, .watch, .so, .sched, .cores, .engs, .alt, .golden, .freeCtr, .collected, .irq, .log] s); exact main_rel (State.goldenFail_rel ..)) (by decide) (.inr (by decide))
  | arm c => exact cmdRel (ps := [.cmd, .collected]) (by show Goes (s.island fun s => s.mailbox 1 c) (Rel [.cmd, .collected] s); exact island_rel (State.mailbox_rel_of (fun t w a => .comp (.refl _) (State.run1_rel t w a) .auto) .auto s _)) (by decide) (.inr (by decide))
  | stop c => exact cmdRel (ps := [.cmd, .collected]) (by show Goes (s.island fun s => s.mailbox 2 c) (Rel [.cmd, .collected] s); exact island_rel (State.mailbox_rel_of (fun t w a => .comp (.refl _) (State.run2_rel t w a) .auto) .auto s _)) (by decide) (.inr (by decide))
  | resume c => exact cmdRel (ps := [.cmd, .collected]) (by show Goes (s.island fun s => s.mailbox 3 c) (Rel [.cmd, .collected] s); exact island_rel (State.mailbox_rel_of (fun t w a => .comp (.refl _) (State.run3_rel t w a) .auto) .auto s _)) (by decide) (.inr (by decide))
  | profileSelect c => exact cmdRel (ps := [.cmd, .ldr]) (by show Goes (s.island fun s => s.mailbox 4 c) (Rel [.cmd, .ldr] s); exact island_rel (State.mailbox_rel_of (fun t w a => .comp (.refl _) (State.run4_rel t w a) .auto) .auto s _)) (by decide) (.inr (by decide))
  | profileSet c => exact cmdRel (ps := [.cmd, .ldr]) (by show Goes (s.island fun s => s.mailbox 5 c) (Rel [.cmd, .ldr] s); exact island_rel (State.mailbox_rel_of (fun t w a => .comp (.refl _) (State.run5_rel t w a) .auto) .auto s _)) (by decide) (.inr (by decide))
  | intent c => exact cmdRel (ps := [.watch, .cmd]) (by show Goes (s.island fun s => s.mailbox 6 c) (Rel [.watch, .cmd] s); exact island_rel (State.mailbox_rel_of (fun t w a => .comp (.refl _) (State.run6_rel t w a) .auto) .auto s _)) (by decide) (.inr (by decide))
  | serviceEnter c => exact cmdRel (ps := [.cmd, .ldr]) (by show Goes (s.island fun s => s.mailbox 7 c) (Rel [.cmd, .ldr] s); exact island_rel (State.mailbox_rel_of (fun t w a => .comp (.refl _) (State.run7_rel t w a) .auto) .auto s _)) (by decide) (.inr (by decide))
  | serviceExit c => exact cmdRel (ps := [.wd, .evr, .enc, .cmd, .ldr, .sched, .cores, .engs, .golden, .grid, .flr, .ev, .st, .log]) (by show Goes (s.island fun s => s.mailbox 8 c) (Rel [.wd, .evr, .enc, .cmd, .ldr, .sched, .cores, .engs, .golden, .grid, .flr, .ev, .st, .log] s); exact island_rel (State.mailbox_rel_of (fun t w a => .comp (.refl _) (State.run8_rel t w a) .auto) .auto s _)) (by decide) (.inr (by decide))
  | clearFirstArea c => exact cmdRel (ps := [.evr, .cmd, .jnl, .log]) (by show Goes (s.island fun s => s.mailbox 9 c) (Rel [.evr, .cmd, .jnl, .log] s); exact island_rel (State.mailbox_rel_of (fun t w a => .comp (.refl _) (State.run9_rel t w a) .auto) .auto s _)) (by decide) (.inr (by decide))
  | lcTransition c => exact cmdRel (ps := [.evr, .cmd, .secu, .log]) (by show Goes (s.island fun s => s.mailbox 10 c) (Rel [.evr, .cmd, .secu, .log] s); exact island_rel (State.mailbox_rel_of (fun t w a => .comp (.refl _) (State.run10_rel t w a) .auto) .auto s _)) (by decide) (.inr (by decide))
  | lcApply fatal => exact cmdRel (ps := [.beat, .powered, .xtalOk, .selftestFail, .fc, .wd, .evr, .watch, .si, .tp, .lrst, .enc, .so, .i3c, .cmd, .ldr, .pwr, .therm, .time, .tel, .sched, .cores, .engs, .noc, .gddr, .gddrMem, .poison, .ctrl, .alt, .golden, .cmp, .grid, .flr, .floorPair, .ev, .io, .jnl, .st, .lc, .secu, .lk, .freeCtr, .wstate, .collected, .irq, .log]) (by show Goes (s.island fun s => s.lcApply (fatal.map fun x => (x.1.val, x.2.toNat))) (Rel [.beat, .powered, .xtalOk, .selftestFail, .fc, .wd, .evr, .watch, .si, .tp, .lrst, .enc, .so, .i3c, .cmd, .ldr, .pwr, .therm, .time, .tel, .sched, .cores, .engs, .noc, .gddr, .gddrMem, .poison, .ctrl, .alt, .golden, .cmp, .grid, .flr, .floorPair, .ev, .io, .jnl, .st, .lc, .secu, .lk, .freeCtr, .wstate, .collected, .irq, .log] s); exact island_rel (State.lcApply_rel ..)) (by decide) (.inl rfl)
  | ldrOpen => exact cmdRel (ps := [.evr, .ldr, .io, .log]) (by show Goes (s.island fun s => s.regWrite ldrCtrlAddr 1) (Rel [.evr, .ldr, .io, .log] s); exact island_rel (by rw [State.regWrite_ldrOpen]; exact .ite (fun _ => .comp (.refl _) (State.ldrOpen_rel ..) .auto) fun _ => .comp (.refl _) (State.ignoredWrite_rel ..) .auto)) (by decide) (.inr (by decide))
  | ldrWdataWrite bs => exact cmdRel (ps := [.evr, .ldr, .secu, .log]) (by show Goes (s.island fun s => s.streamWrite ldrWdataAddr bs) (Rel [.evr, .ldr, .secu, .log] s); exact island_rel (State.streamWrite_rel ..)) (by decide) (.inr (by decide))
  | ldrClose => exact cmdRel (ps := [.evr, .ldr, .log]) (by show Goes (s.island fun s => s.regWrite ldrCtrlAddr 2) (Rel [.evr, .ldr, .log] s); exact island_rel (by rw [State.regWrite_ldrClose]; exact .ite (fun _ => .comp (.refl _) (State.ldrClose_rel ..) .auto) fun _ => .comp (.refl _) (State.ignoredWrite_rel ..) .auto)) (by decide) (.inr (by decide))
  | stagedImageVerified readBackOk => exact cmdRel (ps := [.evr, .ldr, .irq, .log]) (by show Goes (s.inMainDomain fun s => s.stagedVerified readBackOk) (Rel [.evr, .ldr, .irq, .log] s); exact main_rel (State.stagedVerified_rel ..)) (by decide) (.inr (by decide))
  | ldrAbort => exact cmdRel (ps := [.evr, .ldr, .log]) (by show Goes (s.island fun s => s.regWrite ldrCtrlAddr 4) (Rel [.evr, .ldr, .log] s); exact island_rel (by rw [State.regWrite_ldrAbort]; exact .ite (fun _ => .comp (.refl _) (State.ldrAbort_rel ..) .auto) fun _ => .comp (.refl _) (State.ignoredWrite_rel ..) .auto)) (by decide) (.inr (by decide))
  | ldrActivate slotB => exact cmdRel (ps := [.evr, .ldr, .log]) (by show Goes (s.island fun s => s.regWrite ldrCtrlAddr (8 + 256 * b2n slotB)) (Rel [.evr, .ldr, .log] s); exact island_rel (by rw [State.regWrite_ldrActivate]; exact .ite (fun _ => .comp (.refl _) (State.ldrActivate_rel ..) .auto) fun _ => .comp (.refl _) (State.ignoredWrite_rel ..) .auto)) (by decide) (.inr (by decide))
  | ldrCommit => exact cmdRel (ps := [.evr, .ldr, .log]) (by show Goes (s.island fun s => s.regWrite ldrCtrlAddr 16) (Rel [.evr, .ldr, .log] s); exact island_rel (by rw [State.regWrite_ldrCommit]; exact .ite (fun _ => .comp (.refl _) (State.ldrCommit_rel ..) .auto) fun _ => .comp (.refl _) (State.ignoredWrite_rel ..) .auto)) (by decide) (.inr (by decide))
  | bulkChunk port vc bs => exact cmdRel (ps := [.evr, .ldr, .io, .log]) (by show Goes (s.inMainDomain fun s => s.bulkChunk port.val vc bs) (Rel [.evr, .ldr, .io, .log] s); exact main_rel (State.bulkChunk_rel ..)) (by decide) (.inr (by decide))
  | imageLoad l => exact cmdRel (ps := [.wd, .evr, .enc, .ldr, .pwr, .time, .tel, .sched, .cores, .engs, .gddrMem, .poison, .ctrl, .alt, .io, .jnl, .st, .lk, .irq, .log]) (by show Goes (s.inMainDomain fun s => s.imageLoad l) (Rel [.wd, .evr, .enc, .ldr, .pwr, .time, .tel, .sched, .cores, .engs, .gddrMem, .poison, .ctrl, .alt, .io, .jnl, .st, .lk, .irq, .log] s); exact main_rel (State.imageLoad_rel ..)) (by decide) (.inr (by decide))
  | idGenerate trngOk readBackOk => exact cmdRel (ps := [.evr, .lc, .secu, .log]) (by show Goes (s.island fun s => s.mainReg secCtrlAddr fun t => t.idGenerate trngOk readBackOk) (Rel [.evr, .lc, .secu, .log] s); exact island_rel (.mainReg .auto (.refl _) fun t => .comp (.refl _) (State.idGenerate_rel t _ _) .auto)) (by decide) (.inr (by decide))
  | certProgram => exact cmdRel (ps := [.evr, .lc, .secu, .log]) (by show Goes (s.island fun s => s.regWrite secCtrlAddr 2) (Rel [.evr, .lc, .secu, .log] s); exact island_rel (by rw [State.regWrite_certProgram]; exact .ite (fun _ => .comp (.refl _) (State.certProgram_rel ..) .auto) fun _ => .comp (.refl _) (State.ignoredWrite_rel ..) .auto)) (by decide) (.inr (by decide))
  | certRead => exact cmdRel (ps := [.evr, .secu, .log]) (by show Goes (s.island fun s => s.regWrite secCtrlAddr 3) (Rel [.evr, .secu, .log] s); exact island_rel (by rw [State.regWrite_certRead]; exact .ite (fun _ => .comp (.refl _) (State.certRead_rel ..) .auto) fun _ => .comp (.refl _) (State.ignoredWrite_rel ..) .auto)) (by decide) (.inr (by decide))
  | keyOp => exact cmdRel (ps := [.evr, .lc, .secu, .log]) (by show Goes (s.island fun s => s.regWrite secCtrlAddr 4) (Rel [.evr, .lc, .secu, .log] s); exact island_rel (by rw [State.regWrite_keyOp]; exact .ite (fun _ => .comp (.refl _) (State.keyOp_rel ..) .auto) fun _ => .comp (.refl _) (State.ignoredWrite_rel ..) .auto)) (by decide) (.inr (by decide))
  | attest store => exact cmdRel (ps := [.evr, .secu, .log]) (by show Goes (s.island fun s => s.regWrite secCtrlAddr (5 + 256 * b2n store)) (Rel [.evr, .secu, .log] s); exact island_rel (by rw [State.regWrite_attest]; exact .ite (fun _ => .comp (.refl _) (State.attest_rel ..) .auto) fun _ => .comp (.refl _) (State.ignoredWrite_rel ..) .auto)) (by decide) (.inr (by decide))
  | attestReportSigned => exact cmdRel (ps := [.evr, .jnl, .secu, .irq, .log]) (by show Goes (s.inMainDomain fun s => s.reportSigned) (Rel [.evr, .jnl, .secu, .irq, .log] s); exact main_rel (State.reportSigned_rel ..)) (by decide) (.inr (by decide))
  | bufClear => exact cmdRel (ps := [.evr, .secu, .log]) (by show Goes (s.island fun s => s.regWrite secCtrlAddr 6) (Rel [.evr, .secu, .log] s); exact island_rel (by rw [State.regWrite_bufClear]; exact .ite (fun _ => .comp (.refl _) (State.bufClear_rel ..) .auto) fun _ => .comp (.refl _) (State.ignoredWrite_rel ..) .auto)) (by decide) (.inr (by decide))
  | secBufDataWrite bs => exact cmdRel (ps := [.evr, .ldr, .secu, .log]) (by show Goes (s.island fun s => s.streamWrite secBufAddr bs) (Rel [.evr, .ldr, .secu, .log] s); exact island_rel (State.streamWrite_rel ..)) (by decide) (.inr (by decide))
  | secBufDataRead => exact cmdRel (ps := [.evr, .i3c, .secu, .freeCtr, .log]) (by show Goes (s.island fun s => s.readReg secBufAddr) (Rel [.evr, .i3c, .secu, .freeCtr, .log] s); exact island_rel (State.readReg_rel_of (by decide) (by decide) (fun t => .comp (.refl _) (State.readWord_secBuf t) .auto) .auto s)) (by decide) (.inr (by decide))
  | watchVerdictRead => exact cmdRel (ps := [.watch, .i3c]) (by show Goes (s.island fun s => s.readReg 0x010004) (Rel [.watch, .i3c] s); exact island_rel (State.readReg_rel_of (by decide) (by decide) (fun t => .comp (.refl _) (State.readWord_watch t) .auto) .auto s)) (by decide) (.inr (by decide))
  | glbBeatLoRead => exact cmdRel (ps := [.i3c]) (by show Goes (s.island fun s => s.readReg 0x000024) (Rel [.i3c] s); exact island_rel (State.readReg_rel_of (by decide) (by decide) (fun t => .comp (.refl _) (State.readWord_beatLo t) .auto) .auto s)) (by decide) (.inr (by decide))
  | timeNowLoRead => exact cmdRel (ps := [.i3c, .time]) (by show Goes (s.island fun s => s.readReg 0x0D0008) (Rel [.i3c, .time] s); exact island_rel (State.readReg_rel_of (by decide) (by decide) (fun t => .comp (.refl _) (State.readWord_timeLo t) .auto) .auto s)) (by decide) (.inr (by decide))
  | gridCellData3Read => exact cmdRel (ps := [.evr, .i3c, .grid, .freeCtr, .log]) (by show Goes (s.island fun s => s.readReg 0x020034) (Rel [.evr, .i3c, .grid, .freeCtr, .log] s); exact island_rel (State.readReg_rel_of (by decide) (by decide) (fun t => .comp (.refl _) (State.readWord_gridData3 t) .auto) .auto s)) (by decide) (.inr (by decide))
  | recWin0Read => exact cmdRel (ps := [.evr, .i3c]) (by show Goes (s.island fun s => s.readReg 0x0A0020) (Rel [.evr, .i3c] s); exact island_rel (State.readReg_rel_of (by decide) (by decide) (fun t => .comp (.refl _) (State.readWord_recWin0 t) .auto) .auto s)) (by decide) (.inr (by decide))
  | recWin7Read => exact cmdRel (ps := [.evr, .i3c]) (by show Goes (s.island fun s => s.readReg 0x0A003C) (Rel [.evr, .i3c] s); exact island_rel (State.readReg_rel_of (by decide) (by decide) (fun t => .comp (.refl _) (State.readWord_recWin7 t) .auto) .auto s)) (by decide) (.inr (by decide))
  | rcFieldRead addr => exact cmdRel (ps := [.fc, .wd, .evr, .watch, .si, .lrst, .enc, .so, .i3c, .cmd, .ldr, .pwr, .time, .tel, .sched, .cores, .engs, .noc, .gddr, .ctrl, .golden, .cmp, .grid, .flr, .floorPair, .ev, .io, .jnl, .st, .lc, .secu, .lk, .freeCtr, .collected, .irq, .log]) (by show Goes (s.island fun s => s.readReg addr.toNat) (Rel [.fc, .wd, .evr, .watch, .si, .lrst, .enc, .so, .i3c, .cmd, .ldr, .pwr, .time, .tel, .sched, .cores, .engs, .noc, .gddr, .ctrl, .golden, .cmp, .grid, .flr, .floorPair, .ev, .io, .jnl, .st, .lc, .secu, .lk, .freeCtr, .collected, .irq, .log] s); exact island_rel (State.readReg_rel ..)) (by decide) (.inr (by decide))
  | fcFfClear => exact cmdRel (ps := [.fc, .evr, .log]) (by show Goes (s.island fun s => s.regWrite 0x080014 1) (Rel [.fc, .evr, .log] s); exact island_rel (by rw [State.regWrite_ffClear]; exact State.ffClear_rel ..)) (by decide) (.inr (by decide))
  | wdTaskKick task own => exact cmdRel (ps := [.fc, .wd, .evr, .so, .pwr, .freeCtr, .collected, .irq, .log]) (by show Goes (s.island fun s => s.taskKick task.val own) (Rel [.fc, .wd, .evr, .so, .pwr, .freeCtr, .collected, .irq, .log] s); exact island_rel (State.taskKick_rel ..)) (by decide) (.inr (by decide))
  | wdSvcKick own => exact cmdRel (ps := [.fc, .wd, .evr, .so, .freeCtr, .collected, .irq, .log]) (by show Goes (s.inMainDomain fun s => s.svcKick own) (Rel [.fc, .wd, .evr, .so, .freeCtr, .collected, .irq, .log] s); exact main_rel (State.svcKick_rel ..)) (by decide) (.inr (by decide))
  | standbyReq => exact cmdRel (ps := [.evr, .ldr, .pwr, .sched, .log]) (by show Goes (s.island fun s => s.regWrite 0x0C0004 1) (Rel [.evr, .ldr, .pwr, .sched, .log] s); exact island_rel (by rw [State.regWrite_standbyReq]; exact State.standbyReq_rel ..)) (by decide) (.inr (by decide))
  | wake t => exact cmdRel (ps := [.beat, .selftestFail, .fc, .wd, .evr, .watch, .enc, .so, .i3c, .ldr, .pwr, .time, .sched, .cores, .engs, .gddr, .ctrl, .alt, .golden, .grid, .flr, .ev, .io, .jnl, .st, .lc, .secu, .freeCtr, .wstate, .collected, .irq, .log]) (by show Goes (s.island fun s => s.wakeSteps t) (Rel [.beat, .selftestFail, .fc, .wd, .evr, .watch, .enc, .so, .i3c, .ldr, .pwr, .time, .sched, .cores, .engs, .gddr, .ctrl, .alt, .golden, .grid, .flr, .ev, .io, .jnl, .st, .lc, .secu, .freeCtr, .wstate, .collected, .irq, .log] s); exact island_rel (State.wakeSteps_rel ..)) (by decide) (.inl rfl)
  | accOn k => exact cmdRel (ps := [.evr, .pwr, .log]) (by show Goes (s.island fun s => s.regWrite 0x0C0014 (16 ^ k.val)) (Rel [.evr, .pwr, .log] s); exact island_rel (by rw [State.regWrite_accOn]; exact State.accOnReq_rel ..)) (by decide) (.inr (by decide))
  | accOff k => exact cmdRel (ps := [.evr, .pwr, .log]) (by show Goes (s.island fun s => s.regWrite 0x0C0014 (2 * 16 ^ k.val)) (Rel [.evr, .pwr, .log] s); exact island_rel (by rw [State.regWrite_accOff]; exact State.accOffReq_rel ..)) (by decide) (.inr (by decide))
  | accCycle k => exact cmdRel (ps := [.evr, .pwr, .log]) (by show Goes (s.island fun s => s.regWrite 0x0C0014 (3 * 16 ^ k.val)) (Rel [.evr, .pwr, .log] s); exact island_rel (by rw [State.regWrite_accCycle]; exact State.accCycleReq_rel ..)) (by decide) (.inr (by decide))
  | timeStep => exact cmdRel (ps := [.evr, .time, .log]) (by show Goes (s.island fun s => s.regWrite 0x0D0004 1) (Rel [.evr, .time, .log] s); exact island_rel (by rw [State.regWrite_timeStep]; exact .ite (fun _ => .comp (.refl _) (State.timeStepWrite_rel ..) .auto) fun _ => .comp (.refl _) (State.ignoredWrite_rel ..) .auto)) (by decide) (.inr (by decide))
  | jnlRdPage => exact cmdRel (ps := [.fc, .evr, .so, .jnl, .freeCtr, .collected, .irq, .log]) (by show Goes (s.island fun s => s.regWrite 0x0B0034 4) (Rel [.fc, .evr, .so, .jnl, .freeCtr, .collected, .irq, .log] s); exact island_rel (by rw [State.regWrite_jnlRdPage]; exact .ite (fun _ => .comp (.refl _) (State.rdPage_rel ..) .auto) fun _ => .comp (.refl _) (State.ignoredWrite_rel ..) .auto)) (by decide) (.inr (by decide))
  | jnlFlushCmd => exact cmdRel (ps := [.evr, .log]) (by show Goes (s.island fun s => s.regWrite 0x0B0034 2) (Rel [.evr, .log] s); exact island_rel (by rw [State.regWrite_jnlFlush]; exact .ite (fun _ => .comp (.refl _) (State.flushCmd_rel ..) .auto) fun _ => .comp (.refl _) (State.ignoredWrite_rel ..) .auto)) (by decide) (.inr (by decide))
  | jnlFormat => exact cmdRel (ps := [.evr, .ldr, .jnl, .log]) (by show Goes (s.island fun s => s.regWrite 0x0B0034 1) (Rel [.evr, .ldr, .jnl, .log] s); exact island_rel (by rw [State.regWrite_jnlFormat]; exact .ite (fun _ => .comp (.refl _) (State.format_rel ..) .auto) fun _ => .comp (.refl _) (State.ignoredWrite_rel ..) .auto)) (by decide) (.inr (by decide))
  | cvuFeed unit bs runtime lanesAgree => exact cmdRel (ps := [.fc, .evr, .so, .io, .freeCtr, .collected, .irq, .log]) (by show Goes (s.island fun s => if runtime then (if s.pwr.mainOn then s.cvuFeed unit.val bs true lanesAgree else s) else s.mainReg (cvuAddr unit.val (feedOff bs.length)) fun t => t.cvuFeed unit.val bs false lanesAgree) (Rel [.fc, .evr, .so, .io, .freeCtr, .collected, .irq, .log] s); exact island_rel (.ite (fun _ => .ite (fun _ => State.cvuFeed_rel ..) fun _ => .refl _) fun _ => .mainReg .auto (.refl _) fun t => State.cvuFeed_rel t _ _ _ _)) (by decide) (.inr (by decide))
  | cvuAliveCheck unit value runtime => exact cmdRel (ps := [.evr, .io, .log]) (by show Goes (s.island fun s => if runtime then (if s.pwr.mainOn then s.cvuAlive unit.val value.toNat true else s) else s.regWrite (cvuAddr unit.val 0x24) value.toNat) (Rel [.evr, .io, .log] s); exact island_rel (.ite (fun _ => .ite (fun _ => .comp (.refl _) (State.cvuAlive_rel ..) .auto) fun _ => .refl _) fun _ => (State.regWrite_cvuAlive ..) ▸ .ite (fun _ => .ite (fun _ => .comp (.refl _) (State.ignoredWrite_rel ..) .auto) fun _ => .comp (.refl _) (State.cvuAlive_rel ..) .auto) fun _ => .comp (.refl _) (State.ignoredWrite_rel ..) .auto)) (by decide) (.inr (by decide))
  | irqStatusClear mask => exact cmdRel (ps := [.irq]) (by show Goes (s.island fun s => s.irqClear mask) (Rel [.irq] s); exact island_rel (State.irqClear_rel ..)) (by decide) (.inr (by decide))
  | registerWrite bs parityError => exact cmdRel (ps := [.fc, .wd, .evr, .watch, .lrst, .enc, .so, .i3c, .cmd, .ldr, .pwr, .time, .sched, .cores, .engs, .noc, .golden, .grid, .flr, .ev, .io, .jnl, .st, .lc, .secu, .freeCtr, .collected, .irq, .log]) (by show Goes (s.island fun s => s.registerWrite bs parityError) (Rel [.fc, .wd, .evr, .watch, .lrst, .enc, .so, .i3c, .cmd, .ldr, .pwr, .time, .sched, .cores, .engs, .noc, .golden, .grid, .flr, .ev, .io, .jnl, .st, .lc, .secu, .freeCtr, .collected, .irq, .log] s); exact island_rel (State.registerWrite_rel ..)) (by decide) (.inr (by decide))
  | enec enint => exact cmdRel (ps := [.i3c, .irq]) (by show Goes (s.island fun s => s.cccSet fun x => if enint then x.setEnint true else x) (Rel [.i3c, .irq] s); exact island_rel (State.cccSet_rel ..)) (by decide) (.inr (by decide))
  | disec enint => exact cmdRel (ps := [.i3c, .irq]) (by show Goes (s.island fun s => s.cccSet fun x => if enint then x.setEnint false else x) (Rel [.i3c, .irq] s); exact island_rel (State.cccSet_rel ..)) (by decide) (.inr (by decide))
  | rstdaa => exact cmdRel (ps := [.i3c, .irq]) (by show Goes (s.island fun s => s.cccSet fun x => x.noAddress) (Rel [.i3c, .irq] s); exact island_rel (State.cccSet_rel ..)) (by decide) (.inr (by decide))
  | entdaa addr won => exact cmdRel (ps := [.i3c, .irq]) (by show Goes (s.island fun s => s.entdaa addr.toNat won) (Rel [.i3c, .irq] s); exact island_rel (State.entdaa_rel ..)) (by decide) (.inr (by decide))
  | setmwl n => exact cmdRel (ps := [.i3c, .irq]) (by show Goes (s.island fun s => s.cccSet fun x => x.setMwl n.toNat) (Rel [.i3c, .irq] s); exact island_rel (State.cccSet_rel ..)) (by decide) (.inr (by decide))
  | setmrl n ibi => exact cmdRel (ps := [.i3c, .irq]) (by show Goes (s.island fun s => s.cccSet fun x => x.setMrl n.toNat (ibi.map fun b => b.toNat)) (Rel [.i3c, .irq] s); exact island_rel (State.cccSet_rel ..)) (by decide) (.inr (by decide))
  | rstact db => exact cmdRel (ps := [.i3c]) (by show Goes (s.island fun s => s.rstact db.toNat) (Rel [.i3c] s); exact island_rel (State.rstact_rel ..)) (by decide) (.inr (by decide))
  | enthdr0 => exact cmdRel (ps := [.i3c, .irq]) (by show Goes (s.island fun s => s.cccSet fun x => { x with hdr := true }) (Rel [.i3c, .irq] s); exact island_rel (State.cccSet_rel ..)) (by decide) (.inr (by decide))
  | hdrDdrWrite code words crcOk => exact cmdRel (ps := [.fc, .wd, .evr, .watch, .lrst, .enc, .so, .i3c, .cmd, .ldr, .pwr, .time, .sched, .cores, .engs, .noc, .golden, .grid, .flr, .ev, .io, .jnl, .st, .lc, .secu, .freeCtr, .collected, .irq, .log]) (by show Goes (s.island fun s => s.hdrWrite code.toNat (words.map fun w => w.toNat) crcOk) (Rel [.fc, .wd, .evr, .watch, .lrst, .enc, .so, .i3c, .cmd, .ldr, .pwr, .time, .sched, .cores, .engs, .noc, .golden, .grid, .flr, .ev, .io, .jnl, .st, .lc, .secu, .freeCtr, .collected, .irq, .log] s); exact island_rel (State.hdrWrite_rel ..)) (by decide) (.inr (by decide))
  | hdrDdrRead code n => exact cmdRel (ps := [.fc, .wd, .evr, .watch, .si, .lrst, .i3c, .cmd, .pwr, .time, .tel, .sched, .cores, .engs, .noc, .gddr, .ctrl, .cmp, .grid, .floorPair, .io, .jnl, .st, .secu, .lk, .freeCtr, .log]) (by show Goes (s.island fun s => s.hdrRead code.toNat n) (Rel [.fc, .wd, .evr, .watch, .si, .lrst, .i3c, .cmd, .pwr, .time, .tel, .sched, .cores, .engs, .noc, .gddr, .ctrl, .cmp, .grid, .floorPair, .io, .jnl, .st, .secu, .lk, .freeCtr, .log] s); exact island_rel (State.hdrRead_rel ..)) (by decide) (.inr (by decide))
  | setdasa addr => exact cmdRel (ps := [.i3c, .irq]) (by show Goes (s.island fun s => s.cccSet fun x => if x.daValid then x else x.address addr.toNat) (Rel [.i3c, .irq] s); exact island_rel (State.cccSet_rel ..)) (by decide) (.inr (by decide))
  | setnewda addr => exact cmdRel (ps := [.i3c, .irq]) (by show Goes (s.island fun s => s.cccSet fun x => if x.daValid then x.address addr.toNat else x) (Rel [.i3c, .irq] s); exact island_rel (State.cccSet_rel ..)) (by decide) (.inr (by decide))
  | getmwl => exact cmdRel (ps := [.i3c]) (by show Goes (s.island fun s => s.cccRead (beBytes 2 s.i3c.mwl)) (Rel [.i3c] s); exact island_rel (State.cccRead_rel ..)) (by decide) (.inr (by decide))
  | getmrl => exact cmdRel (ps := [.i3c]) (by show Goes (s.island fun s => s.cccRead (beBytes 2 s.i3c.mrl ++ beBytes 1 s.i3c.ibiSize)) (Rel [.i3c] s); exact island_rel (State.cccRead_rel ..)) (by decide) (.inr (by decide))
  | getpid => exact cmdRel (ps := [.i3c]) (by show Goes (s.island fun s => s.cccRead s.pidBytes) (Rel [.i3c] s); exact island_rel (State.cccRead_rel ..)) (by decide) (.inr (by decide))
  | getbcr => exact cmdRel (ps := [.i3c]) (by show Goes (s.island fun s => s.cccRead (beBytes 1 bcr)) (Rel [.i3c] s); exact island_rel (State.cccRead_rel ..)) (by decide) (.inr (by decide))
  | getdcr => exact cmdRel (ps := [.i3c]) (by show Goes (s.island fun s => s.cccRead (beBytes 1 dcr)) (Rel [.i3c] s); exact island_rel (State.cccRead_rel ..)) (by decide) (.inr (by decide))
  | getstatus => exact cmdRel (ps := [.i3c]) (by show Goes (s.island fun s => s.getStatus) (Rel [.i3c] s); exact island_rel (State.getStatus_rel ..)) (by decide) (.inr (by decide))
  | getmxds => exact cmdRel (ps := [.i3c]) (by show Goes (s.island fun s => s.cccRead [0, 0]) (Rel [.i3c] s); exact island_rel (State.cccRead_rel ..)) (by decide) (.inr (by decide))
  | getcaps => exact cmdRel (ps := [.i3c]) (by show Goes (s.island fun s => s.cccRead [1, 1]) (Rel [.i3c] s); exact island_rel (State.cccRead_rel ..)) (by decide) (.inr (by decide))
  | targetResetPattern => exact cmdRel (ps := [.i3c]) (by show Goes (s.island fun s => s.busReset) (Rel [.i3c] s); exact island_rel (State.busReset_rel ..)) (by decide) (.inr (by decide))
  | ibiRequest acked => exact cmdRel (ps := [.i3c, .irq]) (by show Goes (s.island fun s => s.ibiRequest acked) (Rel [.i3c, .irq] s); exact island_rel (State.ibiRequest_rel ..)) (by decide) (.inr (by decide))
  | hdrExit => exact cmdRel (ps := [.i3c]) (by show Goes (s.island fun s => { s with i3c := { s.i3c with hdr := false } }) (Rel [.i3c] s); exact island_rel (.mk_of (.refl _) .auto .auto)) (by decide) (.inr (by decide))
  | safeInputDemand i => exact cmdRel (ps := [.fc, .evr, .si, .so, .freeCtr, .collected, .irq, .log]) (by show Goes (s.island fun s => s.safeInputDemand i.val) (Rel [.fc, .evr, .si, .so, .freeCtr, .collected, .irq, .log] s); exact island_rel (State.safeInputDemand_rel ..)) (by decide) (.inr (by decide))
  | safeInputOn i => exact cmdRel (ps := [.si]) (by show Goes (s.island fun s => s.safeInputOn i.val) (Rel [.si] s); exact island_rel (State.safeInputOn_rel ..)) (by decide) (.inr (by decide))
  | discrepancyFault i => exact cmdRel (ps := [.fc, .evr, .si, .so, .freeCtr, .collected, .irq, .log]) (by show Goes (s.island fun s => s.discrepancyFault i.val) (Rel [.fc, .evr, .si, .so, .freeCtr, .collected, .irq, .log] s); exact island_rel (State.discrepancyFault_rel ..)) (by decide) (.inr (by decide))
  | stuckOnFault i chanB => exact cmdRel (ps := [.fc, .evr, .si, .so, .freeCtr, .collected, .irq, .log]) (by show Goes (s.island fun s => s.stuckOnFault i.val chanB) (Rel [.fc, .evr, .si, .so, .freeCtr, .collected, .irq, .log] s); exact island_rel (State.stuckOnFault_rel ..)) (by decide) (.inr (by decide))
  | crossShortFault i chanB => exact cmdRel (ps := [.fc, .evr, .si, .so, .freeCtr, .collected, .irq, .log]) (by show Goes (s.island fun s => s.crossShortFault i.val chanB) (Rel [.fc, .evr, .si, .so, .freeCtr, .collected, .irq, .log] s); exact island_rel (State.crossShortFault_rel ..)) (by decide) (.inr (by decide))
  | chatterFault i => exact cmdRel (ps := [.fc, .evr, .si, .so, .freeCtr, .collected, .irq, .log]) (by show Goes (s.island fun s => s.chatterFault i.val) (Rel [.fc, .evr, .si, .so, .freeCtr, .collected, .irq, .log] s); exact island_rel (State.chatterFault_rel ..)) (by decide) (.inr (by decide))
  | testPulseStart k => exact cmdRel (ps := [.tp]) (by show Goes (s.island fun s => s.tpStart k.val) (Rel [.tp] s); exact island_rel (State.tpStart_rel ..)) (by decide) (.inr (by decide))
  | testPulseEnd k => exact cmdRel (ps := [.tp]) (by show Goes (s.island fun s => s.tpEnd k.val) (Rel [.tp] s); exact island_rel (State.tpEnd_rel ..)) (by decide) (.inr (by decide))
  | testPulsePinFault k => exact cmdRel (ps := [.fc, .evr, .si, .tp, .so, .freeCtr, .collected, .irq, .log]) (by show Goes (s.island fun s => s.tpPinFault k.val) (Rel [.fc, .evr, .si, .tp, .so, .freeCtr, .collected, .irq, .log] s); exact island_rel (State.tpPinFault_rel ..)) (by decide) (.inr (by decide))
  | encoderEdge e a b zRise => exact cmdRel (ps := [.enc]) (by show Goes (s.island fun s => s.encoderEdge e.val a b zRise) (Rel [.enc] s); exact island_rel (State.encoderEdge_rel ..)) (by decide) (.inr (by decide))
  | encoderFault e => exact cmdRel (ps := [.fc, .evr, .enc, .so, .freeCtr, .collected, .irq, .log]) (by show Goes (s.island fun s => s.encoderFault e.val) (Rel [.fc, .evr, .enc, .so, .freeCtr, .collected, .irq, .log] s); exact island_rel (State.encoderFault_rel ..)) (by decide) (.inr (by decide))
  | speedValidAgain => exact cmdRel (ps := [.watch, .enc]) (by show Goes (s.island fun s => s.measureSpeed) (Rel [.watch, .enc] s); exact island_rel (State.measureSpeed_rel ..)) (by decide) (.inr (by decide))
  | offPulseStart g chanB => exact cmdRel (ps := [.so]) (by show Goes (s.island fun s => s.offPulseStart g.val chanB) (Rel [.so] s); exact island_rel (State.offPulseStart_rel ..)) (by decide) (.inr (by decide))
  | offPulseEnd g => exact cmdRel (ps := [.fc, .evr, .so, .freeCtr, .collected, .irq, .log]) (by show Goes (s.island fun s => s.offPulseEnd g.val) (Rel [.fc, .evr, .so, .freeCtr, .collected, .irq, .log] s); exact island_rel (State.offPulseEnd_rel ..)) (by decide) (.inr (by decide))
  | readbackFailure g chanB => exact cmdRel (ps := [.fc, .evr, .so, .freeCtr, .collected, .irq, .log]) (by show Goes (s.island fun s => s.readbackFailure g.val chanB) (Rel [.fc, .evr, .so, .freeCtr, .collected, .irq, .log] s); exact island_rel (State.readbackFailure_rel ..)) (by decide) (.inr (by decide))
  | lrstPressAccepted t => exact cmdRel (ps := [.beat, .powered, .xtalOk, .selftestFail, .fc, .wd, .evr, .watch, .si, .tp, .lrst, .enc, .so, .i3c, .cmd, .ldr, .pwr, .therm, .time, .tel, .sched, .cores, .engs, .noc, .gddr, .gddrMem, .poison, .ctrl, .alt, .golden, .cmp, .grid, .flr, .floorPair, .ev, .io, .jnl, .st, .lc, .secu, .lk, .freeCtr, .wstate, .collected, .irq, .log]) (by show Goes (s.island fun s => s.pressTakes t) (Rel [.beat, .powered, .xtalOk, .selftestFail, .fc, .wd, .evr, .watch, .si, .tp, .lrst, .enc, .so, .i3c, .cmd, .ldr, .pwr, .therm, .time, .tel, .sched, .cores, .engs, .noc, .gddr, .gddrMem, .poison, .ctrl, .alt, .golden, .cmp, .grid, .flr, .floorPair, .ev, .io, .jnl, .st, .lc, .secu, .lk, .freeCtr, .wstate, .collected, .irq, .log] s); exact island_rel (State.pressTakes_rel ..)) (by decide) (.inl rfl)
  | lrstPressIgnored => exact cmdRel (ps := [.evr, .lrst, .log]) (by show Goes (s.island fun s => s.lrstIgnored) (Rel [.evr, .lrst, .log] s); exact island_rel (State.lrstIgnored_rel ..)) (by decide) (.inr (by decide))
  | lrstDiscrepancy => exact cmdRel (ps := [.fc, .evr, .lrst, .so, .freeCtr, .collected, .irq, .log]) (by show Goes (s.island fun s => s.lrstDiscrepancy) (Rel [.fc, .evr, .lrst, .so, .freeCtr, .collected, .irq, .log] s); exact island_rel (State.lrstDiscrepancy_rel ..)) (by decide) (.inr (by decide))
  | heartbeatEdge k level own => exact cmdRel (ps := [.wd, .evr, .pwr, .irq, .log]) (by show Goes (s.island fun s => s.hbEdge k.val level own (s.prim k.val).pwrEn) (Rel [.wd, .evr, .pwr, .irq, .log] s); exact island_rel (State.hbEdge_rel ..)) (by decide) (.inr (by decide))
  | heartbeatLost k own => exact cmdRel (ps := [.wd, .evr, .pwr, .irq, .log]) (by show Goes (s.island fun s => s.hbLost k.val own) (Rel [.wd, .evr, .pwr, .irq, .log] s); exact island_rel (State.hbLost_rel ..)) (by decide) (.inr (by decide))
  | heartbeatPersist k => exact cmdRel (ps := [.wd]) (by show Goes (s.island fun s => s.hbPersistSet k.val) (Rel [.wd] s); exact island_rel (State.hbPersistSet_rel ..)) (by decide) (.inr (by decide))
  | pwrToRstExpiry k => exact cmdRel (ps := [.pwr]) (by show Goes (s.island fun s => s.pwrToRst k.val) (Rel [.pwr] s); exact island_rel (State.pwrToRst_rel ..)) (by decide) (.inr (by decide))
  | rstToOffExpiry k => exact cmdRel (ps := [.pwr]) (by show Goes (s.island fun s => s.rstToOff k.val) (Rel [.pwr] s); exact island_rel (State.rstToOff_rel ..)) (by decide) (.inr (by decide))
  | offBeatsExpiry k => exact cmdRel (ps := [.evr, .pwr, .log]) (by show Goes (s.island fun s => s.offBeatsOver k.val) (Rel [.evr, .pwr, .log] s); exact island_rel (State.offBeatsOver_rel ..)) (by decide) (.inr (by decide))
  | taskPeriodEnd task => exact cmdRel (ps := [.fc, .wd, .evr, .so, .pwr, .freeCtr, .collected, .irq, .log]) (by show Goes (s.island fun s => s.taskPeriodEnd task.val) (Rel [.fc, .wd, .evr, .so, .pwr, .freeCtr, .collected, .irq, .log] s); exact island_rel (State.taskPeriodEnd_rel ..)) (by decide) (.inr (by decide))
  | svcPeriodEnd => exact cmdRel (ps := [.fc, .wd, .evr, .so, .freeCtr, .collected, .irq, .log]) (by show Goes (s.island fun s => s.svcPeriodEnd) (Rel [.fc, .wd, .evr, .so, .freeCtr, .collected, .irq, .log] s); exact island_rel (State.svcPeriodEnd_rel ..)) (by decide) (.inr (by decide))
  | serviceCoreRestart => exact cmdRel (ps := [.wd]) (by show Goes (s.island fun s => s.svcRestart) (Rel [.wd] s); exact island_rel (State.svcRestart_rel ..)) (by decide) (.inr (by decide))
  | standbyWakeTimer => exact cmdRel (ps := [.wd, .evr, .pwr, .irq, .log]) (by show Goes (s.island fun s => s.standbyTimer) (Rel [.wd, .evr, .pwr, .irq, .log] s); exact island_rel (State.standbyTimer_rel ..)) (by decide) (.inr (by decide))
  | clockMonitorTrip rc => exact cmdRel (ps := [.fc, .wd, .evr, .so, .pwr, .freeCtr, .collected, .irq, .log]) (by show Goes (s.island fun s => s.clockTrip rc) (Rel [.fc, .wd, .evr, .so, .pwr, .freeCtr, .collected, .irq, .log] s); exact island_rel (State.clockTrip_rel ..)) (by decide) (.inr (by decide))
  | rcFreqCheck dev => exact cmdRel (ps := [.fc, .wd, .evr, .so, .pwr, .freeCtr, .collected, .irq, .log]) (by show Goes (s.island fun s => s.rcFreq dev) (Rel [.fc, .wd, .evr, .so, .pwr, .freeCtr, .collected, .irq, .log] s); exact island_rel (State.rcFreq_rel ..)) (by decide) (.inr (by decide))
  | crystalStop => exact cmdRel (ps := [.xtalOk, .fc, .evr, .so, .freeCtr, .collected, .irq, .log]) (by show Goes (s.island fun s => s.crystalStop) (Rel [.xtalOk, .fc, .evr, .so, .freeCtr, .collected, .irq, .log] s); exact island_rel (State.crystalStop_rel ..)) (by decide) (.inr (by decide))
  | watchdogCopyMismatch source inst => exact cmdRel (ps := [.fc, .evr, .so, .freeCtr, .collected, .irq, .log]) (by show Goes (s.island fun s => s.wdMismatch (12 + source.val) inst.val) (Rel [.fc, .evr, .so, .freeCtr, .collected, .irq, .log] s); exact island_rel (State.wdMismatch_rel ..)) (by decide) (.inr (by decide))
  | lockstepMismatch kind reg cycle => exact cmdRel (ps := [.fc, .evr, .so, .ctrl, .freeCtr, .collected, .irq, .log]) (by show Goes (s.island fun s => s.lockstep kind.val reg.val cycle.val) (Rel [.fc, .evr, .so, .ctrl, .freeCtr, .collected, .irq, .log] s); exact island_rel (State.lockstep_rel ..)) (by decide) (.inr (by decide))
  | tcmEccError uncorrected info => exact cmdRel (ps := [.fc, .evr, .so, .ctrl, .freeCtr, .collected, .irq, .log]) (by show Goes (s.island fun s => s.tcmEcc uncorrected info.toNat) (Rel [.fc, .evr, .so, .ctrl, .freeCtr, .collected, .irq, .log] s); exact island_rel (State.tcmEcc_rel ..)) (by decide) (.inr (by decide))
  | runtimeIntegrityFault info => exact cmdRel (ps := [.fc, .evr, .so, .freeCtr, .collected, .irq, .log]) (by show Goes (s.island fun s => s.raise 22 .ft info.toNat) (Rel [.fc, .evr, .so, .freeCtr, .collected, .irq, .log] s); exact island_rel (State.raise_rel ..)) (by decide) (.inr (by decide))
  | quietPeriodEnd => exact cmdRel (ps := [.fc, .evr, .enc, .so, .collected, .irq, .log]) (by show Goes (s.island fun s => s.quietPeriodEnd) (Rel [.fc, .evr, .enc, .so, .collected, .irq, .log] s); exact island_rel (State.quietPeriodEnd_rel ..)) (by decide) (.inr (by decide))
  | crystalReturn => exact cmdRel (ps := [.xtalOk]) (by show Goes (s.island fun s => { s with xtalOk := true }) (Rel [.xtalOk] s); exact island_rel (.mk_of (.refl _) .auto .auto)) (by decide) (.inr (by decide))
  | coreUnitFault core engines unit => exact cmdRel (ps := [.fc, .evr, .watch, .so, .sched, .cores, .engs, .alt, .freeCtr, .collected, .irq, .log]) (by show Goes (s.inMainDomain fun s => s.coreFault core.val engines unit.toNat) (Rel [.fc, .evr, .watch, .so, .sched, .cores, .engs, .alt, .freeCtr, .collected, .irq, .log] s); exact main_rel (State.coreFault_rel ..)) (by decide) (.inr (by decide))
  | coreOff core => exact cmdRel (ps := [.cores, .engs]) (by show Goes (s.inMainDomain fun s => s.coreOff core.val) (Rel [.cores, .engs] s); exact main_rel (State.coreOff_rel ..)) (by decide) (.inr (by decide))
  | correctableSramError core engine => exact cmdRel (ps := [.fc, .evr, .so, .cores, .engs, .freeCtr, .collected, .irq, .log]) (by show Goes (s.inMainDomain fun s => s.sramCe core.val engine) (Rel [.fc, .evr, .so, .cores, .engs, .freeCtr, .collected, .irq, .log] s); exact main_rel (State.sramCe_rel ..)) (by decide) (.inr (by decide))
  | windowOpen core => exact cmdRel (ps := [.evr, .pwr, .cores, .engs, .log]) (by show Goes (s.inMainDomain fun s => s.windowOpen core.val) (Rel [.evr, .pwr, .cores, .engs, .log] s); exact main_rel (State.windowOpen_rel ..)) (by decide) (.inr (by decide))
  | windowClose core => exact cmdRel (ps := [.evr, .pwr, .cores, .engs, .log]) (by show Goes (s.inMainDomain fun s => s.windowClose core.val) (Rel [.evr, .pwr, .cores, .engs, .log] s); exact main_rel (State.windowClose_rel ..)) (by decide) (.inr (by decide))
  | coreWakeDone core => exact cmdRel (ps := [.cores]) (by show Goes (s.inMainDomain fun s => s.coreWakeDone core.val) (Rel [.cores] s); exact main_rel (State.coreWakeDone_rel ..)) (by decide) (.inr (by decide))
  | avsTargetChange => exact cmdRel (ps := [.pwr]) (by show Goes (s.inMainDomain fun s => s.avsTargetChange) (Rel [.pwr] s); exact main_rel (State.avsTargetChange_rel ..)) (by decide) (.inr (by decide))
  | runReady graph => exact cmdRel (ps := [.sched]) (by show Goes (s.inMainDomain fun s => s.runReady graph.val) (Rel [.sched] s); exact main_rel (State.runReady_rel ..)) (by decide) (.inr (by decide))
  | descriptorDispatch core => exact cmdRel (ps := [.evr, .sched, .cores, .golden, .collected, .log]) (by show Goes (s.inMainDomain fun s => s.dispatch core.val) (Rel [.evr, .sched, .cores, .golden, .collected, .log] s); exact main_rel (State.dispatch_rel ..)) (by decide) (.inr (by decide))
  | microopIssue engine graph copy desc op => exact cmdRel (ps := [.sched, .cores, .engs, .gddrMem, .poison]) (by show Goes (s.inMainDomain fun s => s.microopIssue engine.val ⟨graph.val, copy.val, desc⟩ op) (Rel [.sched, .cores, .engs, .gddrMem, .poison] s); exact main_rel (State.microopIssue_rel ..)) (by decide) (.inr (by decide))
  | microopRetire engine graph copy desc => exact cmdRel (ps := [.evr, .sched, .cores, .engs, .golden, .collected, .log]) (by show Goes (s.inMainDomain fun s => s.microopRetire engine.val ⟨graph.val, copy.val, desc⟩) (Rel [.evr, .sched, .cores, .engs, .golden, .collected, .log] s); exact main_rel (State.microopRetire_rel ..)) (by decide) (.inr (by decide))
  | descriptorFail graph copy desc => exact cmdRel (ps := [.sched, .cores, .collected]) (by show Goes (s.inMainDomain fun s => s.descFail graph.val copy.val desc) (Rel [.sched, .cores, .collected] s); exact main_rel (State.descFail_rel ..)) (by decide) (.inr (by decide))
  | compareExecute graph desc => exact cmdRel (ps := [.evr, .sched, .cores, .golden, .cmp, .collected, .log]) (by show Goes (s.inMainDomain fun s => s.compareExecute graph.val desc) (Rel [.evr, .sched, .cores, .golden, .cmp, .collected, .log] s); exact main_rel (State.compareExecute_rel ..)) (by decide) (.inr (by decide))
  | barrierPass graph copy desc => exact cmdRel (ps := [.evr, .sched, .cores, .golden, .collected, .log]) (by show Goes (s.inMainDomain fun s => s.barrierPass graph.val copy.val desc) (Rel [.evr, .sched, .cores, .golden, .collected, .log] s); exact main_rel (State.barrierPass_rel ..)) (by decide) (.inr (by decide))
  | checkerWrite w => exact cmdRel (ps := [.evr, .sched, .grid, .collected, .log]) (by show Goes (s.inMainDomain fun s => s.checkerWrite w) (Rel [.evr, .sched, .grid, .collected, .log] s); exact main_rel (State.checkerWrite_rel ..)) (by decide) (.inr (by decide))
  | writeBufferRoom => exact cmdRel (ps := [.evr, .sched, .grid, .collected, .log]) (by show Goes (s.inMainDomain fun s => s.writeBufferRoom) (Rel [.evr, .sched, .grid, .collected, .log] s); exact main_rel (State.writeBufferRoom_rel ..)) (by decide) (.inr (by decide))
  | claimWrite => exact cmdRel (ps := [.evr, .grid, .log]) (by show Goes (s.inMainDomain fun s => s.claimWrite) (Rel [.evr, .grid, .log] s); exact main_rel (State.claimWrite_rel ..)) (by decide) (.inr (by decide))
  | detectionListCommit camera srcFrame graph ds => exact cmdRel (ps := [.evr, .sched, .grid, .collected, .log]) (by show Goes (s.inMainDomain fun s => s.detectionCommit camera.val srcFrame graph.val ds) (Rel [.evr, .sched, .grid, .collected, .log] s); exact main_rel (State.detectionCommit_rel ..)) (by decide) (.inr (by decide))
  | objectMatch => exact cmdRel (ps := [.grid]) (by show Goes (s.inMainDomain fun s => s.objectMatch) (Rel [.grid] s); exact main_rel (State.objectMatch_rel ..)) (by decide) (.inr (by decide))
  | objGraceExpiry => exact cmdRel (ps := [.ev]) (by show Goes (s.inMainDomain fun s => s.objGraceExpiry) (Rel [.ev] s); exact main_rel (State.objGraceExpiry_rel ..)) (by decide) (.inr (by decide))
  | gridCellUe plane1 cell => exact cmdRel (ps := [.fc, .evr, .so, .grid, .freeCtr, .collected, .irq, .log]) (by show Goes (s.inMainDomain fun s => s.cellUe plane1 cell.val) (Rel [.fc, .evr, .so, .grid, .freeCtr, .collected, .irq, .log] s); exact main_rel (State.cellUe_rel ..)) (by decide) (.inr (by decide))
  | floorCycleStart => exact cmdRel (ps := [.sched, .flr]) (by show Goes (s.island fun s => s.floorCycleStart) (Rel [.sched, .flr] s); exact island_rel (State.floorCycleStart_rel ..)) (by decide) (.inr (by decide))
  | floorCycleComplete engine1 cells => exact cmdRel (ps := [.fc, .evr, .so, .flr, .floorPair, .freeCtr, .collected, .irq, .log]) (by show Goes (s.island fun s => s.floorDeliver engine1 cells) (Rel [.fc, .evr, .so, .flr, .floorPair, .freeCtr, .collected, .irq, .log] s); exact island_rel (State.floorDeliver_rel ..)) (by decide) (.inr (by decide))
  | floorEngineFault engine1 unit => exact cmdRel (ps := [.fc, .evr, .so, .flr, .freeCtr, .collected, .irq, .log]) (by show Goes (s.island fun s => s.floorEngineFault engine1 (unit.val + 1)) (Rel [.fc, .evr, .so, .flr, .freeCtr, .collected, .irq, .log] s); exact island_rel (State.floorEngineFault_rel ..)) (by decide) (.inr (by decide))
  | floorCellUe cell => exact cmdRel (ps := [.fc, .evr, .so, .grid, .flr, .freeCtr, .collected, .irq, .log]) (by show Goes (s.island fun s => s.floorCellUe cell.val) (Rel [.fc, .evr, .so, .grid, .flr, .freeCtr, .collected, .irq, .log] s); exact island_rel (State.floorCellUe_rel ..)) (by decide) (.inr (by decide))
  | csiFrameStart port vc number hdr => exact cmdRel (ps := [.evr, .io, .collected, .log]) (by show Goes (s.island fun s => s.csiFrameStart port.val vc number hdr) (Rel [.evr, .io, .collected, .log] s); exact island_rel (State.csiFrameStart_rel ..)) (by decide) (.inr (by decide))
  | csiLongPacket port p => exact cmdRel (ps := [.evr, .io, .collected, .log]) (by show Goes (s.island fun s => s.csiLong port.val p) (Rel [.evr, .io, .collected, .log] s); exact island_rel (State.csiLong_rel ..)) (by decide) (.inr (by decide))
  | csiFrameEnd port vc number hdr => exact cmdRel (ps := [.evr, .io, .collected, .log]) (by show Goes (s.island fun s => s.csiFrameEnd port.val vc number hdr) (Rel [.evr, .io, .collected, .log] s); exact island_rel (State.csiFrameEnd_rel ..)) (by decide) (.inr (by decide))
  | forwardFailure port => exact cmdRel (ps := [.fc, .evr, .so, .io, .freeCtr, .collected, .irq, .log]) (by show Goes (s.inMainDomain fun s => s.forwardFail port.val) (Rel [.fc, .evr, .so, .io, .freeCtr, .collected, .irq, .log] s); exact main_rel (State.forwardFail_rel ..)) (by decide) (.inr (by decide))
  | crocusStagingDone port => exact cmdRel (ps := [.fc, .evr, .so, .io, .freeCtr, .collected, .irq, .log]) (by show Goes (s.inMainDomain fun s => s.crocusStagingDone port.val) (Rel [.fc, .evr, .so, .io, .freeCtr, .collected, .irq, .log] s); exact main_rel (State.crocusStagingDone_rel ..)) (by decide) (.inr (by decide))
  | crocusInjectionStart port => exact cmdRel (ps := [.evr, .io, .collected, .log]) (by show Goes (s.inMainDomain fun s => s.crocusInjectionStart port.val) (Rel [.evr, .io, .collected, .log] s); exact main_rel (State.crocusInjectionStart_rel ..)) (by decide) (.inr (by decide))
  | crocusInjectionEnd port => exact cmdRel (ps := [.io]) (by show Goes (s.inMainDomain fun s => s.crocusInjectionEnd port.val) (Rel [.io] s); exact main_rel (State.crocusInjectionEnd_rel ..)) (by decide) (.inr (by decide))
  | crocusDeadline port => exact cmdRel (ps := [.evr, .io, .collected, .log]) (by show Goes (s.inMainDomain fun s => s.crocusDeadlineDue port.val) (Rel [.evr, .io, .collected, .log] s); exact main_rel (State.crocusDeadlineDue_rel ..)) (by decide) (.inr (by decide))
  | claimRecord port p => exact cmdRel (ps := [.evr, .grid, .io, .collected, .log]) (by show Goes (s.inMainDomain fun s => s.claimRecord port.val p) (Rel [.evr, .grid, .io, .collected, .log] s); exact main_rel (State.claimRecord_rel ..)) (by decide) (.inr (by decide))
  | claimAgeExpiry stream => exact cmdRel (ps := [.wd, .evr, .pwr, .io, .collected, .irq, .log]) (by show Goes (s.island fun s => s.claimAgeExpiry stream.val) (Rel [.wd, .evr, .pwr, .io, .collected, .irq, .log] s); exact island_rel (State.claimAgeExpiry_rel ..)) (by decide) (.inr (by decide))
  | verdictBatchSend sent => exact cmdRel (ps := [.io]) (by show Goes (s.inMainDomain fun s => s.verdictBatch sent) (Rel [.io] s); exact main_rel (State.verdictBatch_rel ..)) (by decide) (.inr (by decide))
  | csiShortPacket port vc dt number hdr => exact cmdRel (ps := [.io]) (by show Goes (s.island fun s => s.csiShort port.val vc dt number hdr) (Rel [.io] s); exact island_rel (State.csiShort_rel ..)) (by decide) (.inr (by decide))
  | csiRxLockChange port locked => exact cmdRel (ps := [.io]) (by show Goes (s.island fun s => if s.pwr.mainOn || decide (port.val ≤ 1) then s.rxLockChange port.val locked else s) (Rel [.io] s); exact island_rel (.ite (fun _ => State.rxLockChange_rel ..) fun _ => .refl _)) (by decide) (.inr (by decide))
  | eventRecord engine code data => exact cmdRel (ps := [.evr, .log]) (by show Goes (s.island fun s => if engine.isNone || s.pwr.mainOn then s.report (engine.map fun g => g.val) code.toNat data.toNat else s) (Rel [.evr, .log] s); exact island_rel (.ite (fun _ => State.report_rel ..) fun _ => .refl _)) (by decide) (.inr (by decide))
  | journalFlush => exact cmdRel (ps := [.evr, .jnl, .log]) (by show Goes (s.inMainDomain fun s => s.flush) (Rel [.evr, .jnl, .log] s); exact main_rel (State.flush_rel ..)) (by decide) (.inr (by decide))
  | nandProgramFail block erase => exact cmdRel (ps := [.fc, .evr, .so, .jnl, .freeCtr, .collected, .irq, .log]) (by show Goes (s.inMainDomain fun s => s.programFail block erase) (Rel [.fc, .evr, .so, .jnl, .freeCtr, .collected, .irq, .log] s); exact main_rel (State.programFail_rel ..)) (by decide) (.inr (by decide))
  | nandOpTimeout block => exact cmdRel (ps := [.fc, .evr, .so, .freeCtr, .collected, .irq, .log]) (by show Goes (s.inMainDomain fun s => s.nandTimeout block) (Rel [.fc, .evr, .so, .freeCtr, .collected, .irq, .log] s); exact main_rel (State.nandTimeout_rel ..)) (by decide) (.inr (by decide))
  | readDisturbRefresh block => exact cmdRel (ps := [.evr, .jnl, .freeCtr, .log]) (by show Goes (s.inMainDomain fun s => s.readDisturb block) (Rel [.evr, .jnl, .freeCtr, .log] s); exact main_rel (State.readDisturb_rel ..)) (by decide) (.inr (by decide))
  | retentionScrub found => exact cmdRel (ps := [.fc, .evr, .so, .jnl, .freeCtr, .collected, .irq, .log]) (by show Goes (s.inMainDomain fun s => s.scrub found) (Rel [.fc, .evr, .so, .jnl, .freeCtr, .collected, .irq, .log] s); exact main_rel (State.scrub_rel ..)) (by decide) (.inr (by decide))
  | haltSnapshot => exact cmdRel (ps := [.evr, .jnl, .log]) (by show Goes (s.inMainDomain fun s => s.haltSnapshot) (Rel [.evr, .jnl, .log] s); exact main_rel (State.haltSnapshot_rel ..)) (by decide) (.inr (by decide))
  | gddrEdcRetry chan ok => exact cmdRel (ps := [.fc, .evr, .so, .gddr, .freeCtr, .collected, .irq, .log]) (by show Goes (s.inMainDomain fun s => s.gddrEdc chan.val ok) (Rel [.fc, .evr, .so, .gddr, .freeCtr, .collected, .irq, .log] s); exact main_rel (State.gddrEdc_rel ..)) (by decide) (.inr (by decide))
  | gddrUe chan unit consumer => exact cmdRel (ps := [.fc, .evr, .so, .sched, .cores, .gddr, .poison, .freeCtr, .collected, .irq, .log]) (by show Goes (s.inMainDomain fun s => let t := s.gddrUe chan.val unit; (match consumer with | some c => t.descFail c.1.val c.2.1.val c.2.2 | none => t)) (Rel [.fc, .evr, .so, .sched, .cores, .gddr, .poison, .freeCtr, .collected, .irq, .log] s); exact main_rel (by dsimp only; split; exact .comp (.comp (.refl _) (State.gddrUe_rel ..) .auto) (State.descFail_rel ..) .auto; exact .comp (.refl _) (State.gddrUe_rel ..) .auto)) (by decide) (.inr (by decide))
  | testSliceStart k => exact cmdRel (ps := [.st]) (by show Goes (s.inMainDomain fun s => s.sliceStart k) (Rel [.st] s); exact main_rel (State.sliceStart_rel ..)) (by decide) (.inr (by decide))
  | testSliceEnd k lengthOk signatureOk => exact cmdRel (ps := [.fc, .evr, .watch, .so, .sched, .cores, .engs, .gddr, .alt, .st, .freeCtr, .collected, .irq, .log]) (by show Goes (s.inMainDomain fun s => s.sliceEnd k lengthOk signatureOk) (Rel [.fc, .evr, .watch, .so, .sched, .cores, .engs, .gddr, .alt, .st, .freeCtr, .collected, .irq, .log] s); exact main_rel (State.sliceEnd_rel ..)) (by decide) (.inr (by decide))
  | testSliceAbort k => exact cmdRel (ps := [.fc, .evr, .so, .st, .freeCtr, .collected, .irq, .log]) (by show Goes (s.inMainDomain fun s => s.sliceAbort k) (Rel [.fc, .evr, .so, .st, .freeCtr, .collected, .irq, .log] s); exact main_rel (State.sliceAbort_rel ..)) (by decide) (.inr (by decide))
  | temperatureReading conv => exact cmdRel (ps := [.fc, .evr, .so, .therm, .freeCtr, .collected, .irq, .log]) (by show Goes (s.island fun s => s.temperature conv) (Rel [.fc, .evr, .so, .therm, .freeCtr, .collected, .irq, .log] s); exact island_rel (State.temperature_rel ..)) (by decide) (.inr (by decide))
  | sensorInvalidLimit => exact cmdRel (ps := [.fc, .evr, .watch, .so, .sched, .cores, .engs, .alt, .freeCtr, .collected, .irq, .log]) (by show Goes (s.island fun s => s.sensorLimit) (Rel [.fc, .evr, .watch, .so, .sched, .cores, .engs, .alt, .freeCtr, .collected, .irq, .log] s); exact island_rel (State.sensorLimit_rel ..)) (by decide) (.inr (by decide))
  | comparatorTrip125 sensor => exact cmdRel (ps := [.fc, .evr, .so, .therm, .freeCtr, .collected, .irq, .log]) (by show Goes (s.island fun s => s.comparatorTrip sensor.val) (Rel [.fc, .evr, .so, .therm, .freeCtr, .collected, .irq, .log] s); exact island_rel (State.comparatorTrip_rel ..)) (by decide) (.inr (by decide))
  | railWarn rail mv => exact cmdRel (ps := [.evr, .pwr, .log]) (by show Goes (s.island fun s => s.railWarnEvent rail.val mv) (Rel [.evr, .pwr, .log] s); exact island_rel (State.railWarnEvent_rel ..)) (by decide) (.inr (by decide))
  | railTrip rail mv => exact cmdRel (ps := [.fc, .evr, .so, .pwr, .freeCtr, .collected, .irq, .log]) (by show Goes (s.island fun s => s.railTripFault rail.val mv) (Rel [.fc, .evr, .so, .pwr, .freeCtr, .collected, .irq, .log] s); exact island_rel (State.railTripFault_rel ..)) (by decide) (.inr (by decide))
  | avsbusRead regs retries status => exact cmdRel (ps := [.fc, .evr, .so, .pwr, .freeCtr, .collected, .irq, .log]) (by show Goes (s.inMainDomain fun s => s.avsRead regs retries status) (Rel [.fc, .evr, .so, .pwr, .freeCtr, .collected, .irq, .log] s); exact main_rel (State.avsRead_rel ..)) (by decide) (.inr (by decide))
  | powerOn t => exact cmdRel (ps := [.beat, .powered, .xtalOk, .selftestFail, .fc, .wd, .evr, .watch, .si, .tp, .lrst, .enc, .so, .i3c, .cmd, .ldr, .pwr, .therm, .time, .tel, .sched, .cores, .engs, .noc, .gddr, .gddrMem, .poison, .ctrl, .alt, .golden, .cmp, .grid, .flr, .floorPair, .ev, .io, .jnl, .st, .lc, .secu, .lk, .freeCtr, .wstate, .collected, .irq, .log]) (by exact ⟨_, rfl, State.powerOnSteps_rel ..⟩) (by decide) (.inl rfl)
  | aonSupplyCollapse => exact cmdRel (ps := [.beat, .powered, .xtalOk, .selftestFail, .fc, .wd, .evr, .watch, .si, .tp, .lrst, .enc, .so, .i3c, .cmd, .ldr, .pwr, .therm, .time, .tel, .sched, .cores, .engs, .noc, .gddr, .gddrMem, .poison, .ctrl, .alt, .golden, .cmp, .grid, .flr, .floorPair, .ev, .io, .jnl, .st, .lc, .secu, .lk, .freeCtr, .wstate, .collected, .irq, .log]) (by show Goes (s.island fun s => s.collapse) (Rel [.beat, .powered, .xtalOk, .selftestFail, .fc, .wd, .evr, .watch, .si, .tp, .lrst, .enc, .so, .i3c, .cmd, .ldr, .pwr, .therm, .time, .tel, .sched, .cores, .engs, .noc, .gddr, .gddrMem, .poison, .ctrl, .alt, .golden, .cmp, .grid, .flr, .floorPair, .ev, .io, .jnl, .st, .lc, .secu, .lk, .freeCtr, .wstate, .collected, .irq, .log] s); exact island_rel (State.collapse_rel ..)) (by decide) (.inl rfl)
  | standbyPowerDown => exact cmdRel (ps := [.wd, .evr, .pwr, .therm, .time, .tel, .sched, .cores, .engs, .noc, .gddr, .gddrMem, .poison, .golden, .cmp, .grid, .ev, .io, .jnl, .secu, .lk, .irq, .log]) (by show Goes (s.island fun s => s.standbyEnter) (Rel [.wd, .evr, .pwr, .therm, .time, .tel, .sched, .cores, .engs, .noc, .gddr, .gddrMem, .poison, .golden, .cmp, .grid, .ev, .io, .jnl, .secu, .lk, .irq, .log] s); exact island_rel (State.standbyEnter_rel ..)) (by decide) (.inr (by decide))
  | ptpSync port x => exact cmdRel (ps := [.evr, .time, .log]) (by show Goes (s.inMainDomain fun s => s.ptpSync port.val x) (Rel [.evr, .time, .log] s); exact main_rel (State.ptpSync_rel ..)) (by decide) (.inr (by decide))
  | ptpAnnounce port a => exact cmdRel (ps := [.evr, .time, .log]) (by show Goes (s.inMainDomain fun s => s.announce port.val a) (Rel [.evr, .time, .log] s); exact main_rel (State.announce_rel ..)) (by decide) (.inr (by decide))
  | pdelayReq port => exact cmdRel (ps := [.time]) (by show Goes (s.inMainDomain fun s => s.pdelayAnswer port.val) (Rel [.time] s); exact main_rel (State.pdelayAnswer_rel ..)) (by decide) (.inr (by decide))
  | delayReqSend port => exact cmdRel (ps := [.time]) (by show Goes (s.inMainDomain fun s => s.delayAsk port.val) (Rel [.time] s); exact main_rel (State.delayAsk_rel ..)) (by decide) (.inr (by decide))
  | delayResponse port pathDelay asCapable => exact cmdRel (ps := [.time]) (by show Goes (s.inMainDomain fun s => s.delayDone port.val pathDelay asCapable) (Rel [.time] s); exact main_rel (State.delayDone_rel ..)) (by decide) (.inr (by decide))
  | syncLoss => exact cmdRel (ps := [.evr, .time, .log]) (by show Goes (s.inMainDomain fun s => s.syncLossDue) (Rel [.evr, .time, .log] s); exact main_rel (State.syncLossDue_rel ..)) (by decide) (.inr (by decide))
  | ethLinkChange port up => exact cmdRel (ps := [.evr, .time, .log]) (by show Goes (s.inMainDomain fun s => s.linkChange port.val up) (Rel [.evr, .time, .log] s); exact main_rel (State.linkChange_rel ..)) (by decide) (.inr (by decide))
  | timestampLaneMismatch port => exact cmdRel (ps := [.fc, .evr, .so, .time, .freeCtr, .collected, .irq, .log]) (by show Goes (s.inMainDomain fun s => s.tsLaneMismatch port.val) (Rel [.fc, .evr, .so, .time, .freeCtr, .collected, .irq, .log] s); exact main_rel (State.tsLaneMismatch_rel ..)) (by decide) (.inr (by decide))
  | deviceTimeMismatch intact => exact cmdRel (ps := [.fc, .evr, .so, .time, .freeCtr, .collected, .irq, .log]) (by show Goes (s.island fun s => s.timeMismatch intact) (Rel [.fc, .evr, .so, .time, .freeCtr, .collected, .irq, .log] s); exact island_rel (State.timeMismatch_rel ..)) (by decide) (.inr (by decide))
  | ethFrameDiscarded port fcs => exact cmdRel (ps := [.time]) (by show Goes (s.inMainDomain fun s => s.frameDiscarded port.val fcs) (Rel [.time] s); exact main_rel (State.frameDiscarded_rel ..)) (by decide) (.inr (by decide))
  | ethPcsFault port => exact cmdRel (ps := [.fc, .evr, .so, .time, .freeCtr, .collected, .irq, .log]) (by show Goes (s.inMainDomain fun s => s.pcsFault port.val) (Rel [.fc, .evr, .so, .time, .freeCtr, .collected, .irq, .log] s); exact main_rel (State.pcsFault_rel ..)) (by decide) (.inr (by decide))
  | linkTrained => exact cmdRel (ps := [.evr, .lk, .log]) (by show Goes (s.inMainDomain fun s => s.linkTrained) (Rel [.evr, .lk, .log] s); exact main_rel (State.linkTrained_rel ..)) (by decide) (.inr (by decide))
  | helloMessage m => exact cmdRel (ps := [.fc, .evr, .so, .lk, .freeCtr, .collected, .irq, .log]) (by show Goes (s.inMainDomain fun s => s.hello m) (Rel [.fc, .evr, .so, .lk, .freeCtr, .collected, .irq, .log] s); exact main_rel (State.hello_rel ..)) (by decide) (.inr (by decide))
  | beatMessage m => exact cmdRel (ps := [.fc, .evr, .so, .lk, .freeCtr, .collected, .irq, .log]) (by show Goes (s.inMainDomain fun s => s.beatMsg m) (Rel [.fc, .evr, .so, .lk, .freeCtr, .collected, .irq, .log] s); exact main_rel (State.beatMsg_rel ..)) (by decide) (.inr (by decide))
  | frameSummaryMessage m => exact cmdRel (ps := [.lk]) (by show Goes (s.inMainDomain fun s => s.frameSummary m) (Rel [.lk] s); exact main_rel (State.frameSummary_rel ..)) (by decide) (.inr (by decide))
  | linkCrcRate => exact cmdRel (ps := [.fc, .evr, .so, .lk, .freeCtr, .collected, .irq, .log]) (by show Goes (s.inMainDomain fun s => s.linkCrcRateDue) (Rel [.fc, .evr, .so, .lk, .freeCtr, .collected, .irq, .log] s); exact main_rel (State.linkCrcRateDue_rel ..)) (by decide) (.inr (by decide))
  | laneLost lane => exact cmdRel (ps := [.fc, .evr, .so, .lk, .freeCtr, .collected, .irq, .log]) (by show Goes (s.inMainDomain fun s => s.laneLost lane.val) (Rel [.fc, .evr, .so, .lk, .freeCtr, .collected, .irq, .log] s); exact main_rel (State.laneLost_rel ..)) (by decide) (.inr (by decide))
  | partnerMessageLoss => exact cmdRel (ps := [.collected]) (by show Goes (s.island fun s => s.partnerLoss) (Rel [.collected] s); exact island_rel (State.partnerLoss_rel ..)) (by decide) (.inr (by decide))
  | stageEvent n => exact cmdRel (ps := [.evr, .lk, .log]) (by show Goes (s.island fun s => s.stageEventDue n.val) (Rel [.evr, .lk, .log] s); exact island_rel (State.stageEventDue_rel ..)) (by decide) (.inr (by decide))
  | stageMissing n => exact cmdRel (ps := [.evr, .lk, .log]) (by show Goes (s.island fun s => s.stageMissingDue n.val) (Rel [.evr, .lk, .log] s); exact island_rel (State.stageMissingDue_rel ..)) (by decide) (.inr (by decide))
  | secOperationComplete => exact cmdRel (ps := [.evr, .cmd, .lc, .secu, .irq, .log]) (by show Goes (s.inMainDomain fun s => s.secComplete) (Rel [.evr, .cmd, .lc, .secu, .irq, .log] s); exact main_rel (State.secComplete_rel ..)) (by decide) (.inr (by decide))
  | debuggerAttach => exact cmdRel (ps := [.lc]) (by show Goes (s.island fun s => s.debuggerAttach) (Rel [.lc] s); exact island_rel (State.debuggerAttach_rel ..)) (by decide) (.inr (by decide))
  | debuggerHalt svc => exact cmdRel (ps := [.wd, .ctrl]) (by show Goes (s.island fun s => s.debuggerHalt svc) (Rel [.wd, .ctrl] s); exact island_rel (State.debuggerHalt_rel ..)) (by decide) (.inr (by decide))
  | debuggerRelease svc => exact cmdRel (ps := [.wd, .ctrl]) (by show Goes (s.island fun s => s.debuggerRelease svc) (Rel [.wd, .ctrl] s); exact island_rel (State.debuggerRelease_rel ..)) (by decide) (.inr (by decide))

theorem resolve_listed (f : WState) (l : List Trigger) (g : Trigger) (h : resolve f l = some g) : listed f g = true := by
  have key : ∀ (l : List Trigger) (o : Option Trigger), (∀ x, o = some x → listed f x = true) → (∀ x ∈ l, listed f x = true) →
      ∀ g, l.foldl (fun o t => some (match o with | some a => better a t | none => t)) o = some g → listed f g = true := by
    intro l
    induction l with
    | nil => exact fun o ho _ g hg => ho g hg
    | cons a l ih =>
      intro o ho hl g hg
      refine ih _ ?_ (fun x hx => hl x (List.mem_cons_of_mem _ hx)) g hg
      intro x hx
      cases hx
      cases o with
      | none => exact hl a List.mem_cons_self
      | some b =>
        show listed f (better b a) = true
        rw [better]
        split
        · exact ho b rfl
        · split
          · exact hl a List.mem_cons_self
          · split
            · exact ho b rfl
            · exact hl a List.mem_cons_self
  exact key _ none (fun _ h => nomatch h) (fun x hx => (List.mem_filter.1 hx).2) g h

theorem listed_table (f : WState) (g : Trigger) (h : listed f g = true) : (f, g.target, g.cause) ∈ transitionTable := by
  obtain ⟨tg, cs⟩ := g
  cases f <;> cases tg <;> simp [listed, transitionTable] at h ⊢ <;> omega

theorem reset_memOk : State.reset.MemOk := ⟨rfl, vrep_forall (P := fun (x : CoreState) => x.sram.wf = true) rfl, vrep_forall (P := fun (x : EngState) => x.ok = true) rfl, rfl, rfl, rfl, rfl⟩

end Sys2Proof.Machine
end

