-- ==== Sys2Proof/Laws/EffectsControl.lean ====
section
/-!
SUPPORT. Lemmas about what commands do outside the streams: loading, supervision, tests, runs, power windows, safe inputs, the grid.
-/
namespace Sys2Proof.Machine

set_option Elab.async false

/-! ### Image transfer and load -/

theorem inService_main {s : State} (h : s.inService = true) : s.pwr.mainOn = true := by
  simp only [State.inService, Bool.and_eq_true] at h
  exact h.2

theorem abort_ldr {s : State} (h : s.ldr.xferOpen = true) : s.abortTransfer.ldr = { s.ldr with xferOpen := false, aborted := true, received := [] } := by
  unfold State.abortTransfer
  rw [if_pos h, (State.event_rel _ _ _).frame .ldr (by decide)]

theorem irqSet_effect (s : State) (n : Nat) (p : List Byte) : (s.irqSet n p).i3c.irqStatus = s.i3c.irqStatus ||| BitVec.twoPow 7 n ∧ (s.irqSet n p).ldr = s.ldr := ⟨rfl, rfl⟩

theorem setResult_effect (s : State) (b : Bool) (r : Nat × Nat) :
    ∃ x y, (s.setResult b r).ldr = { s.ldr with resultA := x, resultB := y } ∧ (if b then y else x) = r ∧ (s.setResult b r).i3c = s.i3c := by
  cases b
  · exact ⟨_, _, rfl, rfl, rfl⟩
  · exact ⟨_, _, rfl, rfl, rfl⟩

theorem transferDone_effect (s : State) (k : Nat) (r : Option Refused) :
    (s.transferDone k r).ldr.busy = false ∧ (∀ b, (s.transferDone k r).slot b = s.slot b) ∧
      (if s.ldr.target then (s.transferDone k r).ldr.resultB else (s.transferDone k r).ldr.resultA) = r.elim (0, 0) (fun x => (x.code, x.sect)) ∧
      (s.transferDone k r).i3c.irqStatus = s.i3c.irqStatus ||| 0x20 := by
  have tail : ∀ (u : State) (k : Nat) (p : List Byte),
      ((({ u with ldr := { u.ldr with busy := false, received := [], stagedRefusal := none } } : State).event 0xC102 k).irqSet irqLoader p).ldr =
        { u.ldr with busy := false, received := [], stagedRefusal := none } ∧
      ((({ u with ldr := { u.ldr with busy := false, received := [], stagedRefusal := none } } : State).event 0xC102 k).irqSet irqLoader p).i3c.irqStatus =
        u.i3c.irqStatus ||| 0x20 := by
    intro u k p
    refine ⟨(State.event_rel _ _ _).frame .ldr (by decide), ?_⟩
    show (State.event _ _ _).i3c.irqStatus ||| _ = _
    rw [((State.event_rel _ _ _).frame .irq (by decide)).1]; rfl
  have fin : ∀ u : State, (∃ x y d, u.ldr = { s.ldr with resultA := x, resultB := y, detail := d } ∧
      (if s.ldr.target then y else x) = r.elim (0, 0) (fun x => (x.code, x.sect)) ∧ u.i3c = s.i3c) → ∀ v : State,
        v.ldr = { u.ldr with busy := false, received := [], stagedRefusal := none } ∧ v.i3c.irqStatus = u.i3c.irqStatus ||| 0x20 →
        v.ldr.busy = false ∧ (∀ b, v.slot b = s.slot b) ∧
          (if s.ldr.target then v.ldr.resultB else v.ldr.resultA) = r.elim (0, 0) (fun x => (x.code, x.sect)) ∧ v.i3c.irqStatus = s.i3c.irqStatus ||| 0x20 := by
    rintro u ⟨x, y, d, e, f, g⟩ v ⟨hl, hi⟩
    refine ⟨by rw [hl], fun b => ?_, ?_, ?_⟩
    · simp only [State.slot, hl, e]
    · rw [hl, e]; exact f
    · rw [hi, g]
  cases r with
  | none =>
    obtain ⟨x, y, e, f, g⟩ := setResult_effect s s.ldr.target (0, 0)
    exact fin (s.setResult s.ldr.target (0, 0)) ⟨x, y, _, e.trans rfl, f, g⟩ _ (tail _ _ _)
  | some z =>
    obtain ⟨x, y, e, f, g⟩ := setResult_effect s s.ldr.target (z.code, z.sect)
    exact fin (s.noteRefusal s.ldr.target z)
      ⟨x, y, z, by show ({ (s.setResult s.ldr.target (z.code, z.sect)).ldr with detail := z } : LoaderState) = _; rw [e], f, g⟩ _ (tail _ _ _)

theorem loadEnd_effect (s : State) (b : Bool) (c : Nat) :
    (s.loadEnd b c).ldr = { s.ldr with loading := false } ∧ (s.loadEnd b c).i3c.irqStatus = s.i3c.irqStatus ||| 0x20 ∧ (s.loadEnd b c).sched = s.sched := by
  refine ⟨?_, ?_, ?_⟩
  · show (State.startUpOver _).ldr = _
    rw [(State.startUpOver_rel _).frame .ldr (by decide)]
  · show (State.startUpOver _).i3c.irqStatus ||| _ = _
    rw [((State.startUpOver_rel _).frame .irq (by decide)).1]; rfl
  · show (State.startUpOver _).sched = _
    rw [(State.startUpOver_rel _).frame .sched (by decide)]

/-! ### Check-ins -/

theorem wakeRequest_fc (s : State) (k : Nat) : (s.wakeRequest k).fc = s.fc ∧ (s.wakeRequest k).so = s.so :=
  ⟨(State.wakeRequest_rel s k).frame .fc (by decide), (State.wakeRequest_rel s k).frame .so (by decide)⟩

theorem taskFault_reacts (s : State) (k code : Nat) (last : Bool) : Reacts s 12 .ft (k * 256 + code) (s.taskFault k code last) := by
  unfold State.taskFault
  dsimp only
  have h : Reacts s 12 .ft (k * 256 + code) (if last then (s.modTask k fun x => { x with faulted := true }).raiseLast 12 .ft (k * 256 + code)
      else (s.modTask k fun x => { x with faulted := true }).raise 12 .ft (k * 256 + code)) := by
    split
    · exact (State.raiseLast_reacts (s.modTask k fun x => { x with faulted := true }) 12 .ft (k * 256 + code) (by decide)).source rfl rfl
    · exact (State.raise_reacts (s.modTask k fun x => { x with faulted := true }) 12 .ft (k * 256 + code) (by decide)).source rfl rfl
  exact h.of_eq (wakeRequest_fc _ _).1 (wakeRequest_fc _ _).2

theorem svcFault_reacts (s : State) (code : Nat) (last : Bool) :
    Reacts s 13 .uc code (s.svcFault code last) ∧ (s.svcFault code last).wd.svc.downSince = some s.beat := by
  unfold State.svcFault
  dsimp only
  refine ⟨?_, rfl⟩
  have h : Reacts s 13 .uc code (if last then s.raiseLast 13 .uc code else s.raise 13 .uc code) := by
    split
    · exact State.raiseLast_reacts s 13 .uc code (by decide)
    · exact State.raise_reacts s 13 .uc code (by decide)
  exact h.of_eq rfl rfl

/-! ### Register writes -/

theorem irqClear_ibi (s : State) (m : BitVec 7) (n : Nat) (h : n < 7) :
    vget (s.irqClear m).i3c.ibi n none = if m.getLsbD n then none else vget s.i3c.ibi n none := by
  exact vget_vmapIdx (fun n x => if m.getLsbD n then none else x) s.i3c.ibi none none h

/-! ### Heartbeat monitors and primary outputs -/

theorem State.modHb_at (s : State) (k : Fin 2) (f : HbMon → HbMon) : (s.modHb k f).hbAt k = f (s.hbAt k) := vget_vmod_same k.isLt

theorem State.event_hb (s : State) (c d k : Nat) : (s.event c d).hbAt k = s.hbAt k :=
  congrArg (fun w : WdState => vget w.hb k HbMon.default) ((State.event_rel s c d).frame .wd (by decide))

theorem State.wakeRequest_hb (s : State) (n k : Nat) : (s.wakeRequest n).hbAt k = s.hbAt k := by
  unfold State.wakeRequest
  split
  · rfl
  · split
    · have h : (({ s with pwr := { s.pwr with waking := true } } : State).event 0xA103 (1 + n * 256)).wd = s.wd :=
        (State.event_rel ({ s with pwr := { s.pwr with waking := true } } : State) 0xA103 (1 + n * 256)).frame .wd (by decide)
      have g : ∀ (x : State) (l : List Byte), (x.irqSet irqWake l).wd = x.wd := fun x l => (State.irqSet_rel x irqWake l).frame .wd (by decide)
      have h' := congrArg (fun w : WdState => vget w.hb k HbMon.default) h
      dsimp only
      split
      · exact h'
      · exact (congrArg (fun w : WdState => vget w.hb k HbMon.default) (g _ _)).trans h'
    · rfl

theorem State.hbLose_at (s : State) (k : Fin 2) : (s.hbLose k).hbAt k = (if (s.hbAt k).alive then
    { s.hbAt k with alive := false, run := 0, lostSince := s.beat, losses := satInc 65535 (s.hbAt k).losses } else { s.hbAt k with run := 0 }) := by
  unfold State.hbLose
  split
  · dsimp only
    split
    · rw [State.wakeRequest_hb, State.event_hb, State.modHb_at]
    · rw [State.event_hb, State.modHb_at]
  · rw [State.modHb_at]

theorem State.event_prim (s : State) (c d k : Nat) : (s.event c d).prim k = s.prim k :=
  congrArg (fun w : PwrState => vget w.acc k AccState.default) ((State.event_rel s c d).frame .pwr (by decide))

theorem State.modPrim_at (s : State) (k : Fin 2) (f : AccState → AccState) : (s.modPrim k f).prim k = f (s.prim k) := vget_vmod_same k.isLt

/-! ### Supervision -/

theorem State.wakeRequest_wd (s : State) (n : Nat) :
    (s.wakeRequest n).wd = s.wd ∨ (s.wakeRequest n).wd = { s.wd with wakePending := true, wakeSrc := n } := by
  unfold State.wakeRequest
  split
  · exact .inl rfl
  · split
    · have h : (({ s with pwr := { s.pwr with waking := true } } : State).event 0xA103 (1 + n * 256)).wd = s.wd :=
        (State.event_rel ({ s with pwr := { s.pwr with waking := true } } : State) 0xA103 (1 + n * 256)).frame .wd (by decide)
      have g : ∀ (x : State) (l : List Byte), (x.irqSet irqWake l).wd = x.wd := fun x l => (State.irqSet_rel x irqWake l).frame .wd (by decide)
      have h' := congrArg (fun w : WdState => { w with wakePending := true, wakeSrc := n }) h
      dsimp only
      split
      · exact .inr h'
      · exact .inr ((g _ _).trans h')
    · exact .inl rfl

/-! ### Cores and memories -/

theorem State.free_lt (s : State) (n : Nat) (h : 0 < n) : s.free n < n := Nat.mod_lt _ h

theorem State.modCore_at (s : State) (n : Fin 32) (f : CoreState → CoreState) : (s.modCore n f).core n = f (s.core n) := vget_vmod_same n.isLt

theorem State.gridErr_bit (s : State) (n : Nat) (h : n < 8) : (s.gridErr n).grid.err.getLsbD n = true := by
  unfold State.gridErr
  split
  · assumption
  · have e : (({ s with grid := { s.grid with err := s.grid.err ||| BitVec.twoPow 8 n } } : State).event 0x5100 (2 ^ n)).grid =
        { s.grid with err := s.grid.err ||| BitVec.twoPow 8 n } := (State.event_rel ..).frame .grid (by decide)
    rw [e]
    simp [h]

theorem State.gridErr_plane (s : State) (n : Nat) : (s.gridErr n).grid.plane0 = s.grid.plane0 ∧ (s.gridErr n).grid.plane1 = s.grid.plane1 := by
  unfold State.gridErr
  split
  · exact ⟨rfl, rfl⟩
  · have e : (({ s with grid := { s.grid with err := s.grid.err ||| BitVec.twoPow 8 n } } : State).event 0x5100 (2 ^ n)).grid =
        { s.grid with err := s.grid.err ||| BitVec.twoPow 8 n } := (State.event_rel ..).frame .grid (by decide)
    rw [e]
    exact ⟨rfl, rfl⟩

/-! ### Start-up steps, standby and recovery -/

/-- What a start-up step keeps true once it is: a failed start-up stays failed, its effects with it. -/
def State.FailHolds (u : State) : Prop := u.selftestFail = true → u.ldr.loading = false ∧ u.ldr.running = false ∧ u.so.held = true

theorem State.enterSelftestFail_failed (s : State) (a b c d : Nat) (x y : Nat) :
    ((s.enterSelftestFail a b c d).event x y).selftestFail = true ∧ ((s.enterSelftestFail a b c d).event x y).ldr.loading = false ∧
      ((s.enterSelftestFail a b c d).event x y).ldr.running = false ∧ ((s.enterSelftestFail a b c d).event x y).so.held = true := by
  have h := State.event_rel (s.enterSelftestFail a b c d) x y
  have h1 : ((s.enterSelftestFail a b c d).event x y).selftestFail = (s.enterSelftestFail a b c d).selftestFail := h.frame .selftestFail (by decide)
  have h2 : ((s.enterSelftestFail a b c d).event x y).ldr = (s.enterSelftestFail a b c d).ldr := h.frame .ldr (by decide)
  have h3 : ((s.enterSelftestFail a b c d).event x y).so = (s.enterSelftestFail a b c d).so := h.frame .so (by decide)
  rw [h1, h2, h3]
  exact ⟨rfl, rfl, rfl, rfl⟩

theorem State.testFailed_failed (s : State) (f : TestFail) : (s.testFailed f).selftestFail = true ∧ (s.testFailed f).ldr.loading = false ∧
    (s.testFailed f).ldr.running = false ∧ (s.testFailed f).so.held = true := State.enterSelftestFail_failed ..

theorem State.runStep_holds (s : State) (t : StartTests) (first : Bool) (k : Nat) (h : s.FailHolds) : (s.runStep t first k).FailHolds := by
  unfold State.runStep
  split
  · exact h
  · rename_i hs
    dsimp only
    generalize hu : (State.elapse _ _ : State) = u
    have e : u.selftestFail = false := by
      subst hu
      have := (State.elapse_rel ({ s with st := { s.st with running := true, step := k, outcome := 0 } } : State) (stepLength t k)).frame .selftestFail (by decide)
      exact this.trans (by simpa using hs)
    have hp : (u.stepPasses t first s.ftActive k).FailHolds := by
      have e2 : (u.stepEffect t first k).selftestFail = u.selftestFail := (State.stepEffect_rel ..).frame .selftestFail (by decide)
      unfold State.stepPasses
      dsimp only
      split
      · exact fun _ => ⟨rfl, rfl, rfl⟩
      · intro hc
        have e3 := (State.event_rel (u.stepEffect t first k) 0xD100 (k + 256 * ((u.stepEffect t first k).beat % 2 ^ 24))).frame .selftestFail (by decide)
        simp only [State.same] at e3
        rw [e3, e2, e] at hc
        exact nomatch hc
    split
    · split
      · exact fun _ => (State.testFailed_failed u _).2
      · exact hp
    · exact hp

theorem State.runStep_fails (s : State) (t : StartTests) (first : Bool) {f : TestFail} (h : t.fail = some f) :
    (s.runStep t first f.step).selftestFail = true := by
  unfold State.runStep
  split
  · assumption
  · simp only [h, if_true]
    exact (State.testFailed_failed ..).1

theorem State.runStep_stays (s : State) (t : StartTests) (first : Bool) (k : Nat) (h : s.selftestFail = true) :
    (s.runStep t first k).selftestFail = true := by
  rw [State.runStep, if_pos h]
  exact h

theorem State.runSteps_holds (s : State) (t : StartTests) (first : Bool) (k : Nat) (h : s.FailHolds) : (s.runSteps t first k).FailHolds := by
  unfold State.runSteps
  generalize (upto 9).filter (k ≤ ·) = l
  induction l generalizing s with
  | nil => exact h
  | cons i l ih => exact ih _ (s.runStep_holds t first i h)

theorem State.runSteps_fails (s : State) (t : StartTests) (first : Bool) (k : Nat) {f : TestFail} (h : t.fail = some f) (h1 : k ≤ f.step)
    (h2 : f.step ≤ 8) : (s.runSteps t first k).selftestFail = true := by
  have hm : f.step ∈ (upto 9).filter (k ≤ ·) := by simp [upto]; omega
  have stay : ∀ (l : List Nat) (u : State), u.selftestFail = true → (l.foldl (fun (u : State) i => u.runStep t first i) u).selftestFail = true := by
    intro l
    induction l with
    | nil => exact fun _ h => h
    | cons i l ih => exact fun u hu => ih _ (u.runStep_stays t first i hu)
  unfold State.runSteps
  generalize (upto 9).filter (k ≤ ·) = l at hm
  induction l generalizing s with
  | nil => exact nomatch hm
  | cons i l ih =>
    rcases List.mem_cons.1 hm with rfl | hm
    · exact stay l _ (s.runStep_fails t first h)
    · exact ih _ hm

theorem State.runSteps_failed (s : State) (t : StartTests) (first : Bool) (k : Nat) {f : TestFail} (h : t.fail = some f) (h1 : k ≤ f.step)
    (h2 : f.step ≤ 8) (h0 : s.selftestFail = false) : Failed ((s.runSteps t first k).toStep9) := by
  have hf := s.runSteps_fails t first k h h1 h2
  have hh := s.runSteps_holds t first k (fun h => nomatch h0.symm.trans h) hf
  rw [State.toStep9, if_pos hf]
  exact ⟨hf, hh.1, hh.2.1, hh.2.2⟩

theorem State.stepEffect_standby (s : State) (t : StartTests) (first : Bool) (k : Nat) : (s.stepEffect t first k).pwr.standby = s.pwr.standby := by
  unfold State.stepEffect
  split
  · unfold State.step2
    dsimp only
    split <;> rfl
  · rfl
  · rfl
  · exact congrArg (fun p : PwrState => p.standby) ((State.coresTested_rel ..).frame .pwr (by decide))
  · rfl
  · have h : ((s.coresTested t true).mount t.nand).pwr = s.pwr :=
      ((State.mount_rel ..).frame .pwr (by decide)).trans ((State.coresTested_rel ..).frame .pwr (by decide))
    dsimp only
    split
    · exact congrArg (fun p : PwrState => p.standby) (((State.reloadFirst_rel ..).frame .pwr (by decide)).trans h)
    · exact congrArg (fun p : PwrState => p.standby) h
  · rfl

theorem State.runStep_standby (s : State) (t : StartTests) (first : Bool) (k : Nat) : (s.runStep t first k).pwr.standby = s.pwr.standby := by
  have hf : ∀ (u : State) (a b c d : Nat), (u.enterSelftestFail a b c d).pwr.standby = u.pwr.standby := by
    intro u a b c d
    unfold State.enterSelftestFail State.failFaultN
    dsimp only
    split
    · rfl
    · exact congrArg (fun p : PwrState => p.standby) ((State.irqSet_rel ..).frame .pwr (by decide))
  have he : ∀ (u : State) (a b : Nat), (u.event a b).pwr.standby = u.pwr.standby := fun u a b =>
    congrArg (fun p : PwrState => p.standby) ((State.event_rel u a b).frame .pwr (by decide))
  unfold State.runStep
  split
  · rfl
  · dsimp only
    generalize hu : (State.elapse _ _ : State) = u
    have e : u.pwr = s.pwr := by
      subst hu
      exact (State.elapse_rel ..).frame .pwr (by decide)
    have hp : (u.stepPasses t first s.ftActive k).pwr.standby = s.pwr.standby := by
      unfold State.stepPasses
      dsimp only
      split
      · rw [hf, State.stepEffect_standby, e]
      · rw [he, State.stepEffect_standby, e]
    split
    · split
      · rw [State.testFailed, he, hf, e]
      · exact hp
    · exact hp

theorem State.runSteps_standby (s : State) (t : StartTests) (first : Bool) (k : Nat) : (s.runSteps t first k).pwr.standby = s.pwr.standby := by
  unfold State.runSteps
  generalize (upto 9).filter (k ≤ ·) = l
  induction l generalizing s with
  | nil => rfl
  | cons i l ih => exact (ih _).trans (s.runStep_standby t first i)

theorem State.wakeRequest_waking (s : State) (n : Nat) (h1 : s.pwr.entering = none) (h2 : s.pwr.standby = true) (h3 : s.pwr.waking = false) :
    (s.wakeRequest n).pwr = { s.pwr with waking := true } ∧ (s.wakeRequest n).wd.standbySince = s.wd.standbySince := by
  rw [State.wakeRequest, if_neg (by simp [h1]), if_pos ⟨h2, h3⟩]
  have r := State.event_rel ({ s with pwr := { s.pwr with waking := true } } : State) 0xA103 (1 + n * 256)
  have e1 := r.frame .pwr (by decide)
  have e2 := r.frame .wd (by decide)
  simp only [State.same] at e1 e2
  have e3 := congrArg (fun w : WdState => w.standbySince) e2
  dsimp only
  split
  · exact ⟨e1, e3⟩
  · exact ⟨((State.irqSet_rel ..).frame .pwr (by decide)).trans e1,
      (congrArg (fun w : WdState => w.standbySince) ((State.irqSet_rel ..).frame .wd (by decide))).trans e3⟩

theorem State.ftReaction_escalated (s : State) (src info cycle : Nat) : (s.ftReaction src info cycle).fc.escalated = s.fc.escalated := by
  simp only [State.ftReaction]
  rw [(State.addTrig_rel ..).frame .fc (by decide), (State.outputsOff_rel ..).frame .fc (by decide), State.faultNDown_fc]
  show (s.latchFault src .ft info cycle).fc.escalated = _
  unfold State.latchFault
  split <;> rfl

/-- A primary as the entry to STANDBY leaves it: kept, or powered down. -/
def State.primEnter (u : State) (k : Nat) : State := if primKeep u.primB k || (u.prim k).seq == 0 then u else u.accPowerDown k 1 false

theorem State.primEnter_rel (u : State) (k : Nat) : Rel [.evr, .pwr, .log] u (u.primEnter k) := by
  unfold State.primEnter
  split
  · exact .refl _
  · exact State.accPowerDown_rel ..

theorem State.accPowerDown_prim (s : State) (k n : Nat) (c : Bool) :
    (s.accPowerDown k n c).pwr = { s.pwr with acc := vmod s.pwr.acc k fun a => { a with seq := 3, rstN := false, since := s.beat, cycling := c } } :=
  (State.event_rel (s.modPrim k fun a => { a with seq := 3, rstN := false, since := s.beat, cycling := c }) 0xA102 (k + n * 256)).frame .pwr (by decide)

/-! ### Coverage of the periodic tests -/

theorem State.modCov_at (s : State) (k : TestKind) (f : TestCov → TestCov) (h : k.exists' = true) : (s.modCov k f).cov k = f (s.cov k) := by
  cases k <;> simp only [TestKind.exists', decide_eq_true_eq] at h <;> exact vget_vmod_same h

theorem State.cov_eq {s t : State} (k : TestKind) (h : t.st = s.st) : t.cov k = s.cov k := by
  cases k <;> simp only [State.cov, h]

/-- What the loss of a core leaves of it: retired, with the cause of its unit. -/
theorem State.coreFault_core (s : State) (n : Fin 32) (g : BitVec 4) (unit : Nat) (h : (s.core n).retired = false) :
    ((s.coreFault n g unit).core n).retired = true ∧ ((s.coreFault n g unit).core n).cause = retireCause unit ∧
      Reacts s (28 + n.val) .uc (lowestEngine g * 256 + unit) (s.coreFault n g unit) := by
  rw [State.coreFault, if_neg (by simp [h])]
  dsimp only
  generalize hu : (State.raiseCore _ _ _ _ _ : State) = u
  have r : Reacts s (28 + n.val) .uc (lowestEngine g * 256 + unit) u := by
    subst hu
    exact State.raiseCore_reacts _ _ _ _ _ (by omega)
  generalize hv : (State.modCoreEngs _ _ _ : State) = v
  have ev : (v.core n).retired = true ∧ (v.core n).cause = retireCause unit := by
    subst hv
    exact ⟨congrArg (fun c : CoreState => c.retired) (vget_vmod_same n.isLt), congrArg (fun c : CoreState => c.cause) (vget_vmod_same n.isLt)⟩
  have er : Reacts s (28 + n.val) .uc (lowestEngine g * 256 + unit) v := by
    subst hv
    exact r.of_eq rfl rfl
  have ec : (v.loseCore n.val).core n = v.core n := congrArg (fun c => vget c n.val CoreState.default) ((State.loseCore_rel v n.val).frame .cores (by decide))
  rw [ec]
  exact ⟨ev.1, ev.2, er.frame (State.loseCore_rel ..) (by decide)⟩

theorem State.testDone_cov (s : State) (k : TestKind) (h : k.exists' = true) :
    ((s.testDone k).cov k).slice = 0 ∧ ((s.testDone k).cov k).aborts = 0 ∧ (s.testDone k).st.slices = s.st.slices ∧
      (∀ n, k = .lbist n ∨ k = .link n → ((s.testDone k).cov k).last = some s.sched.frame) ∧ (∀ n, k = .scrub n → ((s.testDone k).cov k).last = some s.beat) := by
  cases k with
  | lbist n =>
    rw [State.testDone]
    generalize hu : (State.event _ _ _ : State) = u
    have e : u.st = (s.modCov (.lbist n) fun c => { c with last := some s.sched.frame, slice := 0, aborts := 0 }).st := by
      subst hu
      exact (State.event_rel ..).frame .st (by decide)
    rw [State.cov_eq _ e, State.modCov_at _ _ _ h, e]
    exact ⟨rfl, rfl, rfl, fun _ _ => rfl, fun _ h => nomatch h⟩
  | link n =>
    rw [State.testDone]
    generalize hu : (State.event _ _ _ : State) = u
    have e : u.st = (s.modCov (.link n) fun c => { c with last := some s.sched.frame, slice := 0, aborts := 0 }).st := by
      subst hu
      exact (State.event_rel ..).frame .st (by decide)
    have key : ∀ t : State, t.cov (.link n) = u.cov (.link n) → t.st.slices = u.st.slices → (t.cov (.link n)).slice = 0 ∧ (t.cov (.link n)).aborts = 0 ∧ t.st.slices = s.st.slices ∧
        (∀ m, TestKind.link n = .lbist m ∨ TestKind.link n = .link m → (t.cov (.link n)).last = some s.sched.frame) ∧ (∀ m, TestKind.link n = .scrub m → (t.cov (.link n)).last = some s.beat) := by
      intro t h1 h2
      rw [h1, h2, State.cov_eq _ e, State.modCov_at _ _ _ h, e]
      exact ⟨rfl, rfl, rfl, fun _ _ => rfl, fun _ h => nomatch h⟩
    split
    · exact key _ rfl rfl
    · exact key _ rfl rfl
  | scrub n =>
    rw [State.testDone]
    generalize hu : (State.event _ _ _ : State) = u
    have e : u.st = (s.modCov (.scrub n) fun c => { c with last := some s.beat, slice := 0, aborts := 0 }).st := by
      subst hu
      exact (State.event_rel ..).frame .st (by decide)
    have key : ∀ t : State, t.cov (.scrub n) = u.cov (.scrub n) → t.st.slices = u.st.slices → (t.cov (.scrub n)).slice = 0 ∧ (t.cov (.scrub n)).aborts = 0 ∧ t.st.slices = s.st.slices ∧
        (∀ m, TestKind.scrub n = .lbist m ∨ TestKind.scrub n = .link m → (t.cov (.scrub n)).last = some s.sched.frame) ∧ (∀ m, TestKind.scrub n = .scrub m → (t.cov (.scrub n)).last = some s.beat) := by
      intro t h1 h2
      rw [h1, h2, State.cov_eq _ e, State.modCov_at _ _ _ h, e]
      exact ⟨rfl, rfl, rfl, fun _ h => h.elim (fun h => nomatch h) (fun h => nomatch h), fun _ _ => rfl⟩
    exact key _ rfl rfl

/-! ### Runs -/

theorem State.modCore_at' (s : State) (n : Fin 32) (f : CoreState → CoreState) : (s.modCore n f).core n = f (s.core n) := vget_vmod_same n.isLt

theorem State.modRun_at (s : State) (g : Fin 64) (f : RunState → RunState) : (s.modRun g f).run g = f (s.run g) := vget_vmod_same g.isLt

theorem State.run_eq {s t : State} (g : Nat) (h : t.sched = s.sched) : t.run g = s.run g := by rw [State.run, State.run, h]

theorem State.failRun_run (s : State) (g : Fin 64) : (s.failRun g).run g = { s.run g with failed := true } ∧
    (s.failRun g).sched.failed = s.sched.failed ||| BitVec.twoPow 64 g ∧ (s.failRun g).cores = s.cores := by
  unfold State.failRun
  dsimp only
  split
  · generalize hx : ({ s with sched := { s.sched with failed := s.sched.failed ||| BitVec.twoPow 64 g, runs := vmod s.sched.runs g fun r => { r with failed := true } } } : State) = x
    have e : (x.addDoubt 5).sched = x.sched := (State.addDoubt_rel x 5).frame .sched (by decide)
    have ec : (x.addDoubt 5).cores = x.cores := (State.addDoubt_rel x 5).frame .cores (by decide)
    rw [State.run_eq _ e, e, ec]
    subst hx
    exact ⟨vget_vmod_same g.isLt, rfl, rfl⟩
  · exact ⟨vget_vmod_same g.isLt, rfl, rfl⟩

theorem State.event_run (s : State) (c d g : Nat) : (s.event c d).run g = s.run g := State.run_eq g ((State.event_rel s c d).frame .sched (by decide))

theorem State.noteDone_run (s : State) (g h : Nat) : (s.noteDone g).run h = s.run h := by
  unfold State.noteDone
  split <;> rfl

/-- A retirement adds the descriptor to the retired ones of its run, and keeps what is noted as equal. -/
theorem State.retireDesc_run (s : State) (g : Fin 64) (c k : Nat) :
    ((s.retireDesc g c k).run g).retired = (c, k) :: (s.run g).retired ∧ ((s.retireDesc g c k).run g).equal = (s.run g).equal := by
  unfold State.retireDesc
  dsimp only
  generalize hu : (State.modRun _ g.val fun r => { r with retired := (c, k) :: r.retired }) = u
  have eu : (u.run g).retired = (c, k) :: (s.run g).retired ∧ (u.run g).equal = (s.run g).equal := by
    subst hu
    rw [State.modRun_at]
    exact ⟨rfl, rfl⟩
  have fin : ∀ (v w : State), w = v ∨ w = v.goldenDone c → (v.run g).retired = (c, k) :: (s.run g).retired ∧ (v.run g).equal = (s.run g).equal →
      ((w.noteDone g).run g).retired = (c, k) :: (s.run g).retired ∧ ((w.noteDone g).run g).equal = (s.run g).equal := by
    intro v w hw hv
    rw [State.noteDone_run]
    rcases hw with rfl | rfl <;> exact hv
  have either : ∀ (p : Prop) [Decidable p] (a b : State), (if p then a else b) = b ∨ (if p then a else b) = a := by
    intro p _ a b
    split
    · exact .inr rfl
    · exact .inl rfl
  refine fin (if dOp s.graB g k = 0x52 ∧ s.checksumOk g c k = false then
      if s.isGolden g then (u.event 0x4101 (g + 256)).modRun g fun r => { r with skipped := (c, k) :: r.skipped } else (u.event 0x4101 (g + 256)).failRun g
    else if dOp s.graB g k = 0x51 ∧ s.envelopeOk g c k = false then (u.event 0x4101 g).failRun g else u) _ (either _ _ _) ?_
  · split
    · split
      · rw [State.modRun_at, State.event_run]
        exact eu
      · rw [(State.failRun_run _ g).1, State.event_run]
        exact eu
    · split
      · rw [(State.failRun_run _ g).1, State.event_run]
        exact eu
      · exact eu

theorem State.charge_sched (s : State) (n cls : Nat) (e : Rat) : (s.charge n cls e).sched.charged = s.sched.charged + e * s.sched.costScale ∧
    (s.charge n cls e).sched.unscaled = s.sched.unscaled + e ∧ (s.charge n cls e).engs = s.engs ∧ (s.charge n cls e).cores = s.cores := ⟨rfl, rfl, rfl, rfl⟩

/-! ### Power windows -/

theorem State.clockCore_core (s : State) (n : Nat) (hn : n < 32) : ∃ k, (s.clockCore n).core n = { s.core n with clk := k } := by
  unfold State.clockCore
  dsimp only
  split
  · exact ⟨_, rfl⟩
  · split
    · exact ⟨_, vget_vmod_same hn⟩
    · split
      · exact ⟨_, rfl⟩
      · exact ⟨_, congrArg (fun c => vget c n CoreState.default) ((State.event_rel ..).frame .cores (by decide))⟩

theorem State.setCorePower_core (s : State) (n ps : Nat) (hn : n < 32) : (s.setCorePower n ps).core n = (s.core n).setPower s.beat ps := by
  unfold State.setCorePower
  dsimp only
  split <;> exact vget_vmod_same hn

theorem CoreState.setPower_retired (c : CoreState) (b ps : Nat) : (c.setPower b ps).retired = c.retired := by
  unfold CoreState.setPower
  split
  · rfl
  · split
    · split <;> rfl
    · split <;> rfl
    · rfl

theorem CoreState.setPower_off (c : CoreState) (b : Nat) : (c.setPower b 2).pwr = .off := by
  cases h : c.retired <;> simp [CoreState.setPower, h]

/-- The loss of one core leaves whether another is retired. -/
theorem State.coreFault_retired (s : State) (m : Nat) (g : BitVec 4) (unit : Nat) (n : Fin 32) :
    ((s.coreFault m g unit).core n).retired = ((s.core n).retired || decide (m = n.val)) := by
  unfold State.coreFault
  split
  · rename_i h
    by_cases hm : m = n.val
    · subst hm
      simp [h]
    · simp [hm]
  · dsimp only
    generalize hu : (State.raiseCore _ _ _ _ _ : State) = u
    have e : u.cores = s.cores := by
      subst hu
      exact (State.raiseCore_rel ..).frame .cores (by decide)
    generalize hv : (State.modCoreEngs _ _ _ : State) = v
    have ev : (v.core n).retired = ((s.core n).retired || decide (m = n.val)) := by
      subst hv
      show (vget (vmod u.cores m _) n CoreState.default).retired = _
      by_cases hm : m = n.val
      · subst hm
        rw [vget_vmod_same n.isLt]
        simp
      · rw [vget_vmod_other hm, e]
        simp [hm, State.core]
    have ec : (v.loseCore m).core n = v.core n := congrArg (fun c => vget c n.val CoreState.default) ((State.loseCore_rel v m).frame .cores (by decide))
    rw [ec, ev]

theorem State.raise_pwr (s : State) (a : Nat) (c : FaultClass) (i : Nat) : (s.raise a c i).pwr = s.pwr := (State.raise_rel ..).frame .pwr (by decide)

theorem State.regUnread_errors (s : State) (i : Nat) : (s.regUnread i).pwr.errors = s.pwr.errors := by
  unfold State.regUnread
  dsimp only
  split
  · split
    · rw [State.raise_pwr]
    · rfl
  · rfl

theorem State.currentCheck_pwr (s : State) (n : Nat) : (s.currentCheck n).pwr.errors = s.pwr.errors ∧ (s.currentCheck n).pwr.i10ma = n := by
  unfold State.currentCheck
  dsimp only
  generalize (if decide (icoreTrip s.powB * 100 < n) = true then s.pwr.overRun + 1 else 0) = k
  split
  · rw [State.raise_pwr]
    exact ⟨rfl, rfl⟩
  · exact ⟨rfl, rfl⟩

theorem State.voltageCheck_pwr (s : State) : s.voltageCheck.pwr.errors = s.pwr.errors ∧ s.voltageCheck.pwr.i10ma = s.pwr.i10ma := by
  unfold State.voltageCheck
  split
  · exact ⟨rfl, rfl⟩
  · split
    · exact ⟨rfl, rfl⟩
    · split
      · rw [State.raise_pwr]
        exact ⟨rfl, rfl⟩
      · exact ⟨rfl, rfl⟩

/-! ### Safe inputs and encoders -/

theorem State.modInp_at (s : State) (i : Fin 8) (f : SafeInput → SafeInput) : ({ s with si := vmod s.si i f } : State).inp i = f (s.inp i) := vget_vmod_same i.isLt

theorem State.inp_eq {s t : State} (i : Nat) (h : t.si = s.si) : t.inp i = s.inp i := by rw [State.inp, State.inp, h]

theorem State.demand_inp (s : State) (i : Fin 8) : (s.demand i).inp i = { s.inp i with on := false, demands := satInc 65535 (s.inp i).demands } := by
  unfold State.demand
  dsimp only
  generalize hu : (State.event _ 0x1100 i.val : State) = u
  have e : u.inp i = { s.inp i with on := false, demands := satInc 65535 (s.inp i).demands } := by
    subst hu
    exact (State.inp_eq _ ((State.event_rel ..).frame .si (by decide))).trans (State.modInp_at ..)
  split
  · exact e
  · split
    · split
      · exact e
      · exact (State.inp_eq _ ((State.raise_rel ..).frame .si (by decide))).trans e
    · exact e

theorem State.lock_inp (s : State) (i : Fin 8) (c : Nat) : ((s.lock i c).inp i).locked = true ∧ ((s.lock i c).inp i).lockCause = c ∧
    ((s.lock i c).inp i).unlockArmed = false ∧ ((s.lock i c).inp i).on = false := by
  unfold State.lock
  dsimp only
  split
  · rw [State.demand_inp, State.modInp_at]
    exact ⟨rfl, rfl, rfl, rfl⟩
  · rename_i h
    rw [State.modInp_at]
    exact ⟨rfl, rfl, rfl, by simpa using h⟩

theorem State.lock_other (s : State) (i : Nat) (j : Fin 8) (c : Nat) (h : i ≠ j.val) : (s.lock i c).inp j = s.inp j := by
  have d : ∀ u : State, (u.demand i).inp j = u.inp j := by
    intro u
    unfold State.demand
    dsimp only
    generalize hv : (State.event _ 0x1100 i : State) = v
    have e : v.inp j = u.inp j := by
      subst hv
      exact (State.inp_eq _ ((State.event_rel ..).frame .si (by decide))).trans (vget_vmod_other h)
    split
    · exact e
    · split
      · split
        · exact e
        · exact (State.inp_eq _ ((State.raise_rel ..).frame .si (by decide))).trans e
      · exact e
  unfold State.lock
  dsimp only
  split
  · rw [d]
    exact vget_vmod_other h
  · exact vget_vmod_other h

theorem State.lockFault_effect (s : State) (i : Fin 8) (f : SafeInput → SafeInput) (hf : ∀ x, (f x).on = x.on) (code cause : Nat) (t : State)
    (ht : t = ({ s with si := vmod s.si i f } : State).lockFault i code cause) :
    (t.inp i).locked = true ∧ (t.inp i).lockCause = cause ∧ (t.inp i).unlockArmed = false ∧ (t.inp i).on = false ∧
      ((s.inp i).on = false → Reacts s (4 + i.val / 4) .uc (i.val % 4 * 256 + code) t) := by
  subst ht
  unfold State.lockFault
  generalize hu : (State.raise _ (siSource i) .uc (siInfo i code) : State) = u
  have l := u.lock_inp i cause
  refine ⟨l.1, l.2.1, l.2.2.1, l.2.2.2, fun ho => ?_⟩
  have e : (u.inp i).on = false := by
    subst hu
    rw [State.inp_eq _ ((State.raise_rel ..).frame .si (by decide)), State.modInp_at, hf]
    exact ho
  have r : Reacts s (4 + i.val / 4) .uc (i.val % 4 * 256 + code) u := by
    subst hu
    exact (State.raise_reacts _ _ .uc _ (by show 4 + i.val / 4 < 128; omega)).source rfl rfl
  rw [State.lock, if_neg (by simp [e])]
  exact r.of_eq rfl rfl

theorem State.modGrp_at (s : State) (g : Fin 4) (f : OutGroup → OutGroup) : (s.modGrp g f).grp g = f (s.grp g) := vget_vmod_same g.isLt

/-- One step of the faults of an encoder: its flag set and its fault raised, if it is due. -/
theorem State.encFault_step (s : State) (e : Fin 2) (d : Bool) (f : Encoder → Encoder) (code : Nat) (t : State)
    (ht : t = if d then ({ s with enc := { s.enc with enc := vmod s.enc.enc e f } } : State).raise (7 + e) .uc (e * 256 + code) else s) :
    t.encAt e = (if d then f (s.encAt e) else s.encAt e) ∧ (d = true → Reacts s (7 + e.val) .uc (e.val * 256 + code) t) ∧ (d = false → t = s) := by
  subst ht
  cases d with
  | false => exact ⟨rfl, fun h => (nomatch h), fun _ => rfl⟩
  | true =>
    refine ⟨?_, fun _ => (State.raise_reacts _ _ .uc _ (by omega)).source rfl rfl, fun h => (nomatch h)⟩
    exact (congrArg (fun x : EncState => vget x.enc e.val Encoder.default) ((State.raise_rel ..).frame .enc (by decide))).trans (vget_vmod_same e.isLt)

/-! ### Grid writes -/

theorem State.gridErr_grid (s : State) (n : Nat) : ∃ e, (s.gridErr n).grid = { s.grid with err := e } := by
  unfold State.gridErr
  split
  · exact ⟨_, rfl⟩
  · exact ⟨_, (State.event_rel ({ s with grid := { s.grid with err := s.grid.err ||| BitVec.twoPow 8 n } } : State) 0x5100 (2 ^ n)).frame .grid (by decide)⟩

theorem State.gridErr_set (s : State) (n : Nat) (h : n < 8) : (s.gridErr n).grid.err.getLsbD n = true := by
  unfold State.gridErr
  split
  · assumption
  · have e : (({ s with grid := { s.grid with err := s.grid.err ||| BitVec.twoPow 8 n } } : State).event 0x5100 (2 ^ n)).grid =
        { s.grid with err := s.grid.err ||| BitVec.twoPow 8 n } := (State.event_rel ..).frame .grid (by decide)
    rw [e]
    simp [h]

theorem State.late_effect (s : State) (n g : Nat) (h : n < 8) (t : State) (ht : t = (s.gridErr n).checkFailed g) :
    t.grid.err.getLsbD n = true ∧ (∃ e, t.grid = { s.grid with err := e }) ∧ t.sched.failed = s.sched.failed ||| BitVec.twoPow 64 g := by
  subst ht
  have e1 : ((s.gridErr n).checkFailed g).grid = (s.gridErr n).grid := (State.checkFailed_rel ..).frame .grid (by decide)
  have e2 : (s.gridErr n).sched = s.sched := (State.gridErr_rel ..).frame .sched (by decide)
  have e3 : ((s.gridErr n).checkFailed g).sched = { (s.gridErr n).sched with failed := (s.gridErr n).sched.failed ||| BitVec.twoPow 64 g } :=
    (State.addDoubt_rel ..).frame .sched (by decide)
  rw [e1, e3, e2]
  exact ⟨State.gridErr_set s n h, s.gridErr_grid n, rfl⟩

theorem State.foldl_claims {α : Type} (f : State → α → State)
    (h : ∀ t c, (f t c).grid.claimQ = t.grid.claimQ ∧ (f t c).grid.wbuf = t.grid.wbuf ∧ (f t c).grid.claims = t.grid.claims) :
    ∀ (l : List α) (x : State), (l.foldl f x).grid.claimQ = x.grid.claimQ ∧ (l.foldl f x).grid.wbuf = x.grid.wbuf ∧ (l.foldl f x).grid.claims = x.grid.claims
  | [], _ => ⟨rfl, rfl, rfl⟩
  | c :: l, x => by
    have i := State.foldl_claims f h l (f x c)
    rw [(h x c).1, (h x c).2.1, (h x c).2.2] at i
    exact i

/-! ### Memories -/

/-- The memory that a place is in, and its address. -/
theorem Mem.readN_writeN {m : Mem} (a : Nat) (bs : List Byte) (h : m.wf = true) : (m.writeN a bs).readN a bs.length = bs := by
  refine List.ext_getElem (by simp [Mem.readN, upto]) fun i h1 h2 => ?_
  simp only [Mem.readN, upto, List.getElem_map, List.getElem_range]
  exact Mem.read_writeN bs h2 h

/-- Two states have the same memories. -/
structure SameMem (s t : State) : Prop where
  gddr : t.gddrMem = s.gddrMem
  engs : ∀ j, (t.eng j).sram = (s.eng j).sram
  cores : ∀ j, (t.core j).sram = (s.core j).sram

theorem SameMem.trans {s t u : State} (h : SameMem s t) (k : SameMem t u) : SameMem s u :=
  ⟨k.gddr.trans h.gddr, fun j => (k.engs j).trans (h.engs j), fun j => (k.cores j).trans (h.cores j)⟩

theorem SameMem.modEng (s : State) (g : Nat) (f : EngState → EngState) (h : ∀ e, (f e).sram = e.sram) : SameMem s (s.modEng g f) := by
  refine ⟨rfl, fun j => ?_, fun j => rfl⟩
  show (vget (vmod s.engs g f) j EngState.default).sram = (vget s.engs j EngState.default).sram
  by_cases e : j = g
  · subst e
    by_cases hj : j < 128
    · rw [vget_vmod_same hj, h]
    · simp [vget, vmod, hj]
  · rw [vget_vmod_other (Ne.symm e)]

theorem SameMem.modCore (s : State) (g : Nat) (f : CoreState → CoreState) (h : ∀ e, (f e).sram = e.sram) : SameMem s (s.modCore g f) := by
  refine ⟨rfl, fun j => rfl, fun j => ?_⟩
  show (vget (vmod s.cores g f) j CoreState.default).sram = (vget s.cores j CoreState.default).sram
  by_cases e : j = g
  · subst e
    by_cases hj : j < 32
    · rw [vget_vmod_same hj, h]
    · simp [vget, vmod, hj]
  · rw [vget_vmod_other (Ne.symm e)]

theorem SameMem.memRead {s t : State} (h : SameMem s t) (g n : Nat) (l : MemLoc) : t.memRead g n l = s.memRead g n l := by
  cases l <;> simp [State.memRead, h.gddr, h.engs, h.cores]

end Sys2Proof.Machine
end

