-- ==== Sys2Proof/Laws/EffectsStreams.lean ====
section
/-!
SUPPORT. Lemmas about what commands do to contexts, streams, events, the journal, the Ethernet ports and the pair link.
-/
namespace Sys2Proof.Machine

set_option Elab.async false

/-! ### Frames, streams and claim records -/

theorem State.img_of {s t : State} (hl : t.ldr = s.ldr) : t.img = s.img := by simp only [State.img, hl]

theorem State.sec_of {s t : State} (hl : t.ldr = s.ldr) (k : Nat) : t.sec k = s.sec k := by simp only [State.sec, State.img_of hl]

theorem State.strB_of {s t : State} (hl : t.ldr = s.ldr) : t.strB = s.strB := State.sec_of hl 2

theorem State.role_of {s t : State} (p : Nat) (hl : t.ldr = s.ldr) : t.role p = s.role p := by simp only [State.role, State.img_of hl, State.strB_of hl]

theorem State.camTx_of {s t : State} (p : Nat) (hl : t.ldr = s.ldr) (hp : t.pwr = s.pwr) : t.camTx p = s.camTx p := by
  simp only [State.camTx, State.role_of p hl, State.strB_of hl, hp]

theorem State.camRx_of {s t : State} (p : Nat) (hl : t.ldr = s.ldr) (hp : t.pwr = s.pwr) : t.camRx p = s.camRx p := by
  simp only [State.camRx, State.role_of p hl, hp]

theorem State.camByte_of {s t : State} (c o : Nat) (hl : t.ldr = s.ldr) : t.camByte c o = s.camByte c o := by
  show ({ s with ldr := t.ldr } : State).camByte c o = _
  rw [hl]

theorem State.crB_of {s t : State} (hl : t.ldr = s.ldr) : t.crB = s.crB := by
  show ({ s with ldr := t.ldr } : State).crB = _
  rw [hl]

theorem State.crocusRec_of {s t : State} (p : Nat) (hl : t.ldr = s.ldr) : t.crocusRec p = s.crocusRec p := by
  show ({ s with ldr := t.ldr } : State).crocusRec p = _
  rw [hl]

theorem State.ctxUsed_of {s t : State} (x : Nat) (hl : t.ldr = s.ldr) : t.ctxUsed x = s.ctxUsed x := by
  show ({ s with ldr := t.ldr } : State).ctxUsed x = _
  rw [hl]

theorem State.crByte_of {s t : State} (p o : Nat) (hl : t.ldr = s.ldr) : t.crByte p o = s.crByte p o := by
  show ({ s with ldr := t.ldr } : State).crByte p o = _
  rw [hl]

theorem State.crHalf_of {s t : State} (p o : Nat) (hl : t.ldr = s.ldr) : t.crHalf p o = s.crHalf p o := by
  show ({ s with ldr := t.ldr } : State).crHalf p o = _
  rw [hl]

theorem State.crMode_of {s t : State} (p : Nat) (hl : t.ldr = s.ldr) : t.crMode p = s.crMode p := by
  show ({ s with ldr := t.ldr } : State).crMode p = _
  rw [hl]

theorem State.crTInj_of {s t : State} (p f : Nat) (hl : t.ldr = s.ldr) : t.crTInj p f = s.crTInj p f := by
  show ({ s with ldr := t.ldr } : State).crTInj p f = _
  rw [hl]

theorem State.crDeadline_of {s t : State} (p : Nat) (hl : t.ldr = s.ldr) : t.crDeadline p = s.crDeadline p := by
  show ({ s with ldr := t.ldr } : State).crDeadline p = _
  rw [hl]

theorem State.crocusVc_of {s t : State} (p vc : Nat) (hl : t.ldr = s.ldr) : t.crocusVc p vc = s.crocusVc p vc := by
  show ({ s with ldr := t.ldr } : State).crocusVc p vc = _
  rw [hl]

theorem State.crocusCtx_of {s t : State} (p : Nat) (hl : t.ldr = s.ldr) : t.crocusCtx p = s.crocusCtx p := by
  show ({ s with ldr := t.ldr } : State).crocusCtx p = _
  rw [hl]

/-- What an operation on one context leaves alone. -/
structure CtxStep (s t : State) : Prop where
  ldr : t.ldr = s.ldr
  pwr : t.pwr = s.pwr
  beat : t.beat = s.beat
  time : t.time = s.time
  sched : t.sched = s.sched
  ports : t.io.ports = s.io.ports
  crocus : t.io.crocus = s.io.crocus

theorem CtxStep.refl (s : State) : CtxStep s s := ⟨rfl, rfl, rfl, rfl, rfl, rfl, rfl⟩

theorem CtxStep.trans {s t u : State} (h : CtxStep s t) (h' : CtxStep t u) : CtxStep s u :=
  ⟨h'.ldr.trans h.ldr, h'.pwr.trans h.pwr, h'.beat.trans h.beat, h'.time.trans h.time, h'.sched.trans h.sched, h'.ports.trans h.ports, h'.crocus.trans h.crocus⟩

theorem CtxStep.event (s : State) (c d : Nat) : CtxStep s (s.event c d) :=
  have r := State.event_rel s c d
  ⟨r.frame .ldr (by decide), r.frame .pwr (by decide), r.frame .beat (by decide), r.frame .time (by decide), r.frame .sched (by decide),
    congrArg (fun x : StreamState => x.ports) (r.frame .io (by decide)), congrArg (fun x : StreamState => x.crocus) (r.frame .io (by decide))⟩

theorem CtxStep.modCtx (s : State) (x : Nat) (f : CtxState → CtxState) : CtxStep s (s.modCtx x f) := ⟨rfl, rfl, rfl, rfl, rfl, rfl, rfl⟩

theorem State.ctxAt_event (s : State) (c d x : Nat) : (s.event c d).ctxAt x = s.ctxAt x :=
  congrArg (fun i : StreamState => vget i.ctx x CtxState.default) ((State.event_rel s c d).frame .io (by decide))

theorem State.ctxAt_modCtx_same (s : State) {x : Nat} (f : CtxState → CtxState) (h : x < 64) : (s.modCtx x f).ctxAt x = f (s.ctxAt x) :=
  vget_vmod_same h

theorem State.ctxAt_modCtx_other (s : State) {x y : Nat} (f : CtxState → CtxState) (h : x ≠ y) : (s.modCtx x f).ctxAt y = s.ctxAt y :=
  vget_vmod_other h

theorem State.badFrame_step (s : State) (x : Nat) : CtxStep s (s.badFrame x) := (CtxStep.modCtx ..).trans (CtxStep.event ..)

theorem State.badFrame_other (s : State) {x y : Nat} (h : x ≠ y) : (s.badFrame x).ctxAt y = s.ctxAt y :=
  (State.ctxAt_event ..).trans (State.ctxAt_modCtx_other _ _ h)

theorem State.badFrame_same (s : State) {x : Nat} (h : x < 64) : (s.badFrame x).ctxAt x =
    { s.ctxAt x with isOpen := false, badFrames := satInc 65535 (s.ctxAt x).badFrames, err := (s.ctxAt x).err ||| (s.ctxAt x).curErr } :=
  (State.ctxAt_event ..).trans (State.ctxAt_modCtx_same _ _ h)

theorem State.ctxFrameStart_step (s : State) (x n : Nat) : CtxStep s (s.ctxFrameStart x n) := by
  refine CtxStep.trans ?_ (CtxStep.modCtx ..)
  split
  · exact (CtxStep.modCtx ..).trans (State.badFrame_step ..)
  · exact .refl _

theorem State.ctxFrameStart_other (s : State) {x y : Nat} (n : Nat) (h : x ≠ y) : (s.ctxFrameStart x n).ctxAt y = s.ctxAt y := by
  refine (State.ctxAt_modCtx_other _ _ h).trans ?_
  split
  · exact (State.badFrame_other _ h).trans (State.ctxAt_modCtx_other _ _ h)
  · rfl

theorem State.ctxFrameStart_same (s : State) {x : Nat} (n : Nat) (h : x < 64) :
    ((s.ctxFrameStart x n).ctxAt x).isOpen = true ∧ ((s.ctxFrameStart x n).ctxAt x).frameNo = n ∧ ((s.ctxFrameStart x n).ctxAt x).fsBeat = s.beat ∧
    ((s.ctxFrameStart x n).ctxAt x).lines = 0 ∧ (((s.ctxFrameStart x n).ctxAt x).curErr.getLsbD 1 = true ↔ frameNoOk (s.ctxAt x).prevNo n = false) := by
  have e : ∃ (u : State) (late : Bool), CtxStep s u ∧ (u.ctxAt x).prevNo = (s.ctxAt x).prevNo ∧ (s.ctxFrameStart x n).ctxAt x = { u.ctxAt x with
      isOpen := true, frameNo := n, prevNo := some n, fsBeat := s.beat, fsTime := s.time.now, lines := 0
      writing := (u.ctxAt x).delivered % max 1 (cBufs s.strB x)
      curErr := (if frameNoOk (u.ctxAt x).prevNo n then 0 else 2) ||| (if late then 16 else 0) } := by
    refine ⟨if (s.ctxAt x).isOpen then (s.modCtx x fun c => { c with curErr := c.curErr ||| 8 }).badFrame x else s, _, ?_, ?_, State.ctxAt_modCtx_same _ _ h⟩
    · split
      · exact (CtxStep.modCtx ..).trans (State.badFrame_step ..)
      · exact .refl _
    · split
      · rw [State.badFrame_same _ h, State.ctxAt_modCtx_same _ _ h]
      · rfl
  obtain ⟨u, late, a, b, e⟩ := e
  rw [e, b]
  refine ⟨rfl, rfl, rfl, rfl, ?_⟩
  dsimp only
  cases frameNoOk (s.ctxAt x).prevNo n <;> cases late <;> decide

theorem State.ctxFrameEnd_step (s : State) (x n : Nat) : CtxStep s (s.ctxFrameEnd x n) := by
  unfold State.ctxFrameEnd
  split
  · dsimp only
    split
    · exact (CtxStep.modCtx ..).trans (CtxStep.modCtx ..)
    · exact (CtxStep.modCtx ..).trans (State.badFrame_step ..)
  · exact .refl _

theorem State.ctxFrameEnd_other (s : State) {x y : Nat} (n : Nat) (h : x ≠ y) : (s.ctxFrameEnd x n).ctxAt y = s.ctxAt y := by
  unfold State.ctxFrameEnd
  split
  · dsimp only
    split
    · exact (State.ctxAt_modCtx_other _ _ h).trans (State.ctxAt_modCtx_other _ _ h)
    · exact (State.badFrame_other _ h).trans (State.ctxAt_modCtx_other _ _ h)
  · rfl

theorem State.ctxFrameEnd_same (s : State) {x : Nat} (n : Nat) (h : x < 64) (ho : (s.ctxAt x).isOpen = true) (t : CtxState) (ht : t = (s.ctxFrameEnd x n).ctxAt x) :
    t.isOpen = false ∧
    ((s.ctxAt x).curErr = 0 → (s.ctxAt x).lines = cLines s.strB x → (s.ctxAt x).frameNo = n →
      t.complete = true ∧ t.newest = (s.ctxAt x).writing ∧ t.delivered = (s.ctxAt x).delivered + 1 ∧ t.doneBeat = s.beat) ∧
    (((s.ctxAt x).curErr ≠ 0 ∨ (s.ctxAt x).lines ≠ cLines s.strB x ∨ (s.ctxAt x).frameNo ≠ n) →
      t.newest = (s.ctxAt x).newest ∧ t.delivered = (s.ctxAt x).delivered ∧ t.badFrames = satInc 65535 (s.ctxAt x).badFrames) := by
  subst ht
  simp only [State.ctxFrameEnd, ho, if_true, State.ctxAt_modCtx_same s _ h]
  generalize hq : (s.ctxAt x).curErr ||| (if (s.ctxAt x).lines = cLines s.strB x then 0 else 4) ||| (if (s.ctxAt x).frameNo = n then 0 else 8) = q
  have hz : q = 0 ↔ (s.ctxAt x).curErr = 0 ∧ (s.ctxAt x).lines = cLines s.strB x ∧ (s.ctxAt x).frameNo = n := by
    subst hq
    generalize (s.ctxAt x).curErr = c
    by_cases h1 : (s.ctxAt x).lines = cLines s.strB x <;> by_cases h2 : (s.ctxAt x).frameNo = n <;> simp only [h1, h2, if_true, if_false] <;> revert c <;> decide
  by_cases h0 : q = 0
  · rw [if_pos h0, State.ctxAt_modCtx_same _ _ h, State.ctxAt_modCtx_same s _ h]
    have hz := hz.1 h0
    refine ⟨rfl, fun _ _ _ => ⟨rfl, rfl, rfl, rfl⟩, fun hn => absurd hz ?_⟩
    rintro ⟨a, b, c⟩
    rcases hn with hn | hn | hn
    · exact hn a
    · exact hn b
    · exact hn c
  · rw [if_neg h0, State.badFrame_same _ h, State.ctxAt_modCtx_same s _ h]
    exact ⟨rfl, fun a b c => absurd (hz.2 ⟨a, b, c⟩) h0, fun _ => ⟨rfl, rfl, rfl⟩⟩

/-- An operation on each of some contexts. -/
theorem State.foldl_ctx (f : State → Nat → State) (hs : ∀ t x, CtxStep t (f t x)) (ho : ∀ t x y, x ≠ y → (f t x).ctxAt y = t.ctxAt y) :
    ∀ (l : List Nat) (s : State), CtxStep s (l.foldl f s) ∧ (∀ y, y ∉ l → (l.foldl f s).ctxAt y = s.ctxAt y) ∧
      (l.Nodup → ∀ x ∈ l, ∃ u, CtxStep s u ∧ u.ctxAt x = s.ctxAt x ∧ (l.foldl f s).ctxAt x = (f u x).ctxAt x)
  | [], s => ⟨.refl _, fun _ _ => rfl, fun _ _ h => nomatch h⟩
  | a :: l, s => by
    obtain ⟨i, j, k⟩ := State.foldl_ctx f hs ho l (f s a)
    refine ⟨(hs s a).trans i, fun y hy => ?_, fun hn x hx => ?_⟩
    · simp only [List.mem_cons, not_or] at hy
      exact (j y hy.2).trans (ho s a y fun e => hy.1 e.symm)
    · have hn := List.nodup_cons.1 hn
      rcases List.mem_cons.1 hx with rfl | hx
      · exact ⟨s, .refl _, rfl, j x hn.1⟩
      · obtain ⟨u, c, d, e⟩ := k hn.2 x hx
        exact ⟨u, (hs s a).trans c, d.trans (ho s a x fun e => hn.1 (e ▸ hx)), e⟩

theorem State.ctxOn_nodup (s : State) (p vc : Nat) : (s.ctxOn p vc).Nodup := List.nodup_range.filter _

theorem State.ctxOn_lt {s : State} {p vc x : Nat} (h : x ∈ s.ctxOn p vc) : x < 64 := by
  simp only [State.ctxOn, upto, List.mem_filter, List.mem_range] at h
  exact h.1

theorem State.port_modPort_same (s : State) {p : Nat} (f : PortState → PortState) (h : p < 16) : (s.modPort p f).port p = f (s.port p) :=
  vget_vmod_same h

theorem State.ctxLine_step (s : State) (x : Nat) (l : List Nat) : CtxStep s (s.ctxLine x l) := CtxStep.modCtx ..

/-- What a line does in one context. -/
def lineIn (k : LongPkt) (t : State) (x : Nat) (dt : Nat) : State :=
  if (t.ctxAt x).isOpen then
    if dt == k.dt then (if k.crcOk then t else t.modCtx x fun c => { c with curErr := c.curErr ||| 1 }).ctxLine x k.samples
    else if k.crcOk then t else t.modCtx x fun c => { c with curErr := c.curErr ||| 1 }
  else t

theorem lineIn_step (k : LongPkt) (t : State) (x dt : Nat) : CtxStep t (lineIn k t x dt) := by
  have h : CtxStep t (if k.crcOk then t else t.modCtx x fun c => { c with curErr := c.curErr ||| 1 }) := by
    split
    · exact .refl _
    · exact CtxStep.modCtx ..
  unfold lineIn
  split
  · split
    · exact h.trans (State.ctxLine_step ..)
    · exact h
  · exact .refl _

theorem lineIn_other (k : LongPkt) (t : State) (x dt y : Nat) (hn : x ≠ y) : (lineIn k t x dt).ctxAt y = t.ctxAt y := by
  have h : (if k.crcOk then t else t.modCtx x fun c => { c with curErr := c.curErr ||| 1 }).ctxAt y = t.ctxAt y := by
    split
    · rfl
    · exact State.ctxAt_modCtx_other _ _ hn
  unfold lineIn
  split
  · split
    · exact (State.ctxAt_modCtx_other _ _ hn).trans h
    · exact h
  · rfl

theorem lineIn_same (k : LongPkt) (t : State) (x dt : Nat) (h : x < 64) (ho : (t.ctxAt x).isOpen = true) :
    (((lineIn k t x dt).ctxAt x).curErr = if k.crcOk then (t.ctxAt x).curErr else (t.ctxAt x).curErr ||| 1) ∧
    (((lineIn k t x dt).ctxAt x).lines = if dt = k.dt then (t.ctxAt x).lines + 1 else (t.ctxAt x).lines) := by
  rw [lineIn, if_pos ho]
  by_cases hd : dt = k.dt
  · rw [if_pos (by simpa using hd), State.ctxLine]
    rw [State.ctxAt_modCtx_same _ _ h, if_pos hd]
    cases k.crcOk
    · simp [State.ctxAt_modCtx_same _ _ h]
    · simp
  · rw [if_neg (by simpa using hd), if_neg hd]
    cases k.crcOk
    · simp [State.ctxAt_modCtx_same _ _ h]
    · simp

theorem State.header_bad (s : State) (p : Nat) (hp : p < 16) :
    ((s.header p .uncorrectable).port p).out = (s.port p).out ∧ ((s.header p .uncorrectable).port p).err = (s.port p).err ||| 16 ∧
      ∀ x < 64, s.ctxUsed x = true → cPort s.strB x = p → (s.ctxAt x).isOpen = true → ((s.header p .uncorrectable).ctxAt x).curErr = (s.ctxAt x).curErr ||| 1 := by
  obtain ⟨a, b, c⟩ := State.foldl_ctx (fun t x => t.modCtx x fun c => { c with curErr := c.curErr ||| 1 }) (fun t x => CtxStep.modCtx ..)
    (fun t x y h => State.ctxAt_modCtx_other _ _ h) ((upto 64).filter fun x => s.ctxUsed x && cPort s.strB x == p && (s.ctxAt x).isOpen) (s.modPort p fun x => { x with err := x.err ||| 16 })
  have e : (s.header p .uncorrectable).port p = (s.modPort p fun x => { x with err := x.err ||| 16 }).port p := congrArg (fun v => vget v p PortState.reset) a.ports
  rw [State.port_modPort_same _ _ hp] at e
  refine ⟨by rw [e], by rw [e], fun x hx h1 h2 h3 => ?_⟩
  obtain ⟨u, _, h4, h5⟩ := c (List.nodup_range.filter _) x (by simp [upto, hx, h1, h2, h3])
  refine (congrArg (·.curErr) h5).trans ?_
  rw [State.ctxAt_modCtx_same _ _ hx, h4]
  rfl

theorem State.deferral_io (s : State) (p : Nat) : ∃ c, (s.deferral p).io = { s.io with crocus := c } := by
  unfold State.deferral
  dsimp only
  split
  · exact ⟨_, ((State.addDoubt_rel ..).frame .io (by decide)).trans ((State.event_rel ..).frame .io (by decide))⟩
  · exact ⟨_, (State.event_rel ..).frame .io (by decide)⟩

theorem State.margin_ports (s : State) (p vc dt line : Nat) (l : List Byte) :
    (s.margin p vc dt line l).1.io.ports = s.io.ports ∧ (s.margin p vc dt line l).1.io.ctx = s.io.ctx := by
  have h : ∃ c, (s.margin p vc dt line l).1.io = { s.io with crocus := c } := by
    unfold State.margin
    dsimp only
    split
    · split
      · split
        · split
          · exact ⟨_, rfl⟩
          · split <;> exact ⟨_, rfl⟩
        · exact ⟨_, rfl⟩
      · split
        · exact s.deferral_io p
        · exact ⟨_, rfl⟩
    · exact ⟨_, rfl⟩
  obtain ⟨c, h⟩ := h
  rw [h]
  exact ⟨rfl, rfl⟩

theorem State.crocus_modCrocus (s : State) {p : Nat} (f : CrocusState → CrocusState) (h : p < 16) : (s.modCrocus p f).crocus p = f (s.crocus p) :=
  vget_vmod_same h

theorem State.deferral_effect (s : State) {p : Nat} (h : p < 16) :
    (s.deferral p).crocus p = { s.crocus p with skip := satInc 255 (s.crocus p).skip, owed := false, staging := none, staged := none } ∧
    ((s.crocusRec p).isSome = true → s.crByte p 3 < satInc 255 (s.crocus p).skip → (s.deferral p).watch.causes.getLsbD 3 = true) := by
  have e : ∀ u : State, u.io = (s.modCrocus p fun c => { c with skip := satInc 255 c.skip, owed := false, staging := none, staged := none }).io →
      u.crocus p = { s.crocus p with skip := satInc 255 (s.crocus p).skip, owed := false, staging := none, staged := none } := by
    intro u hu
    rw [State.crocus, hu]
    exact State.crocus_modCrocus s _ h
  unfold State.deferral
  dsimp only
  generalize hx : s.modCrocus p (fun c => { c with skip := satInc 255 c.skip, owed := false, staging := none, staged := none }) = x at e ⊢
  generalize hd : p + (x.crocus p).skip * 65536 = d
  have e1 : (x.event 0x7102 d).io = x.io := (State.event_rel ..).frame .io (by decide)
  have e2 : (x.event 0x7102 d).ldr = s.ldr := ((State.event_rel ..).frame .ldr (by decide)).trans (hx ▸ rfl)
  split
  · exact ⟨e _ e1, fun _ _ => by simp [State.addDoubt]⟩
  · rename_i hn
    refine ⟨e _ e1, fun h1 h2 => absurd ?_ hn⟩
    rw [State.starved, e _ e1, State.crocusRec_of p e2, State.crByte_of p 3 e2]
    simp [h1, h2]

theorem State.claimFails_effect (s : State) {n kind code : Nat} (h : ClaimHdr) (hn : n < 4) (t : State) (ht : t = s.claimFails n kind code h) :
    t.claimStream n = { s.claimStream n with
      err := (s.claimStream n).err ||| BitVec.twoPow 4 (kind - 1), badRecords := satInc 65535 (s.claimStream n).badRecords
      formatCode := if kind = 4 then code else (s.claimStream n).formatCode } ∧ t.watch.causes.getLsbD 2 = true := by
  subst ht
  refine ⟨?_, by simp [State.claimFails, State.addDoubt]⟩
  rw [State.claimFails]
  dsimp only
  generalize n + kind * 256 + code * 65536 = d
  have e (x : State) : ((x.event 0x7101 d).addDoubt 2).claimStream n = x.claimStream n :=
    congrArg (fun i : StreamState => vget i.claims n ClaimStream.reset) ((State.event_rel x 0x7101 d).frame .io (by decide))
  rw [e]
  exact vget_vmod_same hn

theorem State.claimFrameEnd_real (y : State) {n : Nat} (h : ClaimHdr) (hn : n < 4) (hc : h.cam < 64) (hr : h.crocus = false)
    (hb : ((y.camClaims h.cam).frameFor h).bad = false) :
    ((y.claimFrameEnd n h).claimStream n).frames = satInc 65535 (y.claimStream n).frames ∧
    ((y.claimFrameEnd n h).camClaims h.cam).doneReal = some h.srcFrame ∧
    ((y.claimFrameEnd n h).camClaims h.cam).ref = max (y.camClaims h.cam).ref h.srcBeat ∧
    ((y.claimFrameEnd n h).camClaims h.cam).real = none ∧ (y.claimFrameEnd n h).grid.matchDue.isSome = true := by
  have e : ∃ u : State, (y.claimFrameEnd n h) = { u with grid := { u.grid with matchDue := some (u.grid.matchDue.getD y.beat) } } ∧
      u.claimStream n = { y.claimStream n with frames := satInc 65535 (y.claimStream n).frames } ∧
      ∃ br, u.camClaims h.cam = { y.camClaims h.cam with real := none, broken := br, doneReal := some h.srcFrame, ref := max (y.camClaims h.cam).ref h.srcBeat, doneAt := some y.sched.frame } := by
    rw [State.claimFrameEnd]
    simp only [hb, hr, Bool.false_eq_true, if_false]
    refine ⟨_, rfl, ?_, (y.camClaims h.cam).broken.filter fun x => !(x.1 == false && decide (x.2 ≤ h.srcFrame)), ?_⟩
    · refine Eq.trans (b := ((y.modCam h.cam fun c => { c.setOpen false none with
        broken := c.broken.filter fun x => !(x.1 == false && decide (x.2 ≤ h.srcFrame)) }).modClaim n fun c => { c with frames := satInc 65535 c.frames }).claimStream n) rfl ?_
      exact vget_vmod_same hn
    · refine (vget_vmod_same hc).trans ?_
      have e : ∀ x : State, ∀ f g, ((x.modCam h.cam f).modClaim n g).camClaims h.cam = f (x.camClaims h.cam) := fun _ _ _ => vget_vmod_same hc
      have e' := e y (fun c => { c.setOpen false none with broken := c.broken.filter fun x => !(x.1 == false && decide (x.2 ≤ h.srcFrame)) }) (fun c => { c with frames := satInc 65535 c.frames })
      rw [State.camClaims] at e'
      rw [e']
      rfl
  obtain ⟨u, e1, e2, br, e3⟩ := e
  rw [e1]
  refine ⟨congrArg (·.frames) e2, ?_, ?_, ?_, rfl⟩
  · exact congrArg (·.doneReal) e3
  · exact congrArg (·.ref) e3
  · exact congrArg (·.real) e3

/-! ### Events and journal pages -/

theorem State.nblk_of {s t : State} (h : t.jnl.blocks = s.jnl.blocks) (n : Nat) : t.nblk n = s.nblk n := by rw [State.nblk, h]; rfl

theorem State.nblk_modNblk_same (s : State) {n : Nat} (f : NandBlock → NandBlock) (h : n < s.jnl.blocks.length) : (s.modNblk n f).nblk n = f (s.nblk n) := by
  simp [State.nblk, State.modNblk, List.getD_eq_getElem?_getD, h]

theorem State.nblk_modNblk_other (s : State) {n k : Nat} (f : NandBlock → NandBlock) (h : n ≠ k) : (s.modNblk n f).nblk k = s.nblk k := by
  simp [State.nblk, State.modNblk, List.getD_eq_getElem?_getD, h]

theorem State.blocks_length_modNblk (s : State) (n : Nat) (f : NandBlock → NandBlock) : (s.modNblk n f).jnl.blocks.length = s.jnl.blocks.length := by
  simp [State.modNblk]

/-- What the recorder's reports leave of the journal. -/
theorem Frame.jnl_field {α : Type} {ps : List Piece} {s t : State} (h : Frame ps s t) (w : Piece.jnl ∉ ps) (f : JnlState → α)
    (hf : ∀ (j : JnlState) a b c, f { j with flushDue := a, lost := b, lostNew := c } = f j := by intros; rfl) : f t.jnl = f s.jnl := by
  have e := congrArg f (h .jnl w)
  rw [hf] at e
  exact e

/-- A passed record of a folding point that does not fold it is appended. -/
theorem State.passRecord_append (s : State) (p : EvPort) (e : EvRec) (h : ∀ q wait, s.evr.lastOf (foldPoint p) = some q → s.evr.foldsInto (foldPoint p) e.code e.source q wait = false) :
    s.passRecord p e = s.append (foldPoint p) e := by
  rw [State.passRecord]
  dsimp only
  cases hq : s.evr.lastOf (foldPoint p) with
  | none => rfl
  | some q =>
    dsimp only
    rw [if_neg (by rw [h q _ hq]; simp)]

theorem State.append_effect (s : State) (fp : Nat) (e : EvRec) :
    (s.append fp e).evr.last.getLast? = some { e with seq := s.evr.seqNext, timeValid := s.time.set, devTime := s.time.now } ∧
    (s.append fp e).evr.seqNext = (s.evr.seqNext + 1) % 2 ^ 32 ∧ (s.append fp e).evr.waiting = min 4096 (s.evr.waiting + 1) ∧
    (s.evr.first.length < 256 → (s.append fp e).evr.first.getLast? = (s.append fp e).evr.last.getLast?) ∧
    (256 ≤ s.evr.first.length → (s.append fp e).evr.first = s.evr.first) := by
  have e1 : (s.append fp e).evr.last.getLast? = some { e with seq := s.evr.seqNext, timeValid := s.time.set, devTime := s.time.now } := by
    simp [State.append]
  refine ⟨e1, rfl, rfl, fun h => ?_, fun h => ?_⟩
  · rw [e1]
    simp [State.append, h]
  · simp only [State.append]
    rw [if_neg (by omega)]

theorem report_eq (s : State) (g : Option (Fin 128)) (code data : Nat) (hc : 0x100 ≤ code % 4096) (h : g.isSome = true → code / 4096 = 4) :
    s.report (g.map fun k => k.val) code data = s.record (reportPort g code) code 0xFF .event data := by
  rw [State.report.eq_def, if_neg (by omega)]
  cases g with
  | none => rfl
  | some k => exact if_pos (h rfl)

theorem State.event_copied (s : State) (c d : Nat) : (s.event c d).jnl.copied = s.jnl.copied :=
  Frame.jnl_field (State.event_rel s c d).frame (by decide) (·.copied)

theorem State.event_blocks (s : State) (c d : Nat) : (s.event c d).jnl.blocks = s.jnl.blocks :=
  Frame.jnl_field (State.event_rel s c d).frame (by decide) (·.blocks)

theorem State.nandFault_blocks (s : State) (a : Nat) (c : FaultClass) (n : Nat) : (s.nandFault a c n).jnl.blocks = s.jnl.blocks :=
  Frame.jnl_field (State.nandFault_rel s a c n).frame (by decide) (·.blocks)

theorem State.reportLost_copied (s : State) : s.reportLost.jnl.copied = s.jnl.copied := by
  rw [State.reportLost]
  split
  · rfl
  · exact State.event_copied _ _ _

theorem State.program_copied (s : State) (n : Option Nat) (a b c : Nat) (d : List Byte) : (s.program n a b c d).jnl.copied = s.jnl.copied := by
  cases n <;> rfl

theorem State.evidReady_copied (s : State) : s.evidReady.jnl.copied = s.jnl.copied := by
  rw [State.evidReady]
  split
  · rfl
  · split <;> rfl

theorem State.copyFirst_copied (s : State) : s.copyFirst.jnl.copied = s.jnl.copied := by
  rw [State.copyFirst]
  dsimp only
  split
  · split
    · rfl
    · exact (State.program_copied _ _ _ _ _ _).trans (State.evidReady_copied _)
  · rfl

theorem State.nandFault_reacts (s : State) (src : Nat) (c : FaultClass) (n : Nat) (h : src < 128) : ∃ info, Reacts s src c info (s.nandFault src c n) :=
  ⟨_, (State.raise_reacts s.freed src c _ h).source rfl rfl⟩

theorem State.spares_of {s t : State} (hl : t.jnl.blocks.length = s.jnl.blocks.length)
    (h : ∀ i, ((t.nblk i).part = (s.nblk i).part ∧ (t.nblk i).bad = (s.nblk i).bad) ∨ ((t.nblk i).part ≠ .spare ∧ (s.nblk i).part ≠ .spare)) : t.spares = s.spares := by
  rw [State.spares, hl]
  refine List.filter_congr fun i _ => ?_
  rcases h i with ⟨h1, h2⟩ | ⟨h1, h2⟩
  · rw [h1, h2]
  · have a : ((t.nblk i).part == Part.spare) = false := by simpa using h1
    have b : ((s.nblk i).part == Part.spare) = false := by simpa using h2
    simp only [a, b, Bool.false_and]

theorem State.spares_lt {s : State} {x : Nat} (h : x ∈ s.spares) : x < s.jnl.blocks.length ∧ (s.nblk x).part = .spare := by
  simp only [State.spares, upto, List.mem_filter, List.mem_range, Bool.and_eq_true, beq_iff_eq] at h
  exact ⟨h.1, h.2.1⟩

theorem State.moveToSpare_effect (s : State) (n : Nat) (old : NandBlock → NandBlock) (hn : n < s.jnl.blocks.length) (hp : (s.nblk n).part ≠ .spare) (hs : s.spares ≠ []) :
    ∃ x ∈ s.spares, x ≠ n ∧ (s.moveToSpare n old).nblk n = old (s.nblk n) ∧
      (s.moveToSpare n old).nblk x = { s.nblk x with part := (s.nblk n).part, pages := (s.nblk n).pages } ∧
      (s.moveToSpare n old).fc = s.fc ∧ (s.moveToSpare n old).so = s.so ∧ (s.moveToSpare n old).jnl.rewrites = s.jnl.rewrites := by
  have hl : s.free s.spares.length < s.spares.length := Nat.mod_lt _ (List.length_pos_iff.2 hs)
  rw [State.moveToSpare, List.getElem?_eq_getElem hl]
  dsimp only
  have hx : s.spares[s.free s.spares.length] ∈ s.spares := List.getElem_mem hl
  generalize s.spares[s.free s.spares.length] = x at hx
  have hxl := State.spares_lt hx
  have hne : x ≠ n := fun e => hp (e ▸ hxl.2)
  refine ⟨x, hx, hne, ?_, ?_, rfl, rfl, rfl⟩
  · refine (State.nblk_modNblk_same _ _ ?_).trans ?_
    · rw [State.blocks_length_modNblk]
      exact hn
    · rw [State.nblk_modNblk_other _ _ hne]
      rfl
  · refine (State.nblk_modNblk_other _ _ hne.symm).trans ?_
    exact State.nblk_modNblk_same _ _ hxl.1

/-! ### Ethernet ports and device time -/

theorem State.eth_modEth (s : State) {m : Nat} (f : EthPort → EthPort) (h : m < 2) : (s.modEth m f).eth m = f (s.eth m) := vget_vmod_same h

theorem State.event_time (s : State) (c d : Nat) : (s.event c d).time = s.time := (State.event_rel s c d).frame .time (by decide)

theorem State.ptpSelect_eth (s : State) (m : Nat) (h : m < 2) : ∃ n, s.ptpSelect.eth m = { s.eth m with ptpState := n } := by
  have e : ∀ x : State, x.time.eth = ((s.modEth 0 fun p => { p with ptpState := s.ptpStateOf s.ptpChoice 0 }).modEth 1 fun p => { p with ptpState := s.ptpStateOf s.ptpChoice 1 }).time.eth →
      ∃ n, x.eth m = { s.eth m with ptpState := n } := by
    intro x hx
    rw [State.eth, hx]
    have hm : m = 0 ∨ m = 1 := by omega
    rcases hm with rfl | rfl
    · exact ⟨_, (vget_vmod_other (by decide)).trans (vget_vmod_same (by decide))⟩
    · refine ⟨s.ptpStateOf s.ptpChoice 1, (vget_vmod_same (by decide)).trans ?_⟩
      have h : vget (s.modEth 0 fun p => { p with ptpState := s.ptpStateOf s.ptpChoice 0 }).time.eth 1 EthPort.reset = s.eth 1 := vget_vmod_other (by decide)
      rw [h]
  rw [State.ptpSelect]
  dsimp only
  split
  · exact e _ rfl
  · exact e _ (by rw [State.event_time])

/-! ### The pair link -/

theorem State.event_lk (s : State) (c d : Nat) : (s.event c d).lk = s.lk := (State.event_rel s c d).frame .lk (by decide)

theorem State.linkTo_lk (s : State) (n : Nat) : (s.linkTo n).lk = { s.lk with state := n } := by
  rw [State.linkTo]
  split
  · rename_i h
    rw [← h]
  · rw [State.event_lk]

theorem State.linkDown_lk (s : State) : s.linkDown.lk.state = 0 ∧ s.linkDown.lk.partner = [] := by
  rw [State.linkDown, State.linkTo_lk]
  exact ⟨rfl, rfl⟩

theorem State.linkDown_rest (s : State) : s.linkDown.fc = s.fc ∧ s.linkDown.so = s.so :=
  ⟨(State.linkDown_rel s).frame .fc (by decide), (State.linkDown_rel s).frame .so (by decide)⟩

theorem State.linkFault_reacts (s : State) (src info : Nat) (h : src < 128) : Reacts s src .uc info (s.linkFault src info) ∧ (s.linkFault src info).lk.state = 0 ∧ (s.linkFault src info).lk.partner = [] :=
  ⟨(State.raise_reacts s src .uc info h).frame (State.linkDown_rel _) (by decide), State.linkDown_lk _⟩

/-! ### The HALT snapshot -/

/-- The journal's medium with other blocks and another PAGE_SEQ. -/
def State.withPages (s : State) (b : List NandBlock) (l n : Nat) : State :=
  { s with jnl := { s.jnl with blocks := b, lastSeq := l, nextSeq := n } }

theorem State.evidPage_open (s : State) (k p f c : Nat) (d : List Byte) (h1 : s.jnl.evidOpen = true) (h2 : s.jnl.evidHead = some k)
    (h3 : (s.nblk k).pages.length < s.jnl.pagesPerBlock) : s.evidPage p f c d = s.program (some k) p f c d := by
  have : s.evidReady = s := by
    rw [State.evidReady, if_pos (by simp [h1, h2, State.pageRoom, h3])]
  rw [State.evidPage, this]
  simp only [h2]

theorem State.ringPage_open (s : State) (k f c : Nat) (d : List Byte) (h1 : s.jnl.headOpen = true) (h2 : s.jnl.head = some k)
    (h3 : (s.nblk k).pages.length < s.jnl.pagesPerBlock) : s.ringPage f c d = s.program (some k) 1 f c d := by
  have : s.ringReady = s := by
    rw [State.ringReady, if_pos (by simp [h1, h2, State.pageRoom, h3])]
  rw [State.ringPage, this]
  simp only [h2]

/-- Pages of a snapshot go to the open evidence block, in order, while it has room. -/
theorem State.snapPages (k : Nat) : ∀ (ls : List (List EvRec)) (s : State), s.jnl.evidOpen = true → s.jnl.evidHead = some k → k < s.jnl.blocks.length →
    (s.nblk k).pages.length + ls.length ≤ s.jnl.pagesPerBlock →
    ∃ b l n, ls.foldl (fun (t : State) x => t.snapPage x) s = s.withPages b l n ∧ b.length = s.jnl.blocks.length ∧
      (∀ j, j ≠ k → (s.withPages b l n).nblk j = s.nblk j) ∧
      ∃ ps, ((s.withPages b l n).nblk k).pages = (s.nblk k).pages ++ ps ∧ ps.map (fun p => (p.ptype, p.data)) = ls.map fun x => (3, x.flatMap EvRec.bytes)
  | [], s, _, _, _, _ => ⟨s.jnl.blocks, s.jnl.lastSeq, s.jnl.nextSeq, rfl, rfl, fun _ _ => rfl, [], by simp [State.withPages, State.nblk], rfl⟩
  | x :: ls, s, h1, h2, h3, h4 => by
    have e : s.snapPage x = s.program (some k) 3 ((x.head?.map (·.seq)).getD 0) x.length (x.flatMap EvRec.bytes) :=
      State.evidPage_open s k _ _ _ _ h1 h2 (by simp at h4; omega)
    generalize hq : s.newPage 3 ((x.head?.map (·.seq)).getD 0) x.length (x.flatMap EvRec.bytes) = q
    have hq' : (q.ptype, q.data) = (3, x.flatMap EvRec.bytes) := by rw [← hq]; rfl
    have e' : s.snapPage x = s.withPages (s.modNblk k fun b => { b with pages := b.pages ++ [q] }).jnl.blocks s.jnl.nextSeq (s.jnl.nextSeq + 1) := by
      rw [e, ← hq]; rfl
    generalize hu : s.snapPage x = u at e'
    have bl : u.jnl.blocks = (s.modNblk k fun b => { b with pages := b.pages ++ [q] }).jnl.blocks := by rw [e']; rfl
    have uk : u.nblk k = { s.nblk k with pages := (s.nblk k).pages ++ [q] } := (State.nblk_of bl k).trans (State.nblk_modNblk_same s _ h3)
    have uj : ∀ j, j ≠ k → u.nblk j = s.nblk j := fun j hj => (State.nblk_of bl j).trans (State.nblk_modNblk_other s _ (Ne.symm hj))
    have ul : u.jnl.blocks.length = s.jnl.blocks.length := by rw [bl, State.blocks_length_modNblk]
    have f1 : u.jnl.evidOpen = s.jnl.evidOpen := by rw [e']; rfl
    have f2 : u.jnl.evidHead = s.jnl.evidHead := by rw [e']; rfl
    have f3 : u.jnl.pagesPerBlock = s.jnl.pagesPerBlock := by rw [e']; rfl
    obtain ⟨b, l, n, a1, a2, a3, ps, a4, a5⟩ := State.snapPages k ls u (f1.trans h1) (f2.trans h2) (ul ▸ h3) (by rw [uk, f3]; simp at h4 ⊢; omega)
    have ew : u.withPages b l n = s.withPages b l n := by rw [e']; rfl
    rw [ew] at a1 a3 a4
    refine ⟨b, l, n, ?_, a2.trans ul, fun j hj => (a3 j hj).trans (uj j hj), q :: ps, ?_, ?_⟩
    · rw [List.foldl_cons, hu, a1]
    · rw [a4, uk]; simp
    · rw [List.map_cons, List.map_cons, a5, hq']

/-- A flush's page of waiting records goes to the open ring block while it has room. -/
theorem State.copyPages (k : Nat) : ∀ (m : Nat) (s : State), s.jnl.headOpen = true → s.jnl.head = some k → k < s.jnl.blocks.length → 1 ≤ s.jnl.page →
    (s.nblk k).pages.length + m ≤ s.jnl.pagesPerBlock → s.evr.waiting ≤ s.evr.last.length → s.evr.waiting ≤ m * s.perPage →
    ∃ u, (upto m).foldl (fun (t : State) _ => t.copyPage) s = u ∧ u.evr.waiting = 0 ∧ u.jnl.snapDue = s.jnl.snapDue ∧
      (∀ e, s.evr.last.getLast? = some e → 0 < s.evr.waiting → u.jnl.copied = e.seq) ∧ (s.evr.waiting = 0 → u.jnl.copied = s.jnl.copied) ∧
      ∀ j, j ≠ k → u.nblk j = s.nblk j := by
  intro m
  induction m with
  | zero => intro s _ _ _ _ _ _ h; exact ⟨s, rfl, by omega, rfl, fun _ _ h' => absurd h' (by omega), fun _ => rfl, fun _ _ => rfl⟩
  | succ m ih =>
    intro s h1 h2 h3 hp h4 h5 h6
    have e0 : (upto (m + 1)).foldl (fun (t : State) _ => t.copyPage) s = (upto m).foldl (fun (t : State) _ => t.copyPage) s.copyPage := by
      rw [upto, List.range_succ_eq_map, List.foldl_cons, List.foldl_map]; rfl
    rw [e0]
    have hpp : 0 < s.perPage := by rw [State.perPage]; omega
    have hwl : s.waitingRecs.length = s.evr.waiting := by simp [State.waitingRecs]; omega
    by_cases hw : s.evr.waiting = 0
    · have en : s.waitingRecs = [] := List.eq_nil_of_length_eq_zero (hwl.trans hw)
      have e : s.copyPage = s := by rw [State.copyPage, en, List.take_nil]; rfl
      rw [e]
      obtain ⟨u, a1, a2, a3, a4, a5, a6⟩ := ih s h1 h2 h3 hp (by omega) h5 (by omega)
      exact ⟨u, a1, a2, a3, a4, a5, a6⟩
    · have hn : (s.waitingRecs.take s.perPage).length = min s.perPage s.evr.waiting := by rw [List.length_take, hwl]
      have hne : s.waitingRecs.take s.perPage ≠ [] := by intro h; rw [h] at hn; simp at hn; omega
      obtain ⟨e, he⟩ : ∃ e, (s.waitingRecs.take s.perPage).head? = some e := ⟨_, List.head?_eq_some_head hne⟩
      obtain ⟨l, hl⟩ : ∃ l, (s.waitingRecs.take s.perPage).getLast? = some l := ⟨_, List.getLast?_eq_some_getLast hne⟩
      have er := State.ringPage_open s k e.seq (s.waitingRecs.take s.perPage).length ((s.waitingRecs.take s.perPage).flatMap EvRec.bytes) h1 h2 (by omega)
      generalize hq : s.newPage 1 e.seq (s.waitingRecs.take s.perPage).length ((s.waitingRecs.take s.perPage).flatMap EvRec.bytes) = q
      have ec : s.copyPage = { s.withPages (s.modNblk k fun b => { b with pages := b.pages ++ [q] }).jnl.blocks s.jnl.nextSeq (s.jnl.nextSeq + 1) with
          evr := { s.evr with waiting := s.evr.waiting - (s.waitingRecs.take s.perPage).length }
          jnl := { (s.withPages (s.modNblk k fun b => { b with pages := b.pages ++ [q] }).jnl.blocks s.jnl.nextSeq (s.jnl.nextSeq + 1)).jnl with
            copied := l.seq, flushDue := s.jnl.flushDue && (s.evr.waiting - (s.waitingRecs.take s.perPage).length) != 0 } } := by
        simp only [State.copyPage, he, hl, er]
        rw [← hq]; rfl
      generalize hu : s.copyPage = u at ec ⊢
      have bl : u.jnl.blocks = (s.modNblk k fun b => { b with pages := b.pages ++ [q] }).jnl.blocks := by rw [ec]; rfl
      have uk : u.nblk k = { s.nblk k with pages := (s.nblk k).pages ++ [q] } := (State.nblk_of bl k).trans (State.nblk_modNblk_same s _ h3)
      have uj : ∀ j, j ≠ k → u.nblk j = s.nblk j := fun j hj => (State.nblk_of bl j).trans (State.nblk_modNblk_other s _ (Ne.symm hj))
      have ul : u.jnl.blocks.length = s.jnl.blocks.length := by rw [bl, State.blocks_length_modNblk]
      have g1 : u.jnl.headOpen = s.jnl.headOpen := by rw [ec]; rfl
      have g2 : u.jnl.head = s.jnl.head := by rw [ec]; rfl
      have g3 : u.jnl.pagesPerBlock = s.jnl.pagesPerBlock := by rw [ec]; rfl
      have g4 : u.jnl.page = s.jnl.page := by rw [ec]; rfl
      have g5 : u.evr.last = s.evr.last := by rw [ec]
      have g6 : u.evr.waiting = s.evr.waiting - min s.perPage s.evr.waiting := by rw [ec, ← hn]
      have g7 : u.jnl.snapDue = s.jnl.snapDue := by rw [ec]; rfl
      have g8 : u.jnl.copied = l.seq := by rw [ec]
      have g9 : u.perPage = s.perPage := by rw [State.perPage, State.perPage, g4]
      obtain ⟨v, a1, a2, a3, a4, a5, a6⟩ := ih u (g1.trans h1) (g2.trans h2) (ul ▸ h3) (g4 ▸ hp) (by rw [uk, g3]; simp; omega) (by rw [g5, g6]; omega)
        (by rw [g6, g9]; rw [Nat.succ_mul] at h6; omega)
      refine ⟨v, a1, a2, a3.trans g7, fun x hx _ => ?_, fun h => absurd h hw, fun j hj => (a6 j hj).trans (uj j hj)⟩
      by_cases hz : u.evr.waiting = 0
      · rw [a5 hz, g8]
        have hfull : s.waitingRecs.take s.perPage = s.waitingRecs := List.take_of_length_le (by rw [hwl]; omega)
        rw [hfull, State.waitingRecs, List.getLast?_drop] at hl
        rw [if_neg (by omega), hx] at hl
        cases hl; rfl
      · exact a4 x (by rw [g5]; exact hx) (by omega)

theorem pieces_length {α : Type} (n : Nat) : ∀ (k : Nat) (l : List α), (pieces n k l).length ≤ k
  | 0, _ => by simp [pieces]
  | k + 1, l => by
    rw [pieces]
    split
    · simp
    · simpa using pieces_length n k (l.drop n)

end Sys2Proof.Machine
end

