-- ==== Sys2Proof/WellFormed.lean ====
section
/-!
DEFINITION. Well-formed commands: the operands that the surroundings can deliver, by the widths and ranges that the spec
gives. A meaning is total and answers for an ill-formed command too.
-/
namespace Sys2Proof

open Sys2Proof.Machine

/-- The samples of a beat: eight safe inputs, four read-back pairs, four test-pulse pins (R264, R270, R282). -/
def BeatIn.wf (i : BeatIn) : Bool := i.si.length == 8 && i.rb.length == 4 && i.tp.length == 4

/-- A command of the mailbox with the CODE of its row, in eight words (R514). -/
def CmdGo.wf (c : CmdGo) (code : Nat) : Bool := c.words.length == 8 && ((c.words.getD 0 0).toNat % 256) == code

/-- A failure of a step 2 to 8, outcome FAIL or INCOMPLETE (R404, R406). -/
def TestFail.wf (f : TestFail) : Bool := decide (2 ≤ f.step ∧ f.step ≤ 8) && (f.outcome == 2 || f.outcome == 3)

/-- The outcome of a start-up: the lengths of steps 2 to 8, each within its maximum (R400), a reading of each of nine rails, a
latency of each of sixteen ports. -/
def StartTests.wf (t : StartTests) : Bool :=
  t.beats.length == 7 && ((upto 7).all fun k => decide (t.beats.getD k 0 ≤ stepMax (k + 2))) && t.fail.all TestFail.wf &&
    t.mv.length == 9 && t.fwdLat.length == 16

/-- A virtual channel: up to 32 on C-PHY (R224). -/
def vcOk (vc : Nat) : Bool := decide (vc < 32)

/-- A packet of a virtual channel with a 6-bit data type of a long packet (R224). -/
def LongPkt.wf (p : LongPkt) : Bool := vcOk p.vc && decide (0x10 ≤ p.dt ∧ p.dt < 64)

/-- A frame start or end: a 16-bit number (R224). -/
def frameOk (vc number : Nat) : Bool := vcOk vc && decide (number < 65536)

/-- A short packet's data type (R224). -/
def shortOk (vc dt number : Nat) : Bool := frameOk vc number && (dt == 2 || dt == 3 || decide (8 ≤ dt ∧ dt ≤ 15))

/-- A place within an engine's 512 KiB or a core's 4 MiB (R6). -/
def MemLoc.wf (l : MemLoc) (n : Nat) : Bool :=
  match l with
  | .engine a => decide (a + n ≤ 2 ^ 19)
  | .core a => decide (a + n ≤ 2 ^ 22)
  | .gddr _ => true

/-- A micro-operation: a move stays in its memories, an integer ELTWISE has a known function (R145). -/
def MicroOp.wf (op : MicroOp) : Bool :=
  match op with
  | .move src dst n => src.wf n && dst.wf n
  | .eltwise func _ _ _ _ _ _ _ _ _ => decide (func ≤ 4)
  | _ => true

/-- Height and class of 4 bits each (R52). -/
def Machine.CheckerWrite.wf (w : CheckerWrite) : Bool := decide (w.height < 16 ∧ w.cls < 16 ∧ w.graph < 64)

/-- A cell of the floor grid, height and class of 4 bits each (R71). -/
def Machine.FloorWrite.wf (w : FloorWrite) : Bool := decide (w.x < 128 ∧ w.y < 64 ∧ w.height < 16 ∧ w.cls < 16)

/-- A detection's class of 4 bits and confidence of 8 (R69). -/
def detectionOk (x : Int × Int × Nat × Nat) : Bool := decide (x.2.2.1 < 16 ∧ x.2.2.2 < 256)

/-- The unit codes of R119. -/
def unitOk (unit : Nat) : Bool := decide (1 ≤ unit ∧ unit ≤ 6) || decide (0x10 ≤ unit ∧ unit ≤ 0x17)

/-- A slice that exists: 32 cores, 76 links, 8 channels (R409). -/
def testOk (k : TestKind) : Bool := k.exists'

/-- A partner message: a beat of 48 bits (R487). -/
def BeatMsg.wf (m : BeatMsg) : Bool := decide (m.beat < 2 ^ 48)
def HelloMsg.wf (m : HelloMsg) : Bool := decide (m.chip < 256 ∧ m.pairId < 2 ^ 64 ∧ m.beat < 2 ^ 48) && m.digest.length == 32
def SummaryMsg.wf (m : SummaryMsg) : Bool := decide (m.cMax < 2 ^ 17) && m.hash.length == 8

/-- A clock identity of 64 bits (R468). -/
def Announce.wf (a : Announce) : Bool := decide (a.identity < 2 ^ 64)

/-- A well-formed command. -/
def Instr.wf : Instr → Bool
  | .beat i => i.wf
  | .arm c => c.wf 1
  | .stop c => c.wf 2
  | .resume c => c.wf 3
  | .profileSelect c => c.wf 4
  | .profileSet c => c.wf 5
  | .intent c => c.wf 6
  | .serviceEnter c => c.wf 7
  | .serviceExit c => c.wf 8
  | .clearFirstArea c => c.wf 9
  | .lcTransition c => c.wf 10
  | .ldrWdataWrite bs => decide (1 ≤ bs.length ∧ bs.length ≤ 4096)
  | .secBufDataWrite bs => decide (1 ≤ bs.length ∧ bs.length ≤ 4096)
  | .bulkChunk _ vc bs => vcOk vc && decide (16 ≤ bs.length)
  | .rcFieldRead addr => addr.toNat % 4 == 0
  | .wake t => t.wf
  | .powerOn t => t.wf
  | .lrstPressAccepted t => t.wf
  | .cvuFeed _ bs _ _ => bs.length == 1 || bs.length == 2 || bs.length == 4
  | .coverageExpiry k => testOk k
  | .testSliceStart k => testOk k
  | .testSliceEnd k _ _ => testOk k
  | .testSliceAbort k => testOk k
  | .lockstepMismatch kind _ _ => kind.val != 0
  | .coreUnitFault _ engines unit => unitOk unit.toNat && (decide (unit.toNat ≤ 6) == (engines != 0))
  | .microopIssue _ _ _ desc op => decide (desc < 65536) && op.wf
  | .checkerWrite w => w.wf
  | .detectionListCommit _ _ _ ds => ds.all detectionOk
  | .floorCycleComplete _ cells => cells.all FloorWrite.wf
  | .csiFrameStart _ vc number _ => frameOk vc number
  | .csiFrameEnd _ vc number _ => frameOk vc number
  | .csiShortPacket _ vc dt number _ => shortOk vc dt number
  | .csiLongPacket _ p => p.wf
  | .claimRecord _ p => p.wf
  | .gddrUe _ unit _ => decide (unit < 2 ^ 29)
  | .temperatureReading conv => conv.length == 48
  | .ptpAnnounce _ a => a.wf
  | .deviceTimeMismatch n => decide (n < 2 ^ 96)
  | .helloMessage m => m.wf
  | .beatMessage m => m.wf
  | .frameSummaryMessage m => m.wf
  | .registerWrite bs _ => bs != []
  | _ => true

end Sys2Proof
end

