-- ==== Sys2Proof/Laws/PerInstr.lean ====
section
/-!
SUPPORT. A statement about every command, one lemma per constructor: which shapes a well-formed command has.
-/
namespace Sys2Proof.Laws.WellSized

set_option Elab.async false

open Sys2Proof

/-- The byte and sample lists of a well-formed command have the lengths that the spec gives their row; of the other
commands nothing is claimed. -/
def Statement (c : Instr) : Prop :=
  c.wf = true →
    match c with
    | .beat i => i.si.length = 8 ∧ i.rb.length = 4 ∧ i.tp.length = 4
    | .arm x => x.words.length = 8
    | .stop x => x.words.length = 8
    | .resume x => x.words.length = 8
    | .profileSelect x => x.words.length = 8
    | .profileSet x => x.words.length = 8
    | .intent x => x.words.length = 8
    | .serviceEnter x => x.words.length = 8
    | .serviceExit x => x.words.length = 8
    | .clearFirstArea x => x.words.length = 8
    | .lcTransition x => x.words.length = 8
    | .ldrWdataWrite bs => 1 ≤ bs.length ∧ bs.length ≤ 4096
    | .secBufDataWrite bs => 1 ≤ bs.length ∧ bs.length ≤ 4096
    | .cvuFeed _ bs _ _ => bs.length = 1 ∨ bs.length = 2 ∨ bs.length = 4
    | .temperatureReading conv => conv.length = 48
    | .wake t => t.beats.length = 7
    | .powerOn t => t.beats.length = 7
    | .lrstPressAccepted t => t.beats.length = 7
    | .registerWrite bs _ => bs ≠ []
    | _ => True

theorem beat (i : BeatIn) : Statement (.beat i) := by
  intro h
  simp only [Instr.wf, BeatIn.wf, Bool.and_eq_true, beq_iff_eq] at h
  exact ⟨h.1.1, h.1.2, h.2⟩

theorem ss1MaxTime : Statement .ss1MaxTime := fun _ => trivial

theorem encCrosscheckFault : Statement .encCrosscheckFault := fun _ => trivial

theorem cellRulePersist : Statement .cellRulePersist := fun _ => trivial

theorem bandDown : Statement .bandDown := fun _ => trivial

theorem floorOccupancyConfirmed : Statement .floorOccupancyConfirmed := fun _ => trivial

theorem frameTick (estimatedUj : Nat) : Statement (.frameTick estimatedUj) := fun _ => trivial

theorem sweepComplete : Statement .sweepComplete := fun _ => trivial

theorem masksReady : Statement .masksReady := fun _ => trivial

theorem armFramesReached : Statement .armFramesReached := fun _ => trivial

theorem retrust : Statement .retrust := fun _ => trivial

theorem armTimeout : Statement .armTimeout := fun _ => trivial

theorem retrustBlock : Statement .retrustBlock := fun _ => trivial

theorem microopsCancelled (graph : Fin 64) : Statement (.microopsCancelled graph) := fun _ => trivial

theorem constantCopyDone (graph : Fin 64) (copy : Fin 2) (index : Fin 8) : Statement (.constantCopyDone graph copy index) := fun _ => trivial

theorem coverageExpiry (k : Machine.TestKind) : Statement (.coverageExpiry k) := fun _ => trivial

theorem telegramSend (late : Bool) : Statement (.telegramSend late) := fun _ => trivial

theorem telegramGapEnd : Statement .telegramGapEnd := fun _ => trivial

theorem fsyncAssert (n : Fin 4) : Statement (.fsyncAssert n) := fun _ => trivial

theorem fsyncRelease (n : Fin 4) : Statement (.fsyncRelease n) := fun _ => trivial

theorem goldenFail (core : Fin 32) : Statement (.goldenFail core) := fun _ => trivial

theorem arm (c : CmdGo) : Statement (.arm c) := by
  intro h
  simp only [Instr.wf, CmdGo.wf, Bool.and_eq_true, beq_iff_eq] at h
  exact h.1

theorem stop (c : CmdGo) : Statement (.stop c) := by
  intro h
  simp only [Instr.wf, CmdGo.wf, Bool.and_eq_true, beq_iff_eq] at h
  exact h.1

theorem resume (c : CmdGo) : Statement (.resume c) := by
  intro h
  simp only [Instr.wf, CmdGo.wf, Bool.and_eq_true, beq_iff_eq] at h
  exact h.1

theorem profileSelect (c : CmdGo) : Statement (.profileSelect c) := by
  intro h
  simp only [Instr.wf, CmdGo.wf, Bool.and_eq_true, beq_iff_eq] at h
  exact h.1

theorem profileSet (c : CmdGo) : Statement (.profileSet c) := by
  intro h
  simp only [Instr.wf, CmdGo.wf, Bool.and_eq_true, beq_iff_eq] at h
  exact h.1

theorem intent (c : CmdGo) : Statement (.intent c) := by
  intro h
  simp only [Instr.wf, CmdGo.wf, Bool.and_eq_true, beq_iff_eq] at h
  exact h.1

theorem serviceEnter (c : CmdGo) : Statement (.serviceEnter c) := by
  intro h
  simp only [Instr.wf, CmdGo.wf, Bool.and_eq_true, beq_iff_eq] at h
  exact h.1

theorem serviceExit (c : CmdGo) : Statement (.serviceExit c) := by
  intro h
  simp only [Instr.wf, CmdGo.wf, Bool.and_eq_true, beq_iff_eq] at h
  exact h.1

theorem clearFirstArea (c : CmdGo) : Statement (.clearFirstArea c) := by
  intro h
  simp only [Instr.wf, CmdGo.wf, Bool.and_eq_true, beq_iff_eq] at h
  exact h.1

theorem lcTransition (c : CmdGo) : Statement (.lcTransition c) := by
  intro h
  simp only [Instr.wf, CmdGo.wf, Bool.and_eq_true, beq_iff_eq] at h
  exact h.1

theorem lcApply (fatal : Option (Fin 112 × Word)) : Statement (.lcApply fatal) := fun _ => trivial

theorem ldrOpen : Statement .ldrOpen := fun _ => trivial

theorem ldrWdataWrite (bs : List Byte) : Statement (.ldrWdataWrite bs) := fun h => by simpa [Instr.wf] using h

theorem ldrClose : Statement .ldrClose := fun _ => trivial

theorem stagedImageVerified (readBackOk : Bool) : Statement (.stagedImageVerified readBackOk) := fun _ => trivial

theorem ldrAbort : Statement .ldrAbort := fun _ => trivial

theorem ldrActivate (slotB : Bool) : Statement (.ldrActivate slotB) := fun _ => trivial

theorem ldrCommit : Statement .ldrCommit := fun _ => trivial

theorem bulkChunk (port : Fin 16) (vc : Nat) (bs : List Byte) : Statement (.bulkChunk port vc bs) := fun _ => trivial

theorem imageLoad (l : LoadIn) : Statement (.imageLoad l) := fun _ => trivial

theorem idGenerate (trngOk : Bool) (readBackOk : Bool) : Statement (.idGenerate trngOk readBackOk) := fun _ => trivial

theorem certProgram : Statement .certProgram := fun _ => trivial

theorem certRead : Statement .certRead := fun _ => trivial

theorem keyOp : Statement .keyOp := fun _ => trivial

theorem attest (store : Bool) : Statement (.attest store) := fun _ => trivial

theorem attestReportSigned : Statement .attestReportSigned := fun _ => trivial

theorem bufClear : Statement .bufClear := fun _ => trivial

theorem secBufDataWrite (bs : List Byte) : Statement (.secBufDataWrite bs) := fun h => by simpa [Instr.wf] using h

theorem secBufDataRead : Statement .secBufDataRead := fun _ => trivial

theorem watchVerdictRead : Statement .watchVerdictRead := fun _ => trivial

theorem glbBeatLoRead : Statement .glbBeatLoRead := fun _ => trivial

theorem timeNowLoRead : Statement .timeNowLoRead := fun _ => trivial

theorem gridCellData3Read : Statement .gridCellData3Read := fun _ => trivial

theorem recWin0Read : Statement .recWin0Read := fun _ => trivial

theorem recWin7Read : Statement .recWin7Read := fun _ => trivial

theorem rcFieldRead (addr : BitVec 24) : Statement (.rcFieldRead addr) := fun _ => trivial

theorem fcFfClear : Statement .fcFfClear := fun _ => trivial

theorem wdTaskKick (task : Fin 16) (own : Nat) : Statement (.wdTaskKick task own) := fun _ => trivial

theorem wdSvcKick (own : Nat) : Statement (.wdSvcKick own) := fun _ => trivial

theorem standbyReq : Statement .standbyReq := fun _ => trivial

theorem wake (t : StartTests) : Statement (.wake t) := by
  intro h
  simp only [Instr.wf, StartTests.wf, Bool.and_eq_true, beq_iff_eq] at h
  exact h.1.1.1.1

theorem accOn (k : Fin 2) : Statement (.accOn k) := fun _ => trivial

theorem accOff (k : Fin 2) : Statement (.accOff k) := fun _ => trivial

theorem accCycle (k : Fin 2) : Statement (.accCycle k) := fun _ => trivial

theorem timeStep : Statement .timeStep := fun _ => trivial

theorem jnlRdPage : Statement .jnlRdPage := fun _ => trivial

theorem jnlFlushCmd : Statement .jnlFlushCmd := fun _ => trivial

theorem jnlFormat : Statement .jnlFormat := fun _ => trivial

theorem cvuFeed (unit : Fin 16) (bs : List Byte) (runtime : Bool) (lanesAgree : Bool) : Statement (.cvuFeed unit bs runtime lanesAgree) := fun h => by simpa [Instr.wf, or_assoc] using h

theorem cvuAliveCheck (unit : Fin 16) (value : BitVec 16) (runtime : Bool) : Statement (.cvuAliveCheck unit value runtime) := fun _ => trivial

theorem irqStatusClear (mask : BitVec 7) : Statement (.irqStatusClear mask) := fun _ => trivial

theorem registerWrite (bs : List Byte) (parityError : Bool) : Statement (.registerWrite bs parityError) := fun h => by simpa [Instr.wf] using h

theorem enec (enint : Bool) : Statement (.enec enint) := fun _ => trivial

theorem disec (enint : Bool) : Statement (.disec enint) := fun _ => trivial

theorem rstdaa : Statement .rstdaa := fun _ => trivial

theorem entdaa (addr : BitVec 7) (won : Bool) : Statement (.entdaa addr won) := fun _ => trivial

theorem setmwl (n : BitVec 16) : Statement (.setmwl n) := fun _ => trivial

theorem setmrl (n : BitVec 16) (ibi : Option Byte) : Statement (.setmrl n ibi) := fun _ => trivial

theorem rstact (db : Byte) : Statement (.rstact db) := fun _ => trivial

theorem enthdr0 : Statement .enthdr0 := fun _ => trivial

theorem hdrDdrWrite (code : Byte) (words : List (BitVec 16)) (crcOk : Bool) : Statement (.hdrDdrWrite code words crcOk) := fun _ => trivial

theorem hdrDdrRead (code : Byte) (n : Nat) : Statement (.hdrDdrRead code n) := fun _ => trivial

theorem setdasa (addr : BitVec 7) : Statement (.setdasa addr) := fun _ => trivial

theorem setnewda (addr : BitVec 7) : Statement (.setnewda addr) := fun _ => trivial

theorem getmwl : Statement .getmwl := fun _ => trivial

theorem getmrl : Statement .getmrl := fun _ => trivial

theorem getpid : Statement .getpid := fun _ => trivial

theorem getbcr : Statement .getbcr := fun _ => trivial

theorem getdcr : Statement .getdcr := fun _ => trivial

theorem getstatus : Statement .getstatus := fun _ => trivial

theorem getmxds : Statement .getmxds := fun _ => trivial

theorem getcaps : Statement .getcaps := fun _ => trivial

theorem targetResetPattern : Statement .targetResetPattern := fun _ => trivial

theorem ibiRequest (acked : Bool) : Statement (.ibiRequest acked) := fun _ => trivial

theorem safeInputDemand (i : Fin 8) : Statement (.safeInputDemand i) := fun _ => trivial

theorem safeInputOn (i : Fin 8) : Statement (.safeInputOn i) := fun _ => trivial

theorem discrepancyFault (i : Fin 8) : Statement (.discrepancyFault i) := fun _ => trivial

theorem stuckOnFault (i : Fin 8) (chanB : Bool) : Statement (.stuckOnFault i chanB) := fun _ => trivial

theorem crossShortFault (i : Fin 8) (chanB : Bool) : Statement (.crossShortFault i chanB) := fun _ => trivial

theorem chatterFault (i : Fin 8) : Statement (.chatterFault i) := fun _ => trivial

theorem testPulseStart (k : Fin 4) : Statement (.testPulseStart k) := fun _ => trivial

theorem testPulseEnd (k : Fin 4) : Statement (.testPulseEnd k) := fun _ => trivial

theorem testPulsePinFault (k : Fin 4) : Statement (.testPulsePinFault k) := fun _ => trivial

theorem encoderEdge (e : Fin 2) (a b zRise : Bool) : Statement (.encoderEdge e a b zRise) := fun _ => trivial

theorem encoderFault (e : Fin 2) : Statement (.encoderFault e) := fun _ => trivial

theorem speedValidAgain : Statement .speedValidAgain := fun _ => trivial

theorem offPulseStart (g : Fin 4) (chanB : Bool) : Statement (.offPulseStart g chanB) := fun _ => trivial

theorem offPulseEnd (g : Fin 4) : Statement (.offPulseEnd g) := fun _ => trivial

theorem readbackFailure (g : Fin 4) (chanB : Bool) : Statement (.readbackFailure g chanB) := fun _ => trivial

theorem lrstPressAccepted (t : StartTests) : Statement (.lrstPressAccepted t) := by
  intro h
  simp only [Instr.wf, StartTests.wf, Bool.and_eq_true, beq_iff_eq] at h
  exact h.1.1.1.1

theorem lrstPressIgnored : Statement .lrstPressIgnored := fun _ => trivial

theorem lrstDiscrepancy : Statement .lrstDiscrepancy := fun _ => trivial

theorem heartbeatEdge (k : Fin 2) (level : Bool) (own : Nat) : Statement (.heartbeatEdge k level own) := fun _ => trivial

theorem heartbeatLost (k : Fin 2) (own : Bool) : Statement (.heartbeatLost k own) := fun _ => trivial

theorem heartbeatPersist (k : Fin 2) : Statement (.heartbeatPersist k) := fun _ => trivial

theorem pwrToRstExpiry (k : Fin 2) : Statement (.pwrToRstExpiry k) := fun _ => trivial

theorem rstToOffExpiry (k : Fin 2) : Statement (.rstToOffExpiry k) := fun _ => trivial

theorem offBeatsExpiry (k : Fin 2) : Statement (.offBeatsExpiry k) := fun _ => trivial

theorem taskPeriodEnd (task : Fin 16) : Statement (.taskPeriodEnd task) := fun _ => trivial

theorem svcPeriodEnd : Statement .svcPeriodEnd := fun _ => trivial

theorem serviceCoreRestart : Statement .serviceCoreRestart := fun _ => trivial

theorem standbyWakeTimer : Statement .standbyWakeTimer := fun _ => trivial

theorem clockMonitorTrip (rc : Bool) : Statement (.clockMonitorTrip rc) := fun _ => trivial

theorem rcFreqCheck (dev : Int) : Statement (.rcFreqCheck dev) := fun _ => trivial

theorem crystalStop : Statement .crystalStop := fun _ => trivial

theorem watchdogCopyMismatch (source : Fin 6) (inst : Fin 16) : Statement (.watchdogCopyMismatch source inst) := fun _ => trivial

theorem lockstepMismatch (kind : Fin 4) (reg : Fin 32) (cycle : Fin 1100) : Statement (.lockstepMismatch kind reg cycle) := fun _ => trivial

theorem tcmEccError (uncorrected : Bool) (info : Word) : Statement (.tcmEccError uncorrected info) := fun _ => trivial

theorem runtimeIntegrityFault (info : Word) : Statement (.runtimeIntegrityFault info) := fun _ => trivial

theorem quietPeriodEnd : Statement .quietPeriodEnd := fun _ => trivial

theorem coreUnitFault (core : Fin 32) (engines : BitVec 4) (unit : Byte) : Statement (.coreUnitFault core engines unit) := fun _ => trivial

theorem coreOff (core : Fin 32) : Statement (.coreOff core) := fun _ => trivial

theorem correctableSramError (core : Fin 32) (engine : Option (Fin 4)) : Statement (.correctableSramError core engine) := fun _ => trivial

theorem windowOpen (core : Fin 32) : Statement (.windowOpen core) := fun _ => trivial

theorem windowClose (core : Fin 32) : Statement (.windowClose core) := fun _ => trivial

theorem coreWakeDone (core : Fin 32) : Statement (.coreWakeDone core) := fun _ => trivial

theorem avsTargetChange : Statement .avsTargetChange := fun _ => trivial

theorem runReady (graph : Fin 64) : Statement (.runReady graph) := fun _ => trivial

theorem descriptorDispatch (core : Fin 32) : Statement (.descriptorDispatch core) := fun _ => trivial

theorem microopIssue (engine : Fin 128) (graph : Fin 64) (copy : Fin 2) (desc : Nat) (op : MicroOp) : Statement (.microopIssue engine graph copy desc op) := fun _ => trivial

theorem microopRetire (engine : Fin 128) (graph : Fin 64) (copy : Fin 2) (desc : Nat) : Statement (.microopRetire engine graph copy desc) := fun _ => trivial

theorem descriptorFail (graph : Fin 64) (copy : Fin 2) (desc : Nat) : Statement (.descriptorFail graph copy desc) := fun _ => trivial

theorem compareExecute (graph : Fin 64) (desc : Nat) : Statement (.compareExecute graph desc) := fun _ => trivial

theorem barrierPass (graph : Fin 64) (copy : Fin 2) (desc : Nat) : Statement (.barrierPass graph copy desc) := fun _ => trivial

theorem checkerWrite (w : Machine.CheckerWrite) : Statement (.checkerWrite w) := fun _ => trivial

theorem writeBufferRoom : Statement .writeBufferRoom := fun _ => trivial

theorem claimWrite : Statement .claimWrite := fun _ => trivial

theorem detectionListCommit (camera : Fin 64) (srcFrame : Nat) (graph : Fin 64) (ds : List (Int × Int × Nat × Nat)) : Statement (.detectionListCommit camera srcFrame graph ds) := fun _ => trivial

theorem objectMatch : Statement .objectMatch := fun _ => trivial

theorem objGraceExpiry : Statement .objGraceExpiry := fun _ => trivial

theorem gridCellUe (plane1 : Bool) (cell : Fin 524288) : Statement (.gridCellUe plane1 cell) := fun _ => trivial

theorem floorCycleStart : Statement .floorCycleStart := fun _ => trivial

theorem floorCycleComplete (engine1 : Bool) (cells : List Machine.FloorWrite) : Statement (.floorCycleComplete engine1 cells) := fun _ => trivial

theorem floorEngineFault (engine1 : Bool) (unit : Fin 6) : Statement (.floorEngineFault engine1 unit) := fun _ => trivial

theorem floorCellUe (cell : Fin 8192) : Statement (.floorCellUe cell) := fun _ => trivial

theorem csiFrameStart (port : Fin 16) (vc number : Nat) (hdr : HeaderState) : Statement (.csiFrameStart port vc number hdr) := fun _ => trivial

theorem csiLongPacket (port : Fin 16) (p : LongPkt) : Statement (.csiLongPacket port p) := fun _ => trivial

theorem csiFrameEnd (port : Fin 16) (vc number : Nat) (hdr : HeaderState) : Statement (.csiFrameEnd port vc number hdr) := fun _ => trivial

theorem forwardFailure (port : Fin 16) : Statement (.forwardFailure port) := fun _ => trivial

theorem crocusStagingDone (port : Fin 16) : Statement (.crocusStagingDone port) := fun _ => trivial

theorem crocusInjectionStart (port : Fin 16) : Statement (.crocusInjectionStart port) := fun _ => trivial

theorem crocusInjectionEnd (port : Fin 16) : Statement (.crocusInjectionEnd port) := fun _ => trivial

theorem crocusDeadline (port : Fin 16) : Statement (.crocusDeadline port) := fun _ => trivial

theorem claimRecord (port : Fin 16) (p : LongPkt) : Statement (.claimRecord port p) := fun _ => trivial

theorem claimAgeExpiry (stream : Fin 4) : Statement (.claimAgeExpiry stream) := fun _ => trivial

theorem verdictBatchSend (sent : Bool) : Statement (.verdictBatchSend sent) := fun _ => trivial

theorem eventRecord (engine : Option (Fin 128)) (code : BitVec 16) (data : BitVec 64) : Statement (.eventRecord engine code data) := fun _ => trivial

theorem journalFlush : Statement .journalFlush := fun _ => trivial

theorem nandProgramFail (block : Nat) (erase : Bool) : Statement (.nandProgramFail block erase) := fun _ => trivial

theorem nandOpTimeout (block : Nat) : Statement (.nandOpTimeout block) := fun _ => trivial

theorem readDisturbRefresh (block : Nat) : Statement (.readDisturbRefresh block) := fun _ => trivial

theorem retentionScrub (found : List (Nat × Option Nat)) : Statement (.retentionScrub found) := fun _ => trivial

theorem haltSnapshot : Statement .haltSnapshot := fun _ => trivial

theorem gddrEdcRetry (chan : Fin 8) (ok : Bool) : Statement (.gddrEdcRetry chan ok) := fun _ => trivial

theorem gddrUe (chan : Fin 8) (unit : Nat) (consumer : Option (Fin 64 × Fin 2 × Nat)) : Statement (.gddrUe chan unit consumer) := fun _ => trivial

theorem testSliceStart (k : Machine.TestKind) : Statement (.testSliceStart k) := fun _ => trivial

theorem testSliceEnd (k : Machine.TestKind) (lengthOk : Bool) (signatureOk : Bool) : Statement (.testSliceEnd k lengthOk signatureOk) := fun _ => trivial

theorem testSliceAbort (k : Machine.TestKind) : Statement (.testSliceAbort k) := fun _ => trivial

theorem temperatureReading (conv : List (Int × Int)) : Statement (.temperatureReading conv) := fun h => by simpa [Instr.wf] using h

theorem sensorInvalidLimit : Statement .sensorInvalidLimit := fun _ => trivial

theorem comparatorTrip125 (sensor : Fin 48) : Statement (.comparatorTrip125 sensor) := fun _ => trivial

theorem railWarn (rail : Fin 9) (mv : Nat) : Statement (.railWarn rail mv) := fun _ => trivial

theorem railTrip (rail : Fin 9) (mv : Nat) : Statement (.railTrip rail mv) := fun _ => trivial

theorem avsbusRead (regs : List (Option (Nat × Nat))) (retries : Nat) (status : Bool) : Statement (.avsbusRead regs retries status) := fun _ => trivial

theorem powerOn (t : StartTests) : Statement (.powerOn t) := by
  intro h
  simp only [Instr.wf, StartTests.wf, Bool.and_eq_true, beq_iff_eq] at h
  exact h.1.1.1.1

theorem aonSupplyCollapse : Statement .aonSupplyCollapse := fun _ => trivial

theorem ptpSync (port : Fin 2) (x : SyncSample) : Statement (.ptpSync port x) := fun _ => trivial

theorem ptpAnnounce (port : Fin 2) (a : Announce) : Statement (.ptpAnnounce port a) := fun _ => trivial

theorem pdelayReq (port : Fin 2) : Statement (.pdelayReq port) := fun _ => trivial

theorem delayReqSend (port : Fin 2) : Statement (.delayReqSend port) := fun _ => trivial

theorem delayResponse (port : Fin 2) (pathDelay : Nat) (asCapable : Bool) : Statement (.delayResponse port pathDelay asCapable) := fun _ => trivial

theorem syncLoss : Statement .syncLoss := fun _ => trivial

theorem ethLinkChange (port : Fin 2) (up : Bool) : Statement (.ethLinkChange port up) := fun _ => trivial

theorem timestampLaneMismatch (port : Fin 2) : Statement (.timestampLaneMismatch port) := fun _ => trivial

theorem deviceTimeMismatch (intact : Nat) : Statement (.deviceTimeMismatch intact) := fun _ => trivial

theorem linkTrained : Statement .linkTrained := fun _ => trivial

theorem helloMessage (m : HelloMsg) : Statement (.helloMessage m) := fun _ => trivial

theorem beatMessage (m : BeatMsg) : Statement (.beatMessage m) := fun _ => trivial

theorem frameSummaryMessage (m : SummaryMsg) : Statement (.frameSummaryMessage m) := fun _ => trivial

theorem linkCrcRate : Statement .linkCrcRate := fun _ => trivial

theorem laneLost (lane : Fin 4) : Statement (.laneLost lane) := fun _ => trivial

theorem partnerMessageLoss : Statement .partnerMessageLoss := fun _ => trivial

theorem stageEvent (s : Fin 4) : Statement (.stageEvent s) := fun _ => trivial

theorem stageMissing (s : Fin 4) : Statement (.stageMissing s) := fun _ => trivial

theorem crystalReturn : Statement .crystalReturn := fun _ => trivial

theorem csiShortPacket (port : Fin 16) (vc dt number : Nat) (hdr : HeaderState) : Statement (.csiShortPacket port vc dt number hdr) := fun _ => trivial

theorem csiRxLockChange (port : Fin 16) (locked : Bool) : Statement (.csiRxLockChange port locked) := fun _ => trivial

theorem ethFrameDiscarded (port : Fin 2) (fcs : Bool) : Statement (.ethFrameDiscarded port fcs) := fun _ => trivial

theorem ethPcsFault (port : Fin 2) : Statement (.ethPcsFault port) := fun _ => trivial

theorem standbyPowerDown : Statement .standbyPowerDown := fun _ => trivial

theorem secOperationComplete : Statement .secOperationComplete := fun _ => trivial

theorem debuggerAttach : Statement .debuggerAttach := fun _ => trivial

theorem debuggerHalt (svc : Bool) : Statement (.debuggerHalt svc) := fun _ => trivial

theorem debuggerRelease (svc : Bool) : Statement (.debuggerRelease svc) := fun _ => trivial

theorem hdrExit : Statement .hdrExit := fun _ => trivial

end Sys2Proof.Laws.WellSized
end

