-- ==== Sys2Proof/Laws/State.lean ====
section
/-!
SUPPORT. What each named update of the state leaves of its fields, one lemma per field, so that no proof unfolds a record update.
-/
namespace Sys2Proof.Machine

set_option Elab.async false

/-! ### freed -/

@[simp] theorem State.freed_keeps_pending (s : State) : s.freed.pending = s.pending := rfl
@[simp] theorem State.freed_keeps_beat (s : State) : s.freed.beat = s.beat := rfl
@[simp] theorem State.freed_keeps_powered (s : State) : s.freed.powered = s.powered := rfl
@[simp] theorem State.freed_keeps_xtalOk (s : State) : s.freed.xtalOk = s.xtalOk := rfl
@[simp] theorem State.freed_keeps_selftestFail (s : State) : s.freed.selftestFail = s.selftestFail := rfl
@[simp] theorem State.freed_keeps_fc (s : State) : s.freed.fc = s.fc := rfl
@[simp] theorem State.freed_keeps_wd (s : State) : s.freed.wd = s.wd := rfl
@[simp] theorem State.freed_keeps_evr (s : State) : s.freed.evr = s.evr := rfl
@[simp] theorem State.freed_keeps_watch (s : State) : s.freed.watch = s.watch := rfl
@[simp] theorem State.freed_keeps_si (s : State) : s.freed.si = s.si := rfl
@[simp] theorem State.freed_keeps_tp (s : State) : s.freed.tp = s.tp := rfl
@[simp] theorem State.freed_keeps_lrst (s : State) : s.freed.lrst = s.lrst := rfl
@[simp] theorem State.freed_keeps_enc (s : State) : s.freed.enc = s.enc := rfl
@[simp] theorem State.freed_keeps_so (s : State) : s.freed.so = s.so := rfl
@[simp] theorem State.freed_keeps_i3c (s : State) : s.freed.i3c = s.i3c := rfl
@[simp] theorem State.freed_keeps_cmd (s : State) : s.freed.cmd = s.cmd := rfl
@[simp] theorem State.freed_keeps_ldr (s : State) : s.freed.ldr = s.ldr := rfl
@[simp] theorem State.freed_keeps_pwr (s : State) : s.freed.pwr = s.pwr := rfl
@[simp] theorem State.freed_keeps_therm (s : State) : s.freed.therm = s.therm := rfl
@[simp] theorem State.freed_keeps_time (s : State) : s.freed.time = s.time := rfl
@[simp] theorem State.freed_keeps_tel (s : State) : s.freed.tel = s.tel := rfl
@[simp] theorem State.freed_keeps_sched (s : State) : s.freed.sched = s.sched := rfl
@[simp] theorem State.freed_keeps_cores (s : State) : s.freed.cores = s.cores := rfl
@[simp] theorem State.freed_keeps_engs (s : State) : s.freed.engs = s.engs := rfl
@[simp] theorem State.freed_keeps_noc (s : State) : s.freed.noc = s.noc := rfl
@[simp] theorem State.freed_keeps_gddr (s : State) : s.freed.gddr = s.gddr := rfl
@[simp] theorem State.freed_keeps_gddrMem (s : State) : s.freed.gddrMem = s.gddrMem := rfl
@[simp] theorem State.freed_keeps_poison (s : State) : s.freed.poison = s.poison := rfl
@[simp] theorem State.freed_keeps_ctrl (s : State) : s.freed.ctrl = s.ctrl := rfl
@[simp] theorem State.freed_keeps_alt (s : State) : s.freed.alt = s.alt := rfl
@[simp] theorem State.freed_keeps_golden (s : State) : s.freed.golden = s.golden := rfl
@[simp] theorem State.freed_keeps_cmp (s : State) : s.freed.cmp = s.cmp := rfl
@[simp] theorem State.freed_keeps_grid (s : State) : s.freed.grid = s.grid := rfl
@[simp] theorem State.freed_keeps_flr (s : State) : s.freed.flr = s.flr := rfl
@[simp] theorem State.freed_keeps_floorPair (s : State) : s.freed.floorPair = s.floorPair := rfl
@[simp] theorem State.freed_keeps_ev (s : State) : s.freed.ev = s.ev := rfl
@[simp] theorem State.freed_keeps_io (s : State) : s.freed.io = s.io := rfl
@[simp] theorem State.freed_keeps_jnl (s : State) : s.freed.jnl = s.jnl := rfl
@[simp] theorem State.freed_keeps_st (s : State) : s.freed.st = s.st := rfl
@[simp] theorem State.freed_keeps_lc (s : State) : s.freed.lc = s.lc := rfl
@[simp] theorem State.freed_keeps_secu (s : State) : s.freed.secu = s.secu := rfl
@[simp] theorem State.freed_keeps_lk (s : State) : s.freed.lk = s.lk := rfl
@[simp] theorem State.freed_sets_freeCtr (s : State) : s.freed.freeCtr = s.freeCtr + 1 := rfl

/-! ### addTrig -/

@[simp] theorem State.addTrig_keeps_pending (s : State) (x : WState) (c : Nat) : (s.addTrig x c).pending = s.pending := rfl
@[simp] theorem State.addTrig_keeps_beat (s : State) (x : WState) (c : Nat) : (s.addTrig x c).beat = s.beat := rfl
@[simp] theorem State.addTrig_keeps_powered (s : State) (x : WState) (c : Nat) : (s.addTrig x c).powered = s.powered := rfl
@[simp] theorem State.addTrig_keeps_xtalOk (s : State) (x : WState) (c : Nat) : (s.addTrig x c).xtalOk = s.xtalOk := rfl
@[simp] theorem State.addTrig_keeps_selftestFail (s : State) (x : WState) (c : Nat) : (s.addTrig x c).selftestFail = s.selftestFail := rfl
@[simp] theorem State.addTrig_keeps_fc (s : State) (x : WState) (c : Nat) : (s.addTrig x c).fc = s.fc := rfl
@[simp] theorem State.addTrig_keeps_wd (s : State) (x : WState) (c : Nat) : (s.addTrig x c).wd = s.wd := rfl
@[simp] theorem State.addTrig_keeps_evr (s : State) (x : WState) (c : Nat) : (s.addTrig x c).evr = s.evr := rfl
@[simp] theorem State.addTrig_keeps_si (s : State) (x : WState) (c : Nat) : (s.addTrig x c).si = s.si := rfl
@[simp] theorem State.addTrig_keeps_tp (s : State) (x : WState) (c : Nat) : (s.addTrig x c).tp = s.tp := rfl
@[simp] theorem State.addTrig_keeps_lrst (s : State) (x : WState) (c : Nat) : (s.addTrig x c).lrst = s.lrst := rfl
@[simp] theorem State.addTrig_keeps_enc (s : State) (x : WState) (c : Nat) : (s.addTrig x c).enc = s.enc := rfl
@[simp] theorem State.addTrig_keeps_so (s : State) (x : WState) (c : Nat) : (s.addTrig x c).so = s.so := rfl
@[simp] theorem State.addTrig_keeps_i3c (s : State) (x : WState) (c : Nat) : (s.addTrig x c).i3c = s.i3c := rfl
@[simp] theorem State.addTrig_keeps_cmd (s : State) (x : WState) (c : Nat) : (s.addTrig x c).cmd = s.cmd := rfl
@[simp] theorem State.addTrig_keeps_ldr (s : State) (x : WState) (c : Nat) : (s.addTrig x c).ldr = s.ldr := rfl
@[simp] theorem State.addTrig_keeps_pwr (s : State) (x : WState) (c : Nat) : (s.addTrig x c).pwr = s.pwr := rfl
@[simp] theorem State.addTrig_keeps_therm (s : State) (x : WState) (c : Nat) : (s.addTrig x c).therm = s.therm := rfl
@[simp] theorem State.addTrig_keeps_time (s : State) (x : WState) (c : Nat) : (s.addTrig x c).time = s.time := rfl
@[simp] theorem State.addTrig_keeps_tel (s : State) (x : WState) (c : Nat) : (s.addTrig x c).tel = s.tel := rfl
@[simp] theorem State.addTrig_keeps_sched (s : State) (x : WState) (c : Nat) : (s.addTrig x c).sched = s.sched := rfl
@[simp] theorem State.addTrig_keeps_cores (s : State) (x : WState) (c : Nat) : (s.addTrig x c).cores = s.cores := rfl
@[simp] theorem State.addTrig_keeps_engs (s : State) (x : WState) (c : Nat) : (s.addTrig x c).engs = s.engs := rfl
@[simp] theorem State.addTrig_keeps_noc (s : State) (x : WState) (c : Nat) : (s.addTrig x c).noc = s.noc := rfl
@[simp] theorem State.addTrig_keeps_gddr (s : State) (x : WState) (c : Nat) : (s.addTrig x c).gddr = s.gddr := rfl
@[simp] theorem State.addTrig_keeps_gddrMem (s : State) (x : WState) (c : Nat) : (s.addTrig x c).gddrMem = s.gddrMem := rfl
@[simp] theorem State.addTrig_keeps_poison (s : State) (x : WState) (c : Nat) : (s.addTrig x c).poison = s.poison := rfl
@[simp] theorem State.addTrig_keeps_ctrl (s : State) (x : WState) (c : Nat) : (s.addTrig x c).ctrl = s.ctrl := rfl
@[simp] theorem State.addTrig_keeps_alt (s : State) (x : WState) (c : Nat) : (s.addTrig x c).alt = s.alt := rfl
@[simp] theorem State.addTrig_keeps_golden (s : State) (x : WState) (c : Nat) : (s.addTrig x c).golden = s.golden := rfl
@[simp] theorem State.addTrig_keeps_cmp (s : State) (x : WState) (c : Nat) : (s.addTrig x c).cmp = s.cmp := rfl
@[simp] theorem State.addTrig_keeps_grid (s : State) (x : WState) (c : Nat) : (s.addTrig x c).grid = s.grid := rfl
@[simp] theorem State.addTrig_keeps_flr (s : State) (x : WState) (c : Nat) : (s.addTrig x c).flr = s.flr := rfl
@[simp] theorem State.addTrig_keeps_floorPair (s : State) (x : WState) (c : Nat) : (s.addTrig x c).floorPair = s.floorPair := rfl
@[simp] theorem State.addTrig_keeps_ev (s : State) (x : WState) (c : Nat) : (s.addTrig x c).ev = s.ev := rfl
@[simp] theorem State.addTrig_keeps_io (s : State) (x : WState) (c : Nat) : (s.addTrig x c).io = s.io := rfl
@[simp] theorem State.addTrig_keeps_jnl (s : State) (x : WState) (c : Nat) : (s.addTrig x c).jnl = s.jnl := rfl
@[simp] theorem State.addTrig_keeps_st (s : State) (x : WState) (c : Nat) : (s.addTrig x c).st = s.st := rfl
@[simp] theorem State.addTrig_keeps_lc (s : State) (x : WState) (c : Nat) : (s.addTrig x c).lc = s.lc := rfl
@[simp] theorem State.addTrig_keeps_secu (s : State) (x : WState) (c : Nat) : (s.addTrig x c).secu = s.secu := rfl
@[simp] theorem State.addTrig_keeps_lk (s : State) (x : WState) (c : Nat) : (s.addTrig x c).lk = s.lk := rfl
@[simp] theorem State.addTrig_keeps_freeCtr (s : State) (x : WState) (c : Nat) : (s.addTrig x c).freeCtr = s.freeCtr := rfl

/-! ### addDoubt -/

@[simp] theorem State.addDoubt_keeps_pending (s : State) (n : Nat) : (s.addDoubt n).pending = s.pending := rfl
@[simp] theorem State.addDoubt_keeps_beat (s : State) (n : Nat) : (s.addDoubt n).beat = s.beat := rfl
@[simp] theorem State.addDoubt_keeps_powered (s : State) (n : Nat) : (s.addDoubt n).powered = s.powered := rfl
@[simp] theorem State.addDoubt_keeps_xtalOk (s : State) (n : Nat) : (s.addDoubt n).xtalOk = s.xtalOk := rfl
@[simp] theorem State.addDoubt_keeps_selftestFail (s : State) (n : Nat) : (s.addDoubt n).selftestFail = s.selftestFail := rfl
@[simp] theorem State.addDoubt_keeps_fc (s : State) (n : Nat) : (s.addDoubt n).fc = s.fc := rfl
@[simp] theorem State.addDoubt_keeps_wd (s : State) (n : Nat) : (s.addDoubt n).wd = s.wd := rfl
@[simp] theorem State.addDoubt_keeps_evr (s : State) (n : Nat) : (s.addDoubt n).evr = s.evr := rfl
@[simp] theorem State.addDoubt_keeps_si (s : State) (n : Nat) : (s.addDoubt n).si = s.si := rfl
@[simp] theorem State.addDoubt_keeps_tp (s : State) (n : Nat) : (s.addDoubt n).tp = s.tp := rfl
@[simp] theorem State.addDoubt_keeps_lrst (s : State) (n : Nat) : (s.addDoubt n).lrst = s.lrst := rfl
@[simp] theorem State.addDoubt_keeps_enc (s : State) (n : Nat) : (s.addDoubt n).enc = s.enc := rfl
@[simp] theorem State.addDoubt_keeps_so (s : State) (n : Nat) : (s.addDoubt n).so = s.so := rfl
@[simp] theorem State.addDoubt_keeps_i3c (s : State) (n : Nat) : (s.addDoubt n).i3c = s.i3c := rfl
@[simp] theorem State.addDoubt_keeps_cmd (s : State) (n : Nat) : (s.addDoubt n).cmd = s.cmd := rfl
@[simp] theorem State.addDoubt_keeps_ldr (s : State) (n : Nat) : (s.addDoubt n).ldr = s.ldr := rfl
@[simp] theorem State.addDoubt_keeps_pwr (s : State) (n : Nat) : (s.addDoubt n).pwr = s.pwr := rfl
@[simp] theorem State.addDoubt_keeps_therm (s : State) (n : Nat) : (s.addDoubt n).therm = s.therm := rfl
@[simp] theorem State.addDoubt_keeps_time (s : State) (n : Nat) : (s.addDoubt n).time = s.time := rfl
@[simp] theorem State.addDoubt_keeps_tel (s : State) (n : Nat) : (s.addDoubt n).tel = s.tel := rfl
@[simp] theorem State.addDoubt_keeps_sched (s : State) (n : Nat) : (s.addDoubt n).sched = s.sched := rfl
@[simp] theorem State.addDoubt_keeps_cores (s : State) (n : Nat) : (s.addDoubt n).cores = s.cores := rfl
@[simp] theorem State.addDoubt_keeps_engs (s : State) (n : Nat) : (s.addDoubt n).engs = s.engs := rfl
@[simp] theorem State.addDoubt_keeps_noc (s : State) (n : Nat) : (s.addDoubt n).noc = s.noc := rfl
@[simp] theorem State.addDoubt_keeps_gddr (s : State) (n : Nat) : (s.addDoubt n).gddr = s.gddr := rfl
@[simp] theorem State.addDoubt_keeps_gddrMem (s : State) (n : Nat) : (s.addDoubt n).gddrMem = s.gddrMem := rfl
@[simp] theorem State.addDoubt_keeps_poison (s : State) (n : Nat) : (s.addDoubt n).poison = s.poison := rfl
@[simp] theorem State.addDoubt_keeps_ctrl (s : State) (n : Nat) : (s.addDoubt n).ctrl = s.ctrl := rfl
@[simp] theorem State.addDoubt_keeps_alt (s : State) (n : Nat) : (s.addDoubt n).alt = s.alt := rfl
@[simp] theorem State.addDoubt_keeps_golden (s : State) (n : Nat) : (s.addDoubt n).golden = s.golden := rfl
@[simp] theorem State.addDoubt_keeps_cmp (s : State) (n : Nat) : (s.addDoubt n).cmp = s.cmp := rfl
@[simp] theorem State.addDoubt_keeps_grid (s : State) (n : Nat) : (s.addDoubt n).grid = s.grid := rfl
@[simp] theorem State.addDoubt_keeps_flr (s : State) (n : Nat) : (s.addDoubt n).flr = s.flr := rfl
@[simp] theorem State.addDoubt_keeps_floorPair (s : State) (n : Nat) : (s.addDoubt n).floorPair = s.floorPair := rfl
@[simp] theorem State.addDoubt_keeps_ev (s : State) (n : Nat) : (s.addDoubt n).ev = s.ev := rfl
@[simp] theorem State.addDoubt_keeps_io (s : State) (n : Nat) : (s.addDoubt n).io = s.io := rfl
@[simp] theorem State.addDoubt_keeps_jnl (s : State) (n : Nat) : (s.addDoubt n).jnl = s.jnl := rfl
@[simp] theorem State.addDoubt_keeps_st (s : State) (n : Nat) : (s.addDoubt n).st = s.st := rfl
@[simp] theorem State.addDoubt_keeps_lc (s : State) (n : Nat) : (s.addDoubt n).lc = s.lc := rfl
@[simp] theorem State.addDoubt_keeps_secu (s : State) (n : Nat) : (s.addDoubt n).secu = s.secu := rfl
@[simp] theorem State.addDoubt_keeps_lk (s : State) (n : Nat) : (s.addDoubt n).lk = s.lk := rfl
@[simp] theorem State.addDoubt_keeps_freeCtr (s : State) (n : Nat) : (s.addDoubt n).freeCtr = s.freeCtr := rfl

/-! ### addClear -/

@[simp] theorem State.addClear_keeps_pending (s : State) (n : Nat) : (s.addClear n).pending = s.pending := rfl
@[simp] theorem State.addClear_keeps_beat (s : State) (n : Nat) : (s.addClear n).beat = s.beat := rfl
@[simp] theorem State.addClear_keeps_powered (s : State) (n : Nat) : (s.addClear n).powered = s.powered := rfl
@[simp] theorem State.addClear_keeps_xtalOk (s : State) (n : Nat) : (s.addClear n).xtalOk = s.xtalOk := rfl
@[simp] theorem State.addClear_keeps_selftestFail (s : State) (n : Nat) : (s.addClear n).selftestFail = s.selftestFail := rfl
@[simp] theorem State.addClear_keeps_fc (s : State) (n : Nat) : (s.addClear n).fc = s.fc := rfl
@[simp] theorem State.addClear_keeps_wd (s : State) (n : Nat) : (s.addClear n).wd = s.wd := rfl
@[simp] theorem State.addClear_keeps_evr (s : State) (n : Nat) : (s.addClear n).evr = s.evr := rfl
@[simp] theorem State.addClear_keeps_si (s : State) (n : Nat) : (s.addClear n).si = s.si := rfl
@[simp] theorem State.addClear_keeps_tp (s : State) (n : Nat) : (s.addClear n).tp = s.tp := rfl
@[simp] theorem State.addClear_keeps_lrst (s : State) (n : Nat) : (s.addClear n).lrst = s.lrst := rfl
@[simp] theorem State.addClear_keeps_enc (s : State) (n : Nat) : (s.addClear n).enc = s.enc := rfl
@[simp] theorem State.addClear_keeps_so (s : State) (n : Nat) : (s.addClear n).so = s.so := rfl
@[simp] theorem State.addClear_keeps_i3c (s : State) (n : Nat) : (s.addClear n).i3c = s.i3c := rfl
@[simp] theorem State.addClear_keeps_cmd (s : State) (n : Nat) : (s.addClear n).cmd = s.cmd := rfl
@[simp] theorem State.addClear_keeps_ldr (s : State) (n : Nat) : (s.addClear n).ldr = s.ldr := rfl
@[simp] theorem State.addClear_keeps_pwr (s : State) (n : Nat) : (s.addClear n).pwr = s.pwr := rfl
@[simp] theorem State.addClear_keeps_therm (s : State) (n : Nat) : (s.addClear n).therm = s.therm := rfl
@[simp] theorem State.addClear_keeps_time (s : State) (n : Nat) : (s.addClear n).time = s.time := rfl
@[simp] theorem State.addClear_keeps_tel (s : State) (n : Nat) : (s.addClear n).tel = s.tel := rfl
@[simp] theorem State.addClear_keeps_sched (s : State) (n : Nat) : (s.addClear n).sched = s.sched := rfl
@[simp] theorem State.addClear_keeps_cores (s : State) (n : Nat) : (s.addClear n).cores = s.cores := rfl
@[simp] theorem State.addClear_keeps_engs (s : State) (n : Nat) : (s.addClear n).engs = s.engs := rfl
@[simp] theorem State.addClear_keeps_noc (s : State) (n : Nat) : (s.addClear n).noc = s.noc := rfl
@[simp] theorem State.addClear_keeps_gddr (s : State) (n : Nat) : (s.addClear n).gddr = s.gddr := rfl
@[simp] theorem State.addClear_keeps_gddrMem (s : State) (n : Nat) : (s.addClear n).gddrMem = s.gddrMem := rfl
@[simp] theorem State.addClear_keeps_poison (s : State) (n : Nat) : (s.addClear n).poison = s.poison := rfl
@[simp] theorem State.addClear_keeps_ctrl (s : State) (n : Nat) : (s.addClear n).ctrl = s.ctrl := rfl
@[simp] theorem State.addClear_keeps_alt (s : State) (n : Nat) : (s.addClear n).alt = s.alt := rfl
@[simp] theorem State.addClear_keeps_golden (s : State) (n : Nat) : (s.addClear n).golden = s.golden := rfl
@[simp] theorem State.addClear_keeps_cmp (s : State) (n : Nat) : (s.addClear n).cmp = s.cmp := rfl
@[simp] theorem State.addClear_keeps_grid (s : State) (n : Nat) : (s.addClear n).grid = s.grid := rfl
@[simp] theorem State.addClear_keeps_flr (s : State) (n : Nat) : (s.addClear n).flr = s.flr := rfl
@[simp] theorem State.addClear_keeps_floorPair (s : State) (n : Nat) : (s.addClear n).floorPair = s.floorPair := rfl
@[simp] theorem State.addClear_keeps_ev (s : State) (n : Nat) : (s.addClear n).ev = s.ev := rfl
@[simp] theorem State.addClear_keeps_io (s : State) (n : Nat) : (s.addClear n).io = s.io := rfl
@[simp] theorem State.addClear_keeps_jnl (s : State) (n : Nat) : (s.addClear n).jnl = s.jnl := rfl
@[simp] theorem State.addClear_keeps_st (s : State) (n : Nat) : (s.addClear n).st = s.st := rfl
@[simp] theorem State.addClear_keeps_lc (s : State) (n : Nat) : (s.addClear n).lc = s.lc := rfl
@[simp] theorem State.addClear_keeps_secu (s : State) (n : Nat) : (s.addClear n).secu = s.secu := rfl
@[simp] theorem State.addClear_keeps_lk (s : State) (n : Nat) : (s.addClear n).lk = s.lk := rfl
@[simp] theorem State.addClear_keeps_freeCtr (s : State) (n : Nat) : (s.addClear n).freeCtr = s.freeCtr := rfl

/-! ### modCore -/

@[simp] theorem State.modCore_keeps_pending (s : State) (n : Nat) (f : CoreState → CoreState) : (s.modCore n f).pending = s.pending := rfl
@[simp] theorem State.modCore_keeps_beat (s : State) (n : Nat) (f : CoreState → CoreState) : (s.modCore n f).beat = s.beat := rfl
@[simp] theorem State.modCore_keeps_powered (s : State) (n : Nat) (f : CoreState → CoreState) : (s.modCore n f).powered = s.powered := rfl
@[simp] theorem State.modCore_keeps_xtalOk (s : State) (n : Nat) (f : CoreState → CoreState) : (s.modCore n f).xtalOk = s.xtalOk := rfl
@[simp] theorem State.modCore_keeps_selftestFail (s : State) (n : Nat) (f : CoreState → CoreState) : (s.modCore n f).selftestFail = s.selftestFail := rfl
@[simp] theorem State.modCore_keeps_fc (s : State) (n : Nat) (f : CoreState → CoreState) : (s.modCore n f).fc = s.fc := rfl
@[simp] theorem State.modCore_keeps_wd (s : State) (n : Nat) (f : CoreState → CoreState) : (s.modCore n f).wd = s.wd := rfl
@[simp] theorem State.modCore_keeps_evr (s : State) (n : Nat) (f : CoreState → CoreState) : (s.modCore n f).evr = s.evr := rfl
@[simp] theorem State.modCore_keeps_watch (s : State) (n : Nat) (f : CoreState → CoreState) : (s.modCore n f).watch = s.watch := rfl
@[simp] theorem State.modCore_keeps_si (s : State) (n : Nat) (f : CoreState → CoreState) : (s.modCore n f).si = s.si := rfl
@[simp] theorem State.modCore_keeps_tp (s : State) (n : Nat) (f : CoreState → CoreState) : (s.modCore n f).tp = s.tp := rfl
@[simp] theorem State.modCore_keeps_lrst (s : State) (n : Nat) (f : CoreState → CoreState) : (s.modCore n f).lrst = s.lrst := rfl
@[simp] theorem State.modCore_keeps_enc (s : State) (n : Nat) (f : CoreState → CoreState) : (s.modCore n f).enc = s.enc := rfl
@[simp] theorem State.modCore_keeps_so (s : State) (n : Nat) (f : CoreState → CoreState) : (s.modCore n f).so = s.so := rfl
@[simp] theorem State.modCore_keeps_i3c (s : State) (n : Nat) (f : CoreState → CoreState) : (s.modCore n f).i3c = s.i3c := rfl
@[simp] theorem State.modCore_keeps_cmd (s : State) (n : Nat) (f : CoreState → CoreState) : (s.modCore n f).cmd = s.cmd := rfl
@[simp] theorem State.modCore_keeps_ldr (s : State) (n : Nat) (f : CoreState → CoreState) : (s.modCore n f).ldr = s.ldr := rfl
@[simp] theorem State.modCore_keeps_pwr (s : State) (n : Nat) (f : CoreState → CoreState) : (s.modCore n f).pwr = s.pwr := rfl
@[simp] theorem State.modCore_keeps_therm (s : State) (n : Nat) (f : CoreState → CoreState) : (s.modCore n f).therm = s.therm := rfl
@[simp] theorem State.modCore_keeps_time (s : State) (n : Nat) (f : CoreState → CoreState) : (s.modCore n f).time = s.time := rfl
@[simp] theorem State.modCore_keeps_tel (s : State) (n : Nat) (f : CoreState → CoreState) : (s.modCore n f).tel = s.tel := rfl
@[simp] theorem State.modCore_keeps_sched (s : State) (n : Nat) (f : CoreState → CoreState) : (s.modCore n f).sched = s.sched := rfl
@[simp] theorem State.modCore_sets_cores (s : State) (n : Nat) (f : CoreState → CoreState) : (s.modCore n f).cores = vmod s.cores n f := rfl
@[simp] theorem State.modCore_keeps_engs (s : State) (n : Nat) (f : CoreState → CoreState) : (s.modCore n f).engs = s.engs := rfl
@[simp] theorem State.modCore_keeps_noc (s : State) (n : Nat) (f : CoreState → CoreState) : (s.modCore n f).noc = s.noc := rfl
@[simp] theorem State.modCore_keeps_gddr (s : State) (n : Nat) (f : CoreState → CoreState) : (s.modCore n f).gddr = s.gddr := rfl
@[simp] theorem State.modCore_keeps_gddrMem (s : State) (n : Nat) (f : CoreState → CoreState) : (s.modCore n f).gddrMem = s.gddrMem := rfl
@[simp] theorem State.modCore_keeps_poison (s : State) (n : Nat) (f : CoreState → CoreState) : (s.modCore n f).poison = s.poison := rfl
@[simp] theorem State.modCore_keeps_ctrl (s : State) (n : Nat) (f : CoreState → CoreState) : (s.modCore n f).ctrl = s.ctrl := rfl
@[simp] theorem State.modCore_keeps_alt (s : State) (n : Nat) (f : CoreState → CoreState) : (s.modCore n f).alt = s.alt := rfl
@[simp] theorem State.modCore_keeps_golden (s : State) (n : Nat) (f : CoreState → CoreState) : (s.modCore n f).golden = s.golden := rfl
@[simp] theorem State.modCore_keeps_cmp (s : State) (n : Nat) (f : CoreState → CoreState) : (s.modCore n f).cmp = s.cmp := rfl
@[simp] theorem State.modCore_keeps_grid (s : State) (n : Nat) (f : CoreState → CoreState) : (s.modCore n f).grid = s.grid := rfl
@[simp] theorem State.modCore_keeps_flr (s : State) (n : Nat) (f : CoreState → CoreState) : (s.modCore n f).flr = s.flr := rfl
@[simp] theorem State.modCore_keeps_floorPair (s : State) (n : Nat) (f : CoreState → CoreState) : (s.modCore n f).floorPair = s.floorPair := rfl
@[simp] theorem State.modCore_keeps_ev (s : State) (n : Nat) (f : CoreState → CoreState) : (s.modCore n f).ev = s.ev := rfl
@[simp] theorem State.modCore_keeps_io (s : State) (n : Nat) (f : CoreState → CoreState) : (s.modCore n f).io = s.io := rfl
@[simp] theorem State.modCore_keeps_jnl (s : State) (n : Nat) (f : CoreState → CoreState) : (s.modCore n f).jnl = s.jnl := rfl
@[simp] theorem State.modCore_keeps_st (s : State) (n : Nat) (f : CoreState → CoreState) : (s.modCore n f).st = s.st := rfl
@[simp] theorem State.modCore_keeps_lc (s : State) (n : Nat) (f : CoreState → CoreState) : (s.modCore n f).lc = s.lc := rfl
@[simp] theorem State.modCore_keeps_secu (s : State) (n : Nat) (f : CoreState → CoreState) : (s.modCore n f).secu = s.secu := rfl
@[simp] theorem State.modCore_keeps_lk (s : State) (n : Nat) (f : CoreState → CoreState) : (s.modCore n f).lk = s.lk := rfl
@[simp] theorem State.modCore_keeps_freeCtr (s : State) (n : Nat) (f : CoreState → CoreState) : (s.modCore n f).freeCtr = s.freeCtr := rfl

/-! ### modEng -/

@[simp] theorem State.modEng_keeps_pending (s : State) (n : Nat) (f : EngState → EngState) : (s.modEng n f).pending = s.pending := rfl
@[simp] theorem State.modEng_keeps_beat (s : State) (n : Nat) (f : EngState → EngState) : (s.modEng n f).beat = s.beat := rfl
@[simp] theorem State.modEng_keeps_powered (s : State) (n : Nat) (f : EngState → EngState) : (s.modEng n f).powered = s.powered := rfl
@[simp] theorem State.modEng_keeps_xtalOk (s : State) (n : Nat) (f : EngState → EngState) : (s.modEng n f).xtalOk = s.xtalOk := rfl
@[simp] theorem State.modEng_keeps_selftestFail (s : State) (n : Nat) (f : EngState → EngState) : (s.modEng n f).selftestFail = s.selftestFail := rfl
@[simp] theorem State.modEng_keeps_fc (s : State) (n : Nat) (f : EngState → EngState) : (s.modEng n f).fc = s.fc := rfl
@[simp] theorem State.modEng_keeps_wd (s : State) (n : Nat) (f : EngState → EngState) : (s.modEng n f).wd = s.wd := rfl
@[simp] theorem State.modEng_keeps_evr (s : State) (n : Nat) (f : EngState → EngState) : (s.modEng n f).evr = s.evr := rfl
@[simp] theorem State.modEng_keeps_watch (s : State) (n : Nat) (f : EngState → EngState) : (s.modEng n f).watch = s.watch := rfl
@[simp] theorem State.modEng_keeps_si (s : State) (n : Nat) (f : EngState → EngState) : (s.modEng n f).si = s.si := rfl
@[simp] theorem State.modEng_keeps_tp (s : State) (n : Nat) (f : EngState → EngState) : (s.modEng n f).tp = s.tp := rfl
@[simp] theorem State.modEng_keeps_lrst (s : State) (n : Nat) (f : EngState → EngState) : (s.modEng n f).lrst = s.lrst := rfl
@[simp] theorem State.modEng_keeps_enc (s : State) (n : Nat) (f : EngState → EngState) : (s.modEng n f).enc = s.enc := rfl
@[simp] theorem State.modEng_keeps_so (s : State) (n : Nat) (f : EngState → EngState) : (s.modEng n f).so = s.so := rfl
@[simp] theorem State.modEng_keeps_i3c (s : State) (n : Nat) (f : EngState → EngState) : (s.modEng n f).i3c = s.i3c := rfl
@[simp] theorem State.modEng_keeps_cmd (s : State) (n : Nat) (f : EngState → EngState) : (s.modEng n f).cmd = s.cmd := rfl
@[simp] theorem State.modEng_keeps_ldr (s : State) (n : Nat) (f : EngState → EngState) : (s.modEng n f).ldr = s.ldr := rfl
@[simp] theorem State.modEng_keeps_pwr (s : State) (n : Nat) (f : EngState → EngState) : (s.modEng n f).pwr = s.pwr := rfl
@[simp] theorem State.modEng_keeps_therm (s : State) (n : Nat) (f : EngState → EngState) : (s.modEng n f).therm = s.therm := rfl
@[simp] theorem State.modEng_keeps_time (s : State) (n : Nat) (f : EngState → EngState) : (s.modEng n f).time = s.time := rfl
@[simp] theorem State.modEng_keeps_tel (s : State) (n : Nat) (f : EngState → EngState) : (s.modEng n f).tel = s.tel := rfl
@[simp] theorem State.modEng_keeps_sched (s : State) (n : Nat) (f : EngState → EngState) : (s.modEng n f).sched = s.sched := rfl
@[simp] theorem State.modEng_keeps_cores (s : State) (n : Nat) (f : EngState → EngState) : (s.modEng n f).cores = s.cores := rfl
@[simp] theorem State.modEng_sets_engs (s : State) (n : Nat) (f : EngState → EngState) : (s.modEng n f).engs = vmod s.engs n f := rfl
@[simp] theorem State.modEng_keeps_noc (s : State) (n : Nat) (f : EngState → EngState) : (s.modEng n f).noc = s.noc := rfl
@[simp] theorem State.modEng_keeps_gddr (s : State) (n : Nat) (f : EngState → EngState) : (s.modEng n f).gddr = s.gddr := rfl
@[simp] theorem State.modEng_keeps_gddrMem (s : State) (n : Nat) (f : EngState → EngState) : (s.modEng n f).gddrMem = s.gddrMem := rfl
@[simp] theorem State.modEng_keeps_poison (s : State) (n : Nat) (f : EngState → EngState) : (s.modEng n f).poison = s.poison := rfl
@[simp] theorem State.modEng_keeps_ctrl (s : State) (n : Nat) (f : EngState → EngState) : (s.modEng n f).ctrl = s.ctrl := rfl
@[simp] theorem State.modEng_keeps_alt (s : State) (n : Nat) (f : EngState → EngState) : (s.modEng n f).alt = s.alt := rfl
@[simp] theorem State.modEng_keeps_golden (s : State) (n : Nat) (f : EngState → EngState) : (s.modEng n f).golden = s.golden := rfl
@[simp] theorem State.modEng_keeps_cmp (s : State) (n : Nat) (f : EngState → EngState) : (s.modEng n f).cmp = s.cmp := rfl
@[simp] theorem State.modEng_keeps_grid (s : State) (n : Nat) (f : EngState → EngState) : (s.modEng n f).grid = s.grid := rfl
@[simp] theorem State.modEng_keeps_flr (s : State) (n : Nat) (f : EngState → EngState) : (s.modEng n f).flr = s.flr := rfl
@[simp] theorem State.modEng_keeps_floorPair (s : State) (n : Nat) (f : EngState → EngState) : (s.modEng n f).floorPair = s.floorPair := rfl
@[simp] theorem State.modEng_keeps_ev (s : State) (n : Nat) (f : EngState → EngState) : (s.modEng n f).ev = s.ev := rfl
@[simp] theorem State.modEng_keeps_io (s : State) (n : Nat) (f : EngState → EngState) : (s.modEng n f).io = s.io := rfl
@[simp] theorem State.modEng_keeps_jnl (s : State) (n : Nat) (f : EngState → EngState) : (s.modEng n f).jnl = s.jnl := rfl
@[simp] theorem State.modEng_keeps_st (s : State) (n : Nat) (f : EngState → EngState) : (s.modEng n f).st = s.st := rfl
@[simp] theorem State.modEng_keeps_lc (s : State) (n : Nat) (f : EngState → EngState) : (s.modEng n f).lc = s.lc := rfl
@[simp] theorem State.modEng_keeps_secu (s : State) (n : Nat) (f : EngState → EngState) : (s.modEng n f).secu = s.secu := rfl
@[simp] theorem State.modEng_keeps_lk (s : State) (n : Nat) (f : EngState → EngState) : (s.modEng n f).lk = s.lk := rfl
@[simp] theorem State.modEng_keeps_freeCtr (s : State) (n : Nat) (f : EngState → EngState) : (s.modEng n f).freeCtr = s.freeCtr := rfl

/-! ### modGrp -/

@[simp] theorem State.modGrp_keeps_pending (s : State) (n : Nat) (f : OutGroup → OutGroup) : (s.modGrp n f).pending = s.pending := rfl
@[simp] theorem State.modGrp_keeps_beat (s : State) (n : Nat) (f : OutGroup → OutGroup) : (s.modGrp n f).beat = s.beat := rfl
@[simp] theorem State.modGrp_keeps_powered (s : State) (n : Nat) (f : OutGroup → OutGroup) : (s.modGrp n f).powered = s.powered := rfl
@[simp] theorem State.modGrp_keeps_xtalOk (s : State) (n : Nat) (f : OutGroup → OutGroup) : (s.modGrp n f).xtalOk = s.xtalOk := rfl
@[simp] theorem State.modGrp_keeps_selftestFail (s : State) (n : Nat) (f : OutGroup → OutGroup) : (s.modGrp n f).selftestFail = s.selftestFail := rfl
@[simp] theorem State.modGrp_keeps_fc (s : State) (n : Nat) (f : OutGroup → OutGroup) : (s.modGrp n f).fc = s.fc := rfl
@[simp] theorem State.modGrp_keeps_wd (s : State) (n : Nat) (f : OutGroup → OutGroup) : (s.modGrp n f).wd = s.wd := rfl
@[simp] theorem State.modGrp_keeps_evr (s : State) (n : Nat) (f : OutGroup → OutGroup) : (s.modGrp n f).evr = s.evr := rfl
@[simp] theorem State.modGrp_keeps_watch (s : State) (n : Nat) (f : OutGroup → OutGroup) : (s.modGrp n f).watch = s.watch := rfl
@[simp] theorem State.modGrp_keeps_si (s : State) (n : Nat) (f : OutGroup → OutGroup) : (s.modGrp n f).si = s.si := rfl
@[simp] theorem State.modGrp_keeps_tp (s : State) (n : Nat) (f : OutGroup → OutGroup) : (s.modGrp n f).tp = s.tp := rfl
@[simp] theorem State.modGrp_keeps_lrst (s : State) (n : Nat) (f : OutGroup → OutGroup) : (s.modGrp n f).lrst = s.lrst := rfl
@[simp] theorem State.modGrp_keeps_enc (s : State) (n : Nat) (f : OutGroup → OutGroup) : (s.modGrp n f).enc = s.enc := rfl
@[simp] theorem State.modGrp_keeps_i3c (s : State) (n : Nat) (f : OutGroup → OutGroup) : (s.modGrp n f).i3c = s.i3c := rfl
@[simp] theorem State.modGrp_keeps_cmd (s : State) (n : Nat) (f : OutGroup → OutGroup) : (s.modGrp n f).cmd = s.cmd := rfl
@[simp] theorem State.modGrp_keeps_ldr (s : State) (n : Nat) (f : OutGroup → OutGroup) : (s.modGrp n f).ldr = s.ldr := rfl
@[simp] theorem State.modGrp_keeps_pwr (s : State) (n : Nat) (f : OutGroup → OutGroup) : (s.modGrp n f).pwr = s.pwr := rfl
@[simp] theorem State.modGrp_keeps_therm (s : State) (n : Nat) (f : OutGroup → OutGroup) : (s.modGrp n f).therm = s.therm := rfl
@[simp] theorem State.modGrp_keeps_time (s : State) (n : Nat) (f : OutGroup → OutGroup) : (s.modGrp n f).time = s.time := rfl
@[simp] theorem State.modGrp_keeps_tel (s : State) (n : Nat) (f : OutGroup → OutGroup) : (s.modGrp n f).tel = s.tel := rfl
@[simp] theorem State.modGrp_keeps_sched (s : State) (n : Nat) (f : OutGroup → OutGroup) : (s.modGrp n f).sched = s.sched := rfl
@[simp] theorem State.modGrp_keeps_cores (s : State) (n : Nat) (f : OutGroup → OutGroup) : (s.modGrp n f).cores = s.cores := rfl
@[simp] theorem State.modGrp_keeps_engs (s : State) (n : Nat) (f : OutGroup → OutGroup) : (s.modGrp n f).engs = s.engs := rfl
@[simp] theorem State.modGrp_keeps_noc (s : State) (n : Nat) (f : OutGroup → OutGroup) : (s.modGrp n f).noc = s.noc := rfl
@[simp] theorem State.modGrp_keeps_gddr (s : State) (n : Nat) (f : OutGroup → OutGroup) : (s.modGrp n f).gddr = s.gddr := rfl
@[simp] theorem State.modGrp_keeps_gddrMem (s : State) (n : Nat) (f : OutGroup → OutGroup) : (s.modGrp n f).gddrMem = s.gddrMem := rfl
@[simp] theorem State.modGrp_keeps_poison (s : State) (n : Nat) (f : OutGroup → OutGroup) : (s.modGrp n f).poison = s.poison := rfl
@[simp] theorem State.modGrp_keeps_ctrl (s : State) (n : Nat) (f : OutGroup → OutGroup) : (s.modGrp n f).ctrl = s.ctrl := rfl
@[simp] theorem State.modGrp_keeps_alt (s : State) (n : Nat) (f : OutGroup → OutGroup) : (s.modGrp n f).alt = s.alt := rfl
@[simp] theorem State.modGrp_keeps_golden (s : State) (n : Nat) (f : OutGroup → OutGroup) : (s.modGrp n f).golden = s.golden := rfl
@[simp] theorem State.modGrp_keeps_cmp (s : State) (n : Nat) (f : OutGroup → OutGroup) : (s.modGrp n f).cmp = s.cmp := rfl
@[simp] theorem State.modGrp_keeps_grid (s : State) (n : Nat) (f : OutGroup → OutGroup) : (s.modGrp n f).grid = s.grid := rfl
@[simp] theorem State.modGrp_keeps_flr (s : State) (n : Nat) (f : OutGroup → OutGroup) : (s.modGrp n f).flr = s.flr := rfl
@[simp] theorem State.modGrp_keeps_floorPair (s : State) (n : Nat) (f : OutGroup → OutGroup) : (s.modGrp n f).floorPair = s.floorPair := rfl
@[simp] theorem State.modGrp_keeps_ev (s : State) (n : Nat) (f : OutGroup → OutGroup) : (s.modGrp n f).ev = s.ev := rfl
@[simp] theorem State.modGrp_keeps_io (s : State) (n : Nat) (f : OutGroup → OutGroup) : (s.modGrp n f).io = s.io := rfl
@[simp] theorem State.modGrp_keeps_jnl (s : State) (n : Nat) (f : OutGroup → OutGroup) : (s.modGrp n f).jnl = s.jnl := rfl
@[simp] theorem State.modGrp_keeps_st (s : State) (n : Nat) (f : OutGroup → OutGroup) : (s.modGrp n f).st = s.st := rfl
@[simp] theorem State.modGrp_keeps_lc (s : State) (n : Nat) (f : OutGroup → OutGroup) : (s.modGrp n f).lc = s.lc := rfl
@[simp] theorem State.modGrp_keeps_secu (s : State) (n : Nat) (f : OutGroup → OutGroup) : (s.modGrp n f).secu = s.secu := rfl
@[simp] theorem State.modGrp_keeps_lk (s : State) (n : Nat) (f : OutGroup → OutGroup) : (s.modGrp n f).lk = s.lk := rfl
@[simp] theorem State.modGrp_keeps_freeCtr (s : State) (n : Nat) (f : OutGroup → OutGroup) : (s.modGrp n f).freeCtr = s.freeCtr := rfl

/-! ### modTask -/

@[simp] theorem State.modTask_keeps_pending (s : State) (n : Nat) (f : TaskWd → TaskWd) : (s.modTask n f).pending = s.pending := rfl
@[simp] theorem State.modTask_keeps_beat (s : State) (n : Nat) (f : TaskWd → TaskWd) : (s.modTask n f).beat = s.beat := rfl
@[simp] theorem State.modTask_keeps_powered (s : State) (n : Nat) (f : TaskWd → TaskWd) : (s.modTask n f).powered = s.powered := rfl
@[simp] theorem State.modTask_keeps_xtalOk (s : State) (n : Nat) (f : TaskWd → TaskWd) : (s.modTask n f).xtalOk = s.xtalOk := rfl
@[simp] theorem State.modTask_keeps_selftestFail (s : State) (n : Nat) (f : TaskWd → TaskWd) : (s.modTask n f).selftestFail = s.selftestFail := rfl
@[simp] theorem State.modTask_keeps_fc (s : State) (n : Nat) (f : TaskWd → TaskWd) : (s.modTask n f).fc = s.fc := rfl
@[simp] theorem State.modTask_keeps_evr (s : State) (n : Nat) (f : TaskWd → TaskWd) : (s.modTask n f).evr = s.evr := rfl
@[simp] theorem State.modTask_keeps_watch (s : State) (n : Nat) (f : TaskWd → TaskWd) : (s.modTask n f).watch = s.watch := rfl
@[simp] theorem State.modTask_keeps_si (s : State) (n : Nat) (f : TaskWd → TaskWd) : (s.modTask n f).si = s.si := rfl
@[simp] theorem State.modTask_keeps_tp (s : State) (n : Nat) (f : TaskWd → TaskWd) : (s.modTask n f).tp = s.tp := rfl
@[simp] theorem State.modTask_keeps_lrst (s : State) (n : Nat) (f : TaskWd → TaskWd) : (s.modTask n f).lrst = s.lrst := rfl
@[simp] theorem State.modTask_keeps_enc (s : State) (n : Nat) (f : TaskWd → TaskWd) : (s.modTask n f).enc = s.enc := rfl
@[simp] theorem State.modTask_keeps_so (s : State) (n : Nat) (f : TaskWd → TaskWd) : (s.modTask n f).so = s.so := rfl
@[simp] theorem State.modTask_keeps_i3c (s : State) (n : Nat) (f : TaskWd → TaskWd) : (s.modTask n f).i3c = s.i3c := rfl
@[simp] theorem State.modTask_keeps_cmd (s : State) (n : Nat) (f : TaskWd → TaskWd) : (s.modTask n f).cmd = s.cmd := rfl
@[simp] theorem State.modTask_keeps_ldr (s : State) (n : Nat) (f : TaskWd → TaskWd) : (s.modTask n f).ldr = s.ldr := rfl
@[simp] theorem State.modTask_keeps_pwr (s : State) (n : Nat) (f : TaskWd → TaskWd) : (s.modTask n f).pwr = s.pwr := rfl
@[simp] theorem State.modTask_keeps_therm (s : State) (n : Nat) (f : TaskWd → TaskWd) : (s.modTask n f).therm = s.therm := rfl
@[simp] theorem State.modTask_keeps_time (s : State) (n : Nat) (f : TaskWd → TaskWd) : (s.modTask n f).time = s.time := rfl
@[simp] theorem State.modTask_keeps_tel (s : State) (n : Nat) (f : TaskWd → TaskWd) : (s.modTask n f).tel = s.tel := rfl
@[simp] theorem State.modTask_keeps_sched (s : State) (n : Nat) (f : TaskWd → TaskWd) : (s.modTask n f).sched = s.sched := rfl
@[simp] theorem State.modTask_keeps_cores (s : State) (n : Nat) (f : TaskWd → TaskWd) : (s.modTask n f).cores = s.cores := rfl
@[simp] theorem State.modTask_keeps_engs (s : State) (n : Nat) (f : TaskWd → TaskWd) : (s.modTask n f).engs = s.engs := rfl
@[simp] theorem State.modTask_keeps_noc (s : State) (n : Nat) (f : TaskWd → TaskWd) : (s.modTask n f).noc = s.noc := rfl
@[simp] theorem State.modTask_keeps_gddr (s : State) (n : Nat) (f : TaskWd → TaskWd) : (s.modTask n f).gddr = s.gddr := rfl
@[simp] theorem State.modTask_keeps_gddrMem (s : State) (n : Nat) (f : TaskWd → TaskWd) : (s.modTask n f).gddrMem = s.gddrMem := rfl
@[simp] theorem State.modTask_keeps_poison (s : State) (n : Nat) (f : TaskWd → TaskWd) : (s.modTask n f).poison = s.poison := rfl
@[simp] theorem State.modTask_keeps_ctrl (s : State) (n : Nat) (f : TaskWd → TaskWd) : (s.modTask n f).ctrl = s.ctrl := rfl
@[simp] theorem State.modTask_keeps_alt (s : State) (n : Nat) (f : TaskWd → TaskWd) : (s.modTask n f).alt = s.alt := rfl
@[simp] theorem State.modTask_keeps_golden (s : State) (n : Nat) (f : TaskWd → TaskWd) : (s.modTask n f).golden = s.golden := rfl
@[simp] theorem State.modTask_keeps_cmp (s : State) (n : Nat) (f : TaskWd → TaskWd) : (s.modTask n f).cmp = s.cmp := rfl
@[simp] theorem State.modTask_keeps_grid (s : State) (n : Nat) (f : TaskWd → TaskWd) : (s.modTask n f).grid = s.grid := rfl
@[simp] theorem State.modTask_keeps_flr (s : State) (n : Nat) (f : TaskWd → TaskWd) : (s.modTask n f).flr = s.flr := rfl
@[simp] theorem State.modTask_keeps_floorPair (s : State) (n : Nat) (f : TaskWd → TaskWd) : (s.modTask n f).floorPair = s.floorPair := rfl
@[simp] theorem State.modTask_keeps_ev (s : State) (n : Nat) (f : TaskWd → TaskWd) : (s.modTask n f).ev = s.ev := rfl
@[simp] theorem State.modTask_keeps_io (s : State) (n : Nat) (f : TaskWd → TaskWd) : (s.modTask n f).io = s.io := rfl
@[simp] theorem State.modTask_keeps_jnl (s : State) (n : Nat) (f : TaskWd → TaskWd) : (s.modTask n f).jnl = s.jnl := rfl
@[simp] theorem State.modTask_keeps_st (s : State) (n : Nat) (f : TaskWd → TaskWd) : (s.modTask n f).st = s.st := rfl
@[simp] theorem State.modTask_keeps_lc (s : State) (n : Nat) (f : TaskWd → TaskWd) : (s.modTask n f).lc = s.lc := rfl
@[simp] theorem State.modTask_keeps_secu (s : State) (n : Nat) (f : TaskWd → TaskWd) : (s.modTask n f).secu = s.secu := rfl
@[simp] theorem State.modTask_keeps_lk (s : State) (n : Nat) (f : TaskWd → TaskWd) : (s.modTask n f).lk = s.lk := rfl
@[simp] theorem State.modTask_keeps_freeCtr (s : State) (n : Nat) (f : TaskWd → TaskWd) : (s.modTask n f).freeCtr = s.freeCtr := rfl

/-! ### modHb -/

@[simp] theorem State.modHb_keeps_pending (s : State) (n : Nat) (f : HbMon → HbMon) : (s.modHb n f).pending = s.pending := rfl
@[simp] theorem State.modHb_keeps_beat (s : State) (n : Nat) (f : HbMon → HbMon) : (s.modHb n f).beat = s.beat := rfl
@[simp] theorem State.modHb_keeps_powered (s : State) (n : Nat) (f : HbMon → HbMon) : (s.modHb n f).powered = s.powered := rfl
@[simp] theorem State.modHb_keeps_xtalOk (s : State) (n : Nat) (f : HbMon → HbMon) : (s.modHb n f).xtalOk = s.xtalOk := rfl
@[simp] theorem State.modHb_keeps_selftestFail (s : State) (n : Nat) (f : HbMon → HbMon) : (s.modHb n f).selftestFail = s.selftestFail := rfl
@[simp] theorem State.modHb_keeps_fc (s : State) (n : Nat) (f : HbMon → HbMon) : (s.modHb n f).fc = s.fc := rfl
@[simp] theorem State.modHb_keeps_evr (s : State) (n : Nat) (f : HbMon → HbMon) : (s.modHb n f).evr = s.evr := rfl
@[simp] theorem State.modHb_keeps_watch (s : State) (n : Nat) (f : HbMon → HbMon) : (s.modHb n f).watch = s.watch := rfl
@[simp] theorem State.modHb_keeps_si (s : State) (n : Nat) (f : HbMon → HbMon) : (s.modHb n f).si = s.si := rfl
@[simp] theorem State.modHb_keeps_tp (s : State) (n : Nat) (f : HbMon → HbMon) : (s.modHb n f).tp = s.tp := rfl
@[simp] theorem State.modHb_keeps_lrst (s : State) (n : Nat) (f : HbMon → HbMon) : (s.modHb n f).lrst = s.lrst := rfl
@[simp] theorem State.modHb_keeps_enc (s : State) (n : Nat) (f : HbMon → HbMon) : (s.modHb n f).enc = s.enc := rfl
@[simp] theorem State.modHb_keeps_so (s : State) (n : Nat) (f : HbMon → HbMon) : (s.modHb n f).so = s.so := rfl
@[simp] theorem State.modHb_keeps_i3c (s : State) (n : Nat) (f : HbMon → HbMon) : (s.modHb n f).i3c = s.i3c := rfl
@[simp] theorem State.modHb_keeps_cmd (s : State) (n : Nat) (f : HbMon → HbMon) : (s.modHb n f).cmd = s.cmd := rfl
@[simp] theorem State.modHb_keeps_ldr (s : State) (n : Nat) (f : HbMon → HbMon) : (s.modHb n f).ldr = s.ldr := rfl
@[simp] theorem State.modHb_keeps_pwr (s : State) (n : Nat) (f : HbMon → HbMon) : (s.modHb n f).pwr = s.pwr := rfl
@[simp] theorem State.modHb_keeps_therm (s : State) (n : Nat) (f : HbMon → HbMon) : (s.modHb n f).therm = s.therm := rfl
@[simp] theorem State.modHb_keeps_time (s : State) (n : Nat) (f : HbMon → HbMon) : (s.modHb n f).time = s.time := rfl
@[simp] theorem State.modHb_keeps_tel (s : State) (n : Nat) (f : HbMon → HbMon) : (s.modHb n f).tel = s.tel := rfl
@[simp] theorem State.modHb_keeps_sched (s : State) (n : Nat) (f : HbMon → HbMon) : (s.modHb n f).sched = s.sched := rfl
@[simp] theorem State.modHb_keeps_cores (s : State) (n : Nat) (f : HbMon → HbMon) : (s.modHb n f).cores = s.cores := rfl
@[simp] theorem State.modHb_keeps_engs (s : State) (n : Nat) (f : HbMon → HbMon) : (s.modHb n f).engs = s.engs := rfl
@[simp] theorem State.modHb_keeps_noc (s : State) (n : Nat) (f : HbMon → HbMon) : (s.modHb n f).noc = s.noc := rfl
@[simp] theorem State.modHb_keeps_gddr (s : State) (n : Nat) (f : HbMon → HbMon) : (s.modHb n f).gddr = s.gddr := rfl
@[simp] theorem State.modHb_keeps_gddrMem (s : State) (n : Nat) (f : HbMon → HbMon) : (s.modHb n f).gddrMem = s.gddrMem := rfl
@[simp] theorem State.modHb_keeps_poison (s : State) (n : Nat) (f : HbMon → HbMon) : (s.modHb n f).poison = s.poison := rfl
@[simp] theorem State.modHb_keeps_ctrl (s : State) (n : Nat) (f : HbMon → HbMon) : (s.modHb n f).ctrl = s.ctrl := rfl
@[simp] theorem State.modHb_keeps_alt (s : State) (n : Nat) (f : HbMon → HbMon) : (s.modHb n f).alt = s.alt := rfl
@[simp] theorem State.modHb_keeps_golden (s : State) (n : Nat) (f : HbMon → HbMon) : (s.modHb n f).golden = s.golden := rfl
@[simp] theorem State.modHb_keeps_cmp (s : State) (n : Nat) (f : HbMon → HbMon) : (s.modHb n f).cmp = s.cmp := rfl
@[simp] theorem State.modHb_keeps_grid (s : State) (n : Nat) (f : HbMon → HbMon) : (s.modHb n f).grid = s.grid := rfl
@[simp] theorem State.modHb_keeps_flr (s : State) (n : Nat) (f : HbMon → HbMon) : (s.modHb n f).flr = s.flr := rfl
@[simp] theorem State.modHb_keeps_floorPair (s : State) (n : Nat) (f : HbMon → HbMon) : (s.modHb n f).floorPair = s.floorPair := rfl
@[simp] theorem State.modHb_keeps_ev (s : State) (n : Nat) (f : HbMon → HbMon) : (s.modHb n f).ev = s.ev := rfl
@[simp] theorem State.modHb_keeps_io (s : State) (n : Nat) (f : HbMon → HbMon) : (s.modHb n f).io = s.io := rfl
@[simp] theorem State.modHb_keeps_jnl (s : State) (n : Nat) (f : HbMon → HbMon) : (s.modHb n f).jnl = s.jnl := rfl
@[simp] theorem State.modHb_keeps_st (s : State) (n : Nat) (f : HbMon → HbMon) : (s.modHb n f).st = s.st := rfl
@[simp] theorem State.modHb_keeps_lc (s : State) (n : Nat) (f : HbMon → HbMon) : (s.modHb n f).lc = s.lc := rfl
@[simp] theorem State.modHb_keeps_secu (s : State) (n : Nat) (f : HbMon → HbMon) : (s.modHb n f).secu = s.secu := rfl
@[simp] theorem State.modHb_keeps_lk (s : State) (n : Nat) (f : HbMon → HbMon) : (s.modHb n f).lk = s.lk := rfl
@[simp] theorem State.modHb_keeps_freeCtr (s : State) (n : Nat) (f : HbMon → HbMon) : (s.modHb n f).freeCtr = s.freeCtr := rfl

/-! ### modPrim -/

@[simp] theorem State.modPrim_keeps_pending (s : State) (n : Nat) (f : AccState → AccState) : (s.modPrim n f).pending = s.pending := rfl
@[simp] theorem State.modPrim_keeps_beat (s : State) (n : Nat) (f : AccState → AccState) : (s.modPrim n f).beat = s.beat := rfl
@[simp] theorem State.modPrim_keeps_powered (s : State) (n : Nat) (f : AccState → AccState) : (s.modPrim n f).powered = s.powered := rfl
@[simp] theorem State.modPrim_keeps_xtalOk (s : State) (n : Nat) (f : AccState → AccState) : (s.modPrim n f).xtalOk = s.xtalOk := rfl
@[simp] theorem State.modPrim_keeps_selftestFail (s : State) (n : Nat) (f : AccState → AccState) : (s.modPrim n f).selftestFail = s.selftestFail := rfl
@[simp] theorem State.modPrim_keeps_fc (s : State) (n : Nat) (f : AccState → AccState) : (s.modPrim n f).fc = s.fc := rfl
@[simp] theorem State.modPrim_keeps_wd (s : State) (n : Nat) (f : AccState → AccState) : (s.modPrim n f).wd = s.wd := rfl
@[simp] theorem State.modPrim_keeps_evr (s : State) (n : Nat) (f : AccState → AccState) : (s.modPrim n f).evr = s.evr := rfl
@[simp] theorem State.modPrim_keeps_watch (s : State) (n : Nat) (f : AccState → AccState) : (s.modPrim n f).watch = s.watch := rfl
@[simp] theorem State.modPrim_keeps_si (s : State) (n : Nat) (f : AccState → AccState) : (s.modPrim n f).si = s.si := rfl
@[simp] theorem State.modPrim_keeps_tp (s : State) (n : Nat) (f : AccState → AccState) : (s.modPrim n f).tp = s.tp := rfl
@[simp] theorem State.modPrim_keeps_lrst (s : State) (n : Nat) (f : AccState → AccState) : (s.modPrim n f).lrst = s.lrst := rfl
@[simp] theorem State.modPrim_keeps_enc (s : State) (n : Nat) (f : AccState → AccState) : (s.modPrim n f).enc = s.enc := rfl
@[simp] theorem State.modPrim_keeps_so (s : State) (n : Nat) (f : AccState → AccState) : (s.modPrim n f).so = s.so := rfl
@[simp] theorem State.modPrim_keeps_i3c (s : State) (n : Nat) (f : AccState → AccState) : (s.modPrim n f).i3c = s.i3c := rfl
@[simp] theorem State.modPrim_keeps_cmd (s : State) (n : Nat) (f : AccState → AccState) : (s.modPrim n f).cmd = s.cmd := rfl
@[simp] theorem State.modPrim_keeps_ldr (s : State) (n : Nat) (f : AccState → AccState) : (s.modPrim n f).ldr = s.ldr := rfl
@[simp] theorem State.modPrim_keeps_therm (s : State) (n : Nat) (f : AccState → AccState) : (s.modPrim n f).therm = s.therm := rfl
@[simp] theorem State.modPrim_keeps_time (s : State) (n : Nat) (f : AccState → AccState) : (s.modPrim n f).time = s.time := rfl
@[simp] theorem State.modPrim_keeps_tel (s : State) (n : Nat) (f : AccState → AccState) : (s.modPrim n f).tel = s.tel := rfl
@[simp] theorem State.modPrim_keeps_sched (s : State) (n : Nat) (f : AccState → AccState) : (s.modPrim n f).sched = s.sched := rfl
@[simp] theorem State.modPrim_keeps_cores (s : State) (n : Nat) (f : AccState → AccState) : (s.modPrim n f).cores = s.cores := rfl
@[simp] theorem State.modPrim_keeps_engs (s : State) (n : Nat) (f : AccState → AccState) : (s.modPrim n f).engs = s.engs := rfl
@[simp] theorem State.modPrim_keeps_noc (s : State) (n : Nat) (f : AccState → AccState) : (s.modPrim n f).noc = s.noc := rfl
@[simp] theorem State.modPrim_keeps_gddr (s : State) (n : Nat) (f : AccState → AccState) : (s.modPrim n f).gddr = s.gddr := rfl
@[simp] theorem State.modPrim_keeps_gddrMem (s : State) (n : Nat) (f : AccState → AccState) : (s.modPrim n f).gddrMem = s.gddrMem := rfl
@[simp] theorem State.modPrim_keeps_poison (s : State) (n : Nat) (f : AccState → AccState) : (s.modPrim n f).poison = s.poison := rfl
@[simp] theorem State.modPrim_keeps_ctrl (s : State) (n : Nat) (f : AccState → AccState) : (s.modPrim n f).ctrl = s.ctrl := rfl
@[simp] theorem State.modPrim_keeps_alt (s : State) (n : Nat) (f : AccState → AccState) : (s.modPrim n f).alt = s.alt := rfl
@[simp] theorem State.modPrim_keeps_golden (s : State) (n : Nat) (f : AccState → AccState) : (s.modPrim n f).golden = s.golden := rfl
@[simp] theorem State.modPrim_keeps_cmp (s : State) (n : Nat) (f : AccState → AccState) : (s.modPrim n f).cmp = s.cmp := rfl
@[simp] theorem State.modPrim_keeps_grid (s : State) (n : Nat) (f : AccState → AccState) : (s.modPrim n f).grid = s.grid := rfl
@[simp] theorem State.modPrim_keeps_flr (s : State) (n : Nat) (f : AccState → AccState) : (s.modPrim n f).flr = s.flr := rfl
@[simp] theorem State.modPrim_keeps_floorPair (s : State) (n : Nat) (f : AccState → AccState) : (s.modPrim n f).floorPair = s.floorPair := rfl
@[simp] theorem State.modPrim_keeps_ev (s : State) (n : Nat) (f : AccState → AccState) : (s.modPrim n f).ev = s.ev := rfl
@[simp] theorem State.modPrim_keeps_io (s : State) (n : Nat) (f : AccState → AccState) : (s.modPrim n f).io = s.io := rfl
@[simp] theorem State.modPrim_keeps_jnl (s : State) (n : Nat) (f : AccState → AccState) : (s.modPrim n f).jnl = s.jnl := rfl
@[simp] theorem State.modPrim_keeps_st (s : State) (n : Nat) (f : AccState → AccState) : (s.modPrim n f).st = s.st := rfl
@[simp] theorem State.modPrim_keeps_lc (s : State) (n : Nat) (f : AccState → AccState) : (s.modPrim n f).lc = s.lc := rfl
@[simp] theorem State.modPrim_keeps_secu (s : State) (n : Nat) (f : AccState → AccState) : (s.modPrim n f).secu = s.secu := rfl
@[simp] theorem State.modPrim_keeps_lk (s : State) (n : Nat) (f : AccState → AccState) : (s.modPrim n f).lk = s.lk := rfl
@[simp] theorem State.modPrim_keeps_freeCtr (s : State) (n : Nat) (f : AccState → AccState) : (s.modPrim n f).freeCtr = s.freeCtr := rfl

/-! ### modRun -/

@[simp] theorem State.modRun_keeps_pending (s : State) (n : Nat) (f : RunState → RunState) : (s.modRun n f).pending = s.pending := rfl
@[simp] theorem State.modRun_keeps_beat (s : State) (n : Nat) (f : RunState → RunState) : (s.modRun n f).beat = s.beat := rfl
@[simp] theorem State.modRun_keeps_powered (s : State) (n : Nat) (f : RunState → RunState) : (s.modRun n f).powered = s.powered := rfl
@[simp] theorem State.modRun_keeps_xtalOk (s : State) (n : Nat) (f : RunState → RunState) : (s.modRun n f).xtalOk = s.xtalOk := rfl
@[simp] theorem State.modRun_keeps_selftestFail (s : State) (n : Nat) (f : RunState → RunState) : (s.modRun n f).selftestFail = s.selftestFail := rfl
@[simp] theorem State.modRun_keeps_fc (s : State) (n : Nat) (f : RunState → RunState) : (s.modRun n f).fc = s.fc := rfl
@[simp] theorem State.modRun_keeps_wd (s : State) (n : Nat) (f : RunState → RunState) : (s.modRun n f).wd = s.wd := rfl
@[simp] theorem State.modRun_keeps_evr (s : State) (n : Nat) (f : RunState → RunState) : (s.modRun n f).evr = s.evr := rfl
@[simp] theorem State.modRun_keeps_watch (s : State) (n : Nat) (f : RunState → RunState) : (s.modRun n f).watch = s.watch := rfl
@[simp] theorem State.modRun_keeps_si (s : State) (n : Nat) (f : RunState → RunState) : (s.modRun n f).si = s.si := rfl
@[simp] theorem State.modRun_keeps_tp (s : State) (n : Nat) (f : RunState → RunState) : (s.modRun n f).tp = s.tp := rfl
@[simp] theorem State.modRun_keeps_lrst (s : State) (n : Nat) (f : RunState → RunState) : (s.modRun n f).lrst = s.lrst := rfl
@[simp] theorem State.modRun_keeps_enc (s : State) (n : Nat) (f : RunState → RunState) : (s.modRun n f).enc = s.enc := rfl
@[simp] theorem State.modRun_keeps_so (s : State) (n : Nat) (f : RunState → RunState) : (s.modRun n f).so = s.so := rfl
@[simp] theorem State.modRun_keeps_i3c (s : State) (n : Nat) (f : RunState → RunState) : (s.modRun n f).i3c = s.i3c := rfl
@[simp] theorem State.modRun_keeps_cmd (s : State) (n : Nat) (f : RunState → RunState) : (s.modRun n f).cmd = s.cmd := rfl
@[simp] theorem State.modRun_keeps_ldr (s : State) (n : Nat) (f : RunState → RunState) : (s.modRun n f).ldr = s.ldr := rfl
@[simp] theorem State.modRun_keeps_pwr (s : State) (n : Nat) (f : RunState → RunState) : (s.modRun n f).pwr = s.pwr := rfl
@[simp] theorem State.modRun_keeps_therm (s : State) (n : Nat) (f : RunState → RunState) : (s.modRun n f).therm = s.therm := rfl
@[simp] theorem State.modRun_keeps_time (s : State) (n : Nat) (f : RunState → RunState) : (s.modRun n f).time = s.time := rfl
@[simp] theorem State.modRun_keeps_tel (s : State) (n : Nat) (f : RunState → RunState) : (s.modRun n f).tel = s.tel := rfl
@[simp] theorem State.modRun_keeps_cores (s : State) (n : Nat) (f : RunState → RunState) : (s.modRun n f).cores = s.cores := rfl
@[simp] theorem State.modRun_keeps_engs (s : State) (n : Nat) (f : RunState → RunState) : (s.modRun n f).engs = s.engs := rfl
@[simp] theorem State.modRun_keeps_noc (s : State) (n : Nat) (f : RunState → RunState) : (s.modRun n f).noc = s.noc := rfl
@[simp] theorem State.modRun_keeps_gddr (s : State) (n : Nat) (f : RunState → RunState) : (s.modRun n f).gddr = s.gddr := rfl
@[simp] theorem State.modRun_keeps_gddrMem (s : State) (n : Nat) (f : RunState → RunState) : (s.modRun n f).gddrMem = s.gddrMem := rfl
@[simp] theorem State.modRun_keeps_poison (s : State) (n : Nat) (f : RunState → RunState) : (s.modRun n f).poison = s.poison := rfl
@[simp] theorem State.modRun_keeps_ctrl (s : State) (n : Nat) (f : RunState → RunState) : (s.modRun n f).ctrl = s.ctrl := rfl
@[simp] theorem State.modRun_keeps_alt (s : State) (n : Nat) (f : RunState → RunState) : (s.modRun n f).alt = s.alt := rfl
@[simp] theorem State.modRun_keeps_golden (s : State) (n : Nat) (f : RunState → RunState) : (s.modRun n f).golden = s.golden := rfl
@[simp] theorem State.modRun_keeps_cmp (s : State) (n : Nat) (f : RunState → RunState) : (s.modRun n f).cmp = s.cmp := rfl
@[simp] theorem State.modRun_keeps_grid (s : State) (n : Nat) (f : RunState → RunState) : (s.modRun n f).grid = s.grid := rfl
@[simp] theorem State.modRun_keeps_flr (s : State) (n : Nat) (f : RunState → RunState) : (s.modRun n f).flr = s.flr := rfl
@[simp] theorem State.modRun_keeps_floorPair (s : State) (n : Nat) (f : RunState → RunState) : (s.modRun n f).floorPair = s.floorPair := rfl
@[simp] theorem State.modRun_keeps_ev (s : State) (n : Nat) (f : RunState → RunState) : (s.modRun n f).ev = s.ev := rfl
@[simp] theorem State.modRun_keeps_io (s : State) (n : Nat) (f : RunState → RunState) : (s.modRun n f).io = s.io := rfl
@[simp] theorem State.modRun_keeps_jnl (s : State) (n : Nat) (f : RunState → RunState) : (s.modRun n f).jnl = s.jnl := rfl
@[simp] theorem State.modRun_keeps_st (s : State) (n : Nat) (f : RunState → RunState) : (s.modRun n f).st = s.st := rfl
@[simp] theorem State.modRun_keeps_lc (s : State) (n : Nat) (f : RunState → RunState) : (s.modRun n f).lc = s.lc := rfl
@[simp] theorem State.modRun_keeps_secu (s : State) (n : Nat) (f : RunState → RunState) : (s.modRun n f).secu = s.secu := rfl
@[simp] theorem State.modRun_keeps_lk (s : State) (n : Nat) (f : RunState → RunState) : (s.modRun n f).lk = s.lk := rfl
@[simp] theorem State.modRun_keeps_freeCtr (s : State) (n : Nat) (f : RunState → RunState) : (s.modRun n f).freeCtr = s.freeCtr := rfl

/-! ### modPort -/

@[simp] theorem State.modPort_keeps_pending (s : State) (n : Nat) (f : PortState → PortState) : (s.modPort n f).pending = s.pending := rfl
@[simp] theorem State.modPort_keeps_beat (s : State) (n : Nat) (f : PortState → PortState) : (s.modPort n f).beat = s.beat := rfl
@[simp] theorem State.modPort_keeps_powered (s : State) (n : Nat) (f : PortState → PortState) : (s.modPort n f).powered = s.powered := rfl
@[simp] theorem State.modPort_keeps_xtalOk (s : State) (n : Nat) (f : PortState → PortState) : (s.modPort n f).xtalOk = s.xtalOk := rfl
@[simp] theorem State.modPort_keeps_selftestFail (s : State) (n : Nat) (f : PortState → PortState) : (s.modPort n f).selftestFail = s.selftestFail := rfl
@[simp] theorem State.modPort_keeps_fc (s : State) (n : Nat) (f : PortState → PortState) : (s.modPort n f).fc = s.fc := rfl
@[simp] theorem State.modPort_keeps_wd (s : State) (n : Nat) (f : PortState → PortState) : (s.modPort n f).wd = s.wd := rfl
@[simp] theorem State.modPort_keeps_evr (s : State) (n : Nat) (f : PortState → PortState) : (s.modPort n f).evr = s.evr := rfl
@[simp] theorem State.modPort_keeps_watch (s : State) (n : Nat) (f : PortState → PortState) : (s.modPort n f).watch = s.watch := rfl
@[simp] theorem State.modPort_keeps_si (s : State) (n : Nat) (f : PortState → PortState) : (s.modPort n f).si = s.si := rfl
@[simp] theorem State.modPort_keeps_tp (s : State) (n : Nat) (f : PortState → PortState) : (s.modPort n f).tp = s.tp := rfl
@[simp] theorem State.modPort_keeps_lrst (s : State) (n : Nat) (f : PortState → PortState) : (s.modPort n f).lrst = s.lrst := rfl
@[simp] theorem State.modPort_keeps_enc (s : State) (n : Nat) (f : PortState → PortState) : (s.modPort n f).enc = s.enc := rfl
@[simp] theorem State.modPort_keeps_so (s : State) (n : Nat) (f : PortState → PortState) : (s.modPort n f).so = s.so := rfl
@[simp] theorem State.modPort_keeps_i3c (s : State) (n : Nat) (f : PortState → PortState) : (s.modPort n f).i3c = s.i3c := rfl
@[simp] theorem State.modPort_keeps_cmd (s : State) (n : Nat) (f : PortState → PortState) : (s.modPort n f).cmd = s.cmd := rfl
@[simp] theorem State.modPort_keeps_ldr (s : State) (n : Nat) (f : PortState → PortState) : (s.modPort n f).ldr = s.ldr := rfl
@[simp] theorem State.modPort_keeps_pwr (s : State) (n : Nat) (f : PortState → PortState) : (s.modPort n f).pwr = s.pwr := rfl
@[simp] theorem State.modPort_keeps_therm (s : State) (n : Nat) (f : PortState → PortState) : (s.modPort n f).therm = s.therm := rfl
@[simp] theorem State.modPort_keeps_time (s : State) (n : Nat) (f : PortState → PortState) : (s.modPort n f).time = s.time := rfl
@[simp] theorem State.modPort_keeps_tel (s : State) (n : Nat) (f : PortState → PortState) : (s.modPort n f).tel = s.tel := rfl
@[simp] theorem State.modPort_keeps_sched (s : State) (n : Nat) (f : PortState → PortState) : (s.modPort n f).sched = s.sched := rfl
@[simp] theorem State.modPort_keeps_cores (s : State) (n : Nat) (f : PortState → PortState) : (s.modPort n f).cores = s.cores := rfl
@[simp] theorem State.modPort_keeps_engs (s : State) (n : Nat) (f : PortState → PortState) : (s.modPort n f).engs = s.engs := rfl
@[simp] theorem State.modPort_keeps_noc (s : State) (n : Nat) (f : PortState → PortState) : (s.modPort n f).noc = s.noc := rfl
@[simp] theorem State.modPort_keeps_gddr (s : State) (n : Nat) (f : PortState → PortState) : (s.modPort n f).gddr = s.gddr := rfl
@[simp] theorem State.modPort_keeps_gddrMem (s : State) (n : Nat) (f : PortState → PortState) : (s.modPort n f).gddrMem = s.gddrMem := rfl
@[simp] theorem State.modPort_keeps_poison (s : State) (n : Nat) (f : PortState → PortState) : (s.modPort n f).poison = s.poison := rfl
@[simp] theorem State.modPort_keeps_ctrl (s : State) (n : Nat) (f : PortState → PortState) : (s.modPort n f).ctrl = s.ctrl := rfl
@[simp] theorem State.modPort_keeps_alt (s : State) (n : Nat) (f : PortState → PortState) : (s.modPort n f).alt = s.alt := rfl
@[simp] theorem State.modPort_keeps_golden (s : State) (n : Nat) (f : PortState → PortState) : (s.modPort n f).golden = s.golden := rfl
@[simp] theorem State.modPort_keeps_cmp (s : State) (n : Nat) (f : PortState → PortState) : (s.modPort n f).cmp = s.cmp := rfl
@[simp] theorem State.modPort_keeps_grid (s : State) (n : Nat) (f : PortState → PortState) : (s.modPort n f).grid = s.grid := rfl
@[simp] theorem State.modPort_keeps_flr (s : State) (n : Nat) (f : PortState → PortState) : (s.modPort n f).flr = s.flr := rfl
@[simp] theorem State.modPort_keeps_floorPair (s : State) (n : Nat) (f : PortState → PortState) : (s.modPort n f).floorPair = s.floorPair := rfl
@[simp] theorem State.modPort_keeps_ev (s : State) (n : Nat) (f : PortState → PortState) : (s.modPort n f).ev = s.ev := rfl
@[simp] theorem State.modPort_keeps_jnl (s : State) (n : Nat) (f : PortState → PortState) : (s.modPort n f).jnl = s.jnl := rfl
@[simp] theorem State.modPort_keeps_st (s : State) (n : Nat) (f : PortState → PortState) : (s.modPort n f).st = s.st := rfl
@[simp] theorem State.modPort_keeps_lc (s : State) (n : Nat) (f : PortState → PortState) : (s.modPort n f).lc = s.lc := rfl
@[simp] theorem State.modPort_keeps_secu (s : State) (n : Nat) (f : PortState → PortState) : (s.modPort n f).secu = s.secu := rfl
@[simp] theorem State.modPort_keeps_lk (s : State) (n : Nat) (f : PortState → PortState) : (s.modPort n f).lk = s.lk := rfl
@[simp] theorem State.modPort_keeps_freeCtr (s : State) (n : Nat) (f : PortState → PortState) : (s.modPort n f).freeCtr = s.freeCtr := rfl

/-! ### modCtx -/

@[simp] theorem State.modCtx_keeps_pending (s : State) (n : Nat) (f : CtxState → CtxState) : (s.modCtx n f).pending = s.pending := rfl
@[simp] theorem State.modCtx_keeps_beat (s : State) (n : Nat) (f : CtxState → CtxState) : (s.modCtx n f).beat = s.beat := rfl
@[simp] theorem State.modCtx_keeps_powered (s : State) (n : Nat) (f : CtxState → CtxState) : (s.modCtx n f).powered = s.powered := rfl
@[simp] theorem State.modCtx_keeps_xtalOk (s : State) (n : Nat) (f : CtxState → CtxState) : (s.modCtx n f).xtalOk = s.xtalOk := rfl
@[simp] theorem State.modCtx_keeps_selftestFail (s : State) (n : Nat) (f : CtxState → CtxState) : (s.modCtx n f).selftestFail = s.selftestFail := rfl
@[simp] theorem State.modCtx_keeps_fc (s : State) (n : Nat) (f : CtxState → CtxState) : (s.modCtx n f).fc = s.fc := rfl
@[simp] theorem State.modCtx_keeps_wd (s : State) (n : Nat) (f : CtxState → CtxState) : (s.modCtx n f).wd = s.wd := rfl
@[simp] theorem State.modCtx_keeps_evr (s : State) (n : Nat) (f : CtxState → CtxState) : (s.modCtx n f).evr = s.evr := rfl
@[simp] theorem State.modCtx_keeps_watch (s : State) (n : Nat) (f : CtxState → CtxState) : (s.modCtx n f).watch = s.watch := rfl
@[simp] theorem State.modCtx_keeps_si (s : State) (n : Nat) (f : CtxState → CtxState) : (s.modCtx n f).si = s.si := rfl
@[simp] theorem State.modCtx_keeps_tp (s : State) (n : Nat) (f : CtxState → CtxState) : (s.modCtx n f).tp = s.tp := rfl
@[simp] theorem State.modCtx_keeps_lrst (s : State) (n : Nat) (f : CtxState → CtxState) : (s.modCtx n f).lrst = s.lrst := rfl
@[simp] theorem State.modCtx_keeps_enc (s : State) (n : Nat) (f : CtxState → CtxState) : (s.modCtx n f).enc = s.enc := rfl
@[simp] theorem State.modCtx_keeps_so (s : State) (n : Nat) (f : CtxState → CtxState) : (s.modCtx n f).so = s.so := rfl
@[simp] theorem State.modCtx_keeps_i3c (s : State) (n : Nat) (f : CtxState → CtxState) : (s.modCtx n f).i3c = s.i3c := rfl
@[simp] theorem State.modCtx_keeps_cmd (s : State) (n : Nat) (f : CtxState → CtxState) : (s.modCtx n f).cmd = s.cmd := rfl
@[simp] theorem State.modCtx_keeps_ldr (s : State) (n : Nat) (f : CtxState → CtxState) : (s.modCtx n f).ldr = s.ldr := rfl
@[simp] theorem State.modCtx_keeps_pwr (s : State) (n : Nat) (f : CtxState → CtxState) : (s.modCtx n f).pwr = s.pwr := rfl
@[simp] theorem State.modCtx_keeps_therm (s : State) (n : Nat) (f : CtxState → CtxState) : (s.modCtx n f).therm = s.therm := rfl
@[simp] theorem State.modCtx_keeps_time (s : State) (n : Nat) (f : CtxState → CtxState) : (s.modCtx n f).time = s.time := rfl
@[simp] theorem State.modCtx_keeps_tel (s : State) (n : Nat) (f : CtxState → CtxState) : (s.modCtx n f).tel = s.tel := rfl
@[simp] theorem State.modCtx_keeps_sched (s : State) (n : Nat) (f : CtxState → CtxState) : (s.modCtx n f).sched = s.sched := rfl
@[simp] theorem State.modCtx_keeps_cores (s : State) (n : Nat) (f : CtxState → CtxState) : (s.modCtx n f).cores = s.cores := rfl
@[simp] theorem State.modCtx_keeps_engs (s : State) (n : Nat) (f : CtxState → CtxState) : (s.modCtx n f).engs = s.engs := rfl
@[simp] theorem State.modCtx_keeps_noc (s : State) (n : Nat) (f : CtxState → CtxState) : (s.modCtx n f).noc = s.noc := rfl
@[simp] theorem State.modCtx_keeps_gddr (s : State) (n : Nat) (f : CtxState → CtxState) : (s.modCtx n f).gddr = s.gddr := rfl
@[simp] theorem State.modCtx_keeps_gddrMem (s : State) (n : Nat) (f : CtxState → CtxState) : (s.modCtx n f).gddrMem = s.gddrMem := rfl
@[simp] theorem State.modCtx_keeps_poison (s : State) (n : Nat) (f : CtxState → CtxState) : (s.modCtx n f).poison = s.poison := rfl
@[simp] theorem State.modCtx_keeps_ctrl (s : State) (n : Nat) (f : CtxState → CtxState) : (s.modCtx n f).ctrl = s.ctrl := rfl
@[simp] theorem State.modCtx_keeps_alt (s : State) (n : Nat) (f : CtxState → CtxState) : (s.modCtx n f).alt = s.alt := rfl
@[simp] theorem State.modCtx_keeps_golden (s : State) (n : Nat) (f : CtxState → CtxState) : (s.modCtx n f).golden = s.golden := rfl
@[simp] theorem State.modCtx_keeps_cmp (s : State) (n : Nat) (f : CtxState → CtxState) : (s.modCtx n f).cmp = s.cmp := rfl
@[simp] theorem State.modCtx_keeps_grid (s : State) (n : Nat) (f : CtxState → CtxState) : (s.modCtx n f).grid = s.grid := rfl
@[simp] theorem State.modCtx_keeps_flr (s : State) (n : Nat) (f : CtxState → CtxState) : (s.modCtx n f).flr = s.flr := rfl
@[simp] theorem State.modCtx_keeps_floorPair (s : State) (n : Nat) (f : CtxState → CtxState) : (s.modCtx n f).floorPair = s.floorPair := rfl
@[simp] theorem State.modCtx_keeps_ev (s : State) (n : Nat) (f : CtxState → CtxState) : (s.modCtx n f).ev = s.ev := rfl
@[simp] theorem State.modCtx_keeps_jnl (s : State) (n : Nat) (f : CtxState → CtxState) : (s.modCtx n f).jnl = s.jnl := rfl
@[simp] theorem State.modCtx_keeps_st (s : State) (n : Nat) (f : CtxState → CtxState) : (s.modCtx n f).st = s.st := rfl
@[simp] theorem State.modCtx_keeps_lc (s : State) (n : Nat) (f : CtxState → CtxState) : (s.modCtx n f).lc = s.lc := rfl
@[simp] theorem State.modCtx_keeps_secu (s : State) (n : Nat) (f : CtxState → CtxState) : (s.modCtx n f).secu = s.secu := rfl
@[simp] theorem State.modCtx_keeps_lk (s : State) (n : Nat) (f : CtxState → CtxState) : (s.modCtx n f).lk = s.lk := rfl
@[simp] theorem State.modCtx_keeps_freeCtr (s : State) (n : Nat) (f : CtxState → CtxState) : (s.modCtx n f).freeCtr = s.freeCtr := rfl

/-! ### modCvu -/

@[simp] theorem State.modCvu_keeps_pending (s : State) (n : Nat) (f : CvuState → CvuState) : (s.modCvu n f).pending = s.pending := rfl
@[simp] theorem State.modCvu_keeps_beat (s : State) (n : Nat) (f : CvuState → CvuState) : (s.modCvu n f).beat = s.beat := rfl
@[simp] theorem State.modCvu_keeps_powered (s : State) (n : Nat) (f : CvuState → CvuState) : (s.modCvu n f).powered = s.powered := rfl
@[simp] theorem State.modCvu_keeps_xtalOk (s : State) (n : Nat) (f : CvuState → CvuState) : (s.modCvu n f).xtalOk = s.xtalOk := rfl
@[simp] theorem State.modCvu_keeps_selftestFail (s : State) (n : Nat) (f : CvuState → CvuState) : (s.modCvu n f).selftestFail = s.selftestFail := rfl
@[simp] theorem State.modCvu_keeps_fc (s : State) (n : Nat) (f : CvuState → CvuState) : (s.modCvu n f).fc = s.fc := rfl
@[simp] theorem State.modCvu_keeps_wd (s : State) (n : Nat) (f : CvuState → CvuState) : (s.modCvu n f).wd = s.wd := rfl
@[simp] theorem State.modCvu_keeps_evr (s : State) (n : Nat) (f : CvuState → CvuState) : (s.modCvu n f).evr = s.evr := rfl
@[simp] theorem State.modCvu_keeps_watch (s : State) (n : Nat) (f : CvuState → CvuState) : (s.modCvu n f).watch = s.watch := rfl
@[simp] theorem State.modCvu_keeps_si (s : State) (n : Nat) (f : CvuState → CvuState) : (s.modCvu n f).si = s.si := rfl
@[simp] theorem State.modCvu_keeps_tp (s : State) (n : Nat) (f : CvuState → CvuState) : (s.modCvu n f).tp = s.tp := rfl
@[simp] theorem State.modCvu_keeps_lrst (s : State) (n : Nat) (f : CvuState → CvuState) : (s.modCvu n f).lrst = s.lrst := rfl
@[simp] theorem State.modCvu_keeps_enc (s : State) (n : Nat) (f : CvuState → CvuState) : (s.modCvu n f).enc = s.enc := rfl
@[simp] theorem State.modCvu_keeps_so (s : State) (n : Nat) (f : CvuState → CvuState) : (s.modCvu n f).so = s.so := rfl
@[simp] theorem State.modCvu_keeps_i3c (s : State) (n : Nat) (f : CvuState → CvuState) : (s.modCvu n f).i3c = s.i3c := rfl
@[simp] theorem State.modCvu_keeps_cmd (s : State) (n : Nat) (f : CvuState → CvuState) : (s.modCvu n f).cmd = s.cmd := rfl
@[simp] theorem State.modCvu_keeps_ldr (s : State) (n : Nat) (f : CvuState → CvuState) : (s.modCvu n f).ldr = s.ldr := rfl
@[simp] theorem State.modCvu_keeps_pwr (s : State) (n : Nat) (f : CvuState → CvuState) : (s.modCvu n f).pwr = s.pwr := rfl
@[simp] theorem State.modCvu_keeps_therm (s : State) (n : Nat) (f : CvuState → CvuState) : (s.modCvu n f).therm = s.therm := rfl
@[simp] theorem State.modCvu_keeps_time (s : State) (n : Nat) (f : CvuState → CvuState) : (s.modCvu n f).time = s.time := rfl
@[simp] theorem State.modCvu_keeps_tel (s : State) (n : Nat) (f : CvuState → CvuState) : (s.modCvu n f).tel = s.tel := rfl
@[simp] theorem State.modCvu_keeps_sched (s : State) (n : Nat) (f : CvuState → CvuState) : (s.modCvu n f).sched = s.sched := rfl
@[simp] theorem State.modCvu_keeps_cores (s : State) (n : Nat) (f : CvuState → CvuState) : (s.modCvu n f).cores = s.cores := rfl
@[simp] theorem State.modCvu_keeps_engs (s : State) (n : Nat) (f : CvuState → CvuState) : (s.modCvu n f).engs = s.engs := rfl
@[simp] theorem State.modCvu_keeps_noc (s : State) (n : Nat) (f : CvuState → CvuState) : (s.modCvu n f).noc = s.noc := rfl
@[simp] theorem State.modCvu_keeps_gddr (s : State) (n : Nat) (f : CvuState → CvuState) : (s.modCvu n f).gddr = s.gddr := rfl
@[simp] theorem State.modCvu_keeps_gddrMem (s : State) (n : Nat) (f : CvuState → CvuState) : (s.modCvu n f).gddrMem = s.gddrMem := rfl
@[simp] theorem State.modCvu_keeps_poison (s : State) (n : Nat) (f : CvuState → CvuState) : (s.modCvu n f).poison = s.poison := rfl
@[simp] theorem State.modCvu_keeps_ctrl (s : State) (n : Nat) (f : CvuState → CvuState) : (s.modCvu n f).ctrl = s.ctrl := rfl
@[simp] theorem State.modCvu_keeps_alt (s : State) (n : Nat) (f : CvuState → CvuState) : (s.modCvu n f).alt = s.alt := rfl
@[simp] theorem State.modCvu_keeps_golden (s : State) (n : Nat) (f : CvuState → CvuState) : (s.modCvu n f).golden = s.golden := rfl
@[simp] theorem State.modCvu_keeps_cmp (s : State) (n : Nat) (f : CvuState → CvuState) : (s.modCvu n f).cmp = s.cmp := rfl
@[simp] theorem State.modCvu_keeps_grid (s : State) (n : Nat) (f : CvuState → CvuState) : (s.modCvu n f).grid = s.grid := rfl
@[simp] theorem State.modCvu_keeps_flr (s : State) (n : Nat) (f : CvuState → CvuState) : (s.modCvu n f).flr = s.flr := rfl
@[simp] theorem State.modCvu_keeps_floorPair (s : State) (n : Nat) (f : CvuState → CvuState) : (s.modCvu n f).floorPair = s.floorPair := rfl
@[simp] theorem State.modCvu_keeps_ev (s : State) (n : Nat) (f : CvuState → CvuState) : (s.modCvu n f).ev = s.ev := rfl
@[simp] theorem State.modCvu_keeps_jnl (s : State) (n : Nat) (f : CvuState → CvuState) : (s.modCvu n f).jnl = s.jnl := rfl
@[simp] theorem State.modCvu_keeps_st (s : State) (n : Nat) (f : CvuState → CvuState) : (s.modCvu n f).st = s.st := rfl
@[simp] theorem State.modCvu_keeps_lc (s : State) (n : Nat) (f : CvuState → CvuState) : (s.modCvu n f).lc = s.lc := rfl
@[simp] theorem State.modCvu_keeps_secu (s : State) (n : Nat) (f : CvuState → CvuState) : (s.modCvu n f).secu = s.secu := rfl
@[simp] theorem State.modCvu_keeps_lk (s : State) (n : Nat) (f : CvuState → CvuState) : (s.modCvu n f).lk = s.lk := rfl
@[simp] theorem State.modCvu_keeps_freeCtr (s : State) (n : Nat) (f : CvuState → CvuState) : (s.modCvu n f).freeCtr = s.freeCtr := rfl

/-! ### modNblk -/

@[simp] theorem State.modNblk_keeps_pending (s : State) (n : Nat) (f : NandBlock → NandBlock) : (s.modNblk n f).pending = s.pending := rfl
@[simp] theorem State.modNblk_keeps_beat (s : State) (n : Nat) (f : NandBlock → NandBlock) : (s.modNblk n f).beat = s.beat := rfl
@[simp] theorem State.modNblk_keeps_powered (s : State) (n : Nat) (f : NandBlock → NandBlock) : (s.modNblk n f).powered = s.powered := rfl
@[simp] theorem State.modNblk_keeps_xtalOk (s : State) (n : Nat) (f : NandBlock → NandBlock) : (s.modNblk n f).xtalOk = s.xtalOk := rfl
@[simp] theorem State.modNblk_keeps_selftestFail (s : State) (n : Nat) (f : NandBlock → NandBlock) : (s.modNblk n f).selftestFail = s.selftestFail := rfl
@[simp] theorem State.modNblk_keeps_fc (s : State) (n : Nat) (f : NandBlock → NandBlock) : (s.modNblk n f).fc = s.fc := rfl
@[simp] theorem State.modNblk_keeps_wd (s : State) (n : Nat) (f : NandBlock → NandBlock) : (s.modNblk n f).wd = s.wd := rfl
@[simp] theorem State.modNblk_keeps_evr (s : State) (n : Nat) (f : NandBlock → NandBlock) : (s.modNblk n f).evr = s.evr := rfl
@[simp] theorem State.modNblk_keeps_watch (s : State) (n : Nat) (f : NandBlock → NandBlock) : (s.modNblk n f).watch = s.watch := rfl
@[simp] theorem State.modNblk_keeps_si (s : State) (n : Nat) (f : NandBlock → NandBlock) : (s.modNblk n f).si = s.si := rfl
@[simp] theorem State.modNblk_keeps_tp (s : State) (n : Nat) (f : NandBlock → NandBlock) : (s.modNblk n f).tp = s.tp := rfl
@[simp] theorem State.modNblk_keeps_lrst (s : State) (n : Nat) (f : NandBlock → NandBlock) : (s.modNblk n f).lrst = s.lrst := rfl
@[simp] theorem State.modNblk_keeps_enc (s : State) (n : Nat) (f : NandBlock → NandBlock) : (s.modNblk n f).enc = s.enc := rfl
@[simp] theorem State.modNblk_keeps_so (s : State) (n : Nat) (f : NandBlock → NandBlock) : (s.modNblk n f).so = s.so := rfl
@[simp] theorem State.modNblk_keeps_i3c (s : State) (n : Nat) (f : NandBlock → NandBlock) : (s.modNblk n f).i3c = s.i3c := rfl
@[simp] theorem State.modNblk_keeps_cmd (s : State) (n : Nat) (f : NandBlock → NandBlock) : (s.modNblk n f).cmd = s.cmd := rfl
@[simp] theorem State.modNblk_keeps_ldr (s : State) (n : Nat) (f : NandBlock → NandBlock) : (s.modNblk n f).ldr = s.ldr := rfl
@[simp] theorem State.modNblk_keeps_pwr (s : State) (n : Nat) (f : NandBlock → NandBlock) : (s.modNblk n f).pwr = s.pwr := rfl
@[simp] theorem State.modNblk_keeps_therm (s : State) (n : Nat) (f : NandBlock → NandBlock) : (s.modNblk n f).therm = s.therm := rfl
@[simp] theorem State.modNblk_keeps_time (s : State) (n : Nat) (f : NandBlock → NandBlock) : (s.modNblk n f).time = s.time := rfl
@[simp] theorem State.modNblk_keeps_tel (s : State) (n : Nat) (f : NandBlock → NandBlock) : (s.modNblk n f).tel = s.tel := rfl
@[simp] theorem State.modNblk_keeps_sched (s : State) (n : Nat) (f : NandBlock → NandBlock) : (s.modNblk n f).sched = s.sched := rfl
@[simp] theorem State.modNblk_keeps_cores (s : State) (n : Nat) (f : NandBlock → NandBlock) : (s.modNblk n f).cores = s.cores := rfl
@[simp] theorem State.modNblk_keeps_engs (s : State) (n : Nat) (f : NandBlock → NandBlock) : (s.modNblk n f).engs = s.engs := rfl
@[simp] theorem State.modNblk_keeps_noc (s : State) (n : Nat) (f : NandBlock → NandBlock) : (s.modNblk n f).noc = s.noc := rfl
@[simp] theorem State.modNblk_keeps_gddr (s : State) (n : Nat) (f : NandBlock → NandBlock) : (s.modNblk n f).gddr = s.gddr := rfl
@[simp] theorem State.modNblk_keeps_gddrMem (s : State) (n : Nat) (f : NandBlock → NandBlock) : (s.modNblk n f).gddrMem = s.gddrMem := rfl
@[simp] theorem State.modNblk_keeps_poison (s : State) (n : Nat) (f : NandBlock → NandBlock) : (s.modNblk n f).poison = s.poison := rfl
@[simp] theorem State.modNblk_keeps_ctrl (s : State) (n : Nat) (f : NandBlock → NandBlock) : (s.modNblk n f).ctrl = s.ctrl := rfl
@[simp] theorem State.modNblk_keeps_alt (s : State) (n : Nat) (f : NandBlock → NandBlock) : (s.modNblk n f).alt = s.alt := rfl
@[simp] theorem State.modNblk_keeps_golden (s : State) (n : Nat) (f : NandBlock → NandBlock) : (s.modNblk n f).golden = s.golden := rfl
@[simp] theorem State.modNblk_keeps_cmp (s : State) (n : Nat) (f : NandBlock → NandBlock) : (s.modNblk n f).cmp = s.cmp := rfl
@[simp] theorem State.modNblk_keeps_grid (s : State) (n : Nat) (f : NandBlock → NandBlock) : (s.modNblk n f).grid = s.grid := rfl
@[simp] theorem State.modNblk_keeps_flr (s : State) (n : Nat) (f : NandBlock → NandBlock) : (s.modNblk n f).flr = s.flr := rfl
@[simp] theorem State.modNblk_keeps_floorPair (s : State) (n : Nat) (f : NandBlock → NandBlock) : (s.modNblk n f).floorPair = s.floorPair := rfl
@[simp] theorem State.modNblk_keeps_ev (s : State) (n : Nat) (f : NandBlock → NandBlock) : (s.modNblk n f).ev = s.ev := rfl
@[simp] theorem State.modNblk_keeps_io (s : State) (n : Nat) (f : NandBlock → NandBlock) : (s.modNblk n f).io = s.io := rfl
@[simp] theorem State.modNblk_keeps_st (s : State) (n : Nat) (f : NandBlock → NandBlock) : (s.modNblk n f).st = s.st := rfl
@[simp] theorem State.modNblk_keeps_lc (s : State) (n : Nat) (f : NandBlock → NandBlock) : (s.modNblk n f).lc = s.lc := rfl
@[simp] theorem State.modNblk_keeps_secu (s : State) (n : Nat) (f : NandBlock → NandBlock) : (s.modNblk n f).secu = s.secu := rfl
@[simp] theorem State.modNblk_keeps_lk (s : State) (n : Nat) (f : NandBlock → NandBlock) : (s.modNblk n f).lk = s.lk := rfl
@[simp] theorem State.modNblk_keeps_freeCtr (s : State) (n : Nat) (f : NandBlock → NandBlock) : (s.modNblk n f).freeCtr = s.freeCtr := rfl

/-! ### modChan -/

@[simp] theorem State.modChan_keeps_pending (s : State) (n : Nat) (f : GddrChan → GddrChan) : (s.modChan n f).pending = s.pending := rfl
@[simp] theorem State.modChan_keeps_beat (s : State) (n : Nat) (f : GddrChan → GddrChan) : (s.modChan n f).beat = s.beat := rfl
@[simp] theorem State.modChan_keeps_powered (s : State) (n : Nat) (f : GddrChan → GddrChan) : (s.modChan n f).powered = s.powered := rfl
@[simp] theorem State.modChan_keeps_xtalOk (s : State) (n : Nat) (f : GddrChan → GddrChan) : (s.modChan n f).xtalOk = s.xtalOk := rfl
@[simp] theorem State.modChan_keeps_selftestFail (s : State) (n : Nat) (f : GddrChan → GddrChan) : (s.modChan n f).selftestFail = s.selftestFail := rfl
@[simp] theorem State.modChan_keeps_fc (s : State) (n : Nat) (f : GddrChan → GddrChan) : (s.modChan n f).fc = s.fc := rfl
@[simp] theorem State.modChan_keeps_wd (s : State) (n : Nat) (f : GddrChan → GddrChan) : (s.modChan n f).wd = s.wd := rfl
@[simp] theorem State.modChan_keeps_evr (s : State) (n : Nat) (f : GddrChan → GddrChan) : (s.modChan n f).evr = s.evr := rfl
@[simp] theorem State.modChan_keeps_watch (s : State) (n : Nat) (f : GddrChan → GddrChan) : (s.modChan n f).watch = s.watch := rfl
@[simp] theorem State.modChan_keeps_si (s : State) (n : Nat) (f : GddrChan → GddrChan) : (s.modChan n f).si = s.si := rfl
@[simp] theorem State.modChan_keeps_tp (s : State) (n : Nat) (f : GddrChan → GddrChan) : (s.modChan n f).tp = s.tp := rfl
@[simp] theorem State.modChan_keeps_lrst (s : State) (n : Nat) (f : GddrChan → GddrChan) : (s.modChan n f).lrst = s.lrst := rfl
@[simp] theorem State.modChan_keeps_enc (s : State) (n : Nat) (f : GddrChan → GddrChan) : (s.modChan n f).enc = s.enc := rfl
@[simp] theorem State.modChan_keeps_so (s : State) (n : Nat) (f : GddrChan → GddrChan) : (s.modChan n f).so = s.so := rfl
@[simp] theorem State.modChan_keeps_i3c (s : State) (n : Nat) (f : GddrChan → GddrChan) : (s.modChan n f).i3c = s.i3c := rfl
@[simp] theorem State.modChan_keeps_cmd (s : State) (n : Nat) (f : GddrChan → GddrChan) : (s.modChan n f).cmd = s.cmd := rfl
@[simp] theorem State.modChan_keeps_ldr (s : State) (n : Nat) (f : GddrChan → GddrChan) : (s.modChan n f).ldr = s.ldr := rfl
@[simp] theorem State.modChan_keeps_pwr (s : State) (n : Nat) (f : GddrChan → GddrChan) : (s.modChan n f).pwr = s.pwr := rfl
@[simp] theorem State.modChan_keeps_therm (s : State) (n : Nat) (f : GddrChan → GddrChan) : (s.modChan n f).therm = s.therm := rfl
@[simp] theorem State.modChan_keeps_time (s : State) (n : Nat) (f : GddrChan → GddrChan) : (s.modChan n f).time = s.time := rfl
@[simp] theorem State.modChan_keeps_tel (s : State) (n : Nat) (f : GddrChan → GddrChan) : (s.modChan n f).tel = s.tel := rfl
@[simp] theorem State.modChan_keeps_sched (s : State) (n : Nat) (f : GddrChan → GddrChan) : (s.modChan n f).sched = s.sched := rfl
@[simp] theorem State.modChan_keeps_cores (s : State) (n : Nat) (f : GddrChan → GddrChan) : (s.modChan n f).cores = s.cores := rfl
@[simp] theorem State.modChan_keeps_engs (s : State) (n : Nat) (f : GddrChan → GddrChan) : (s.modChan n f).engs = s.engs := rfl
@[simp] theorem State.modChan_keeps_noc (s : State) (n : Nat) (f : GddrChan → GddrChan) : (s.modChan n f).noc = s.noc := rfl
@[simp] theorem State.modChan_sets_gddr (s : State) (n : Nat) (f : GddrChan → GddrChan) : (s.modChan n f).gddr = vmod s.gddr n f := rfl
@[simp] theorem State.modChan_keeps_gddrMem (s : State) (n : Nat) (f : GddrChan → GddrChan) : (s.modChan n f).gddrMem = s.gddrMem := rfl
@[simp] theorem State.modChan_keeps_poison (s : State) (n : Nat) (f : GddrChan → GddrChan) : (s.modChan n f).poison = s.poison := rfl
@[simp] theorem State.modChan_keeps_ctrl (s : State) (n : Nat) (f : GddrChan → GddrChan) : (s.modChan n f).ctrl = s.ctrl := rfl
@[simp] theorem State.modChan_keeps_alt (s : State) (n : Nat) (f : GddrChan → GddrChan) : (s.modChan n f).alt = s.alt := rfl
@[simp] theorem State.modChan_keeps_golden (s : State) (n : Nat) (f : GddrChan → GddrChan) : (s.modChan n f).golden = s.golden := rfl
@[simp] theorem State.modChan_keeps_cmp (s : State) (n : Nat) (f : GddrChan → GddrChan) : (s.modChan n f).cmp = s.cmp := rfl
@[simp] theorem State.modChan_keeps_grid (s : State) (n : Nat) (f : GddrChan → GddrChan) : (s.modChan n f).grid = s.grid := rfl
@[simp] theorem State.modChan_keeps_flr (s : State) (n : Nat) (f : GddrChan → GddrChan) : (s.modChan n f).flr = s.flr := rfl
@[simp] theorem State.modChan_keeps_floorPair (s : State) (n : Nat) (f : GddrChan → GddrChan) : (s.modChan n f).floorPair = s.floorPair := rfl
@[simp] theorem State.modChan_keeps_ev (s : State) (n : Nat) (f : GddrChan → GddrChan) : (s.modChan n f).ev = s.ev := rfl
@[simp] theorem State.modChan_keeps_io (s : State) (n : Nat) (f : GddrChan → GddrChan) : (s.modChan n f).io = s.io := rfl
@[simp] theorem State.modChan_keeps_jnl (s : State) (n : Nat) (f : GddrChan → GddrChan) : (s.modChan n f).jnl = s.jnl := rfl
@[simp] theorem State.modChan_keeps_st (s : State) (n : Nat) (f : GddrChan → GddrChan) : (s.modChan n f).st = s.st := rfl
@[simp] theorem State.modChan_keeps_lc (s : State) (n : Nat) (f : GddrChan → GddrChan) : (s.modChan n f).lc = s.lc := rfl
@[simp] theorem State.modChan_keeps_secu (s : State) (n : Nat) (f : GddrChan → GddrChan) : (s.modChan n f).secu = s.secu := rfl
@[simp] theorem State.modChan_keeps_lk (s : State) (n : Nat) (f : GddrChan → GddrChan) : (s.modChan n f).lk = s.lk := rfl
@[simp] theorem State.modChan_keeps_freeCtr (s : State) (n : Nat) (f : GddrChan → GddrChan) : (s.modChan n f).freeCtr = s.freeCtr := rfl

/-! ### modEth -/

@[simp] theorem State.modEth_keeps_pending (s : State) (n : Nat) (f : EthPort → EthPort) : (s.modEth n f).pending = s.pending := rfl
@[simp] theorem State.modEth_keeps_beat (s : State) (n : Nat) (f : EthPort → EthPort) : (s.modEth n f).beat = s.beat := rfl
@[simp] theorem State.modEth_keeps_powered (s : State) (n : Nat) (f : EthPort → EthPort) : (s.modEth n f).powered = s.powered := rfl
@[simp] theorem State.modEth_keeps_xtalOk (s : State) (n : Nat) (f : EthPort → EthPort) : (s.modEth n f).xtalOk = s.xtalOk := rfl
@[simp] theorem State.modEth_keeps_selftestFail (s : State) (n : Nat) (f : EthPort → EthPort) : (s.modEth n f).selftestFail = s.selftestFail := rfl
@[simp] theorem State.modEth_keeps_fc (s : State) (n : Nat) (f : EthPort → EthPort) : (s.modEth n f).fc = s.fc := rfl
@[simp] theorem State.modEth_keeps_wd (s : State) (n : Nat) (f : EthPort → EthPort) : (s.modEth n f).wd = s.wd := rfl
@[simp] theorem State.modEth_keeps_evr (s : State) (n : Nat) (f : EthPort → EthPort) : (s.modEth n f).evr = s.evr := rfl
@[simp] theorem State.modEth_keeps_watch (s : State) (n : Nat) (f : EthPort → EthPort) : (s.modEth n f).watch = s.watch := rfl
@[simp] theorem State.modEth_keeps_si (s : State) (n : Nat) (f : EthPort → EthPort) : (s.modEth n f).si = s.si := rfl
@[simp] theorem State.modEth_keeps_tp (s : State) (n : Nat) (f : EthPort → EthPort) : (s.modEth n f).tp = s.tp := rfl
@[simp] theorem State.modEth_keeps_lrst (s : State) (n : Nat) (f : EthPort → EthPort) : (s.modEth n f).lrst = s.lrst := rfl
@[simp] theorem State.modEth_keeps_enc (s : State) (n : Nat) (f : EthPort → EthPort) : (s.modEth n f).enc = s.enc := rfl
@[simp] theorem State.modEth_keeps_so (s : State) (n : Nat) (f : EthPort → EthPort) : (s.modEth n f).so = s.so := rfl
@[simp] theorem State.modEth_keeps_i3c (s : State) (n : Nat) (f : EthPort → EthPort) : (s.modEth n f).i3c = s.i3c := rfl
@[simp] theorem State.modEth_keeps_cmd (s : State) (n : Nat) (f : EthPort → EthPort) : (s.modEth n f).cmd = s.cmd := rfl
@[simp] theorem State.modEth_keeps_ldr (s : State) (n : Nat) (f : EthPort → EthPort) : (s.modEth n f).ldr = s.ldr := rfl
@[simp] theorem State.modEth_keeps_pwr (s : State) (n : Nat) (f : EthPort → EthPort) : (s.modEth n f).pwr = s.pwr := rfl
@[simp] theorem State.modEth_keeps_therm (s : State) (n : Nat) (f : EthPort → EthPort) : (s.modEth n f).therm = s.therm := rfl
@[simp] theorem State.modEth_keeps_tel (s : State) (n : Nat) (f : EthPort → EthPort) : (s.modEth n f).tel = s.tel := rfl
@[simp] theorem State.modEth_keeps_sched (s : State) (n : Nat) (f : EthPort → EthPort) : (s.modEth n f).sched = s.sched := rfl
@[simp] theorem State.modEth_keeps_cores (s : State) (n : Nat) (f : EthPort → EthPort) : (s.modEth n f).cores = s.cores := rfl
@[simp] theorem State.modEth_keeps_engs (s : State) (n : Nat) (f : EthPort → EthPort) : (s.modEth n f).engs = s.engs := rfl
@[simp] theorem State.modEth_keeps_noc (s : State) (n : Nat) (f : EthPort → EthPort) : (s.modEth n f).noc = s.noc := rfl
@[simp] theorem State.modEth_keeps_gddr (s : State) (n : Nat) (f : EthPort → EthPort) : (s.modEth n f).gddr = s.gddr := rfl
@[simp] theorem State.modEth_keeps_gddrMem (s : State) (n : Nat) (f : EthPort → EthPort) : (s.modEth n f).gddrMem = s.gddrMem := rfl
@[simp] theorem State.modEth_keeps_poison (s : State) (n : Nat) (f : EthPort → EthPort) : (s.modEth n f).poison = s.poison := rfl
@[simp] theorem State.modEth_keeps_ctrl (s : State) (n : Nat) (f : EthPort → EthPort) : (s.modEth n f).ctrl = s.ctrl := rfl
@[simp] theorem State.modEth_keeps_alt (s : State) (n : Nat) (f : EthPort → EthPort) : (s.modEth n f).alt = s.alt := rfl
@[simp] theorem State.modEth_keeps_golden (s : State) (n : Nat) (f : EthPort → EthPort) : (s.modEth n f).golden = s.golden := rfl
@[simp] theorem State.modEth_keeps_cmp (s : State) (n : Nat) (f : EthPort → EthPort) : (s.modEth n f).cmp = s.cmp := rfl
@[simp] theorem State.modEth_keeps_grid (s : State) (n : Nat) (f : EthPort → EthPort) : (s.modEth n f).grid = s.grid := rfl
@[simp] theorem State.modEth_keeps_flr (s : State) (n : Nat) (f : EthPort → EthPort) : (s.modEth n f).flr = s.flr := rfl
@[simp] theorem State.modEth_keeps_floorPair (s : State) (n : Nat) (f : EthPort → EthPort) : (s.modEth n f).floorPair = s.floorPair := rfl
@[simp] theorem State.modEth_keeps_ev (s : State) (n : Nat) (f : EthPort → EthPort) : (s.modEth n f).ev = s.ev := rfl
@[simp] theorem State.modEth_keeps_io (s : State) (n : Nat) (f : EthPort → EthPort) : (s.modEth n f).io = s.io := rfl
@[simp] theorem State.modEth_keeps_jnl (s : State) (n : Nat) (f : EthPort → EthPort) : (s.modEth n f).jnl = s.jnl := rfl
@[simp] theorem State.modEth_keeps_st (s : State) (n : Nat) (f : EthPort → EthPort) : (s.modEth n f).st = s.st := rfl
@[simp] theorem State.modEth_keeps_lc (s : State) (n : Nat) (f : EthPort → EthPort) : (s.modEth n f).lc = s.lc := rfl
@[simp] theorem State.modEth_keeps_secu (s : State) (n : Nat) (f : EthPort → EthPort) : (s.modEth n f).secu = s.secu := rfl
@[simp] theorem State.modEth_keeps_lk (s : State) (n : Nat) (f : EthPort → EthPort) : (s.modEth n f).lk = s.lk := rfl
@[simp] theorem State.modEth_keeps_freeCtr (s : State) (n : Nat) (f : EthPort → EthPort) : (s.modEth n f).freeCtr = s.freeCtr := rfl

/-! ### modStage -/

@[simp] theorem State.modStage_keeps_pending (s : State) (n : Nat) (f : StageState → StageState) : (s.modStage n f).pending = s.pending := rfl
@[simp] theorem State.modStage_keeps_beat (s : State) (n : Nat) (f : StageState → StageState) : (s.modStage n f).beat = s.beat := rfl
@[simp] theorem State.modStage_keeps_powered (s : State) (n : Nat) (f : StageState → StageState) : (s.modStage n f).powered = s.powered := rfl
@[simp] theorem State.modStage_keeps_xtalOk (s : State) (n : Nat) (f : StageState → StageState) : (s.modStage n f).xtalOk = s.xtalOk := rfl
@[simp] theorem State.modStage_keeps_selftestFail (s : State) (n : Nat) (f : StageState → StageState) : (s.modStage n f).selftestFail = s.selftestFail := rfl
@[simp] theorem State.modStage_keeps_fc (s : State) (n : Nat) (f : StageState → StageState) : (s.modStage n f).fc = s.fc := rfl
@[simp] theorem State.modStage_keeps_wd (s : State) (n : Nat) (f : StageState → StageState) : (s.modStage n f).wd = s.wd := rfl
@[simp] theorem State.modStage_keeps_evr (s : State) (n : Nat) (f : StageState → StageState) : (s.modStage n f).evr = s.evr := rfl
@[simp] theorem State.modStage_keeps_watch (s : State) (n : Nat) (f : StageState → StageState) : (s.modStage n f).watch = s.watch := rfl
@[simp] theorem State.modStage_keeps_si (s : State) (n : Nat) (f : StageState → StageState) : (s.modStage n f).si = s.si := rfl
@[simp] theorem State.modStage_keeps_tp (s : State) (n : Nat) (f : StageState → StageState) : (s.modStage n f).tp = s.tp := rfl
@[simp] theorem State.modStage_keeps_lrst (s : State) (n : Nat) (f : StageState → StageState) : (s.modStage n f).lrst = s.lrst := rfl
@[simp] theorem State.modStage_keeps_enc (s : State) (n : Nat) (f : StageState → StageState) : (s.modStage n f).enc = s.enc := rfl
@[simp] theorem State.modStage_keeps_so (s : State) (n : Nat) (f : StageState → StageState) : (s.modStage n f).so = s.so := rfl
@[simp] theorem State.modStage_keeps_i3c (s : State) (n : Nat) (f : StageState → StageState) : (s.modStage n f).i3c = s.i3c := rfl
@[simp] theorem State.modStage_keeps_cmd (s : State) (n : Nat) (f : StageState → StageState) : (s.modStage n f).cmd = s.cmd := rfl
@[simp] theorem State.modStage_keeps_ldr (s : State) (n : Nat) (f : StageState → StageState) : (s.modStage n f).ldr = s.ldr := rfl
@[simp] theorem State.modStage_keeps_pwr (s : State) (n : Nat) (f : StageState → StageState) : (s.modStage n f).pwr = s.pwr := rfl
@[simp] theorem State.modStage_keeps_therm (s : State) (n : Nat) (f : StageState → StageState) : (s.modStage n f).therm = s.therm := rfl
@[simp] theorem State.modStage_keeps_time (s : State) (n : Nat) (f : StageState → StageState) : (s.modStage n f).time = s.time := rfl
@[simp] theorem State.modStage_keeps_tel (s : State) (n : Nat) (f : StageState → StageState) : (s.modStage n f).tel = s.tel := rfl
@[simp] theorem State.modStage_keeps_sched (s : State) (n : Nat) (f : StageState → StageState) : (s.modStage n f).sched = s.sched := rfl
@[simp] theorem State.modStage_keeps_cores (s : State) (n : Nat) (f : StageState → StageState) : (s.modStage n f).cores = s.cores := rfl
@[simp] theorem State.modStage_keeps_engs (s : State) (n : Nat) (f : StageState → StageState) : (s.modStage n f).engs = s.engs := rfl
@[simp] theorem State.modStage_keeps_noc (s : State) (n : Nat) (f : StageState → StageState) : (s.modStage n f).noc = s.noc := rfl
@[simp] theorem State.modStage_keeps_gddr (s : State) (n : Nat) (f : StageState → StageState) : (s.modStage n f).gddr = s.gddr := rfl
@[simp] theorem State.modStage_keeps_gddrMem (s : State) (n : Nat) (f : StageState → StageState) : (s.modStage n f).gddrMem = s.gddrMem := rfl
@[simp] theorem State.modStage_keeps_poison (s : State) (n : Nat) (f : StageState → StageState) : (s.modStage n f).poison = s.poison := rfl
@[simp] theorem State.modStage_keeps_ctrl (s : State) (n : Nat) (f : StageState → StageState) : (s.modStage n f).ctrl = s.ctrl := rfl
@[simp] theorem State.modStage_keeps_alt (s : State) (n : Nat) (f : StageState → StageState) : (s.modStage n f).alt = s.alt := rfl
@[simp] theorem State.modStage_keeps_golden (s : State) (n : Nat) (f : StageState → StageState) : (s.modStage n f).golden = s.golden := rfl
@[simp] theorem State.modStage_keeps_cmp (s : State) (n : Nat) (f : StageState → StageState) : (s.modStage n f).cmp = s.cmp := rfl
@[simp] theorem State.modStage_keeps_grid (s : State) (n : Nat) (f : StageState → StageState) : (s.modStage n f).grid = s.grid := rfl
@[simp] theorem State.modStage_keeps_flr (s : State) (n : Nat) (f : StageState → StageState) : (s.modStage n f).flr = s.flr := rfl
@[simp] theorem State.modStage_keeps_floorPair (s : State) (n : Nat) (f : StageState → StageState) : (s.modStage n f).floorPair = s.floorPair := rfl
@[simp] theorem State.modStage_keeps_ev (s : State) (n : Nat) (f : StageState → StageState) : (s.modStage n f).ev = s.ev := rfl
@[simp] theorem State.modStage_keeps_io (s : State) (n : Nat) (f : StageState → StageState) : (s.modStage n f).io = s.io := rfl
@[simp] theorem State.modStage_keeps_jnl (s : State) (n : Nat) (f : StageState → StageState) : (s.modStage n f).jnl = s.jnl := rfl
@[simp] theorem State.modStage_keeps_st (s : State) (n : Nat) (f : StageState → StageState) : (s.modStage n f).st = s.st := rfl
@[simp] theorem State.modStage_keeps_lc (s : State) (n : Nat) (f : StageState → StageState) : (s.modStage n f).lc = s.lc := rfl
@[simp] theorem State.modStage_keeps_secu (s : State) (n : Nat) (f : StageState → StageState) : (s.modStage n f).secu = s.secu := rfl
@[simp] theorem State.modStage_keeps_freeCtr (s : State) (n : Nat) (f : StageState → StageState) : (s.modStage n f).freeCtr = s.freeCtr := rfl

end Sys2Proof.Machine
end

