-- ==== Sys2Proof/Tests/Slice0.lean ====
section
/-!
SUPPORT. The model's own tests: ill-formed commands that WellFormed refuses, check values and worked examples of spec/, and for
every obligation with hypotheses the witnesses that meet them, one for each clause and at the boundary where clauses meet. No
witness can be written down for the clauses whose hypothesis is that a signature verifies (an image that loads, a certificate or
an owner key that is accepted): verification is an opaque constant (notes/assumptions/8.md).
-/
set_option Elab.async false

namespace Sys2Proof.Tests

open Sys2Proof Sys2Proof.Machine

/-! ### Ill-formed commands -/

/-- A beat in which nothing happens. -/
def quiet : BeatIn := ⟨[], false, false, [], [], ⟨1, 1⟩, ⟨1, 1⟩, false, .silent, 0⟩

/-- A start-up in which every step takes no time and passes. -/
def passing : StartTests := ⟨List.replicate 7 0, none, [], none, List.replicate 9 0, List.replicate 16 0⟩

theorem test_wf_beat_samples : (Instr.beat quiet).wf = false := by decide
theorem test_wf_mailbox_words : (Instr.arm ⟨[0x78320001], 0, 0⟩).wf = false := by decide
theorem test_wf_mailbox_code : (Instr.stop ⟨[0x78320001, 0, 0, 0, 0, 0, 0, 0], 0, 0⟩).wf = false := by decide
theorem test_wf_startup : (Instr.powerOn passing).wf = true := by decide
theorem test_wf_startup_beats : (Instr.powerOn { passing with beats := [] }).wf = false := by decide
theorem test_wf_startup_outcome : (Instr.wake { passing with fail := some ⟨9, 0, 2, 0, 0⟩ }).wf = false := by decide
theorem test_wf_wdata_empty : (Instr.ldrWdataWrite []).wf = false := by decide
theorem test_wf_secbuf_empty : (Instr.secBufDataWrite []).wf = false := by decide
theorem test_wf_bulk_short : (Instr.bulkChunk 0 0 [1]).wf = false := by decide
theorem test_wf_read_unaligned : (Instr.rcFieldRead 2).wf = false := by decide
theorem test_wf_feed_three : (Instr.cvuFeed 0 [1, 2, 3] true true).wf = false := by decide
theorem test_wf_no_link : (Instr.testSliceStart (.link 76)).wf = false := by decide
theorem test_wf_lockstep_kind : (Instr.lockstepMismatch 0 0 0).wf = false := by decide
theorem test_wf_unit : (Instr.coreUnitFault 0 1 7).wf = false := by decide
theorem test_wf_eltwise : (Instr.microopIssue 0 0 0 0 (.eltwise 5 0 0 0 0 0 0 0 0 0)).wf = false := by decide
theorem test_wf_move : (Instr.microopIssue 0 0 0 0 (.move (.engine (2 ^ 19)) (.core 0) 1)).wf = false := by decide
theorem test_wf_class : (Instr.checkerWrite ⟨0, 0, 0, 0, 0, 0, 16, false, 0⟩).wf = false := by decide
theorem test_wf_detection : (Instr.detectionListCommit 0 0 0 [(0, 0, 16, 0)]).wf = false := by decide
theorem test_wf_floor_cell : (Instr.floorCycleComplete false [⟨128, 0, 0, 0, 0, 0⟩]).wf = false := by decide
theorem test_wf_vc : (Instr.csiFrameStart 0 32 0 .good).wf = false := by decide
theorem test_wf_frame_number : (Instr.csiFrameEnd 0 0 65536 .good).wf = false := by decide
theorem test_wf_short_type : (Instr.csiShortPacket 0 0 4 0 .good).wf = false := by decide
theorem test_wf_long_type : (Instr.csiLongPacket 0 ⟨0, 2, .good, true, [], []⟩).wf = false := by decide
theorem test_wf_claim_type : (Instr.claimRecord 0 ⟨0, 64, .good, true, [], []⟩).wf = false := by decide
theorem test_wf_gddr : (Instr.gddrUe 0 (2 ^ 29) none).wf = false := by decide
theorem test_wf_sensors : (Instr.temperatureReading []).wf = false := by decide
theorem test_wf_identity : (Instr.ptpAnnounce 0 ⟨[], 2 ^ 64⟩).wf = false := by decide
theorem test_wf_time : (Instr.deviceTimeMismatch (2 ^ 96)).wf = false := by decide
theorem test_wf_hello : (Instr.helloMessage ⟨true, 256, 0, List.replicate 32 0, 0, 0, 0⟩).wf = false := by decide
theorem test_wf_beat_message : (Instr.beatMessage ⟨true, 0, 0, 0, 2 ^ 48, 0, 0⟩).wf = false := by decide
theorem test_wf_summary : (Instr.frameSummaryMessage ⟨true, 2 ^ 17, List.replicate 8 0⟩).wf = false := by decide
theorem test_wf_write_empty : (Instr.registerWrite [] true).wf = false := by decide

/-! ### Check values and worked examples of the spec -/

/-- The ASCII string 123456789. -/
def digits : List Byte := [0x31, 0x32, 0x33, 0x34, 0x35, 0x36, 0x37, 0x38, 0x39]

/-- R29: the two check words. -/
theorem test_verdict_word_reset : State.reset.watch.verdict = 0x0000000E := by decide +kernel
theorem test_verdict_word_trust : wordOk 0x5E00754F = true := by decide +kernel

/-- R237: the check value of CRC-32C. -/
theorem test_crc32c : crc32c digits = 0xE3069283 := by decide +kernel

/-- R254: the check values of the five polynomials. -/
theorem test_cvu_crc8 : cvuRun 0 false 0xFF digits = 0xB4 := by decide +kernel
theorem test_cvu_crc16 : cvuRun 1 false 0xFFFF digits = 0x29B1 := by decide +kernel
theorem test_cvu_crc32 : 2 ^ 32 - 1 - cvuRun 2 true (2 ^ 32 - 1) digits = 0xCBF43926 := by decide +kernel
theorem test_cvu_crc64 : 2 ^ 64 - 1 - cvuRun 4 true (2 ^ 64 - 1) digits = 0x995DC9BBDF1939FA := by decide +kernel

/-- Spec/03, worked example: accumulators 121 and 13 at M = 0.25 give midpoint 30 and radius 5; ReLU of it is 30 with radius 6;
[−3, 5] through ReLU is 2 with radius 4. -/
theorem test_envelope : (envRequant .nearestEven 0 121 13 (2 ^ 30) 32).val = ⟨30, 5⟩ := by decide +kernel
theorem test_envelope_relu : (envMonotone 1 ⟨30, 5⟩).val = ⟨30, 6⟩ ∧ (envMonotone 1 ⟨1, 4⟩).val = ⟨2, 4⟩ := by decide +kernel

/-- Spec/07, worked example: a line of 768 bytes on 4 D-PHY lanes at 2,500 Mb/s takes 820 ns, a frame of 512 lines 211 beats. -/
theorem test_crocus_line : crTLine 768 4 2500 false = 820 ∧ cdiv ((512 + 2) * 820) 2000 = 211 := by decide +kernel

/-- Spec/09, worked example: task 2 with OPEN 400 and CLOSE 600 checks in at 450, then at 520. -/
theorem test_task_window : judgeKick false 450 400 600 = none ∧ judgeKick true 520 400 600 = some 2 := by decide +kernel

/-- Spec/05, worked example: 0 against 0.0156 disagrees at ABS_TOL 0.01 and REL_TOL 2⁻⁷; 3.1406 against 3.1250 agrees. -/
theorem test_tolerance : withinTol (1 / 100) (1 / 128) 0 (1 / 64) = false ∧ withinTol (1 / 100) (1 / 128) (201 / 64) (200 / 64) = true := by
  decide +kernel

/-! ### Witnesses of the hypotheses -/

/-- The section body whose bytes are 0 but at the listed offsets. -/
def body (l : List (Nat × Nat)) : List Byte :=
  (upto ((l.map fun x => x.1 + 1).foldl max 0)).map fun i =>
    BitVec.ofNat 8 (((l.find? fun x => x.1 == i).map (·.2)).getD 0)

/-- An image of sections given so. -/
def img (l : List (Nat × List (Nat × Nat))) : Image := ⟨l.map fun x => ⟨x.1, body x.2⟩, []⟩

/-- The machine after reset with its power on and its main rails in window. -/
def up : State := { State.reset with powered := true, pwr := { State.reset.pwr with mainOn := true } }

/-- A command of a code with its argument word, ALIVE 0 (after 65,535 at reset) and its CRC. -/
def go (code arg : Nat) : CmdGo :=
  let w := [0x78320000 + code, arg, 0, 0, 0, 0, 0, 0]
  ⟨w.map (BitVec.ofNat 32), 0, BitVec.ofNat 32 (crc32c (cmdBytes w 0))⟩

theorem accepted {s : State} {code : Nat} {c : CmdGo} (h : s.cmd.busy = false) (ha : s.cmd.aliveLast = 65535)
    (hc : cmdCode (mailWords c) = code ∧ crc32c (cmdBytes (mailWords c) c.alive.toNat) = c.crc.toNat ∧ c.alive.toNat = 0 ∧
      cmdFormatOk (mailWords c) = true ∧ cmdArgBad (mailWords c) = false) : Accepted s code c :=
  ⟨hc.1, h, hc.2.1, by rw [ha, hc.2.2.1], hc.2.2.2.1, hc.2.2.2.2⟩

/-- An event record. -/
def rec0 : EvRec := ⟨0, 0, 0x2100, 0xFF, .ce, false, false, false, 0, 0, 0⟩

/-- The last bytes of an image transfer: one byte at offset 0, frame 0. -/
def bulk : List Byte :=
  let h : List Byte := leBytes 4 0 ++ leBytes 4 1 ++ leBytes 4 0
  h ++ leBytes 4 (crc32c (h ++ [7])) ++ [7]

/-- A claim record of camera 0 and source frame 1 of beat 5, ALIVE 1, with its CRC. -/
def record (rtype count : Nat) (items : List Byte) : List Byte :=
  let h := leBytes 1 rtype ++ leBytes 3 0 ++ leBytes 4 1 ++ leBytes 8 5 ++ leBytes 2 count ++ leBytes 2 1 ++ leBytes 8 0
  let it := items ++ List.replicate (16 * count - items.length) 0
  h ++ leBytes 4 (crc32c (h ++ it)) ++ it

/-- A page of the journal with the tag that the machine gives it. -/
def page0 : NandPage :=
  let j : State := { up with jnl := { up.jnl with ready := true, page := 1 } }
  let p : NandPage := ⟨1, 0, 0, 0, 0, 0, [], []⟩
  { p with tag := j.pageTag p }

/-- A mounted journal that holds that page. -/
def journal : State :=
  { up with jnl := { up.jnl with ready := true, page := 1, blocks := [⟨.ring, false, false, 0, 0, [page0]⟩] } }

/-- A claim item that waits for its projection. -/
def gridQ : State :=
  { up with
    ldr := { up.ldr with running := true, image := some (img [(6, [(0, 1), (16 + 0x48, 0)])]) }
    sched := { up.sched with frame := 4 }
    grid := { up.grid with wbuf := 4095, claimQ := [⟨0, 1, .bin 0 1 none⟩], poses := [⟨1, 0, 0, 0, 0, 0⟩] } }

/-- A Crocus frame of no bytes, staged, with its hash. -/
def crocusOk : State :=
  { up with
    ldr := { up.ldr with
      running := true
      image := some ⟨[⟨0xD, body [(1, 0), (16 + 0x1F, 0)] ++ Config.shake256 [] 32⟩], []⟩ }
    io := { up.io with crocus := vmod up.io.crocus 0 fun x => { x with staging := some 0 } } }

theorem noEntry (x : SeqEntry) (h : up.entryOf 0 ⟨0, 0, 0⟩ = some x) : vget x.fly 0 0 = 0 := by
  have h' : up.entryOf 0 ⟨0, 0, 0⟩ = none := by decide +kernel
  rw [h'] at h
  exact absurd h (by simp)

theorem noFold (fp q : Nat) (P : Prop) (h : up.evr.lastOf fp = some q) : P := by
  have h' : up.evr.lastOf fp = none := rfl
  rw [h'] at h
  exact absurd h (by simp)

theorem wit_WatchTriggers :
    (∃ (s : State), s.powered = true ∧ s.watch.wstate = .arming ∧ s.watch.countBeat = some s.beat ∧ s.armFrames ≤ s.watch.cleanCnt ∧ s.ev.floorAvail = true) ∧
    (∃ (s : State), s.powered = true ∧ s.watch.wstate = .floor ∧ s.watch.countBeat = some s.beat ∧ s.ldr.vals.retrustFrames ≤ s.watch.cleanCnt ∧ s.ev.floorAvail = true ∧ s.watch.retrustBlocked = false ∧ s.watch.intent.mode ≠ 1) ∧
    (∃ (s : State), s.powered = true ∧ s.watch.wstate = .arming ∧ s.watch.countBeat = some s.beat ∧ s.watch.armTicks = s.armTimeout + 1) ∧
    (∃ (s : State), s.powered = true ∧ s.floorEntryLimit ≠ 0 ∧ s.floorEntryLimit < s.floorEntriesIn.length ∧ s.watch.wstate ≠ .stopped) ∧
    (∃ (s : State), s.powered = true ∧ s.watch.wstate = .floor ∧ s.bandPersist true s.ev.floorField s.ev.floorBand ≤ s.ev.floorRun) ∧
    (∃ (s : State), s.powered = true ∧ s.ev.floorRun < s.bandPersist true s.ev.floorField s.ev.floorBand) :=
  ⟨⟨{ up with powered := true, watch := { up.watch with wstate := .arming, countBeat := some 0, cleanCnt := 2 }, ev := { up.ev with floorAvail := true } }, by decide +kernel⟩,
   ⟨{ up with powered := true, watch := { up.watch with wstate := .floor, countBeat := some 0, cleanCnt := up.ldr.vals.retrustFrames, retrustBlocked := false }, ev := { up.ev with floorAvail := true } }, by decide +kernel⟩,
   ⟨{ up with powered := true, watch := { up.watch with wstate := .arming, countBeat := some 0, armTicks := 301 } }, by decide +kernel⟩,
   ⟨{ up with powered := true, watch := { up.watch with floorEntries := List.replicate 9 0, wstate := .trust } }, by decide +kernel⟩,
   ⟨{ up with powered := true, watch := { up.watch with wstate := .floor }, ev := { up.ev with floorRun := 1 } }, by decide +kernel⟩,
   ⟨{ up with powered := true }, by decide +kernel⟩⟩

theorem wit_StopAndSpeedFaults :
    (∃ (s : State), s.powered = true ∧ s.watch.wstate = .stopping ∧ s.watch.ss1Since + s.ss1MaxTime ≤ s.beat ∧ s.speedBelow s.standstillMmps = false ∧ s.fc.activeFt.getLsbD 11 = false) ∧
    (∃ (s : State), s.powered = true ∧ s.encDiscBeats < s.enc.xchkRun ∧ s.enc.xchkDone = false) :=
  ⟨⟨{ up with powered := true, watch := { up.watch with wstate := .stopping, speed := some 50 }, beat := 2500000 }, by decide +kernel⟩,
   ⟨{ up with powered := true, enc := { up.enc with xchkRun := 25001, xchkDone := false } }, by decide +kernel⟩⟩

theorem wit_GridEvaluation :
    (∃ (s : State), s.powered = true ∧ s.pwr.mainOn = true ∧ s.ev.got = true) ∧
    (∃ (s : State), s.powered = true ∧ s.pwr.mainOn = true ∧ s.ev.got = false) ∧
    (∃ (s : State) (b : Nat), s.powered = true ∧ s.pwr.mainOn = true ∧ b < s.ev.band ∧ s.bandDownBeats ≤ vget s.ev.bandRuns b 0 ∧ ((∀ c, c < b → vget s.ev.bandRuns c 0 < s.bandDownBeats))) ∧
    (∃ (s : State), s.powered = true ∧ s.pwr.mainOn = true ∧ s.ev.maskDue.isSome = true) ∧
    (∃ (s : State), s.powered = true ∧ s.pwr.mainOn = true ∧ s.grid.sweepSince.isSome = true ∧ Sparse.wf Cell.zero s.grid.plane0 = true) :=
  ⟨⟨{ up with powered := true, pwr := { up.pwr with mainOn := true }, ev := { up.ev with got := true } }, by decide +kernel⟩,
   ⟨{ up with powered := true, pwr := { up.pwr with mainOn := true }, ev := { up.ev with got := false } }, by decide +kernel⟩,
   ⟨{ up with powered := true, pwr := { up.pwr with mainOn := true }, ev := { up.ev with band := 1, bandRuns := vmod up.ev.bandRuns 0 (fun _ => 25000) } }, 0, by decide +kernel⟩,
   ⟨{ up with powered := true, pwr := { up.pwr with mainOn := true }, ev := { up.ev with maskDue := some 0 } }, by decide +kernel⟩,
   ⟨{ up with powered := true, pwr := { up.pwr with mainOn := true }, grid := { up.grid with sweepSince := some 0 } }, by decide +kernel⟩⟩

theorem wit_BeatCommits :
    (∃ (s : State), s.powered = true ∧ s.xtalOk = true) :=
  ⟨{ up with powered := true }, by decide +kernel⟩

theorem wit_BestTrigger :
    (∃ (f : WState) (ts : List Trigger) (t : _), resolve f ts = some t) ∧
    (∃ (f : WState) (ts : List Trigger) (t : _) (u : _), resolve f ts = some t ∧ u ∈ ts ∧ listed f u = true) ∧
    (∃ (f : WState) (ts : List Trigger) (u : _), resolve f ts = none ∧ u ∈ ts) :=
  ⟨⟨.trust, [⟨.halt, 0x22⟩], ⟨.halt, 0x22⟩, by decide +kernel⟩,
   ⟨.trust, [⟨.floor, 3⟩, ⟨.stopping, 0x11⟩], ⟨.stopping, 0x11⟩, ⟨.floor, 3⟩, by decide +kernel⟩,
   ⟨.trust, [⟨.arming, 1⟩], ⟨.arming, 1⟩, by decide +kernel⟩⟩

theorem wit_FatalHalts :
    (∃ (u : State), (⟨.halt, 0x22⟩ : Trigger) ∈ u.watch.trig ∧ u.watch.wstate ≠ .halt ∧ u.selftestFail = false) :=
  ⟨{ up with watch := { up.watch with trig := [⟨.halt, 0x22⟩] } }, by decide +kernel⟩

theorem wit_FrameTicks :
    (∃ (s : State), s.powered = true ∧ s.sched.tickDue = true) ∧
    (∃ (s : State), s.powered = true ∧ s.sched.tickDue = true ∧ s.sched.frame = 0) ∧
    (∃ (s : State), s.powered = true ∧ s.sched.tickDue = true ∧ s.sched.frame ≠ 0) ∧
    (∃ (s : State), s.powered = true ∧ s.sched.tickDue = false) :=
  ⟨⟨{ up with powered := true, sched := { up.sched with tickDue := true } }, by decide +kernel⟩,
   ⟨{ up with powered := true, sched := { up.sched with tickDue := true } }, by decide +kernel⟩,
   ⟨{ up with powered := true, sched := { up.sched with tickDue := true, frame := 1 } }, by decide +kernel⟩,
   ⟨{ up with powered := true, sched := { up.sched with tickDue := false } }, by decide +kernel⟩⟩

theorem wit_FrameSignals :
    (∃ (s : State) (k : Fin 4), s.powered = true ∧ s.fsyncOn k = true) ∧
    (∃ (s : State) (k : Fin 4), s.powered = true ∧ s.fsyncOn k = false) ∧
    (∃ (s : State) (x : Telegram) (q : List Telegram), s.powered = true ∧ s.pwr.mainOn = true ∧ s.tel.queue = x :: q) ∧
    (∃ (s : State), s.powered = true ∧ s.pwr.mainOn = true ∧ s.telActive = true ∧ s.tel.held ≠ 0 ∧ s.telGapOver = true ∧ s.tel.lastSent = some (telKey s.watch.verdict.toNat)) ∧
    (∃ (s : State), s.powered = true ∧ s.pwr.mainOn = true ∧ s.telActive = true ∧ s.tel.held ≠ 0 ∧ s.telGapOver = true ∧ s.tel.lastSent ≠ some (telKey s.watch.verdict.toNat)) :=
  ⟨⟨{ up with ldr := { up.ldr with running := true, image := some (img [(3, [(16, 5), (17, 0), (18, 0), (19, 0), (20, 2), (21, 1)])]) }, powered := true, sched := { up.sched with origin := some 0, frameBeat := 6 } }, 0, by decide +kernel⟩,
   ⟨{ up with ldr := { up.ldr with running := true, image := some (img [(3, [(16, 5), (17, 0), (18, 0), (19, 0), (20, 2), (21, 1)])]) }, powered := true, sched := { up.sched with origin := some 0, frameBeat := 7 } }, 0, by decide +kernel⟩,
   ⟨{ up with powered := true, pwr := { up.pwr with mainOn := true }, tel := { up.tel with queue := [⟨1, 0, 0, 0, 0, 0, 0, 0, 0⟩] } }, ⟨1, 0, 0, 0, 0, 0, 0, 0, 0⟩, [], by decide +kernel⟩,
   ⟨{ up with ldr := { up.ldr with running := true, image := some (img [(12, [(3, 1), (44, 4), (45, 0)])]) }, powered := true, pwr := { up.pwr with mainOn := true }, tel := { up.tel with held := 1, lastChange := some 0, lastSent := some (telKey up.watch.verdict.toNat) }, beat := 4 }, by decide +kernel⟩,
   ⟨{ up with ldr := { up.ldr with running := true, image := some (img [(12, [(3, 1), (44, 4), (45, 0)])]) }, powered := true, pwr := { up.pwr with mainOn := true }, tel := { up.tel with held := 1, lastChange := some 0 }, beat := 4 }, by decide +kernel⟩⟩

theorem wit_MailboxChecks :
    (∃ (x : (CmdGo → Instr) × Nat) (s : State) (c : CmdGo), x ∈ [(Instr.arm, 1), (Instr.stop, 2), (Instr.resume, 3), (Instr.profileSelect, 4), (Instr.profileSet, 5), (Instr.intent, 6), (Instr.serviceEnter, 7), (Instr.serviceExit, 8), (Instr.clearFirstArea, 9), (Instr.lcTransition, 10)] ∧ s.powered = true ∧ cmdCode (mailWords c) = x.2 ∧ s.cmd.busy = true) ∧
    (∃ (x : (CmdGo → Instr) × Nat) (s : State) (c : CmdGo), x ∈ [(Instr.arm, 1), (Instr.stop, 2), (Instr.resume, 3), (Instr.profileSelect, 4), (Instr.profileSet, 5), (Instr.intent, 6), (Instr.serviceEnter, 7), (Instr.serviceExit, 8), (Instr.clearFirstArea, 9), (Instr.lcTransition, 10)] ∧ s.powered = true ∧ cmdCode (mailWords c) = x.2 ∧ s.cmd.busy = false ∧ crc32c (cmdBytes (mailWords c) c.alive.toNat) ≠ c.crc.toNat) ∧
    (∃ (x : (CmdGo → Instr) × Nat) (s : State) (c : CmdGo), x ∈ [(Instr.arm, 1), (Instr.stop, 2), (Instr.resume, 3), (Instr.profileSelect, 4), (Instr.profileSet, 5), (Instr.intent, 6), (Instr.serviceEnter, 7), (Instr.serviceExit, 8), (Instr.clearFirstArea, 9), (Instr.lcTransition, 10)] ∧ s.powered = true ∧ cmdCode (mailWords c) = x.2 ∧ s.cmd.busy = false ∧ crc32c (cmdBytes (mailWords c) c.alive.toNat) = c.crc.toNat ∧ c.alive.toNat ≠ (s.cmd.aliveLast + 1) % 65536) ∧
    (∃ (x : (CmdGo → Instr) × Nat) (s : State) (c : CmdGo), x ∈ [(Instr.arm, 1), (Instr.stop, 2), (Instr.resume, 3), (Instr.profileSelect, 4), (Instr.profileSet, 5), (Instr.intent, 6), (Instr.serviceEnter, 7), (Instr.serviceExit, 8), (Instr.clearFirstArea, 9), (Instr.lcTransition, 10)] ∧ s.powered = true ∧ cmdCode (mailWords c) = x.2 ∧ s.cmd.busy = false ∧ crc32c (cmdBytes (mailWords c) c.alive.toNat) = c.crc.toNat ∧ c.alive.toNat = (s.cmd.aliveLast + 1) % 65536 ∧ cmdFormatOk (mailWords c) = false) ∧
    (∃ (x : (CmdGo → Instr) × Nat) (s : State) (c : CmdGo), x ∈ [(Instr.arm, 1), (Instr.stop, 2), (Instr.resume, 3), (Instr.profileSelect, 4), (Instr.profileSet, 5), (Instr.intent, 6), (Instr.serviceEnter, 7), (Instr.serviceExit, 8), (Instr.clearFirstArea, 9), (Instr.lcTransition, 10)] ∧ s.powered = true ∧ cmdCode (mailWords c) = x.2 ∧ s.cmd.busy = false ∧ crc32c (cmdBytes (mailWords c) c.alive.toNat) = c.crc.toNat ∧ c.alive.toNat = (s.cmd.aliveLast + 1) % 65536 ∧ cmdFormatOk (mailWords c) = true ∧ cmdArgBad (mailWords c) = true) :=
  ⟨⟨(Instr.arm, 1), { up with powered := true, cmd := { up.cmd with busy := true } }, go 1 0, by simp, by decide +kernel, by decide +kernel, by decide +kernel⟩,
   ⟨(Instr.arm, 1), { up with powered := true, cmd := { up.cmd with busy := false } }, { go 1 0 with crc := 0 }, by simp, by decide +kernel, by decide +kernel, by decide +kernel, by decide +kernel⟩,
   ⟨(Instr.arm, 1), { up with powered := true, cmd := { up.cmd with busy := false, aliveLast := 1 } }, go 1 0, by simp, by decide +kernel, by decide +kernel, by decide +kernel, by decide +kernel, by decide +kernel⟩,
   ⟨(Instr.arm, 1), { up with powered := true, cmd := { up.cmd with busy := false } }, go 1 1, by simp, by decide +kernel, by decide +kernel, by decide +kernel, by decide +kernel, by decide +kernel, by decide +kernel⟩,
   ⟨(Instr.profileSet, 5), { up with powered := true, cmd := { up.cmd with busy := false } }, go 5 7, by simp, by decide +kernel, by decide +kernel, by decide +kernel, by decide +kernel, by decide +kernel, by decide +kernel, by decide +kernel⟩⟩

theorem wit_ArmStopResume :
    (∃ (s : State) (c : CmdGo), s.powered = true ∧ Accepted s 1 c ∧ s.watch.wstate = .stopped ∧ s.img.isSome = true ∧ s.ldr.service = false ∧ s.ctrl.split = false ∧ s.lockoutPending = false ∧ s.stopInputsOn = true ∧ s.speedBelow s.standstillMmps = true) ∧
    (∃ (s : State) (c : CmdGo), s.powered = true ∧ Accepted s 2 c ∧ s.watch.wstate ≠ .stopped ∧ s.watch.wstate ≠ .stopping ∧ s.watch.wstate ≠ .halt ∧ s.speedBelow s.standstillMmps = true) ∧
    (∃ (s : State) (c : CmdGo), s.powered = true ∧ Accepted s 2 c ∧ s.watch.wstate = .stopped) ∧
    (∃ (s : State) (c : CmdGo), s.powered = true ∧ Accepted s 3 c ∧ s.watch.wstate = .standstill ∧ s.stopInputsOn = true ∧ s.lockoutPending = false) ∧
    (∃ (s : State) (c : CmdGo), s.powered = true ∧ Accepted s 1 c ∧ s.armCode ≠ 0) ∧
    (∃ (s : State) (c : CmdGo), s.powered = true ∧ Accepted s 2 c ∧ s.stopCode ≠ 0) ∧
    (∃ (s : State) (c : CmdGo), s.powered = true ∧ Accepted s 3 c ∧ s.resumeCode ≠ 0) :=
  ⟨⟨{ up with ldr := { up.ldr with running := true, image := some (img [(1, [(0, 0)]), (8, [(144, 1), (450, 50), (451, 0)])]), service := false }, powered := true, watch := { up.watch with wstate := .stopped, speed := some 49 }, ctrl := { up.ctrl with split := false }, si := vmod up.si 0 (fun x => { x with on := true }) }, go 1 0, by decide +kernel, accepted rfl rfl (by decide +kernel), by decide +kernel, by decide +kernel, by decide +kernel, by decide +kernel, by decide +kernel, by decide +kernel, by decide +kernel⟩,
   ⟨{ up with ldr := { up.ldr with running := true, image := some (img [(8, [(450, 50), (451, 0)])]) }, powered := true, watch := { up.watch with wstate := .trust, speed := some 49 } }, go 2 0, by decide +kernel, accepted rfl rfl (by decide +kernel), by decide +kernel, by decide +kernel, by decide +kernel, by decide +kernel⟩,
   ⟨{ up with powered := true, watch := { up.watch with wstate := .stopped } }, go 2 0, by decide +kernel, accepted rfl rfl (by decide +kernel), by decide +kernel⟩,
   ⟨{ up with ldr := { up.ldr with running := true, image := some (img [(8, [(144, 1), (450, 50), (451, 0)])]) }, powered := true, watch := { up.watch with wstate := .standstill }, si := vmod up.si 0 (fun x => { x with on := true }) }, go 3 0, by decide +kernel, accepted rfl rfl (by decide +kernel), by decide +kernel, by decide +kernel, by decide +kernel⟩,
   ⟨{ up with powered := true, watch := { up.watch with wstate := .trust } }, go 1 0, by decide +kernel, accepted rfl rfl (by decide +kernel), by decide +kernel⟩,
   ⟨{ up with powered := true, watch := { up.watch with wstate := .halt } }, go 2 0, by decide +kernel, accepted rfl rfl (by decide +kernel), by decide +kernel⟩,
   ⟨{ up with powered := true }, go 3 0, by decide +kernel, accepted rfl rfl (by decide +kernel), by decide +kernel⟩⟩

theorem wit_SettingsCommands :
    (∃ (s : State) (c : CmdGo), s.powered = true ∧ Accepted s 4 c ∧ s.watch.wstate = .stopped ∧ s.ldr.service = false ∧ bits (mailArg c) 0 3 < profCount (s.sec 0x11)) ∧
    (∃ (s : State) (c : CmdGo), s.powered = true ∧ Accepted s 5 c ∧ s.setCode (bits (mailArg c) 0 3) (bits (mailArg c) 8 8) = 0) ∧
    (∃ (s : State) (c : CmdGo), s.powered = true ∧ Accepted s 6 c ∧ s.watch.wstate ≠ .halt) ∧
    (∃ (s : State) (c : CmdGo), s.powered = true ∧ Accepted s 7 c ∧ s.watch.wstate = .stopped ∧ s.pwr.mainOn = true) ∧
    (∃ (s : State) (c : CmdGo), s.powered = true ∧ Accepted s 8 c ∧ s.inService = true ∧ s.ldr.busy = false) ∧
    (∃ (s : State) (c : CmdGo), s.powered = true ∧ Accepted s 9 c ∧ s.inService = true) :=
  ⟨⟨{ up with ldr := { up.ldr with running := true, image := some (img [(17, [(0, 1)])]), service := false }, powered := true, watch := { up.watch with wstate := .stopped } }, go 4 0, by decide +kernel, accepted rfl rfl (by decide +kernel), by decide +kernel, by decide +kernel, by decide +kernel⟩,
   ⟨{ up with ldr := { up.ldr with running := true, image := some (img [(17, [(16, 0), (17, 128), (18, 2), (19, 0), (28, 1)])]), service := false, vals := { up.ldr.vals with trustCode := 15, floorCode := 1 } }, powered := true }, go 5 2, by decide +kernel, accepted rfl rfl (by decide +kernel), by decide +kernel⟩,
   ⟨{ up with powered := true }, go 6 0, by decide +kernel, accepted rfl rfl (by decide +kernel), by decide +kernel⟩,
   ⟨{ up with powered := true, watch := { up.watch with wstate := .stopped }, pwr := { up.pwr with mainOn := true } }, go 7 0, by decide +kernel, accepted rfl rfl (by decide +kernel), by decide +kernel, by decide +kernel⟩,
   ⟨{ up with powered := true, ldr := { up.ldr with service := true, busy := false } }, go 8 0, by decide +kernel, accepted rfl rfl (by decide +kernel), by decide +kernel, by decide +kernel⟩,
   ⟨{ up with powered := true, ldr := { up.ldr with service := true } }, go 9 0, by decide +kernel, accepted rfl rfl (by decide +kernel), by decide +kernel⟩⟩

theorem wit_SecurityOperations :
    (∃ (s : State), s.powered = true ∧ s.pwr.mainOn = true ∧ s.secu.op = none ∧ s.lc.bootState = 0 ∧ s.secService = true ∧ s.hasId = true) ∧
    (∃ (s : State), s.powered = true ∧ s.pwr.mainOn = true ∧ s.secu.op = none ∧ s.lc.bootState = 0 ∧ s.secService = true ∧ s.hasId = false ∧ s.lc.seedBad = true) ∧
    (∃ (s : State), s.powered = true ∧ s.pwr.mainOn = true ∧ s.secu.op = none ∧ s.lc.bootState = 0 ∧ s.secService = true ∧ s.hasId = false ∧ s.lc.seedBad = false) ∧
    (∃ (s : State), s.powered = true ∧ s.pwr.mainOn = true ∧ s.secu.op = none ∧ s.lc.bootState = 0 ∧ s.secService = true ∧ s.certCode s.secBytes ≠ 0) ∧
    (∃ (s : State) (c : _), s.powered = true ∧ s.pwr.mainOn = true ∧ s.secu.op = none ∧ s.lc.cert = some c) ∧
    (∃ (s : State), s.powered = true ∧ s.pwr.mainOn = true ∧ s.secu.op = none ∧ s.lc.cert = none) ∧
    (∃ (s : State), s.powered = true ∧ s.pwr.mainOn = true ∧ s.secu.op = none ∧ s.hasId = true) ∧
    (∃ (s : State), s.powered = true ∧ s.pwr.mainOn = true ∧ s.secu.op = none ∧ s.hasId = false) ∧
    (∃ (s : State), s.powered = true ∧ s.pwr.mainOn = true ∧ s.secu.op = none) ∧
    (∃ (s : State), s.powered = true ∧ s.pwr.mainOn = true ∧ s.secu.op = none ∧ s.lc.bootState ≤ 2 ∧ s.secService = true ∧ s.keyCode s.secBytes ≠ 0) ∧
    (∃ (a : Bool) (b : Bool) (x : Instr) (s : State), x ∈ [.idGenerate a b, .certProgram, .certRead, .keyOp, .attest false, .attest true, .bufClear] ∧ s.powered = true ∧ s.pwr.mainOn = true ∧ s.secu.op.isSome = true) ∧
    (∃ (a : Bool) (b : Bool) (x : Instr) (s : State), x ∈ [.idGenerate a b, .certProgram, .keyOp] ∧ s.powered = true ∧ s.pwr.mainOn = true ∧ s.secu.op = none ∧ s.secService = false) :=
  ⟨⟨{ up with powered := true, pwr := { up.pwr with mainOn := true }, secu := { up.secu with op := none }, lc := { up.lc with bootState := 0, seed := some [1] }, ldr := { up.ldr with service := true } }, by decide +kernel⟩,
   ⟨{ up with powered := true, pwr := { up.pwr with mainOn := true }, secu := { up.secu with op := none }, lc := { up.lc with bootState := 0, seedBad := true, seed := some [1] }, ldr := { up.ldr with service := true } }, by decide +kernel⟩,
   ⟨{ up with powered := true, pwr := { up.pwr with mainOn := true }, secu := { up.secu with op := none }, lc := { up.lc with bootState := 0, seedBad := false }, ldr := { up.ldr with service := true } }, by decide +kernel⟩,
   ⟨{ up with powered := true, pwr := { up.pwr with mainOn := true }, secu := { up.secu with op := none }, lc := { up.lc with bootState := 0 }, ldr := { up.ldr with service := true } }, by decide +kernel⟩,
   ⟨{ up with powered := true, pwr := { up.pwr with mainOn := true }, secu := { up.secu with op := none }, lc := { up.lc with cert := some [1] } }, [1], by decide +kernel⟩,
   ⟨{ up with powered := true, pwr := { up.pwr with mainOn := true }, secu := { up.secu with op := none }, lc := { up.lc with cert := none } }, by decide +kernel⟩,
   ⟨{ up with powered := true, pwr := { up.pwr with mainOn := true }, secu := { up.secu with op := none }, lc := { up.lc with seed := some [1] } }, by decide +kernel⟩,
   ⟨{ up with powered := true, pwr := { up.pwr with mainOn := true }, secu := { up.secu with op := none } }, by decide +kernel⟩,
   ⟨{ up with powered := true, pwr := { up.pwr with mainOn := true }, secu := { up.secu with op := none } }, by decide +kernel⟩,
   ⟨{ up with powered := true, pwr := { up.pwr with mainOn := true }, secu := { up.secu with op := none }, lc := { up.lc with bootState := 2 }, ldr := { up.ldr with service := true } }, by decide +kernel⟩,
   ⟨false, false, .keyOp, { up with powered := true, pwr := { up.pwr with mainOn := true }, secu := { up.secu with op := some ⟨1, 1, [], false, 0⟩ } }, by decide +kernel⟩,
   ⟨false, false, .keyOp, { up with powered := true, pwr := { up.pwr with mainOn := true }, secu := { up.secu with op := none }, ldr := { up.ldr with service := false } }, by decide +kernel⟩⟩

theorem wit_SecurityCompletion :
    (∃ (s : State) (o : SecOp), s.powered = true ∧ s.pwr.mainOn = true ∧ s.secu.op = some o ∧ o.op ≠ 15 ∧ (¬(o.op = 5 ∧ o.result = 0))) ∧
    (∃ (s : State) (o : SecOp) (w : CmdOpen), s.powered = true ∧ s.pwr.mainOn = true ∧ s.secu.op = some o ∧ o.op = 15 ∧ s.cmd.waiting = some w) ∧
    (∃ (s : State) (o : SecOp), s.powered = true ∧ s.pwr.mainOn = true ∧ s.secu.op = some o ∧ o.op = 5 ∧ o.result = 0) ∧
    (∃ (s : State) (c : CmdGo), s.powered = true ∧ Accepted s 10 c ∧ s.lcRefusal (bits (mailArg c) 0 3) = 0) ∧
    (∃ (s : State) (c : CmdGo), s.powered = true ∧ Accepted s 10 c ∧ s.lcRefusal (bits (mailArg c) 0 3) ≠ 0) ∧
    (∃ (s : State) (p : LcPending), s.powered = true ∧ s.lc.pending = some p ∧ s.ftActive = true) ∧
    (∃ (s : State) (p : LcPending), s.powered = true ∧ s.lc.pending = some p ∧ s.ftActive = false ∧ s.lcDue p = true) :=
  ⟨⟨{ up with powered := true, pwr := { up.pwr with mainOn := true }, secu := { up.secu with op := some ⟨3, 0, [], false, 0⟩ } }, ⟨3, 0, [], false, 0⟩, by decide +kernel⟩,
   ⟨{ up with powered := true, pwr := { up.pwr with mainOn := true }, secu := { up.secu with op := some ⟨15, 0, [], false, 1⟩ }, cmd := { up.cmd with waiting := some ⟨10, 1⟩ } }, ⟨15, 0, [], false, 1⟩, ⟨10, 1⟩, by decide +kernel⟩,
   ⟨{ up with powered := true, pwr := { up.pwr with mainOn := true }, secu := { up.secu with op := some ⟨5, 0, [7], true, 0⟩ } }, ⟨5, 0, [7], true, 0⟩, by decide +kernel⟩,
   ⟨{ up with powered := true, ldr := { up.ldr with service := true } }, go 10 1, by decide +kernel, accepted rfl rfl (by decide +kernel), by decide +kernel⟩,
   ⟨{ up with powered := true, ldr := { up.ldr with service := false } }, go 10 1, by decide +kernel, accepted rfl rfl (by decide +kernel), by decide +kernel⟩,
   ⟨{ up with powered := true, lc := { up.lc with pending := some ⟨1, 0, 0⟩ }, fc := { up.fc with activeFt := 1 } }, ⟨1, 0, 0⟩, by decide +kernel⟩,
   ⟨{ up with powered := true, lc := { up.lc with pending := some ⟨1, 0, 0⟩ } }, ⟨1, 0, 0⟩, by decide +kernel⟩⟩

theorem wit_SecurityBufferAndDebug :
    (∃ (s : State) (bs : List Byte), s.powered = true ∧ s.pwr.mainOn = true ∧ bs ≠ [] ∧ bs.length ≤ 4096 ∧ s.secu.ptr + bs.length ≤ 65536 ∧ s.secu.buf.wf = true) ∧
    (∃ (s : State), s.powered = true ∧ s.pwr.mainOn = true ∧ s.i3c.hdr = false) ∧
    (∃ (s : State), s.powered = true ∧ s.debugOk = true) ∧
    (∃ (s : State), s.powered = true) ∧
    (∃ (s : State), s.powered = true ∧ s.debugOk = false) :=
  ⟨⟨{ up with powered := true, pwr := { up.pwr with mainOn := true }, secu := { up.secu with ptr := 65535 } }, [7], by decide +kernel⟩,
   ⟨{ up with powered := true, pwr := { up.pwr with mainOn := true }, i3c := { up.i3c with hdr := false } }, by decide +kernel⟩,
   ⟨{ up with powered := true, lc := { up.lc with bootState := 3 } }, by decide +kernel⟩,
   ⟨{ up with powered := true }, by decide +kernel⟩,
   ⟨{ up with powered := true, lc := { up.lc with bootState := 2 } }, by decide +kernel⟩⟩

theorem wit_ImageTransfer :
    (∃ (s : State), s.powered = true ∧ s.inService = true ∧ s.ldr.xferOpen = false ∧ s.ldr.busy = false) ∧
    (∃ (s : State) (bs : List Byte), s.powered = true ∧ s.inService = true ∧ s.ldr.xferOpen = true ∧ s.ldr.srcBulk = false ∧ bs ≠ [] ∧ bs.length ≤ 4096 ∧ s.ldr.received.length + bs.length ≤ s.ldr.length) ∧
    (∃ (s : State) (bs : List Byte), s.powered = true ∧ s.inService = true ∧ s.ldr.xferOpen = true ∧ s.ldr.srcBulk = false ∧ bs ≠ [] ∧ bs.length ≤ 4096 ∧ s.ldr.length < s.ldr.received.length + bs.length) ∧
    (∃ (s : State) (p : Fin 16) (vc : Nat) (bs : List Byte), s.powered = true ∧ s.bulkPort p vc = true ∧ s.inService = true ∧ s.ldr.xferOpen = true ∧ s.ldr.srcBulk = true ∧ s.ldr.bulkPort = p ∧ bs.length = 16 + u32 bs 4 ∧ 1 ≤ u32 bs 4 ∧ u32 bs 4 ≤ 32768 ∧ crc32c (slice bs 0 12 ++ bs.drop 16) = u32 bs 12 ∧ u32 bs 8 = s.io.bulk.seq ∧ u32 bs 0 = s.ldr.received.length ∧ s.ldr.received.length + (bs.length - 16) ≤ s.ldr.length) ∧
    (∃ (s : State), s.powered = true ∧ s.inService = true ∧ s.ldr.xferOpen = true ∧ s.jnl.stopped = false ∧ s.ldr.received.length ≠ s.ldr.length) ∧
    (∃ (s : State), s.powered = true ∧ s.inService = true ∧ s.ldr.xferOpen = true ∧ s.jnl.stopped = false ∧ s.ldr.received.length = s.ldr.length) ∧
    (∃ (s : State), s.powered = true ∧ s.inService = true ∧ s.ldr.xferOpen = true) ∧
    (∃ (s : State) (b : Bool), s.powered = true ∧ s.inService = true ∧ s.ldr.busy = false ∧ s.slotValid b = true ∧ s.ldr.otpCtr ≤ (s.slot b).rollback ∧ s.ldr.prefSlot ≠ b) ∧
    (∃ (s : State), s.powered = true ∧ s.inService = true ∧ s.ldr.running = true ∧ s.ldr.advLeft ≠ 0 ∧ s.ldr.otpCtr < s.runRollback) ∧
    (∃ (s : State) (x : _), s.powered = true ∧ s.inService = false ∧ x ∈ [Instr.ldrOpen, .ldrClose, .ldrAbort, .ldrActivate false, .ldrActivate true, .ldrCommit]) :=
  ⟨⟨{ up with powered := true, ldr := { up.ldr with service := true, xferOpen := false, busy := false } }, by decide +kernel⟩,
   ⟨{ up with powered := true, ldr := { up.ldr with service := true, xferOpen := true, srcBulk := false, length := 3, received := [9] } }, [1, 2], by decide +kernel⟩,
   ⟨{ up with powered := true, ldr := { up.ldr with service := true, xferOpen := true, srcBulk := false, length := 3, received := [9, 9] } }, [1, 2], by decide +kernel⟩,
   ⟨{ up with powered := true, ldr := { up.ldr with service := true, xferOpen := true, srcBulk := true, length := 1, bulkPort := 15 } }, 15, 0, bulk, by decide +kernel⟩,
   ⟨{ up with powered := true, ldr := { up.ldr with service := true, xferOpen := true, length := 1 }, jnl := { up.jnl with stopped := false } }, by decide +kernel⟩,
   ⟨{ up with powered := true, ldr := { up.ldr with service := true, xferOpen := true }, jnl := { up.jnl with stopped := false } }, by decide +kernel⟩,
   ⟨{ up with powered := true, ldr := { up.ldr with service := true, xferOpen := true } }, by decide +kernel⟩,
   ⟨{ up with powered := true, ldr := { up.ldr with service := true, busy := false, slotB := ⟨true, 3, [], []⟩, otpCtr := 3, prefSlot := false }, jnl := { up.jnl with ready := true } }, true, by decide +kernel⟩,
   ⟨{ up with ldr := { up.ldr with running := true, image := some (img [(1, [(16, 7), (17, 0), (18, 0), (19, 0), (20, 0), (21, 0), (22, 0), (23, 0)])]), service := true, advLeft := 1, otpCtr := 6 }, powered := true }, by decide +kernel⟩,
   ⟨{ up with powered := true, ldr := { up.ldr with service := false } }, .ldrOpen, by decide +kernel⟩⟩

theorem wit_ImageLoads :
    (∃ (s : State) (r : Refused), s.powered = true ∧ s.pwr.mainOn = true ∧ s.ldr.busy = true ∧ s.svcUp = true ∧ s.ldr.stagedRefusal = some r) ∧
    (∃ (s : State), s.powered = true ∧ s.pwr.mainOn = true ∧ s.ldr.busy = true ∧ s.svcUp = true ∧ s.ldr.stagedRefusal = none ∧ s.jnl.ready = true ∧ s.jnl.stopped = false) ∧
    (∃ (s : State), s.powered = true ∧ s.pwr.mainOn = true ∧ s.ldr.busy = true ∧ s.svcUp = true ∧ s.ldr.stagedRefusal = none) ∧
    (∃ (s : State) (l : LoadIn) (r : Refused), s.powered = true ∧ s.pwr.mainOn = true ∧ s.ldr.loading = true ∧ s.svcUp = true ∧ s.ftActive = false ∧ s.haltSnapshot.trySlot s.ldr.prefSlot l = .error r ∧ s.haltSnapshot.slotValid (!s.ldr.prefSlot) = false) :=
  ⟨⟨{ up with powered := true, pwr := { up.pwr with mainOn := true }, ldr := { up.ldr with busy := true, stagedRefusal := some ⟨3, 0, 0, 0, 0, 0⟩ } }, ⟨3, 0, 0, 0, 0, 0⟩, by decide +kernel⟩,
   ⟨{ up with powered := true, pwr := { up.pwr with mainOn := true }, ldr := { up.ldr with busy := true, stagedRefusal := none }, jnl := { up.jnl with ready := true, stopped := false } }, by decide +kernel⟩,
   ⟨{ up with powered := true, pwr := { up.pwr with mainOn := true }, ldr := { up.ldr with busy := true, stagedRefusal := none } }, by decide +kernel⟩,
   ⟨{ up with powered := true, pwr := { up.pwr with mainOn := true }, ldr := { up.ldr with loading := true } }, ⟨false, false, false⟩, ⟨1, 0, 0, 0, 0, 0⟩, by decide +kernel, by decide +kernel, by decide +kernel, by decide +kernel, by decide +kernel, rfl, by decide +kernel⟩⟩

theorem wit_RegisterReads :
    (∃ (s : State), s.powered = true ∧ s.i3c.hdr = false) ∧
    (∃ (s : State) (b : _) (c : _) (g : _), s.powered = true ∧ s.i3c.hdr = false ∧ s.atCursor = (some b, c, g)) ∧
    (∃ (s : State) (c : _) (g : _), s.powered = true ∧ s.i3c.hdr = false ∧ s.atCursor = (none, c, g)) ∧
    (∃ (s : State), s.powered = true ∧ s.pwr.mainOn = true ∧ s.i3c.hdr = false) ∧
    (∃ (s : State) (a : BitVec 24), s.powered = true ∧ s.pwr.mainOn = true ∧ s.i3c.hdr = false ∧ a.toNat % 4 = 0 ∧ regCore a.toNat = none ∧ a.toNat ≠ 0x0A0020) :=
  ⟨⟨{ up with powered := true, i3c := { up.i3c with hdr := false } }, by decide +kernel⟩,
   ⟨{ up with evr := { up.evr with seqNext := 1, last := [rec0] } }, rec0.bytes, 0, false, by decide +kernel⟩,
   ⟨{ up with powered := true, i3c := { up.i3c with hdr := false } }, 0, false, by decide +kernel⟩,
   ⟨{ up with powered := true, pwr := { up.pwr with mainOn := true }, i3c := { up.i3c with hdr := false } }, by decide +kernel⟩,
   ⟨{ up with powered := true, pwr := { up.pwr with mainOn := true }, i3c := { up.i3c with hdr := false } }, 0, by decide +kernel⟩⟩

theorem wit_WatchdogCheckIns :
    (∃ (s : State) (k : Fin 16) (own : Nat) (o : Nat), s.powered = true ∧ s.taskEn k = true ∧ s.wd.taskFrozen = false ∧ (s.task k).off = some o ∧ (((s.task k).noJudge = true ∨ ((s.task k).checked = false ∧ s.taskOpen k ≤ (if s.taskRc k then own else o) ∧ (if s.taskRc k then own else o) < s.taskClose k)))) ∧
    (∃ (s : State) (k : Fin 16) (o : Nat), s.powered = true ∧ s.taskEn k = true ∧ s.wd.taskFrozen = false ∧ (s.task k).off = some o ∧ (s.task k).noJudge = false ∧ (s.task k).checked = true) ∧
    (∃ (s : State) (k : Fin 16) (own : Nat) (o : Nat), s.powered = true ∧ s.taskEn k = true ∧ s.wd.taskFrozen = false ∧ (s.task k).off = some o ∧ (s.task k).noJudge = false ∧ (s.task k).checked = false ∧ (if s.taskRc k then own else o) < s.taskOpen k) ∧
    (∃ (s : State) (k : Fin 16) (own : Nat) (o : Nat), s.powered = true ∧ s.taskEn k = true ∧ s.wd.taskFrozen = false ∧ (s.task k).off = some o ∧ (s.task k).noJudge = false ∧ (s.task k).checked = false ∧ s.taskOpen k ≤ (if s.taskRc k then own else o) ∧ s.taskClose k ≤ (if s.taskRc k then own else o)) ∧
    (∃ (s : State) (k : Fin 16), s.powered = true ∧ s.taskEn k = false) ∧
    (∃ (s : State) (own : Nat) (o : Nat), s.powered = true ∧ s.pwr.mainOn = true ∧ s.svcEn = true ∧ s.wd.svcFrozen = false ∧ s.wd.svc.downSince = none ∧ s.pwr.standby = false ∧ s.wd.svc.off = some o ∧ ((s.wd.svc.noJudge = true ∨ (s.wd.svc.checked = false ∧ s.svcOpen ≤ (if s.svcRc then own else o) ∧ (if s.svcRc then own else o) < s.svcClose)))) ∧
    (∃ (s : State) (own : Nat) (o : Nat) (code : _), s.powered = true ∧ s.pwr.mainOn = true ∧ s.svcEn = true ∧ s.wd.svcFrozen = false ∧ s.wd.svc.downSince = none ∧ s.pwr.standby = false ∧ s.wd.svc.off = some o ∧ s.wd.svc.noJudge = false ∧ judgeKick s.wd.svc.checked (if s.svcRc then own else o) s.svcOpen s.svcClose = some code) ∧
    (∃ (s : State) (k : Fin 16), s.powered = true ∧ s.taskPeriodDue k = true ∧ (s.task k).checked = false ∧ (s.task k).noJudge = false) ∧
    (∃ (s : State) (k : Fin 16), s.powered = true ∧ s.taskPeriodDue k = true ∧ (((s.task k).checked = true ∨ (s.task k).noJudge = true))) ∧
    (∃ (s : State), s.powered = true ∧ s.svcPeriodDue = true ∧ s.wd.svc.checked = false ∧ s.wd.svc.noJudge = false) ∧
    (∃ (s : State), s.powered = true ∧ s.svcPeriodDue = true ∧ ((s.wd.svc.checked = true ∨ s.wd.svc.noJudge = true))) ∧
    (∃ (s : State) (d : Nat), s.powered = true ∧ s.wd.svc.downSince = some d ∧ d + 16 ≤ s.beat) ∧
    (∃ (s : State) (d : Nat), s.powered = true ∧ s.wd.svc.downSince = some d ∧ s.beat < d + 16) :=
  ⟨⟨{ up with ldr := { up.ldr with running := true, image := some (img [(9, [(32, 100), (33, 0), (34, 5), (35, 0), (36, 9), (37, 0), (40, 1)])]) }, powered := true, wd := { up.wd with taskFrozen := false, tasks := vmod up.wd.tasks 0 (fun x => { x with off := some 8, checked := false, noJudge := false }) } }, 0, 0, 8, by decide +kernel⟩,
   ⟨{ up with ldr := { up.ldr with running := true, image := some (img [(9, [(32, 100), (33, 0), (34, 5), (35, 0), (36, 9), (37, 0), (40, 1)])]) }, powered := true, wd := { up.wd with taskFrozen := false, tasks := vmod up.wd.tasks 0 (fun x => { x with off := some 8, noJudge := false, checked := true }) } }, 0, 8, by decide +kernel⟩,
   ⟨{ up with ldr := { up.ldr with running := true, image := some (img [(9, [(32, 100), (33, 0), (34, 5), (35, 0), (36, 9), (37, 0), (40, 1)])]) }, powered := true, wd := { up.wd with taskFrozen := false, tasks := vmod up.wd.tasks 0 (fun x => { x with off := some 4, noJudge := false, checked := false }) } }, 0, 0, 4, by decide +kernel⟩,
   ⟨{ up with ldr := { up.ldr with running := true, image := some (img [(9, [(32, 100), (33, 0), (34, 5), (35, 0), (36, 9), (37, 0), (40, 1)])]) }, powered := true, wd := { up.wd with taskFrozen := false, tasks := vmod up.wd.tasks 0 (fun x => { x with off := some 9, noJudge := false, checked := false }) } }, 0, 0, 9, by decide +kernel⟩,
   ⟨{ up with powered := true }, 1, by decide +kernel⟩,
   ⟨{ up with ldr := { up.ldr with running := true, image := some (img [(9, [(224, 100), (225, 0), (226, 5), (227, 0), (228, 9), (229, 0), (230, 1)])]) }, powered := true, pwr := { up.pwr with mainOn := true, standby := false }, wd := { up.wd with svcFrozen := false, svc := { up.wd.svc with downSince := none, off := some 5, checked := false, noJudge := false } } }, 0, 5, by decide +kernel⟩,
   ⟨{ up with ldr := { up.ldr with running := true, image := some (img [(9, [(224, 100), (225, 0), (226, 5), (227, 0), (228, 9), (229, 0), (230, 1)])]) }, powered := true, pwr := { up.pwr with mainOn := true, standby := false }, wd := { up.wd with svcFrozen := false, svc := { up.wd.svc with downSince := none, noJudge := false, off := some 9 } } }, 0, 9, 3, by decide +kernel⟩,
   ⟨{ up with ldr := { up.ldr with running := true, image := some (img [(9, [(32, 100), (33, 0), (34, 5), (35, 0), (36, 9), (37, 0), (40, 1)])]) }, powered := true, wd := { up.wd with tasks := vmod up.wd.tasks 0 (fun x => { x with checked := false, noJudge := false, off := some 99 }) } }, 0, by decide +kernel⟩,
   ⟨{ up with ldr := { up.ldr with running := true, image := some (img [(9, [(32, 100), (33, 0), (34, 5), (35, 0), (36, 9), (37, 0), (40, 1)])]) }, powered := true, wd := { up.wd with tasks := vmod up.wd.tasks 0 (fun x => { x with off := some 99, checked := true }) } }, 0, by decide +kernel⟩,
   ⟨{ up with ldr := { up.ldr with running := true, image := some (img [(9, [(224, 100), (225, 0), (226, 5), (227, 0), (228, 9), (229, 0), (230, 1)])]) }, powered := true, wd := { up.wd with svc := { up.wd.svc with checked := false, noJudge := false, off := some 99 } } }, by decide +kernel⟩,
   ⟨{ up with ldr := { up.ldr with running := true, image := some (img [(9, [(224, 100), (225, 0), (226, 5), (227, 0), (228, 9), (229, 0), (230, 1)])]) }, powered := true, wd := { up.wd with svc := { up.wd.svc with off := some 99, checked := true } } }, by decide +kernel⟩,
   ⟨{ up with powered := true, wd := { up.wd with svc := { up.wd.svc with downSince := some 4 } }, beat := 20 }, 4, by decide +kernel⟩,
   ⟨{ up with powered := true, wd := { up.wd with svc := { up.wd.svc with downSince := some 4 } }, beat := 19 }, 4, by decide +kernel⟩⟩

theorem wit_ControlRegisters :
    (∃ (s : State), s.powered = true ∧ s.anyActive = false) ∧
    (∃ (s : State), s.powered = true ∧ s.anyActive = true) ∧
    (∃ (s : State), s.powered = true) ∧
    (∃ (s : State) (o : Int) (b : Nat) (iv : Nat), s.powered = true ∧ s.pwr.mainOn = true ∧ s.time.sample = some (o, b, iv) ∧ s.beat ≤ b + 2 * iv ∧ ((s.watch.wstate = .stopped ∨ s.ldr.service = true))) ∧
    (∃ (s : State), s.powered = true ∧ s.pwr.mainOn = true ∧ ((s.time.sample = none ∨ (s.watch.wstate ≠ .stopped ∧ s.ldr.service = false)))) ∧
    (∃ (s : State), s.powered = true ∧ s.pwr.mainOn = true) ∧
    (∃ (s : State) (n : Nat) (p : NandPage), s.powered = true ∧ s.pwr.mainOn = true ∧ s.jnl.ready = true ∧ s.jnl.pageAt (s.jnl.rdSeqLo + 2 ^ 32 * s.jnl.rdSeqHi) = some (n, p) ∧ s.epochPage p = true ∧ s.authentic p = true) ∧
    (∃ (s : State), s.powered = true ∧ s.pwr.mainOn = true ∧ ((s.jnl.ready = false ∨ s.jnl.pageAt (s.jnl.rdSeqLo + 2 ^ 32 * s.jnl.rdSeqHi) = none))) ∧
    (∃ (s : State), s.powered = true ∧ s.pwr.mainOn = true ∧ ((s.ldr.service = true ∨ s.ldr.running = false)) ∧ s.jnl.present = true ∧ inRange 64 512 s.jnl.slotMib = true ∧ inRange 16 256 s.jnl.evidMib = true ∧ 8 + 2 * s.blocksFor s.jnl.slotMib + s.blocksFor s.jnl.evidMib + max 16 (cdiv (s.jnl.blocks.countP fun b => !b.bad) 50) + 64 ≤ s.jnl.blocks.countP (fun b => !b.bad)) ∧
    (∃ (s : State), s.powered = true ∧ s.pwr.mainOn = true ∧ ((s.jnl.present = false ∨ (s.ldr.service = false ∧ s.ldr.running = true)))) :=
  ⟨⟨{ up with powered := true }, by decide +kernel⟩,
   ⟨{ up with powered := true, fc := { up.fc with activeUc := 1 } }, by decide +kernel⟩,
   ⟨{ up with powered := true }, by decide +kernel⟩,
   ⟨{ up with powered := true, pwr := { up.pwr with mainOn := true }, time := { up.time with sample := some (5, 10, 20) }, beat := 50 }, 5, 10, 20, by decide +kernel⟩,
   ⟨{ up with powered := true, pwr := { up.pwr with mainOn := true }, time := { up.time with sample := none } }, by decide +kernel⟩,
   ⟨{ up with powered := true, pwr := { up.pwr with mainOn := true } }, by decide +kernel⟩,
   ⟨journal, 0, page0, by decide +kernel, by decide +kernel, by decide +kernel, rfl, by decide +kernel, beq_self_eq_true _⟩,
   ⟨{ up with powered := true, pwr := { up.pwr with mainOn := true }, jnl := { up.jnl with ready := false } }, by decide +kernel⟩,
   ⟨{ up with powered := true, pwr := { up.pwr with mainOn := true }, jnl := { up.jnl with present := true, slotMib := 64, evidMib := 16, pagesPerBlock := 1024, page := 1, blocks := List.replicate 106 NandBlock.blank } }, by decide +kernel⟩,
   ⟨{ up with powered := true, pwr := { up.pwr with mainOn := true }, jnl := { up.jnl with present := false } }, by decide +kernel⟩⟩

theorem wit_ChannelVerification :
    (∃ (s : State) (u : Fin 16) (bs : List Byte) (rt : Bool), s.powered = true ∧ s.pwr.mainOn = true ∧ bs.length ∈ [1, 2, 4] ∧ rt = decide (u.val < 8)) ∧
    (∃ (s : State) (u : Fin 16) (bs : List Byte), s.powered = true ∧ s.pwr.mainOn = true ∧ bs.length ∈ [1, 2, 4] ∧ u.val < 8) ∧
    (∃ (s : State) (u : Fin 16) (v : BitVec 16) (rt : Bool), s.powered = true ∧ s.pwr.mainOn = true ∧ rt = decide (u.val < 8) ∧ (s.cvu u).width ≠ 0 ∧ (s.cvu u).primed = true ∧ 1 ≤ (s.cvu u).aliveStep v.toNat ∧ (s.cvu u).aliveStep v.toNat ≤ (s.cvu u).gap + 1) ∧
    (∃ (s : State) (u : Fin 16) (v : BitVec 16) (rt : Bool), s.powered = true ∧ s.pwr.mainOn = true ∧ rt = decide (u.val < 8) ∧ (s.cvu u).width ≠ 0 ∧ (s.cvu u).primed = true ∧ (¬(1 ≤ (s.cvu u).aliveStep v.toNat ∧ (s.cvu u).aliveStep v.toNat ≤ (s.cvu u).gap + 1))) ∧
    (∃ (s : State) (u : Fin 16) (rt : Bool), s.powered = true ∧ s.pwr.mainOn = true ∧ rt = decide (u.val < 8) ∧ (s.cvu u).width ≠ 0 ∧ (s.cvu u).primed = false) :=
  ⟨⟨{ up with powered := true, pwr := { up.pwr with mainOn := true } }, 0, [1], true, by decide +kernel⟩,
   ⟨{ up with powered := true, pwr := { up.pwr with mainOn := true } }, 0, [1], by decide +kernel⟩,
   ⟨{ up with powered := true, pwr := { up.pwr with mainOn := true }, io := { up.io with cvu := vmod up.io.cvu 0 (fun x => { x with width := 1, primed := true, last := 4 }) } }, 0, 5, true, by decide +kernel⟩,
   ⟨{ up with powered := true, pwr := { up.pwr with mainOn := true }, io := { up.io with cvu := vmod up.io.cvu 0 (fun x => { x with width := 1, primed := true, last := 4 }) } }, 0, 4, true, by decide +kernel⟩,
   ⟨{ up with powered := true, pwr := { up.pwr with mainOn := true }, io := { up.io with cvu := vmod up.io.cvu 0 (fun x => { x with width := 1 }) } }, 0, true, by decide +kernel⟩⟩

theorem wit_HeartbeatMonitors :
    (∃ (s : State) (k : Fin 2) (level : Bool), s.powered = true ∧ s.hbEn k = true ∧ (s.prim k).pwrEn = true ∧ (s.hbAt k).level ≠ level ∧ (¬(s.hbRising k = true ∧ level = false)) ∧ (s.hbAt k).lastEdge = none) ∧
    (∃ (s : State) (k : Fin 2) (level : Bool) (own : Nat) (p : _), s.powered = true ∧ s.hbEn k = true ∧ (s.prim k).pwrEn = true ∧ (s.hbAt k).level ≠ level ∧ (¬(s.hbRising k = true ∧ level = false)) ∧ (s.hbAt k).lastEdge = some p ∧ s.hbMin k ≤ (if s.hbRc k then own else s.beat - p) ∧ (if s.hbRc k then own else s.beat - p) ≤ s.hbMax k) ∧
    (∃ (s : State) (k : Fin 2) (level : Bool) (own : Nat) (p : _), s.powered = true ∧ s.hbEn k = true ∧ (s.prim k).pwrEn = true ∧ (s.hbAt k).level ≠ level ∧ (¬(s.hbRising k = true ∧ level = false)) ∧ (s.hbAt k).lastEdge = some p ∧ (if s.hbRc k then own else s.beat - p) < s.hbMin k) ∧
    (∃ (s : State) (k : Fin 2) (level : Bool) (own : Nat) (p : _), s.powered = true ∧ s.hbEn k = true ∧ (s.prim k).pwrEn = true ∧ (s.hbAt k).level ≠ level ∧ (¬(s.hbRising k = true ∧ level = false)) ∧ (s.hbAt k).lastEdge = some p ∧ s.hbMin k ≤ (if s.hbRc k then own else s.beat - p) ∧ s.hbMax k < (if s.hbRc k then own else s.beat - p)) ∧
    (∃ (s : State) (k : Fin 2) (own : Bool), s.powered = true ∧ s.hbLostDue k own = true) ∧
    (∃ (s : State) (k : Fin 2), s.powered = true ∧ s.hbPersistDue k = true) ∧
    (∃ (s : State), s.powered = true ∧ s.pwr.standby = true ∧ s.pwr.entering = none ∧ s.pwr.waking = false ∧ s.standbyPeriod ≠ 0 ∧ s.wd.standbySince + s.standbyPeriod ≤ s.beat) :=
  ⟨⟨{ up with ldr := { up.ldr with running := true, image := some (img [(9, [(240, 10), (241, 0), (242, 20), (243, 0), (245, 1), (248, 100), (249, 0), (250, 0), (251, 0)])]) }, powered := true, pwr := { up.pwr with acc := vmod up.pwr.acc 0 (fun x => { x with pwrEn := true }) }, wd := { up.wd with hb := vmod up.wd.hb 0 (fun x => { x with lastEdge := none }) } }, 0, true, by decide +kernel⟩,
   ⟨{ up with ldr := { up.ldr with running := true, image := some (img [(9, [(240, 10), (241, 0), (242, 20), (243, 0), (245, 1), (248, 100), (249, 0), (250, 0), (251, 0)])]) }, powered := true, pwr := { up.pwr with acc := vmod up.pwr.acc 0 (fun x => { x with pwrEn := true }) }, wd := { up.wd with hb := vmod up.wd.hb 0 (fun x => { x with lastEdge := some 5 }) }, beat := 15 }, 0, true, 0, 5, by decide +kernel⟩,
   ⟨{ up with ldr := { up.ldr with running := true, image := some (img [(9, [(240, 10), (241, 0), (242, 20), (243, 0), (245, 1), (248, 100), (249, 0), (250, 0), (251, 0)])]) }, powered := true, pwr := { up.pwr with acc := vmod up.pwr.acc 0 (fun x => { x with pwrEn := true }) }, wd := { up.wd with hb := vmod up.wd.hb 0 (fun x => { x with lastEdge := some 5 }) }, beat := 14 }, 0, true, 0, 5, by decide +kernel⟩,
   ⟨{ up with ldr := { up.ldr with running := true, image := some (img [(9, [(240, 10), (241, 0), (242, 20), (243, 0), (245, 1), (248, 100), (249, 0), (250, 0), (251, 0)])]) }, powered := true, pwr := { up.pwr with acc := vmod up.pwr.acc 0 (fun x => { x with pwrEn := true }) }, wd := { up.wd with hb := vmod up.wd.hb 0 (fun x => { x with lastEdge := some 5 }) }, beat := 26 }, 0, true, 0, 5, by decide +kernel⟩,
   ⟨{ up with ldr := { up.ldr with running := true, image := some (img [(9, [(240, 10), (241, 0), (242, 20), (243, 0), (245, 1), (248, 100), (249, 0), (250, 0), (251, 0)])]) }, powered := true, wd := { up.wd with hb := vmod up.wd.hb 0 (fun x => { x with alive := true, lastEdge := some 5 }) }, beat := 26 }, 0, false, by decide +kernel⟩,
   ⟨{ up with ldr := { up.ldr with running := true, image := some (img [(9, [(240, 10), (241, 0), (242, 20), (243, 0), (245, 1), (248, 100), (249, 0), (250, 0), (251, 0)])]) }, powered := true, wd := { up.wd with hb := vmod up.wd.hb 0 (fun x => { x with lostSince := 5 }) }, beat := 104 }, 0, by decide +kernel⟩,
   ⟨{ up with ldr := { up.ldr with running := true, image := some (img [(9, [(232, 50), (233, 0), (234, 0), (235, 0)])]) }, powered := true, pwr := { up.pwr with standby := true, entering := none, waking := false }, beat := 50, wd := { up.wd with standbySince := 0 } }, by decide +kernel⟩⟩

theorem wit_PrimarySequencing :
    (∃ (s : State) (k : Fin 2), s.powered = true ∧ primEn s.primB k = true ∧ (s.prim k).seq = 0) ∧
    (∃ (s : State) (k : Fin 2), s.powered = true ∧ primEn s.primB k = true ∧ (s.prim k).seq = 2) ∧
    (∃ (s : State) (k : Fin 2), s.powered = true ∧ primEn s.primB k = true ∧ (s.prim k).seq ≠ 0 ∧ (s.prim k).seq ≠ 2) ∧
    (∃ (s : State) (k : Fin 2), s.powered = true ∧ primEn s.primB k = true ∧ (s.prim k).seq ≠ 0) ∧
    (∃ (s : State) (k : Fin 2), s.powered = true ∧ primEn s.primB k = true ∧ (((s.prim k).seq = 0 ∨ (s.prim k).seq = 2))) ∧
    (∃ (s : State) (k : Fin 2) (x : Fin 2 → Instr), x ∈ [Instr.accOn, Instr.accOff, Instr.accCycle] ∧ s.powered = true ∧ primEn s.primB k = false) ∧
    (∃ (s : State) (k : Fin 2), s.powered = true ∧ (s.prim k).seq = 1 ∧ (s.prim k).since + primPwrToRst s.primB k ≤ s.beat) ∧
    (∃ (s : State) (k : Fin 2), s.powered = true ∧ (s.prim k).seq = 3 ∧ (s.prim k).since + primRstToOff s.primB k ≤ s.beat) ∧
    (∃ (s : State) (k : Fin 2), s.powered = true ∧ (s.prim k).seq = 4 ∧ (s.prim k).since + primOffBeats s.primB k ≤ s.beat) ∧
    (∃ (s : State) (k : Fin 2), s.powered = true ∧ (((s.prim k).seq ≠ 1 ∨ s.beat < (s.prim k).since + primPwrToRst s.primB k))) ∧
    (∃ (s : State) (k : Fin 2), s.powered = true ∧ (((s.prim k).seq ≠ 3 ∨ s.beat < (s.prim k).since + primRstToOff s.primB k))) ∧
    (∃ (s : State) (k : Fin 2), s.powered = true ∧ (((s.prim k).seq ≠ 4 ∨ s.beat < (s.prim k).since + primOffBeats s.primB k))) :=
  ⟨⟨{ up with ldr := { up.ldr with running := true, image := some (img [(11, [(120, 1), (122, 3), (123, 0), (124, 4), (125, 0), (128, 5), (129, 0), (130, 0), (131, 0)])]) }, powered := true, pwr := { up.pwr with acc := vmod up.pwr.acc 0 (fun x => { x with seq := 0 }) } }, 0, by decide +kernel⟩,
   ⟨{ up with ldr := { up.ldr with running := true, image := some (img [(11, [(120, 1), (122, 3), (123, 0), (124, 4), (125, 0), (128, 5), (129, 0), (130, 0), (131, 0)])]) }, powered := true, pwr := { up.pwr with acc := vmod up.pwr.acc 0 (fun x => { x with seq := 2 }) } }, 0, by decide +kernel⟩,
   ⟨{ up with ldr := { up.ldr with running := true, image := some (img [(11, [(120, 1), (122, 3), (123, 0), (124, 4), (125, 0), (128, 5), (129, 0), (130, 0), (131, 0)])]) }, powered := true, pwr := { up.pwr with acc := vmod up.pwr.acc 0 (fun x => { x with seq := 1 }) } }, 0, by decide +kernel⟩,
   ⟨{ up with ldr := { up.ldr with running := true, image := some (img [(11, [(120, 1), (122, 3), (123, 0), (124, 4), (125, 0), (128, 5), (129, 0), (130, 0), (131, 0)])]) }, powered := true, pwr := { up.pwr with acc := vmod up.pwr.acc 0 (fun x => { x with seq := 1 }) } }, 0, by decide +kernel⟩,
   ⟨{ up with ldr := { up.ldr with running := true, image := some (img [(11, [(120, 1), (122, 3), (123, 0), (124, 4), (125, 0), (128, 5), (129, 0), (130, 0), (131, 0)])]) }, powered := true, pwr := { up.pwr with acc := vmod up.pwr.acc 0 (fun x => { x with seq := 2 }) } }, 0, by decide +kernel⟩,
   ⟨{ up with ldr := { up.ldr with running := true, image := some (img [(11, [(120, 0)])]) }, powered := true, pwr := { up.pwr with acc := vmod up.pwr.acc 0 (fun x => { x with seq := 0 }) } }, 0, Instr.accOn, by decide +kernel⟩,
   ⟨{ up with ldr := { up.ldr with running := true, image := some (img [(11, [(120, 1), (122, 3), (123, 0), (124, 4), (125, 0), (128, 5), (129, 0), (130, 0), (131, 0)])]) }, powered := true, pwr := { up.pwr with acc := vmod up.pwr.acc 0 (fun x => { x with seq := 1, since := 0 }) }, beat := 3 }, 0, by decide +kernel⟩,
   ⟨{ up with ldr := { up.ldr with running := true, image := some (img [(11, [(120, 1), (122, 3), (123, 0), (124, 4), (125, 0), (128, 5), (129, 0), (130, 0), (131, 0)])]) }, powered := true, pwr := { up.pwr with acc := vmod up.pwr.acc 0 (fun x => { x with seq := 3, since := 0 }) }, beat := 4 }, 0, by decide +kernel⟩,
   ⟨{ up with ldr := { up.ldr with running := true, image := some (img [(11, [(120, 1), (122, 3), (123, 0), (124, 4), (125, 0), (128, 5), (129, 0), (130, 0), (131, 0)])]) }, powered := true, pwr := { up.pwr with acc := vmod up.pwr.acc 0 (fun x => { x with seq := 4, since := 0 }) }, beat := 5 }, 0, by decide +kernel⟩,
   ⟨{ up with ldr := { up.ldr with running := true, image := some (img [(11, [(120, 1), (122, 3), (123, 0), (124, 4), (125, 0), (128, 5), (129, 0), (130, 0), (131, 0)])]) }, powered := true, pwr := { up.pwr with acc := vmod up.pwr.acc 0 (fun x => { x with seq := 1, since := 0 }) }, beat := 2 }, 0, by decide +kernel⟩,
   ⟨{ up with ldr := { up.ldr with running := true, image := some (img [(11, [(120, 1), (122, 3), (123, 0), (124, 4), (125, 0), (128, 5), (129, 0), (130, 0), (131, 0)])]) }, powered := true, pwr := { up.pwr with acc := vmod up.pwr.acc 0 (fun x => { x with seq := 3, since := 0 }) }, beat := 3 }, 0, by decide +kernel⟩,
   ⟨{ up with ldr := { up.ldr with running := true, image := some (img [(11, [(120, 1), (122, 3), (123, 0), (124, 4), (125, 0), (128, 5), (129, 0), (130, 0), (131, 0)])]) }, powered := true, pwr := { up.pwr with acc := vmod up.pwr.acc 0 (fun x => { x with seq := 4, since := 0 }) }, beat := 4 }, 0, by decide +kernel⟩⟩

theorem wit_SupervisionFaults :
    (∃ (s : State), s.powered = true ∧ s.xtalOk = true) ∧
    (∃ (s : State), s.powered = true) ∧
    (∃ (s : State) (dev : Int), s.powered = true ∧ 500 < dev.natAbs) ∧
    (∃ (s : State) (dev : Int), s.powered = true ∧ dev.natAbs ≤ 500) ∧
    (∃ (s : State), s.powered = true ∧ s.ctrl.split = true) ∧
    (∃ (s : State), s.powered = true ∧ s.ctrl.split = false) ∧
    (∃ (s : State) (n : Fin 9), s.powered = true ∧ ((aonRail n.val = true ∨ s.pwr.armed.getLsbD n.val = true))) ∧
    (∃ (s : State) (n : Fin 9), s.powered = true ∧ aonRail n.val = false ∧ s.pwr.armed.getLsbD n.val = false) :=
  ⟨⟨{ up with powered := true }, by decide +kernel⟩,
   ⟨{ up with powered := true }, by decide +kernel⟩,
   ⟨{ up with powered := true }, -501, by decide +kernel⟩,
   ⟨{ up with powered := true }, -500, by decide +kernel⟩,
   ⟨{ up with powered := true, ctrl := { up.ctrl with split := true } }, by decide +kernel⟩,
   ⟨{ up with powered := true, ctrl := { up.ctrl with split := false } }, by decide +kernel⟩,
   ⟨{ up with powered := true, pwr := { up.pwr with armed := 0x1FF } }, 0, by decide +kernel⟩,
   ⟨{ up with powered := true, pwr := { up.pwr with armed := 0 } }, 0, by decide +kernel⟩⟩

theorem wit_CoreAndMemoryFaults :
    (∃ (s : State) (n : Fin 32), s.powered = true ∧ s.pwr.mainOn = true ∧ (s.core n).retired = true) ∧
    (∃ (s : State) (n : Fin 32), s.powered = true ∧ s.pwr.mainOn = true ∧ (s.core n).retired = false) ∧
    (∃ (s : State) (n : Fin 32) (b : Nat), s.powered = true ∧ s.pwr.mainOn = true ∧ (s.core n).offBy = some b) ∧
    (∃ (s : State), s.powered = true ∧ s.pwr.mainOn = true) ∧
    (∃ (s : State), s.powered = true ∧ s.pwr.mainOn = true ∧ Sparse.wf Cell.zero s.grid.plane0 = true ∧ Sparse.wf Cell.zero s.grid.plane1 = true) ∧
    (∃ (s : State), s.powered = true ∧ Sparse.wf FloorCell.zero s.flr.cells = true) ∧
    (∃ (s : State), s.powered = true ∧ s.flr.f0Ok = true) ∧
    (∃ (s : State), s.powered = true ∧ s.flr.f1Ok = true) ∧
    (∃ (s : State), s.powered = true ∧ s.flr.f0Ok = false) ∧
    (∃ (s : State), s.powered = true ∧ s.flr.f1Ok = false) ∧
    (∃ (s : State) (g : Fin 4) (b : Bool) (code : _), s.powered = true ∧ s.rbBreach g b = some code) ∧
    (∃ (s : State) (g : Fin 4) (b : Bool), s.powered = true ∧ s.rbBreach g b = none) :=
  ⟨⟨{ up with powered := true, pwr := { up.pwr with mainOn := true }, cores := vmod up.cores 0 (fun x => { x with retired := true }) }, 0, by decide +kernel⟩,
   ⟨{ up with powered := true, pwr := { up.pwr with mainOn := true }, cores := vmod up.cores 0 (fun x => { x with retired := false }) }, 0, by decide +kernel⟩,
   ⟨{ up with powered := true, pwr := { up.pwr with mainOn := true }, cores := vmod up.cores 0 (fun x => { x with offBy := some 0 }) }, 0, 0, by decide +kernel⟩,
   ⟨{ up with powered := true, pwr := { up.pwr with mainOn := true } }, by decide +kernel⟩,
   ⟨{ up with powered := true, pwr := { up.pwr with mainOn := true } }, by decide +kernel⟩,
   ⟨{ up with powered := true }, by decide +kernel⟩,
   ⟨{ up with powered := true, flr := { up.flr with f0Ok := true } }, by decide +kernel⟩,
   ⟨{ up with powered := true, flr := { up.flr with f1Ok := true } }, by decide +kernel⟩,
   ⟨{ up with powered := true, flr := { up.flr with f0Ok := false } }, by decide +kernel⟩,
   ⟨{ up with powered := true, flr := { up.flr with f1Ok := false } }, by decide +kernel⟩,
   ⟨{ up with ldr := { up.ldr with running := true, image := some (img [(8, [(464, 1)])]) }, powered := true, so := { up.so with groups := vmod up.so.groups 0 (fun x => { x with a := ⟨true, false, 0, true, true, false, false⟩, pulse := none }) }, beat := 1 }, 0, false, 2, by decide +kernel⟩,
   ⟨{ up with powered := true }, 0, false, by decide +kernel⟩⟩

theorem wit_StartUpSequences :
    (∃ (s : State), ((s.powered = false ∨ (s.st.running = true ∧ s.st.step = 0)))) ∧
    (∃ (s : State), s.powered = true ∧ (¬(s.st.running = true ∧ s.st.step = 0))) ∧
    (∃ (s : State), s.powered = true) ∧
    (∃ (s : State), s.powered = true ∧ s.pwr.standby = true ∧ s.pwr.waking = true) ∧
    (∃ (s : State), s.powered = true ∧ ((s.pwr.standby = false ∨ s.pwr.waking = false))) ∧
    (∃ (s : State), s.powered = true ∧ s.lrstDue = true ∧ (¬((s.watch.wstate = .halt ∧ s.st.running = false) ∨ s.selftestFail = true))) ∧
    (∃ (s : State), s.powered = true ∧ s.lrstDue = true ∧ (((s.watch.wstate = .halt ∧ s.st.running = false) ∨ s.selftestFail = true)) ∧ s.lrst.stoOn = false) ∧
    (∃ (s : State), s.powered = true ∧ s.lrstDue = true ∧ (((s.watch.wstate = .halt ∧ s.st.running = false) ∨ s.selftestFail = true)) ∧ s.lrst.stoOn = true ∧ s.lcChanged = false) ∧
    (∃ (s : State), s.powered = true ∧ s.lrstDue = false) ∧
    (∃ (s : State), s.powered = true ∧ s.lrst.ignoreDue = none) ∧
    (∃ (s : State) (k : _), s.powered = true ∧ s.lrst.ignoreDue = some k) ∧
    (∃ (s : State), s.powered = true ∧ s.lrst.discDue = true) ∧
    (∃ (s : State), s.powered = true ∧ s.lrst.discDue = false) :=
  ⟨⟨{ up with powered := false }, by decide +kernel⟩,
   ⟨{ up with powered := true, st := { up.st with running := false } }, by decide +kernel⟩,
   ⟨{ up with powered := true }, by decide +kernel⟩,
   ⟨{ up with powered := true, pwr := { up.pwr with standby := true, waking := true } }, by decide +kernel⟩,
   ⟨{ up with powered := true, pwr := { up.pwr with standby := false } }, by decide +kernel⟩,
   ⟨{ up with powered := true, lrst := { up.lrst with acceptAt := some 0 } }, by decide +kernel⟩,
   ⟨{ up with powered := true, lrst := { up.lrst with acceptAt := some 0, stoOn := false }, watch := { up.watch with wstate := .halt }, st := { up.st with running := false } }, by decide +kernel⟩,
   ⟨{ up with powered := true, lrst := { up.lrst with acceptAt := some 0, stoOn := true }, watch := { up.watch with wstate := .halt }, st := { up.st with running := false } }, by decide +kernel⟩,
   ⟨{ up with powered := true }, by decide +kernel⟩,
   ⟨{ up with powered := true, lrst := { up.lrst with ignoreDue := none } }, by decide +kernel⟩,
   ⟨{ up with powered := true, lrst := { up.lrst with ignoreDue := some 2 } }, 2, by decide +kernel⟩,
   ⟨{ up with powered := true, lrst := { up.lrst with discDue := true } }, by decide +kernel⟩,
   ⟨{ up with powered := true, lrst := { up.lrst with discDue := false } }, by decide +kernel⟩⟩

theorem wit_StandbyAndRecovery :
    (∃ (s : State), s.powered = true ∧ s.standbyAllowed = true) ∧
    (∃ (s : State), s.powered = true ∧ s.standbyAllowed = false) ∧
    (∃ (s : State), s.powered = true ∧ s.standbyDue = true) ∧
    (∃ (s : State), s.powered = true ∧ s.standbyDue = false) ∧
    (∃ (s : State), s.powered = true ∧ s.fc.quietEnd = some s.beat ∧ s.fc.activeUc = 0) ∧
    (∃ (s : State), s.powered = true ∧ s.fc.quietEnd = some s.beat ∧ s.fc.activeUc ≠ 0 ∧ s.recoveriesIn.length + 1 ≤ s.recLimit) ∧
    (∃ (s : State), s.powered = true ∧ s.fc.quietEnd = some s.beat ∧ s.fc.activeUc ≠ 0 ∧ s.recLimit < s.recoveriesIn.length + 1 ∧ s.fc.lastUc < 128) ∧
    (∃ (s : State), s.powered = true ∧ s.fc.quietEnd ≠ some s.beat) :=
  ⟨⟨{ up with powered := true }, by decide +kernel⟩,
   ⟨{ up with powered := true, watch := { up.watch with wstate := .trust } }, by decide +kernel⟩,
   ⟨{ up with powered := true, pwr := { up.pwr with entering := some 0 }, beat := 25000, evr := { up.evr with waiting := 1 } }, by decide +kernel⟩,
   ⟨{ up with powered := true, pwr := { up.pwr with entering := some 0 }, beat := 24999, evr := { up.evr with waiting := 1 } }, by decide +kernel⟩,
   ⟨{ up with powered := true, fc := { up.fc with quietEnd := some 0, activeUc := 0 } }, by decide +kernel⟩,
   ⟨{ up with powered := true, fc := { up.fc with quietEnd := some 0, activeUc := 1, recoveries := [0, 0, 0] } }, by decide +kernel⟩,
   ⟨{ up with powered := true, fc := { up.fc with quietEnd := some 0, activeUc := 1, recoveries := [0, 0, 0, 0], lastUc := 127 } }, by decide +kernel⟩,
   ⟨{ up with powered := true, fc := { up.fc with quietEnd := some 1 } }, by decide +kernel⟩⟩

theorem wit_PeriodicTests :
    (∃ (s : State) (k : TestKind), s.powered = true ∧ s.pwr.mainOn = true ∧ s.maySlice k = true) ∧
    (∃ (s : State) (k : TestKind), s.powered = true ∧ s.pwr.mainOn = true ∧ s.maySlice k = false) ∧
    (∃ (s : State) (k : TestKind) (r : SliceRun), s.powered = true ∧ s.pwr.mainOn = true ∧ s.st.slices.find? (·.kind == k) = some r) ∧
    (∃ (s : State) (k : TestKind) (r : SliceRun), s.powered = true ∧ s.pwr.mainOn = true ∧ s.st.slices.find? (·.kind == k) = some r ∧ s.beat < r.start + k.beats) ∧
    (∃ (s : State) (k : TestKind) (r : SliceRun), s.powered = true ∧ s.pwr.mainOn = true ∧ s.st.slices.find? (·.kind == k) = some r ∧ r.start + k.beats ≤ s.beat ∧ s.testInside k = true ∧ r.slice + 1 < k.slices) ∧
    (∃ (s : State) (k : TestKind) (r : SliceRun), s.powered = true ∧ s.pwr.mainOn = true ∧ s.st.slices.find? (·.kind == k) = some r ∧ r.start + k.beats ≤ s.beat ∧ s.testInside k = true ∧ k.slices ≤ r.slice + 1) ∧
    (∃ (s : State) (k : TestKind) (r : SliceRun) (n : _), s.powered = true ∧ s.pwr.mainOn = true ∧ s.st.slices.find? (·.kind == k) = some r ∧ k = .lbist n ∧ r.start + k.beats ≤ s.beat ∧ s.testInside k = true) ∧
    (∃ (s : State) (k : TestKind) (r : SliceRun), s.powered = true ∧ s.pwr.mainOn = true ∧ s.st.slices.find? (·.kind == k) = some r ∧ s.beat ≤ r.start) ∧
    (∃ (s : State) (k : TestKind) (r : SliceRun), s.powered = true ∧ s.pwr.mainOn = true ∧ s.st.slices.find? (·.kind == k) = some r ∧ r.start < s.beat ∧ k.exists' = true) ∧
    (∃ (s : State) (k : TestKind), s.powered = true ∧ s.pwr.mainOn = true ∧ s.st.slices.find? (·.kind == k) = none) ∧
    (∃ (s : State) (k : TestKind), s.powered = true ∧ s.pwr.mainOn = true ∧ s.ticksRun = true ∧ 1 ≤ s.sched.frame ∧ s.testInside k = true ∧ (s.cov k).judged ≠ some s.sched.frame ∧ s.dueIn k (s.sched.frame - 1) = true) ∧
    (∃ (s : State) (k : TestKind), s.powered = true ∧ s.pwr.mainOn = true ∧ s.ticksRun = true ∧ 1 ≤ s.sched.frame ∧ s.testInside k = true ∧ (s.cov k).judged ≠ some s.sched.frame ∧ s.dueIn k (s.sched.frame - 1) = false) ∧
    (∃ (s : State) (k : TestKind), s.powered = true ∧ s.pwr.mainOn = true ∧ (s.cov k).judged = some s.sched.frame) ∧
    (∃ (s : State) (n : Fin 32), s.powered = true ∧ s.pwr.mainOn = true ∧ s.goldenBad n = true) ∧
    (∃ (s : State) (n : Fin 32), s.powered = true ∧ s.pwr.mainOn = true ∧ s.goldenBad n = false) :=
  ⟨⟨{ up with ldr := { up.ldr with running := true, image := some (img [(3, [(0, 80), (1, 195), (2, 0), (3, 0), (4, 1), (5, 0), (6, 1), (8, 1), (9, 0), (10, 0), (11, 0), (48, 0), (49, 0), (112, 0), (113, 0), (114, 0), (115, 0), (116, 1), (117, 0), (120, 0), (121, 0), (122, 0), (123, 0), (124, 232), (125, 3), (126, 0), (127, 1)])]) }, powered := true, pwr := { up.pwr with mainOn := true }, sched := { up.sched with origin := some 0 } }, .lbist 0, by decide +kernel⟩,
   ⟨{ up with ldr := { up.ldr with running := true, image := some (img [(3, [(0, 80), (1, 195), (2, 0), (3, 0), (4, 1), (5, 0), (6, 1), (8, 1), (9, 0), (10, 0), (11, 0), (48, 0), (49, 0), (112, 0), (113, 0), (114, 0), (115, 0), (116, 1), (117, 0), (120, 0), (121, 0), (122, 0), (123, 0), (124, 232), (125, 3), (126, 0), (127, 1)])]) }, powered := true, pwr := { up.pwr with mainOn := true }, sched := { up.sched with origin := some 0, frameBeat := 981 } }, .lbist 0, by decide +kernel⟩,
   ⟨{ up with ldr := { up.ldr with running := true, image := some (img [(3, [(0, 80), (1, 195), (2, 0), (3, 0), (4, 1), (5, 0), (6, 1), (8, 1), (9, 0), (10, 0), (11, 0), (48, 0), (49, 0), (112, 0), (113, 0), (114, 0), (115, 0), (116, 1), (117, 0), (120, 0), (121, 0), (122, 0), (123, 0), (124, 232), (125, 3), (126, 0), (127, 1)])]) }, powered := true, pwr := { up.pwr with mainOn := true }, sched := { up.sched with origin := some 0 }, st := { up.st with slices := [⟨.lbist 0, 0, 100⟩] }, beat := 100 }, .lbist 0, ⟨.lbist 0, 0, 100⟩, by decide +kernel⟩,
   ⟨{ up with ldr := { up.ldr with running := true, image := some (img [(3, [(0, 80), (1, 195), (2, 0), (3, 0), (4, 1), (5, 0), (6, 1), (8, 1), (9, 0), (10, 0), (11, 0), (48, 0), (49, 0), (112, 0), (113, 0), (114, 0), (115, 0), (116, 1), (117, 0), (120, 0), (121, 0), (122, 0), (123, 0), (124, 232), (125, 3), (126, 0), (127, 1)])]) }, powered := true, pwr := { up.pwr with mainOn := true }, sched := { up.sched with origin := some 0 }, st := { up.st with slices := [⟨.lbist 0, 0, 100⟩] }, beat := 119 }, .lbist 0, ⟨.lbist 0, 0, 100⟩, by decide +kernel⟩,
   ⟨{ up with ldr := { up.ldr with running := true, image := some (img [(3, [(0, 80), (1, 195), (2, 0), (3, 0), (4, 1), (5, 0), (6, 1), (8, 1), (9, 0), (10, 0), (11, 0), (48, 0), (49, 0), (112, 0), (113, 0), (114, 0), (115, 0), (116, 1), (117, 0), (120, 0), (121, 0), (122, 0), (123, 0), (124, 232), (125, 3), (126, 0), (127, 1)])]) }, powered := true, pwr := { up.pwr with mainOn := true }, sched := { up.sched with origin := some 0 }, st := { up.st with slices := [⟨.lbist 0, 22, 100⟩] }, beat := 120 }, .lbist 0, ⟨.lbist 0, 22, 100⟩, by decide +kernel⟩,
   ⟨{ up with ldr := { up.ldr with running := true, image := some (img [(3, [(0, 80), (1, 195), (2, 0), (3, 0), (4, 1), (5, 0), (6, 1), (8, 1), (9, 0), (10, 0), (11, 0), (48, 0), (49, 0), (112, 0), (113, 0), (114, 0), (115, 0), (116, 1), (117, 0), (120, 0), (121, 0), (122, 0), (123, 0), (124, 232), (125, 3), (126, 0), (127, 1)])]) }, powered := true, pwr := { up.pwr with mainOn := true }, sched := { up.sched with origin := some 0 }, st := { up.st with slices := [⟨.lbist 0, 23, 100⟩] }, beat := 120 }, .lbist 0, ⟨.lbist 0, 23, 100⟩, by decide +kernel⟩,
   ⟨{ up with ldr := { up.ldr with running := true, image := some (img [(3, [(0, 80), (1, 195), (2, 0), (3, 0), (4, 1), (5, 0), (6, 1), (8, 1), (9, 0), (10, 0), (11, 0), (48, 0), (49, 0), (112, 0), (113, 0), (114, 0), (115, 0), (116, 1), (117, 0), (120, 0), (121, 0), (122, 0), (123, 0), (124, 232), (125, 3), (126, 0), (127, 1)])]) }, powered := true, pwr := { up.pwr with mainOn := true }, sched := { up.sched with origin := some 0 }, st := { up.st with slices := [⟨.lbist 0, 23, 100⟩] }, beat := 120 }, .lbist 0, ⟨.lbist 0, 23, 100⟩, 0, by decide +kernel⟩,
   ⟨{ up with ldr := { up.ldr with running := true, image := some (img [(3, [(0, 80), (1, 195), (2, 0), (3, 0), (4, 1), (5, 0), (6, 1), (8, 1), (9, 0), (10, 0), (11, 0), (48, 0), (49, 0), (112, 0), (113, 0), (114, 0), (115, 0), (116, 1), (117, 0), (120, 0), (121, 0), (122, 0), (123, 0), (124, 232), (125, 3), (126, 0), (127, 1)])]) }, powered := true, pwr := { up.pwr with mainOn := true }, sched := { up.sched with origin := some 0 }, st := { up.st with slices := [⟨.lbist 0, 0, 100⟩] }, beat := 100 }, .lbist 0, ⟨.lbist 0, 0, 100⟩, by decide +kernel⟩,
   ⟨{ up with ldr := { up.ldr with running := true, image := some (img [(3, [(0, 80), (1, 195), (2, 0), (3, 0), (4, 1), (5, 0), (6, 1), (8, 1), (9, 0), (10, 0), (11, 0), (48, 0), (49, 0), (112, 0), (113, 0), (114, 0), (115, 0), (116, 1), (117, 0), (120, 0), (121, 0), (122, 0), (123, 0), (124, 232), (125, 3), (126, 0), (127, 1)])]) }, powered := true, pwr := { up.pwr with mainOn := true }, sched := { up.sched with origin := some 0 }, st := { up.st with slices := [⟨.lbist 0, 0, 100⟩] }, beat := 101 }, .lbist 0, ⟨.lbist 0, 0, 100⟩, by decide +kernel⟩,
   ⟨{ up with powered := true, pwr := { up.pwr with mainOn := true } }, .lbist 0, by decide +kernel⟩,
   ⟨{ up with ldr := { up.ldr with running := true, image := some (img [(1, [(0, 0)]), (3, [(0, 80), (1, 195), (2, 0), (3, 0), (4, 1), (5, 0), (6, 1), (8, 1), (9, 0), (10, 0), (11, 0), (48, 0), (49, 0), (112, 0), (113, 0), (114, 0), (115, 0), (116, 1), (117, 0), (120, 0), (121, 0), (122, 0), (123, 0), (124, 232), (125, 3), (126, 0), (127, 1)])]) }, powered := true, pwr := { up.pwr with mainOn := true }, sched := { up.sched with origin := some 0, frame := 65 }, st := { up.st with cores := vmod up.st.cores 0 (fun x => { x with last := some 1 }) } }, .lbist 0, by decide +kernel⟩,
   ⟨{ up with ldr := { up.ldr with running := true, image := some (img [(1, [(0, 0)]), (3, [(0, 80), (1, 195), (2, 0), (3, 0), (4, 1), (5, 0), (6, 1), (8, 1), (9, 0), (10, 0), (11, 0), (48, 0), (49, 0), (112, 0), (113, 0), (114, 0), (115, 0), (116, 1), (117, 0), (120, 0), (121, 0), (122, 0), (123, 0), (124, 232), (125, 3), (126, 0), (127, 1)])]) }, powered := true, pwr := { up.pwr with mainOn := true }, sched := { up.sched with origin := some 0, frame := 64 }, st := { up.st with cores := vmod up.st.cores 0 (fun x => { x with last := some 1 }) } }, .lbist 0, by decide +kernel⟩,
   ⟨{ up with powered := true, pwr := { up.pwr with mainOn := true }, sched := { up.sched with frame := 3 }, st := { up.st with cores := vmod up.st.cores 0 (fun x => { x with judged := some 3 }) } }, .lbist 0, by decide +kernel⟩,
   ⟨{ up with ldr := { up.ldr with running := true, image := some (img [(2, [(33, 1), (34, 0), (36, 1), (37, 0), (38, 0), (39, 0), (40, 5), (41, 0)]), (3, [(0, 80), (1, 195), (2, 0), (3, 0), (4, 1), (5, 0), (6, 1), (8, 1), (9, 0), (10, 0), (11, 0), (48, 0), (49, 0), (112, 0), (113, 0), (114, 0), (115, 0), (116, 1), (117, 0), (120, 0), (121, 0), (122, 0), (123, 0), (124, 232), (125, 3), (126, 0), (127, 1)])]) }, powered := true, pwr := { up.pwr with mainOn := true }, sched := { up.sched with origin := some 0, frameBeat := 4 }, cores := vmod up.cores 0 (fun x => { x with retired := false }) }, 0, by decide +kernel⟩,
   ⟨{ up with ldr := { up.ldr with running := true, image := some (img [(2, [(33, 1), (34, 0), (36, 1), (37, 0), (38, 0), (39, 0), (40, 5), (41, 0)]), (3, [(0, 80), (1, 195), (2, 0), (3, 0), (4, 1), (5, 0), (6, 1), (8, 1), (9, 0), (10, 0), (11, 0), (48, 0), (49, 0), (112, 0), (113, 0), (114, 0), (115, 0), (116, 1), (117, 0), (120, 0), (121, 0), (122, 0), (123, 0), (124, 232), (125, 3), (126, 0), (127, 1)])]) }, powered := true, pwr := { up.pwr with mainOn := true }, sched := { up.sched with origin := some 0, frameBeat := 3 }, cores := vmod up.cores 0 (fun x => { x with retired := false }) }, 0, by decide +kernel⟩⟩

theorem wit_GraphRuns :
    (∃ (s : State) (g : Fin 64), s.powered = true ∧ s.pwr.mainOn = true ∧ s.mayReady g = true) ∧
    (∃ (s : State) (g : Fin 64), s.powered = true ∧ s.pwr.mainOn = true ∧ s.mayReady g = false) ∧
    (∃ (s : State) (n : Fin 32), s.powered = true ∧ s.pwr.mainOn = true ∧ s.pick n = none) ∧
    (∃ (s : State) (n : Fin 32) (r : _), s.powered = true ∧ s.pwr.mainOn = true ∧ s.pick n = some r ∧ s.sourceLost r.graph r.copy = true ∧ r.graph < 64) ∧
    (∃ (s : State) (n : Fin 32) (r : _), s.powered = true ∧ s.pwr.mainOn = true ∧ s.pick n = some r ∧ s.sourceLost r.graph r.copy = false ∧ ((dOp s.graB r.graph r.desc = 0x50 ∨ dOp s.graB r.graph r.desc = 0x54))) ∧
    (∃ (s : State) (e : Fin 128) (g : Fin 64) (c : Fin 2) (k : Nat), s.powered = true ∧ s.pwr.mainOn = true ∧ s.mayIssue e ⟨g, c, k⟩ = true) ∧
    (∃ (s : State) (e : Fin 128) (g : Fin 64) (c : Fin 2) (k : Nat), s.powered = true ∧ s.pwr.mainOn = true ∧ s.mayIssue e ⟨g, c, k⟩ = false) ∧
    (∃ (s : State) (e : Fin 128) (g : Fin 64) (c : Fin 2) (k : Nat) (x : _), s.powered = true ∧ s.pwr.mainOn = true ∧ s.entryOf (e / 4) ⟨g, c, k⟩ = some x ∧ vget x.fly (e % 4) 0 ≠ 0) ∧
    (∃ (s : State) (e : Fin 128) (g : Fin 64) (c : Fin 2) (k : Nat), s.powered = true ∧ s.pwr.mainOn = true ∧ ((∀ x, s.entryOf (e / 4) ⟨g, c, k⟩ = some x → vget x.fly (e % 4) 0 = 0))) ∧
    (∃ (s : State) (g : Fin 64) (c : Fin 2) (k : Nat), s.powered = true ∧ s.pwr.mainOn = true ∧ (s.run g).ready = true ∧ c.val ∈ s.copiesOf g ∧ k < gDescs s.graB g ∧ s.retired? g c k = false) ∧
    (∃ (s : State) (g : Fin 64) (k : Nat), s.powered = true ∧ s.pwr.mainOn = true ∧ dOp s.graB g k = 0x50 ∧ k < gDescs s.graB g ∧ s.dispatched g 0 k = true ∧ s.dispatched g 1 k = true ∧ ((upto 32).all fun n => (s.core n).seq.all fun e => e.ref != ⟨g, 0, k⟩ || (e.left.toList.all (· == 0) && e.fly.toList.all (· == 0))) = true ∧ s.compareDiffs g k = []) ∧
    (∃ (s : State) (g : Fin 64) (c : Fin 2) (k : Nat), s.powered = true ∧ s.pwr.mainOn = true ∧ dOp s.graB g k = 0x54 ∧ k < gDescs s.graB g ∧ s.retired? g c k = false ∧ s.descCores g c k ≠ [] ∧ ((s.descCores g c k).all fun n => s.inSeq n ⟨g, c, k⟩) = true) ∧
    (∃ (s : State) (g : Fin 64) (c : Fin 2) (k : Nat), s.powered = true ∧ s.pwr.mainOn = true ∧ dOp s.graB g k = 0x54 ∧ k < gDescs s.graB g ∧ s.retired? g c k = false ∧ s.descCores g c k ≠ [] ∧ ((s.descCores g c k).all fun n => s.inSeq n ⟨g, c, k⟩) = false) ∧
    (∃ (s : State) (g : Fin 64), s.powered = true ∧ s.pwr.mainOn = true ∧ (s.run g).cancelBy = none) ∧
    (∃ (s : State) (g : Fin 64), s.powered = true ∧ s.pwr.mainOn = true ∧ (s.run g).cancelBy ≠ none) ∧
    (∃ (s : State) (g : Fin 64) (c : Fin 2) (i : Fin 8) (m : AltMove), s.powered = true ∧ s.pwr.mainOn = true ∧ (g.val, c.val, i.val) ∈ s.alt.copying ∧ (s.altEntry.bind fun o => (altMoveList s.altB o).find? fun m => m.graph == g.val && m.copy == c.val && m.index == i.val) = some m) :=
  ⟨⟨{ up with ldr := { up.ldr with running := true, image := some (img [(2, [(1408, 255), (1426, 0)]), (3, [(0, 80), (1, 195), (2, 0), (3, 0), (4, 1), (5, 0), (6, 1), (8, 1), (9, 0), (10, 0), (11, 0), (48, 0), (49, 0), (112, 0), (113, 0), (114, 0), (115, 0), (116, 1), (117, 0), (120, 0), (121, 0), (122, 0), (123, 0), (124, 232), (125, 3), (126, 224), (127, 1)]), (4, [(0, 1), (1, 0), (8, 0), (9, 1), (10, 0), (11, 0), (17, 0), (18, 0), (24, 1), (25, 0), (28, 0), (29, 2), (30, 0), (31, 0), (68, 255), (256, 0), (260, 255), (261, 255), (262, 255), (263, 255), (264, 255), (265, 255), (266, 255), (267, 255), (268, 255), (269, 255)])]) }, powered := true, pwr := { up.pwr with mainOn := true }, sched := { up.sched with origin := some 0 }, watch := { up.watch with wstate := .trust } }, 0, by decide +kernel⟩,
   ⟨{ up with ldr := { up.ldr with running := true, image := some (img [(2, [(1408, 255), (1426, 0)]), (3, [(0, 80), (1, 195), (2, 0), (3, 0), (4, 1), (5, 0), (6, 1), (8, 1), (9, 0), (10, 0), (11, 0), (48, 0), (49, 0), (112, 0), (113, 0), (114, 0), (115, 0), (116, 1), (117, 0), (120, 0), (121, 0), (122, 0), (123, 0), (124, 232), (125, 3), (126, 224), (127, 1)]), (4, [(0, 1), (1, 0), (8, 0), (9, 1), (10, 0), (11, 0), (17, 0), (18, 0), (24, 1), (25, 0), (28, 0), (29, 2), (30, 0), (31, 0), (68, 255), (256, 0), (260, 255), (261, 255), (262, 255), (263, 255), (264, 255), (265, 255), (266, 255), (267, 255), (268, 255), (269, 255)])]) }, powered := true, pwr := { up.pwr with mainOn := true }, sched := { up.sched with origin := some 0, shed := 1 }, watch := { up.watch with wstate := .trust } }, 0, by decide +kernel⟩,
   ⟨{ up with powered := true, pwr := { up.pwr with mainOn := true } }, 0, by decide +kernel⟩,
   ⟨{ up with ldr := { up.ldr with running := true, image := some (img [(2, [(1408, 255), (1426, 0)]), (3, [(0, 80), (1, 195), (2, 0), (3, 0), (4, 1), (5, 0), (6, 1), (8, 1), (9, 0), (10, 0), (11, 0), (48, 0), (49, 0), (112, 0), (113, 0), (114, 0), (115, 0), (116, 1), (117, 0), (120, 0), (121, 0), (122, 0), (123, 0), (124, 232), (125, 3), (126, 224), (127, 1)]), (4, [(0, 1), (1, 0), (8, 0), (9, 1), (10, 0), (11, 0), (17, 0), (18, 0), (24, 1), (25, 0), (28, 0), (29, 2), (30, 0), (31, 0), (68, 0), (256, 0), (260, 255), (261, 255), (262, 255), (263, 255), (264, 255), (265, 255), (266, 255), (267, 255), (268, 255), (269, 255)])]) }, powered := true, pwr := { up.pwr with mainOn := true }, sched := { up.sched with origin := some 0, runs := vmod up.sched.runs 0 (fun x => { x with ready := true, started := true, src := some 1 }) }, watch := { up.watch with wstate := .trust }, cores := vmod up.cores 0 (fun x => { x with pwr := .active, classes := 15, retired := false }) }, 0, ⟨0, 0, 0⟩, by decide +kernel⟩,
   ⟨{ up with ldr := { up.ldr with running := true, image := some (img [(2, [(1408, 255), (1426, 0)]), (3, [(0, 80), (1, 195), (2, 0), (3, 0), (4, 1), (5, 0), (6, 1), (8, 1), (9, 0), (10, 0), (11, 0), (48, 0), (49, 0), (112, 0), (113, 0), (114, 0), (115, 0), (116, 1), (117, 0), (120, 0), (121, 0), (122, 0), (123, 0), (124, 232), (125, 3), (126, 224), (127, 1)]), (4, [(0, 1), (1, 0), (8, 0), (9, 1), (10, 0), (11, 0), (17, 0), (18, 0), (24, 1), (25, 0), (28, 0), (29, 2), (30, 0), (31, 0), (68, 255), (256, 84), (260, 255), (261, 255), (262, 255), (263, 255), (264, 255), (265, 255), (266, 255), (267, 255), (268, 255), (269, 255), (272, 1), (273, 0)])]) }, powered := true, pwr := { up.pwr with mainOn := true }, sched := { up.sched with origin := some 0, runs := vmod up.sched.runs 0 (fun x => { x with ready := true }) }, watch := { up.watch with wstate := .trust }, cores := vmod up.cores 0 (fun x => { x with pwr := .active, classes := 15, retired := false }) }, 0, ⟨0, 0, 0⟩, by decide +kernel⟩,
   ⟨{ up with ldr := { up.ldr with running := true, image := some (img [(2, [(1408, 255), (1426, 0)]), (3, [(0, 80), (1, 195), (2, 0), (3, 0), (4, 1), (5, 0), (6, 1), (8, 1), (9, 0), (10, 0), (11, 0), (48, 0), (49, 0), (112, 0), (113, 0), (114, 0), (115, 0), (116, 1), (117, 0), (120, 0), (121, 0), (122, 0), (123, 0), (124, 232), (125, 3), (126, 224), (127, 1)]), (4, [(0, 1), (1, 0), (8, 0), (9, 1), (10, 0), (11, 0), (17, 0), (18, 0), (24, 1), (25, 0), (28, 0), (29, 2), (30, 0), (31, 0), (68, 255), (256, 0), (260, 255), (261, 255), (262, 255), (263, 255), (264, 255), (265, 255), (266, 255), (267, 255), (268, 255), (269, 255)])]) }, powered := true, pwr := { up.pwr with mainOn := true }, sched := { up.sched with origin := some 0 }, watch := { up.watch with wstate := .trust }, cores := vmod up.cores 0 (fun x => { x with pwr := .active, classes := 15, retired := false, seq := [⟨⟨0, 0, 0⟩, 0, vrep 4 1, vrep 4 0⟩], portClosed := false }) }, 0, 0, 0, 0, by decide +kernel⟩,
   ⟨{ up with ldr := { up.ldr with running := true, image := some (img [(2, [(1408, 255), (1426, 0)]), (3, [(0, 80), (1, 195), (2, 0), (3, 0), (4, 1), (5, 0), (6, 1), (8, 1), (9, 0), (10, 0), (11, 0), (48, 0), (49, 0), (112, 0), (113, 0), (114, 0), (115, 0), (116, 1), (117, 0), (120, 0), (121, 0), (122, 0), (123, 0), (124, 232), (125, 3), (126, 224), (127, 1)]), (4, [(0, 1), (1, 0), (8, 0), (9, 1), (10, 0), (11, 0), (17, 0), (18, 0), (24, 1), (25, 0), (28, 0), (29, 2), (30, 0), (31, 0), (68, 255), (256, 0), (260, 255), (261, 255), (262, 255), (263, 255), (264, 255), (265, 255), (266, 255), (267, 255), (268, 255), (269, 255)])]) }, powered := true, pwr := { up.pwr with mainOn := true }, sched := { up.sched with origin := some 0 }, watch := { up.watch with wstate := .trust }, cores := vmod up.cores 0 (fun x => { x with pwr := .active, classes := 15, retired := false, seq := [⟨⟨0, 0, 0⟩, 0, vrep 4 1, vrep 4 0⟩], portClosed := true }) }, 0, 0, 0, 0, by decide +kernel⟩,
   ⟨{ up with powered := true, pwr := { up.pwr with mainOn := true }, cores := vmod up.cores 0 (fun x => { x with seq := [⟨⟨0, 0, 0⟩, 0, vrep 4 0, vrep 4 1⟩] }) }, 0, 0, 0, 0, ⟨⟨0, 0, 0⟩, 0, vrep 4 0, vrep 4 1⟩, by decide +kernel⟩,
   ⟨{ up with powered := true, pwr := { up.pwr with mainOn := true } }, 0, 0, 0, 0, by decide +kernel, by decide +kernel, noEntry⟩,
   ⟨{ up with ldr := { up.ldr with running := true, image := some (img [(2, [(1408, 255), (1426, 0)]), (3, [(0, 80), (1, 195), (2, 0), (3, 0), (4, 1), (5, 0), (6, 1), (8, 1), (9, 0), (10, 0), (11, 0), (48, 0), (49, 0), (112, 0), (113, 0), (114, 0), (115, 0), (116, 1), (117, 0), (120, 0), (121, 0), (122, 0), (123, 0), (124, 232), (125, 3), (126, 224), (127, 1)]), (4, [(0, 1), (1, 0), (8, 0), (9, 1), (10, 0), (11, 0), (17, 0), (18, 0), (24, 1), (25, 0), (28, 0), (29, 2), (30, 0), (31, 0), (68, 255), (256, 0), (260, 255), (261, 255), (262, 255), (263, 255), (264, 255), (265, 255), (266, 255), (267, 255), (268, 255), (269, 255)])]) }, powered := true, pwr := { up.pwr with mainOn := true }, sched := { up.sched with runs := vmod up.sched.runs 0 (fun x => { x with ready := true }) } }, 0, 0, 0, by decide +kernel⟩,
   ⟨{ up with ldr := { up.ldr with running := true, image := some (img [(2, [(1408, 255), (1426, 0)]), (3, [(0, 80), (1, 195), (2, 0), (3, 0), (4, 1), (5, 0), (6, 1), (8, 1), (9, 0), (10, 0), (11, 0), (48, 0), (49, 0), (112, 0), (113, 0), (114, 0), (115, 0), (116, 1), (117, 0), (120, 0), (121, 0), (122, 0), (123, 0), (124, 232), (125, 3), (126, 224), (127, 1)]), (4, [(0, 1), (1, 0), (8, 0), (9, 1), (10, 0), (11, 0), (17, 0), (18, 1), (24, 1), (25, 0), (28, 0), (29, 2), (30, 0), (31, 0), (68, 255), (256, 80), (260, 0), (261, 0), (262, 255), (263, 255), (264, 255), (265, 255), (266, 255), (267, 255), (268, 255), (269, 255)])]) }, powered := true, pwr := { up.pwr with mainOn := true }, cores := vmod (vmod up.cores 0 (fun x => { x with seq := [⟨⟨0, 0, 0⟩, 0, vrep 4 0, vrep 4 0⟩] })) 1 (fun x => { x with seq := [⟨⟨0, 1, 0⟩, 0, vrep 4 0, vrep 4 0⟩] }) }, 0, 0, by decide +kernel⟩,
   ⟨{ up with ldr := { up.ldr with running := true, image := some (img [(2, [(1408, 255), (1426, 0)]), (3, [(0, 80), (1, 195), (2, 0), (3, 0), (4, 1), (5, 0), (6, 1), (8, 1), (9, 0), (10, 0), (11, 0), (48, 0), (49, 0), (112, 0), (113, 0), (114, 0), (115, 0), (116, 1), (117, 0), (120, 0), (121, 0), (122, 0), (123, 0), (124, 232), (125, 3), (126, 224), (127, 1)]), (4, [(0, 1), (1, 0), (8, 0), (9, 1), (10, 0), (11, 0), (17, 0), (18, 0), (24, 1), (25, 0), (28, 0), (29, 2), (30, 0), (31, 0), (68, 255), (256, 84), (260, 255), (261, 255), (262, 255), (263, 255), (264, 255), (265, 255), (266, 255), (267, 255), (268, 255), (269, 255), (272, 1), (273, 0)])]) }, powered := true, pwr := { up.pwr with mainOn := true }, cores := vmod up.cores 0 (fun x => { x with seq := [⟨⟨0, 0, 0⟩, 0, vrep 4 0, vrep 4 0⟩] }) }, 0, 0, 0, by decide +kernel⟩,
   ⟨{ up with ldr := { up.ldr with running := true, image := some (img [(2, [(1408, 255), (1426, 0)]), (3, [(0, 80), (1, 195), (2, 0), (3, 0), (4, 1), (5, 0), (6, 1), (8, 1), (9, 0), (10, 0), (11, 0), (48, 0), (49, 0), (112, 0), (113, 0), (114, 0), (115, 0), (116, 1), (117, 0), (120, 0), (121, 0), (122, 0), (123, 0), (124, 232), (125, 3), (126, 224), (127, 1)]), (4, [(0, 1), (1, 0), (8, 0), (9, 1), (10, 0), (11, 0), (17, 0), (18, 0), (24, 1), (25, 0), (28, 0), (29, 2), (30, 0), (31, 0), (68, 255), (256, 84), (260, 255), (261, 255), (262, 255), (263, 255), (264, 255), (265, 255), (266, 255), (267, 255), (268, 255), (269, 255), (272, 1), (273, 0)])]) }, powered := true, pwr := { up.pwr with mainOn := true } }, 0, 0, 0, by decide +kernel⟩,
   ⟨{ up with powered := true, pwr := { up.pwr with mainOn := true }, sched := { up.sched with runs := vmod up.sched.runs 0 (fun x => { x with cancelBy := none }) } }, 0, by decide +kernel⟩,
   ⟨{ up with powered := true, pwr := { up.pwr with mainOn := true }, sched := { up.sched with runs := vmod up.sched.runs 0 (fun x => { x with cancelBy := some 0 }) } }, 0, by decide +kernel⟩,
   ⟨{ up with ldr := { up.ldr with running := true, image := some (img [(14, [(0, 1), (16, 5), (18, 1), (19, 0), (35, 7)])]) }, powered := true, pwr := { up.pwr with mainOn := true }, alt := { up.alt with active := true, lostCore := 5, copying := [(0, 0, 0)] } }, 0, 0, 0, ⟨0, 0, 0, 7, 0⟩, by decide +kernel⟩⟩

theorem wit_WindowsAndTemperature :
    (∃ (s : State) (n : Fin 32), s.powered = true ∧ s.pwr.mainOn = true ∧ s.ticksRun = true ∧ s.windowAt n s.sched.frameBeat = none) ∧
    (∃ (s : State) (n : Fin 32) (i : _), s.powered = true ∧ s.pwr.mainOn = true ∧ s.ticksRun = true ∧ s.windowAt n s.sched.frameBeat = some (some i)) ∧
    (∃ (s : State) (n : Fin 32), s.powered = true ∧ s.pwr.mainOn = true ∧ s.ticksRun = true ∧ s.windowAt n s.sched.frameBeat = some none) ∧
    (∃ (s : State) (n : Fin 32), s.powered = true ∧ s.pwr.mainOn = true ∧ s.ticksRun = true ∧ s.windowAt n s.sched.frameBeat ≠ some none) ∧
    (∃ (s : State), s.powered = true ∧ s.pwr.mainOn = true ∧ s.ticksRun = false) ∧
    (∃ (s : State) (n : Fin 32) (b : _), s.powered = true ∧ s.pwr.mainOn = true ∧ (s.core n).wakeEnd = some b ∧ b ≤ s.beat ∧ (s.core n).pwr = .waking) ∧
    (∃ (s : State) (n : Fin 32), s.powered = true ∧ s.pwr.mainOn = true ∧ (((s.core n).wakeEnd = none ∨ (s.core n).pwr ≠ .waking))) ∧
    (∃ (s : State), s.powered = true ∧ s.pwr.mainOn = true ∧ s.ticksRun = true ∧ voltOf s.powB s.avsPoint ≠ s.pwr.target) ∧
    (∃ (s : State), s.powered = true ∧ s.pwr.mainOn = true ∧ s.ticksRun = true ∧ voltOf s.powB s.avsPoint = s.pwr.target) ∧
    (∃ (s : State), s.powered = true) ∧
    (∃ (s : State), s.powered = true ∧ s.pwr.mainOn = true ∧ s.img.isSome = true) ∧
    (∃ (s : State), s.powered = true ∧ s.pwr.mainOn = true ∧ s.img = none) :=
  ⟨⟨{ up with ldr := { up.ldr with running := true, image := some (img [(1, [(0, 0)]), (3, [(0, 80), (1, 195), (2, 0), (3, 0), (4, 1), (5, 0), (6, 1), (48, 255), (49, 255)])]) }, powered := true, pwr := { up.pwr with mainOn := true }, sched := { up.sched with origin := some 0 } }, 0, by decide +kernel⟩,
   ⟨{ up with ldr := { up.ldr with running := true, image := some (img [(1, [(0, 0)]), (3, [(0, 80), (1, 195), (2, 0), (3, 0), (4, 1), (5, 0), (6, 1), (8, 1), (9, 0), (10, 0), (11, 0), (48, 0), (49, 0), (112, 0), (113, 0), (114, 0), (115, 0), (116, 1), (117, 0), (120, 0), (121, 0), (122, 0), (123, 0), (124, 232), (125, 3), (126, 0), (127, 1)])]) }, powered := true, pwr := { up.pwr with mainOn := true }, sched := { up.sched with origin := some 0, frameBeat := 999 } }, 0, 0, by decide +kernel⟩,
   ⟨{ up with ldr := { up.ldr with running := true, image := some (img [(1, [(0, 0)]), (3, [(0, 80), (1, 195), (2, 0), (3, 0), (4, 1), (5, 0), (6, 1), (8, 1), (9, 0), (10, 0), (11, 0), (48, 0), (49, 0), (112, 0), (113, 0), (114, 0), (115, 0), (116, 1), (117, 0), (120, 0), (121, 0), (122, 0), (123, 0), (124, 232), (125, 3), (126, 0), (127, 1)])]) }, powered := true, pwr := { up.pwr with mainOn := true }, sched := { up.sched with origin := some 0, frameBeat := 1000 } }, 0, by decide +kernel⟩,
   ⟨{ up with ldr := { up.ldr with running := true, image := some (img [(1, [(0, 0)]), (3, [(0, 80), (1, 195), (2, 0), (3, 0), (4, 1), (5, 0), (6, 1), (8, 1), (9, 0), (10, 0), (11, 0), (48, 0), (49, 0), (112, 0), (113, 0), (114, 0), (115, 0), (116, 1), (117, 0), (120, 0), (121, 0), (122, 0), (123, 0), (124, 232), (125, 3), (126, 0), (127, 1)])]) }, powered := true, pwr := { up.pwr with mainOn := true }, sched := { up.sched with origin := some 0 } }, 0, by decide +kernel⟩,
   ⟨{ up with powered := true, pwr := { up.pwr with mainOn := true } }, by decide +kernel⟩,
   ⟨{ up with powered := true, pwr := { up.pwr with mainOn := true }, cores := vmod up.cores 0 (fun x => { x with wakeEnd := some 5, pwr := .waking }), beat := 5 }, 0, 5, by decide +kernel⟩,
   ⟨{ up with powered := true, pwr := { up.pwr with mainOn := true }, cores := vmod up.cores 0 (fun x => { x with wakeEnd := none }) }, 0, by decide +kernel⟩,
   ⟨{ up with ldr := { up.ldr with running := true, image := some (img [(1, [(0, 0)]), (3, [(0, 80), (1, 195), (2, 0), (3, 0), (4, 1), (5, 0), (6, 1), (8, 1), (9, 0), (10, 0), (11, 0), (48, 0), (49, 0), (112, 0), (113, 0), (114, 0), (115, 0), (116, 1), (117, 0), (120, 0), (121, 0), (122, 0), (123, 0), (124, 232), (125, 3), (126, 0), (127, 1)]), (11, [(20, 188), (21, 2)])]) }, powered := true, pwr := { up.pwr with mainOn := true, target := 600 }, sched := { up.sched with origin := some 0 } }, by decide +kernel⟩,
   ⟨{ up with ldr := { up.ldr with running := true, image := some (img [(1, [(0, 0)]), (3, [(0, 80), (1, 195), (2, 0), (3, 0), (4, 1), (5, 0), (6, 1), (8, 1), (9, 0), (10, 0), (11, 0), (48, 0), (49, 0), (112, 0), (113, 0), (114, 0), (115, 0), (116, 1), (117, 0), (120, 0), (121, 0), (122, 0), (123, 0), (124, 232), (125, 3), (126, 0), (127, 1)]), (11, [(20, 188), (21, 2)])]) }, powered := true, pwr := { up.pwr with mainOn := true, target := 700 }, sched := { up.sched with origin := some 0 } }, by decide +kernel⟩,
   ⟨{ up with powered := true }, by decide +kernel⟩,
   ⟨{ up with ldr := { up.ldr with running := true, image := some (img [(1, [(0, 0)])]) }, powered := true, pwr := { up.pwr with mainOn := true } }, by decide +kernel⟩,
   ⟨{ up with powered := true, pwr := { up.pwr with mainOn := true } }, by decide +kernel⟩⟩

theorem wit_BusIdentity :
    (∃ (s : State), s.powered = true ∧ s.i3c.hdr = false) ∧
    (∃ (s : State), s.powered = true ∧ s.i3c.hdr = false ∧ s.i3c.daValid = false) ∧
    (∃ (s : State), s.powered = true ∧ s.i3c.hdr = false ∧ s.i3c.daValid = true) ∧
    (∃ (s : State) (x : Instr) (out : List Byte), s.powered = true ∧ s.i3c.hdr = false ∧ (x, out) ∈ [(Instr.getmwl, beBytes 2 s.i3c.mwl), (.getmrl, beBytes 2 s.i3c.mrl ++ beBytes 1 s.i3c.ibiSize), (.getpid, beBytes 6 (pidHi * 2 ^ 32 + s.i3c.pidLo)), (.getbcr, [BitVec.ofNat 8 bcr]), (.getdcr, [BitVec.ofNat 8 dcr]), (.getmxds, [0, 0]), (.getcaps, [1, 1])]) ∧
    (∃ (s : State), s.powered = true) ∧
    (∃ (s : State) (x : Instr), s.powered = true ∧ s.i3c.hdr = true ∧ x ∈ [Instr.enec true, .disec true, .rstdaa, .enthdr0, .getmwl, .getmrl, .getpid, .getbcr, .getdcr, .getstatus, .getmxds, .getcaps]) :=
  ⟨⟨{ up with powered := true, i3c := { up.i3c with hdr := false } }, by decide +kernel⟩,
   ⟨{ up with powered := true, i3c := { up.i3c with hdr := false, daValid := false } }, by decide +kernel⟩,
   ⟨{ up with powered := true, i3c := { up.i3c with hdr := false, daValid := true } }, by decide +kernel⟩,
   ⟨{ up with powered := true, i3c := { up.i3c with hdr := false } }, .getbcr, [BitVec.ofNat 8 bcr], by decide +kernel⟩,
   ⟨{ up with powered := true }, by decide +kernel⟩,
   ⟨{ up with powered := true, i3c := { up.i3c with hdr := true } }, .getbcr, by decide +kernel⟩⟩

theorem wit_BusTransfers :
    (∃ (s : State) (a0 : Byte) (a1 : Byte) (a2 : Byte), s.powered = true ∧ s.i3c.hdr = false ∧ ofLe [a0, a1, a2] % 4 = 0) ∧
    (∃ (s : State) (a0 : Byte) (a1 : Byte) (a2 : Byte), s.powered = true ∧ s.i3c.hdr = false ∧ ofLe [a0, a1, a2] % 4 = 0 ∧ ofLe [a0, a1, a2] ≠ 0x0E0010 ∧ ofLe [a0, a1, a2] ≠ 0x0F004C) ∧
    (∃ (s : State) (a0 : Byte) (a1 : Byte) (a2 : Byte), s.powered = true ∧ s.i3c.hdr = false ∧ ofLe [a0, a1, a2] % 4 ≠ 0) ∧
    (∃ (s : State) (bs : List Byte), s.powered = true ∧ s.i3c.hdr = false ∧ bs.length = 3 ∧ ofLe bs % 4 = 0) ∧
    (∃ (s : State), s.powered = true ∧ s.i3c.hdr = true) ∧
    (∃ (s : State) (code : Byte) (n : Nat), s.powered = true ∧ s.i3c.hdr = true ∧ code = 0xA0 ∧ min n (s.i3c.mrl / 2) = 2 ∧ s.readHeld s.i3c.readAddr = false) ∧
    (∃ (s : State) (code : Byte), s.powered = true ∧ s.i3c.hdr = true ∧ code = 0xA0 ∧ s.readHeld s.i3c.readAddr = true) ∧
    (∃ (s : State) (code : Byte), s.powered = true ∧ s.i3c.hdr = true ∧ code ≠ 0xA0) ∧
    (∃ (s : State) (n : Fin 7) (p : List Byte), s.powered = true ∧ s.ibiFirst = some (n.val, p) ∧ s.i3c.daValid = true ∧ s.i3c.enint = true ∧ s.i3c.hdr = false) ∧
    (∃ (s : State) (n : Fin 7) (p : List Byte), s.powered = true ∧ s.ibiFirst = some (n.val, p) ∧ ((s.i3c.daValid = false ∨ s.i3c.enint = false ∨ s.i3c.hdr = true))) ∧
    (∃ (s : State), s.powered = true ∧ s.ibiFirst = none) :=
  ⟨⟨{ up with powered := true, i3c := { up.i3c with hdr := false } }, 0, 0, 0, by decide +kernel⟩,
   ⟨{ up with powered := true, i3c := { up.i3c with hdr := false } }, 0, 0, 0, by decide +kernel⟩,
   ⟨{ up with powered := true, i3c := { up.i3c with hdr := false } }, 1, 0, 0, by decide +kernel⟩,
   ⟨{ up with powered := true, i3c := { up.i3c with hdr := false } }, [4, 0, 0], by decide +kernel⟩,
   ⟨{ up with powered := true, i3c := { up.i3c with hdr := true } }, by decide +kernel⟩,
   ⟨{ up with powered := true, i3c := { up.i3c with hdr := true } }, 0xA0, 2, by decide +kernel⟩,
   ⟨{ up with powered := true, i3c := { up.i3c with hdr := true, readAddr := 0x030100 }, st := { up.st with slices := [⟨.lbist 0, 0, 0⟩] } }, 0xA0, by decide +kernel⟩,
   ⟨{ up with powered := true, i3c := { up.i3c with hdr := true } }, 0x20, by decide +kernel⟩,
   ⟨{ up with powered := true, i3c := { up.i3c with daValid := true, enint := true, hdr := false, ibi := vmod up.i3c.ibi 1 (fun _ => some [7]) } }, 1, [7], by decide +kernel⟩,
   ⟨{ up with powered := true, i3c := { up.i3c with ibi := vmod up.i3c.ibi 1 (fun _ => some [7]), daValid := false } }, 1, [7], by decide +kernel⟩,
   ⟨{ up with powered := true }, by decide +kernel⟩⟩

theorem wit_SafeInputs :
    (∃ (s : State) (i : Fin 8), s.powered = true ∧ s.demandDue i = true) ∧
    (∃ (s : State) (i : Fin 8), s.powered = true ∧ s.demandDue i = false) ∧
    (∃ (s : State) (i : Fin 8), s.powered = true ∧ s.onDue i = true) ∧
    (∃ (s : State) (i : Fin 8), s.powered = true ∧ s.onDue i = false) ∧
    (∃ (s : State) (i : Fin 8) (b : Bool) (x : Instr) (due : Bool) (code : Nat) (cause : Nat), s.powered = true ∧ (x, due, code, cause) ∈ [(Instr.discrepancyFault i, s.discDue i, 1, 1), (.stuckOnFault i b, ((s.inp i).chan b).stuckDue, if b then 3 else 2, 2), (.crossShortFault i b, ((s.inp i).chan b).crossDue, 5, 4), (.chatterFault i, (s.inp i).chatDue, 4, 3)] ∧ due = true) ∧
    (∃ (s : State) (i : Fin 8) (b : Bool) (x : Instr) (due : Bool) (code : Nat) (cause : Nat), s.powered = true ∧ (x, due, code, cause) ∈ [(Instr.discrepancyFault i, s.discDue i, 1, 1), (.stuckOnFault i b, ((s.inp i).chan b).stuckDue, if b then 3 else 2, 2), (.crossShortFault i b, ((s.inp i).chan b).crossDue, 5, 4), (.chatterFault i, (s.inp i).chatDue, 4, 3)] ∧ due = false) ∧
    (∃ (s : State) (k : Fin 4), s.powered = true ∧ s.tpDueAt k s.beat = true ∧ (vget s.tp k TestPulse.default).start ≠ some s.beat) ∧
    (∃ (s : State) (k : Fin 4), s.powered = true ∧ s.tpDueAt k s.beat = false) ∧
    (∃ (s : State) (k : Fin 4) (p : _), s.powered = true ∧ (vget s.tp k TestPulse.default).start = some p ∧ p + s.tpWidth ≤ s.beat) ∧
    (∃ (s : State) (k : Fin 4), s.powered = true ∧ (vget s.tp k TestPulse.default).wrongDue = true) ∧
    (∃ (s : State) (k : Fin 4), s.powered = true ∧ (vget s.tp k TestPulse.default).wrongDue = false) :=
  ⟨⟨{ up with ldr := { up.ldr with running := true, image := some (img [(8, [(144, 1), (148, 1), (150, 5), (151, 0), (160, 10), (161, 0), (162, 0), (163, 0)])]) }, powered := true, si := vmod up.si 0 (fun x => { x with on := true, a := { x.a with offRun := 2 } }) }, 0, by decide +kernel⟩,
   ⟨{ up with ldr := { up.ldr with running := true, image := some (img [(8, [(144, 1), (148, 1), (150, 5), (151, 0), (160, 10), (161, 0), (162, 0), (163, 0)])]) }, powered := true, si := vmod up.si 0 (fun x => { x with on := true, a := { x.a with offRun := 1 } }) }, 0, by decide +kernel⟩,
   ⟨{ up with ldr := { up.ldr with running := true, image := some (img [(8, [(144, 1), (148, 1), (150, 5), (151, 0), (160, 10), (161, 0), (162, 0), (163, 0)])]) }, powered := true, si := vmod up.si 0 (fun x => { x with a := { x.a with onRun := 5 }, b := { x.b with onRun := 5 } }) }, 0, by decide +kernel⟩,
   ⟨{ up with ldr := { up.ldr with running := true, image := some (img [(8, [(144, 1), (148, 1), (150, 5), (151, 0), (160, 10), (161, 0), (162, 0), (163, 0)])]) }, powered := true, si := vmod up.si 0 (fun x => { x with a := { x.a with onRun := 5 }, b := { x.b with onRun := 4 } }) }, 0, by decide +kernel⟩,
   ⟨{ up with ldr := { up.ldr with running := true, image := some (img [(8, [(144, 1), (148, 1), (150, 5), (151, 0), (160, 10), (161, 0), (162, 0), (163, 0)])]) }, powered := true, si := vmod up.si 0 (fun x => { x with disc := 5 }) }, 0, false, .discrepancyFault 0, true, 1, 1, by decide +kernel⟩,
   ⟨{ up with ldr := { up.ldr with running := true, image := some (img [(8, [(144, 1), (148, 1), (150, 5), (151, 0), (160, 10), (161, 0), (162, 0), (163, 0)])]) }, powered := true, si := vmod up.si 0 (fun x => { x with disc := 4 }) }, 0, false, .discrepancyFault 0, false, 1, 1, by decide +kernel⟩,
   ⟨{ up with ldr := { up.ldr with running := true, image := some (img [(8, [(400, 100), (401, 0), (402, 0), (403, 0), (404, 2), (406, 1)])]) }, powered := true, beat := 100 }, 0, by decide +kernel⟩,
   ⟨{ up with ldr := { up.ldr with running := true, image := some (img [(8, [(400, 100), (401, 0), (402, 0), (403, 0), (404, 2), (406, 1)])]) }, powered := true, beat := 101 }, 0, by decide +kernel⟩,
   ⟨{ up with ldr := { up.ldr with running := true, image := some (img [(8, [(400, 100), (401, 0), (402, 0), (403, 0), (404, 2), (406, 1)])]) }, powered := true, tp := vmod up.tp 0 (fun x => { x with start := some 100 }), beat := 102 }, 0, 100, by decide +kernel⟩,
   ⟨{ up with powered := true, tp := vmod up.tp 0 (fun x => { x with wrongDue := true }) }, 0, by decide +kernel⟩,
   ⟨{ up with powered := true }, 0, by decide +kernel⟩⟩

theorem wit_EncodersAndPulses :
    (∃ (s : State), s.powered = true) ∧
    (∃ (s : State) (g : Fin 4) (b : Bool), s.powered = true ∧ s.pulseMayStart g b = true) ∧
    (∃ (s : State) (g : Fin 4) (b : Bool), s.powered = true ∧ s.pulseMayStart g b = false) ∧
    (∃ (s : State) (g : Fin 4) (p : OffPulse), s.powered = true ∧ (s.grp g).pulse = some p ∧ p.start ≤ s.beat ∧ p.otherDropped = false ∧ p.returning = false ∧ s.beat + 2 < p.start + s.soPulseWidth g) ∧
    (∃ (s : State) (g : Fin 4) (p : OffPulse), s.powered = true ∧ (s.grp g).pulse = some p ∧ p.start + s.soPulseWidth g < s.beat ∧ p.otherDropped = false ∧ p.sawOff = true ∧ ((s.grp g).chan p.chan).rb = true) ∧
    (∃ (s : State) (g : Fin 4) (p : OffPulse), s.powered = true ∧ (s.grp g).pulse = some p ∧ p.otherDropped = true) ∧
    (∃ (s : State) (g : Fin 4), s.powered = true ∧ (s.grp g).pulse = none) :=
  ⟨⟨{ up with powered := true }, by decide +kernel⟩,
   ⟨{ up with powered := true, so := { up.so with groups := vmod up.so.groups 0 (fun x => { x with a := { x.a with due := true }, b := { x.b with reached := true }, on := true }), held := false } }, 0, false, by decide +kernel⟩,
   ⟨{ up with powered := true, so := { up.so with groups := vmod up.so.groups 0 (fun x => { x with a := { x.a with due := true }, b := { x.b with reached := true }, on := true }), held := true } }, 0, false, by decide +kernel⟩,
   ⟨{ up with powered := true, so := { up.so with groups := vmod up.so.groups 0 (fun x => { x with pulse := some ⟨false, 10, false, false, false⟩ }) }, beat := 207 }, 0, ⟨false, 10, false, false, false⟩, by decide +kernel⟩,
   ⟨{ up with powered := true, so := { up.so with groups := vmod up.so.groups 0 (fun x => { x with pulse := some ⟨false, 10, false, true, false⟩, a := { x.a with rb := true } }) }, beat := 211 }, 0, ⟨false, 10, false, true, false⟩, by decide +kernel⟩,
   ⟨{ up with powered := true, so := { up.so with groups := vmod up.so.groups 0 (fun x => { x with pulse := some ⟨false, 10, false, true, true⟩ }) }, beat := 20 }, 0, ⟨false, 10, false, true, true⟩, by decide +kernel⟩,
   ⟨{ up with powered := true }, 0, by decide +kernel⟩⟩

theorem wit_GridWrites :
    (∃ (s : State) (w : CheckerWrite) (k : _), s.powered = true ∧ s.pwr.mainOn = true ∧ s.bufferRoom = true ∧ s.grid.stalled = [] ∧ Sparse.wf Cell.zero s.grid.plane0 = true ∧ s.lateWrite w.srcFrame = false ∧ cellNo (w.x - (s.scrollSince w.srcFrame).1) (w.y - (s.scrollSince w.srcFrame).2) = some k) ∧
    (∃ (s : State) (w : CheckerWrite), s.powered = true ∧ s.pwr.mainOn = true ∧ s.bufferRoom = true ∧ s.grid.stalled = [] ∧ Sparse.wf Cell.zero s.grid.plane0 = true ∧ s.lateWrite w.srcFrame = false ∧ cellNo (w.x - (s.scrollSince w.srcFrame).1) (w.y - (s.scrollSince w.srcFrame).2) = none) ∧
    (∃ (s : State) (w : CheckerWrite), s.powered = true ∧ s.pwr.mainOn = true ∧ s.bufferRoom = true ∧ s.grid.stalled = [] ∧ Sparse.wf Cell.zero s.grid.plane0 = true ∧ s.lateWrite w.srcFrame = true) ∧
    (∃ (s : State), s.powered = true ∧ s.pwr.mainOn = true ∧ s.bufferRoom = false) ∧
    (∃ (s : State) (w : CheckerWrite) (ws : List CheckerWrite), s.powered = true ∧ s.pwr.mainOn = true ∧ s.grid.stalled = w :: ws ∧ s.bufferRoom = false) ∧
    (∃ (s : State) (w : CheckerWrite) (ws : List CheckerWrite) (k : Nat), s.powered = true ∧ s.pwr.mainOn = true ∧ s.grid.stalled = w :: ws ∧ s.bufferRoom = true ∧ Sparse.wf Cell.zero s.grid.plane0 = true ∧ s.lateWrite w.srcFrame = false ∧ cellNo (w.x - (s.scrollSince w.srcFrame).1) (w.y - (s.scrollSince w.srcFrame).2) = some k) ∧
    (∃ (s : State), s.powered = true ∧ s.pwr.mainOn = true ∧ s.grid.stalled = []) ∧
    (∃ (s : State), s.powered = true ∧ s.pwr.mainOn = true ∧ s.grid.claimQ = []) ∧
    (∃ (s : State) (w : ClaimWrite) (ws : List ClaimWrite), s.powered = true ∧ s.pwr.mainOn = true ∧ s.grid.claimQ = w :: ws ∧ s.bufferRoom = false) ∧
    (∃ (s : State) (w : ClaimWrite) (ws : List ClaimWrite), s.powered = true ∧ s.pwr.mainOn = true ∧ s.grid.claimQ = w :: ws ∧ s.bufferRoom = true ∧ s.lateWrite w.srcFrame = true) ∧
    (∃ (s : State) (w : ClaimWrite) (ws : List ClaimWrite) (p : _) (m : _), s.powered = true ∧ s.pwr.mainOn = true ∧ s.grid.claimQ = w :: ws ∧ s.bufferRoom = true ∧ s.lateWrite w.srcFrame = false ∧ s.poseOf w.srcFrame = some p ∧ s.camModel w.cam = some m) ∧
    (∃ (s : State) (cam : Fin 64) (ds : List (Int × Int × Nat × Nat)), s.powered = true ∧ s.pwr.mainOn = true ∧ (s.grid.objs.filter fun o => o.cam != cam.val).length + ds.length ≤ 1024) ∧
    (∃ (s : State) (cam : Fin 64) (ds : List (Int × Int × Nat × Nat)), s.powered = true ∧ s.pwr.mainOn = true ∧ 1024 < (s.grid.objs.filter fun o => o.cam != cam.val).length + ds.length) ∧
    (∃ (s : State), s.powered = true ∧ s.pwr.mainOn = true ∧ s.grid.matchDue = none) ∧
    (∃ (s : State), s.powered = true ∧ s.pwr.mainOn = true ∧ s.grid.matchDue ≠ none) ∧
    (∃ (s : State), s.powered = true ∧ s.pwr.mainOn = true ∧ s.ev.got = false) ∧
    (∃ (s : State), s.powered = true ∧ s.pwr.mainOn = true ∧ s.ev.got = true) :=
  ⟨⟨{ up with powered := true, pwr := { up.pwr with mainOn := true }, grid := { up.grid with stalled := [], wbuf := 4095 }, sched := { up.sched with frame := 4 } }, ⟨1, 3, 4, 0, 0, 0, 0, false, 0⟩, 4099, by decide +kernel⟩,
   ⟨{ up with powered := true, pwr := { up.pwr with mainOn := true }, grid := { up.grid with stalled := [], wbuf := 4095 }, sched := { up.sched with frame := 4 } }, ⟨1, -1, 4, 0, 0, 0, 0, false, 0⟩, by decide +kernel⟩,
   ⟨{ up with powered := true, pwr := { up.pwr with mainOn := true }, grid := { up.grid with stalled := [], wbuf := 4095 }, sched := { up.sched with frame := 5 } }, ⟨1, 3, 4, 0, 0, 0, 0, false, 0⟩, by decide +kernel⟩,
   ⟨{ up with powered := true, pwr := { up.pwr with mainOn := true }, sched := { up.sched with frame := 4 }, grid := { up.grid with wbuf := 4096 } }, by decide +kernel⟩,
   ⟨{ up with powered := true, pwr := { up.pwr with mainOn := true }, sched := { up.sched with frame := 4 }, grid := { up.grid with wbuf := 4096, stalled := [⟨1, 3, 4, 0, 0, 0, 0, false, 0⟩] } }, ⟨1, 3, 4, 0, 0, 0, 0, false, 0⟩, [], by decide +kernel⟩,
   ⟨{ up with powered := true, pwr := { up.pwr with mainOn := true }, sched := { up.sched with frame := 4 }, grid := { up.grid with wbuf := 4095, stalled := [⟨1, 3, 4, 0, 0, 0, 0, false, 0⟩] } }, ⟨1, 3, 4, 0, 0, 0, 0, false, 0⟩, [], 4099, by decide +kernel⟩,
   ⟨{ up with powered := true, pwr := { up.pwr with mainOn := true }, grid := { up.grid with stalled := [] } }, by decide +kernel⟩,
   ⟨{ up with powered := true, pwr := { up.pwr with mainOn := true }, grid := { up.grid with claimQ := [] } }, by decide +kernel⟩,
   ⟨{ up with powered := true, pwr := { up.pwr with mainOn := true }, sched := { up.sched with frame := 4 }, grid := { up.grid with wbuf := 4096, claimQ := [⟨0, 1, .bin 0 1 none⟩] } }, ⟨0, 1, .bin 0 1 none⟩, [], by decide +kernel⟩,
   ⟨{ up with powered := true, pwr := { up.pwr with mainOn := true }, sched := { up.sched with frame := 5 }, grid := { up.grid with wbuf := 4095, claimQ := [⟨0, 1, .bin 0 1 none⟩] } }, ⟨0, 1, .bin 0 1 none⟩, [], by decide +kernel⟩,
   ⟨gridQ, ⟨0, 1, .bin 0 1 none⟩, [], ⟨1, 0, 0, 0, 0, 0⟩, (gridQ.camModel 0).get (by decide +kernel), by decide +kernel, by decide +kernel, by decide +kernel, by decide +kernel, by decide +kernel, by decide +kernel, (Option.some_get _).symm⟩,
   ⟨{ up with powered := true, pwr := { up.pwr with mainOn := true } }, 0, List.replicate 1024 (0, 0, 0, 0), by decide +kernel⟩,
   ⟨{ up with powered := true, pwr := { up.pwr with mainOn := true } }, 0, List.replicate 1025 (0, 0, 0, 0), by decide +kernel⟩,
   ⟨{ up with powered := true, pwr := { up.pwr with mainOn := true }, grid := { up.grid with matchDue := none } }, by decide +kernel⟩,
   ⟨{ up with powered := true, pwr := { up.pwr with mainOn := true }, grid := { up.grid with matchDue := some 0 } }, by decide +kernel⟩,
   ⟨{ up with powered := true, pwr := { up.pwr with mainOn := true }, ev := { up.ev with got := false } }, by decide +kernel⟩,
   ⟨{ up with powered := true, pwr := { up.pwr with mainOn := true }, ev := { up.ev with got := true } }, by decide +kernel⟩⟩

theorem wit_FloorCycles :
    (∃ (s : State), s.powered = true ∧ s.flr.cycle = false ∧ s.img.isSome = true ∧ s.floorEngineOk = true ∧ (vget s.sched.lastUsed (s.floorRecB 0) none).getD 0 < (s.ctxAt (s.floorRecB 1)).delivered ∧ ((s.floorRecB 2 = 0xFF ∨ s.ctxFresh (s.floorRecB 2) = true))) ∧
    (∃ (s : State), s.powered = true ∧ ((s.flr.cycle = true ∨ s.img = none ∨ s.floorEngineOk = false))) ∧
    (∃ (s : State) (e1 : Bool), s.powered = true ∧ ((s.flr.cycle = false ∨ (if e1 then s.flr.f1Ok else s.flr.f0Ok) = false))) ∧
    (∃ (s : State), s.powered = true ∧ s.flr.cycle = true ∧ s.flr.f0Ok = true ∧ s.flr.f1Ok = true ∧ s.flr.res0 = none ∧ s.flr.res1 = none) ∧
    (∃ (s : State) (e1 : Bool) (a : _), s.powered = true ∧ s.flr.cycle = true ∧ s.flr.f0Ok = true ∧ s.flr.f1Ok = true ∧ (if e1 then s.flr.res0 else s.flr.res1) = some a) ∧
    (∃ (s : State) (e1 : Bool), s.powered = true ∧ s.flr.cycle = true ∧ (if e1 then s.flr.f1Ok else s.flr.f0Ok) = true ∧ (if e1 then s.flr.f0Ok else s.flr.f1Ok) = false) ∧
    (∃ (s : State) (e1 : Bool) (w : FloorWrite), s.powered = true ∧ s.flr.cycle = true ∧ (if e1 then s.flr.f1Ok else s.flr.f0Ok) = true ∧ (if e1 then s.flr.f0Ok else s.flr.f1Ok) = false ∧ Sparse.wf FloorCell.zero s.flr.cells = true ∧ w.x < 128 ∧ w.y < 64) :=
  ⟨⟨{ up with ldr := { up.ldr with running := true, image := some (img [(1, [(0, 0)]), (2, [(1410, 255)])]) }, powered := true, flr := { up.flr with cycle := false, f0Ok := true }, io := { up.io with ctx := vmod up.io.ctx 0 (fun x => { x with delivered := 1 }) } }, by decide +kernel⟩,
   ⟨{ up with powered := true, flr := { up.flr with cycle := true } }, by decide +kernel⟩,
   ⟨{ up with powered := true, flr := { up.flr with cycle := false } }, false, by decide +kernel⟩,
   ⟨{ up with powered := true, flr := { up.flr with cycle := true, f0Ok := true, f1Ok := true, res0 := none, res1 := none } }, by decide +kernel⟩,
   ⟨{ up with powered := true, flr := { up.flr with cycle := true, f0Ok := true, f1Ok := true, res0 := none, res1 := some [] } }, false, [], by decide +kernel⟩,
   ⟨{ up with powered := true, flr := { up.flr with cycle := true, f0Ok := true, f1Ok := false, res0 := none, res1 := none } }, false, by decide +kernel⟩,
   ⟨{ up with powered := true, flr := { up.flr with cycle := true, f0Ok := true, f1Ok := false, res0 := none, res1 := none } }, false, ⟨127, 63, 0, 0, 0, 0⟩, by decide +kernel⟩⟩

theorem wit_CameraFrames :
    (∃ (s : State) (p : Fin 16) (vc : Nat), s.powered = true ∧ s.camRx p.val = true ∧ s.camTx p.val = true ∧ s.crocusVc p.val vc = false) ∧
    (∃ (s : State) (p : Fin 16) (vc : Nat), s.powered = true ∧ s.camRx p.val = true ∧ s.camTx p.val = true ∧ s.crocusVc p.val vc = false ∧ (s.port p.val).fwdStopped = false) :=
  ⟨⟨{ up with ldr := { up.ldr with running := true, image := some (img [(2, [(64, 1), (70, 2), (71, 1)])]) }, powered := true }, 0, 0, by decide +kernel⟩,
   ⟨{ up with ldr := { up.ldr with running := true, image := some (img [(2, [(64, 1), (70, 2), (71, 1)])]) }, powered := true }, 0, 0, by decide +kernel⟩⟩

theorem wit_CameraPackets :
    (∃ (s : State) (p : Fin 16) (k : LongPkt), s.powered = true ∧ s.camRx p.val = true ∧ k.hdr = .good) ∧
    (∃ (s : State) (p : Fin 16) (k : LongPkt), s.powered = true ∧ s.camRx p.val = true ∧ s.camTx p.val = true ∧ k.hdr = .good ∧ k.dt = 0x37 ∧ pStamp s.strB p.val = true) ∧
    (∃ (s : State) (p : Fin 16) (vc : Nat) (n : Nat) (dt : Nat) (k : LongPkt) (c : Instr), s.powered = true ∧ s.camRx p.val = true ∧ k.hdr = .uncorrectable ∧ c ∈ [Instr.csiFrameStart p vc n .uncorrectable, .csiFrameEnd p vc n .uncorrectable, .csiShortPacket p vc dt n .uncorrectable, .csiLongPacket p k]) ∧
    (∃ (s : State) (p : Fin 16) (dt : Nat), s.powered = true ∧ s.camRx p.val = true ∧ ((dt = 2 ∨ dt = 3 ∨ (8 ≤ dt ∧ dt ≤ 15))) ∧ s.camTx p.val = true ∧ (s.port p.val).fwdStopped = false) ∧
    (∃ (s : State) (p : Fin 16), s.powered = true ∧ ((s.pwr.mainOn = true ∨ p.val ≤ 1)) ∧ s.role p.val ≠ 0 ∧ s.role p.val ≠ 3) ∧
    (∃ (s : State) (p : Fin 16), s.powered = true ∧ s.pwr.mainOn = true ∧ s.camTx p.val = true ∧ (s.crocus p.val).injecting = none) ∧
    (∃ (s : State) (p : Fin 16), s.powered = true ∧ s.pwr.mainOn = true ∧ s.role p.val = 3) :=
  ⟨⟨{ up with ldr := { up.ldr with running := true, image := some (img [(2, [(64, 1), (70, 2), (71, 1)])]) }, powered := true }, 0, ⟨0, 0x30, .good, true, [], []⟩, by decide +kernel⟩,
   ⟨{ up with ldr := { up.ldr with running := true, image := some (img [(2, [(64, 1), (70, 2), (71, 1)])]) }, powered := true }, 0, ⟨0, 0x37, .good, true, [], []⟩, by decide +kernel⟩,
   ⟨{ up with ldr := { up.ldr with running := true, image := some (img [(2, [(64, 1), (70, 2), (71, 1)])]) }, powered := true }, 0, 0, 0, 0, ⟨0, 0x30, .uncorrectable, true, [], []⟩, .csiFrameStart 0 0 0 .uncorrectable, by decide +kernel⟩,
   ⟨{ up with ldr := { up.ldr with running := true, image := some (img [(2, [(64, 1), (70, 2), (71, 1)])]) }, powered := true }, 0, 15, by decide +kernel⟩,
   ⟨{ up with ldr := { up.ldr with running := true, image := some (img [(2, [(64, 1), (70, 2), (71, 1)])]) }, powered := true }, 0, by decide +kernel⟩,
   ⟨{ up with ldr := { up.ldr with running := true, image := some (img [(2, [(64, 1), (70, 2), (71, 1)])]) }, powered := true, pwr := { up.pwr with mainOn := true } }, 0, by decide +kernel⟩,
   ⟨{ up with ldr := { up.ldr with running := true, image := some (img [(2, [(64, 3)])]) }, powered := true, pwr := { up.pwr with mainOn := true } }, 0, by decide +kernel⟩⟩

theorem wit_CrocusInjections :
    (∃ (s : State) (p : Fin 16), s.powered = true ∧ s.pwr.mainOn = true ∧ (s.crocus p.val).staging = none) ∧
    (∃ (s : State) (p : Fin 16) (f : _), s.powered = true ∧ s.pwr.mainOn = true ∧ (s.crocus p.val).staging = some f ∧ Config.shake256 (frData s.crB f) 32 = frHash s.crB f) ∧
    (∃ (s : State) (p : Fin 16) (f : _), s.powered = true ∧ s.pwr.mainOn = true ∧ (s.crocus p.val).staging = some f ∧ Config.shake256 (frData s.crB f) 32 ≠ frHash s.crB f) ∧
    (∃ (s : State) (p : Fin 16) (fe : Nat) (f : Nat), s.powered = true ∧ s.pwr.mainOn = true ∧ (s.crocus p.val).camFe = some fe ∧ (s.crocus p.val).staged = some f ∧ s.crMode p.val = 1 ∧ (s.crocus p.val).owed = true ∧ (s.crocus p.val).injecting = none ∧ (s.crocus p.val).answerTo = none ∧ s.beat = fe + 1 ∧ s.camTx p.val = true ∧ s.beat + s.crTInj p.val f + s.crHalf p.val 8 ≤ (s.crocus p.val).camFs + s.frameBeats) ∧
    (∃ (s : State) (p : Fin 16) (fe : Nat) (f : Nat), s.powered = true ∧ s.pwr.mainOn = true ∧ (s.crocus p.val).camFe = some fe ∧ (s.crocus p.val).staged = some f ∧ s.crMode p.val = 1 ∧ (s.crocus p.val).owed = true ∧ (s.crocus p.val).injecting = none ∧ (s.crocus p.val).answerTo = none ∧ s.beat = fe + 1 ∧ s.camTx p.val = true ∧ (s.crocus p.val).camFs + s.frameBeats < s.beat + s.crTInj p.val f + s.crHalf p.val 8) ∧
    (∃ (s : State) (p : Fin 16), s.powered = true ∧ s.pwr.mainOn = true ∧ (((s.crocus p.val).staged = none ∨ (s.crocus p.val).camFe = none))) ∧
    (∃ (s : State) (p : Fin 16), s.powered = true ∧ s.pwr.mainOn = true ∧ (s.crocus p.val).injecting = none) ∧
    (∃ (s : State) (p : Fin 16) (b : _) (f : _), s.powered = true ∧ s.pwr.mainOn = true ∧ (s.crocus p.val).injecting = some b ∧ (s.crocus p.val).staged = some f ∧ s.crMode p.val = 1 ∧ s.beat + 1 < b + s.crTInj p.val f) ∧
    (∃ (s : State) (p : Fin 16) (b : _) (f : _), s.powered = true ∧ s.pwr.mainOn = true ∧ (s.crocus p.val).injecting = some b ∧ (s.crocus p.val).staged = some f ∧ s.crMode p.val = 1 ∧ b + s.crTInj p.val f ≤ s.beat + 1) ∧
    (∃ (s : State) (p : Fin 16), s.powered = true ∧ s.pwr.mainOn = true ∧ (s.crocus p.val).answerTo = none) ∧
    (∃ (s : State) (p : Fin 16) (f : _) (d : _), s.powered = true ∧ s.pwr.mainOn = true ∧ (s.crocus p.val).answerTo = some f ∧ (s.crocus p.val).deadline = some d ∧ s.beat < d) ∧
    (∃ (s : State) (p : Fin 16) (f : _) (d : _), s.powered = true ∧ s.pwr.mainOn = true ∧ (s.crocus p.val).answerTo = some f ∧ (s.crocus p.val).deadline = some d ∧ d ≤ s.beat) :=
  ⟨⟨{ up with powered := true, pwr := { up.pwr with mainOn := true } }, 0, by decide +kernel⟩,
   ⟨crocusOk, 0, 0, by decide +kernel, by decide +kernel, by decide +kernel, rfl⟩,
   ⟨{ up with ldr := { up.ldr with running := true, image := some (img [(2, [(64, 1), (70, 2), (71, 1)]), (3, [(0, 100), (1, 0), (2, 0), (3, 0)]), (6, [(0, 1), (85, 0), (88, 0)]), (13, [(1, 1), (16, 0), (17, 1), (42, 100), (43, 0)])]) }, powered := true, pwr := { up.pwr with mainOn := true }, io := { up.io with crocus := vmod up.io.crocus 0 (fun x => { x with staging := some 0 }) } }, 0, 0, by decide +kernel, by decide +kernel, by decide +kernel, fun h => absurd (congrArg List.length h) (by decide +kernel)⟩,
   ⟨{ up with ldr := { up.ldr with running := true, image := some (img [(2, [(64, 1), (70, 2), (71, 1)]), (3, [(0, 100), (1, 0), (2, 0), (3, 0)]), (6, [(0, 1), (85, 0), (88, 0)]), (13, [(1, 1), (16, 0), (17, 1), (42, 100), (43, 0)])]), service := false }, powered := true, pwr := { up.pwr with mainOn := true }, io := { up.io with crocus := vmod up.io.crocus 0 (fun x => { x with camFe := some 9, staged := some 0, owed := true, camFs := 0 }) }, beat := 10 }, 0, 9, 0, by decide +kernel⟩,
   ⟨{ up with ldr := { up.ldr with running := true, image := some (img [(2, [(64, 1), (70, 2), (71, 1)]), (3, [(0, 20), (1, 0), (2, 0), (3, 0)]), (6, [(0, 1), (85, 0), (88, 0)]), (13, [(1, 1), (16, 0), (17, 1), (42, 100), (43, 0)])]), service := false }, powered := true, pwr := { up.pwr with mainOn := true }, io := { up.io with crocus := vmod up.io.crocus 0 (fun x => { x with camFe := some 9, staged := some 0, owed := true, camFs := 0 }) }, beat := 10 }, 0, 9, 0, by decide +kernel⟩,
   ⟨{ up with powered := true, pwr := { up.pwr with mainOn := true } }, 0, by decide +kernel⟩,
   ⟨{ up with powered := true, pwr := { up.pwr with mainOn := true } }, 0, by decide +kernel⟩,
   ⟨{ up with ldr := { up.ldr with running := true, image := some (img [(2, [(64, 1), (70, 2), (71, 1)]), (3, [(0, 100), (1, 0), (2, 0), (3, 0)]), (6, [(0, 1), (85, 0), (88, 0)]), (13, [(1, 1), (16, 0), (17, 1), (42, 100), (43, 0)])]), service := false }, powered := true, pwr := { up.pwr with mainOn := true }, io := { up.io with crocus := vmod up.io.crocus 0 (fun x => { x with injecting := some 10, staged := some 0 }) }, beat := 19 }, 0, 10, 0, by decide +kernel⟩,
   ⟨{ up with ldr := { up.ldr with running := true, image := some (img [(2, [(64, 1), (70, 2), (71, 1)]), (3, [(0, 100), (1, 0), (2, 0), (3, 0)]), (6, [(0, 1), (85, 0), (88, 0)]), (13, [(1, 1), (16, 0), (17, 1), (42, 100), (43, 0)])]), service := false }, powered := true, pwr := { up.pwr with mainOn := true }, io := { up.io with crocus := vmod up.io.crocus 0 (fun x => { x with injecting := some 10, staged := some 0 }) }, beat := 20 }, 0, 10, 0, by decide +kernel⟩,
   ⟨{ up with powered := true, pwr := { up.pwr with mainOn := true } }, 0, by decide +kernel⟩,
   ⟨{ up with powered := true, pwr := { up.pwr with mainOn := true }, io := { up.io with crocus := vmod up.io.crocus 0 (fun x => { x with answerTo := some 0, deadline := some 7 }) }, beat := 6 }, 0, 0, 7, by decide +kernel⟩,
   ⟨{ up with powered := true, pwr := { up.pwr with mainOn := true }, io := { up.io with crocus := vmod up.io.crocus 0 (fun x => { x with answerTo := some 0, deadline := some 7 }) }, beat := 7 }, 0, 0, 7, by decide +kernel⟩⟩

theorem wit_ClaimRecords :
    (∃ (s : State) (p : Fin 16) (k : LongPkt), s.powered = true ∧ s.pwr.mainOn = true ∧ ((s.role p.val ≠ 2 ∨ k.vc ≠ pVc s.strB p.val))) ∧
    (∃ (s : State) (p : Fin 16) (k : LongPkt) (n : Nat), s.powered = true ∧ s.pwr.mainOn = true ∧ s.role p.val = 2 ∧ k.vc = pVc s.strB p.val ∧ pClaimStream s.strB p.val = n ∧ n < 4 ∧ k.hdr ≠ .uncorrectable ∧ k.crcOk = false) ∧
    (∃ (s : State) (p : Fin 16) (k : LongPkt) (n : Nat), s.powered = true ∧ s.pwr.mainOn = true ∧ s.role p.val = 2 ∧ k.vc = pVc s.strB p.val ∧ pClaimStream s.strB p.val = n ∧ n < 4 ∧ k.hdr = .good ∧ k.crcOk = true ∧ k.dt = 0x30 ∧ claimCrcOk k.payload = false) ∧
    (∃ (s : State) (p : Fin 16) (k : LongPkt) (n : Nat), s.powered = true ∧ s.pwr.mainOn = true ∧ s.role p.val = 2 ∧ k.vc = pVc s.strB p.val ∧ pClaimStream s.strB p.val = n ∧ n < 4 ∧ k.hdr = .good ∧ k.crcOk = true ∧ k.dt = 0x30 ∧ claimCrcOk k.payload = true ∧ (s.claimStream n).fresh = false ∧ ((((claimHdr k.payload).alive + 65536 - (s.claimStream n).aliveLast) % 65536 = 0 ∨ pAliveGap s.strB p.val + 1 < ((claimHdr k.payload).alive + 65536 - (s.claimStream n).aliveLast) % 65536))) ∧
    (∃ (s : State) (p : Fin 16) (k : LongPkt) (n : Nat), s.powered = true ∧ s.pwr.mainOn = true ∧ s.role p.val = 2 ∧ k.vc = pVc s.strB p.val ∧ pClaimStream s.strB p.val = n ∧ n < 4 ∧ k.hdr = .good ∧ k.crcOk = true ∧ k.dt = 0x30 ∧ claimCrcOk k.payload = true ∧ (((s.claimStream n).fresh = true ∨ (1 ≤ ((claimHdr k.payload).alive + 65536 - (s.claimStream n).aliveLast) % 65536 ∧ ((claimHdr k.payload).alive + 65536 - (s.claimStream n).aliveLast) % 65536 ≤ pAliveGap s.strB p.val + 1))) ∧ s.claimFormat n 0x30 k.payload ≠ 0) ∧
    (∃ (s : State) (p : Fin 16) (k : LongPkt) (n : Nat), s.powered = true ∧ s.pwr.mainOn = true ∧ s.role p.val = 2 ∧ k.vc = pVc s.strB p.val ∧ pClaimStream s.strB p.val = n ∧ n < 4 ∧ k.hdr = .good ∧ k.crcOk = true ∧ k.dt = 0x30 ∧ claimCrcOk k.payload = true ∧ (((s.claimStream n).fresh = true ∨ (1 ≤ ((claimHdr k.payload).alive + 65536 - (s.claimStream n).aliveLast) % 65536 ∧ ((claimHdr k.payload).alive + 65536 - (s.claimStream n).aliveLast) % 65536 ≤ pAliveGap s.strB p.val + 1))) ∧ s.claimFormat n 0x30 k.payload = 0 ∧ (claimHdr k.payload).rtype ≠ 0x0F ∧ (claimHdr k.payload).crocus = false) ∧
    (∃ (s : State) (p : Fin 16) (k : LongPkt) (n : Nat), s.powered = true ∧ s.pwr.mainOn = true ∧ s.role p.val = 2 ∧ k.vc = pVc s.strB p.val ∧ pClaimStream s.strB p.val = n ∧ n < 4 ∧ k.hdr = .good ∧ k.crcOk = true ∧ k.dt = 0x30 ∧ claimCrcOk k.payload = true ∧ (((s.claimStream n).fresh = true ∨ (1 ≤ ((claimHdr k.payload).alive + 65536 - (s.claimStream n).aliveLast) % 65536 ∧ ((claimHdr k.payload).alive + 65536 - (s.claimStream n).aliveLast) % 65536 ≤ pAliveGap s.strB p.val + 1))) ∧ s.claimFormat n 0x30 k.payload = 0 ∧ (claimHdr k.payload).rtype = 0x0F ∧ (claimHdr k.payload).crocus = false ∧ (claimHdr k.payload).cam < 64 ∧ ((s.camClaims (claimHdr k.payload).cam).frameFor (claimHdr k.payload)).bad = false) ∧
    (∃ (s : State), s.powered = true) ∧
    (∃ (s : State), s.powered = true ∧ s.pwr.mainOn = true ∧ s.verdictPort = none) ∧
    (∃ (s : State), s.powered = true ∧ s.pwr.mainOn = true ∧ s.beat < 64 * s.io.v.next + 64) ∧
    (∃ (s : State) (sent : Bool) (p : _), s.powered = true ∧ s.pwr.mainOn = true ∧ s.verdictPort = some p ∧ s.verdictOn = true ∧ 64 * s.io.v.next + 64 ≤ s.beat ∧ sent = true ∧ s.beat ≤ 64 * s.io.v.next + 65) ∧
    (∃ (s : State) (sent : Bool) (p : _), s.powered = true ∧ s.pwr.mainOn = true ∧ s.verdictPort = some p ∧ s.verdictOn = true ∧ 64 * s.io.v.next + 64 ≤ s.beat ∧ ((sent = false ∨ 64 * s.io.v.next + 65 < s.beat))) :=
  ⟨⟨{ up with powered := true, pwr := { up.pwr with mainOn := true } }, 0, ⟨0, 0x30, .good, true, [], []⟩, by decide +kernel⟩,
   ⟨{ up with ldr := { up.ldr with running := true, image := some (img [(2, [(64, 2), (74, 1), (1344, 0)]), (6, [(0, 1), (80, 128), (81, 2), (82, 224), (83, 1), (88, 0)])]) }, powered := true, pwr := { up.pwr with mainOn := true } }, 0, ⟨0, 0x30, .good, false, [], []⟩, 0, by decide +kernel⟩,
   ⟨{ up with ldr := { up.ldr with running := true, image := some (img [(2, [(64, 2), (74, 1), (1344, 0)]), (6, [(0, 1), (80, 128), (81, 2), (82, 224), (83, 1), (88, 0)])]) }, powered := true, pwr := { up.pwr with mainOn := true } }, 0, ⟨0, 0x30, .good, true, [1], []⟩, 0, by decide +kernel⟩,
   ⟨{ up with ldr := { up.ldr with running := true, image := some (img [(2, [(64, 2), (74, 1), (1344, 0)]), (6, [(0, 1), (80, 128), (81, 2), (82, 224), (83, 1), (88, 0)])]) }, powered := true, pwr := { up.pwr with mainOn := true }, io := { up.io with claims := vmod up.io.claims 0 (fun x => { x with fresh := false, aliveLast := 1 }) } }, 0, ⟨0, 0x30, .good, true, record 0x0F 0 [], []⟩, 0, by decide +kernel⟩,
   ⟨{ up with ldr := { up.ldr with running := true, image := some (img [(2, [(64, 2), (74, 1), (1344, 0)]), (6, [(0, 1), (80, 128), (81, 2), (82, 224), (83, 1), (88, 0)])]) }, powered := true, pwr := { up.pwr with mainOn := true }, io := { up.io with claims := vmod up.io.claims 0 (fun x => { x with fresh := false, aliveLast := 65535 }) } }, 0, ⟨0, 0x30, .good, true, record 0x0F 0 [], []⟩, 0, by decide +kernel⟩,
   ⟨{ up with ldr := { up.ldr with running := true, image := some (img [(2, [(64, 2), (74, 1), (1344, 0)]), (6, [(0, 1), (80, 128), (81, 2), (82, 224), (83, 1), (88, 0)])]) }, powered := true, pwr := { up.pwr with mainOn := true }, io := { up.io with cams := vmod up.io.cams 0 (fun x => { x with stamps := [(false, 1, 5)] }), claims := vmod up.io.claims 0 (fun x => { x with fresh := false, aliveLast := 0 }) } }, 0, ⟨0, 0x30, .good, true, record 2 1 [0, 0, 1, 0, 1, 0], []⟩, 0, by decide +kernel⟩,
   ⟨{ up with ldr := { up.ldr with running := true, image := some (img [(2, [(64, 2), (74, 1), (1344, 0)]), (6, [(0, 1), (80, 128), (81, 2), (82, 224), (83, 1), (88, 0)])]) }, powered := true, pwr := { up.pwr with mainOn := true }, io := { up.io with cams := vmod up.io.cams 0 (fun x => { x with stamps := [(false, 1, 5)] }), claims := vmod up.io.claims 0 (fun x => { x with fresh := true }) } }, 0, ⟨0, 0x30, .good, true, record 0x0F 0 [], []⟩, 0, by decide +kernel⟩,
   ⟨{ up with powered := true }, by decide +kernel⟩,
   ⟨{ up with powered := true, pwr := { up.pwr with mainOn := true } }, by decide +kernel⟩,
   ⟨{ up with powered := true, pwr := { up.pwr with mainOn := true }, beat := 63 }, by decide +kernel⟩,
   ⟨{ up with ldr := { up.ldr with running := true, image := some (img [(2, [(64, 3), (70, 2)])]) }, powered := true, pwr := { up.pwr with mainOn := true }, beat := 65 }, true, 0, by decide +kernel⟩,
   ⟨{ up with ldr := { up.ldr with running := true, image := some (img [(2, [(64, 3), (70, 2)])]) }, powered := true, pwr := { up.pwr with mainOn := true }, beat := 66 }, true, 0, by decide +kernel⟩⟩

theorem wit_EventRecords :
    (∃ (s : State) (g : Option (Fin 128)) (code : BitVec 16), s.powered = true ∧ (code.toNat % 4096 < 0x100 ∨ (g.isSome = true ∧ (s.pwr.mainOn = false ∨ code.toNat / 4096 ≠ 4)))) ∧
    (∃ (s : State) (g : Option (Fin 128)) (code : BitVec 16), s.powered = true ∧ 0x100 ≤ code.toNat % 4096 ∧ ((g.isSome = true → s.pwr.mainOn = true ∧ code.toNat / 4096 = 4)) ∧ ((∀ q wait, s.evr.lastOf (foldPoint (reportPort g code.toNat)) = some q → s.evr.foldsInto (foldPoint (reportPort g code.toNat)) code.toNat 0xFF q wait = false)) ∧ (s.evr.tracked (reportPort g code.toNat)).find? (fun x => x.code == code.toNat) = none) ∧
    (∃ (s : State) (g : Option (Fin 128)) (code : BitVec 16) (x : RateEntry), s.powered = true ∧ 0x100 ≤ code.toNat % 4096 ∧ code.toNat / 4096 ≠ 0 ∧ code.toNat / 4096 ≠ 15 ∧ ((g.isSome = true → s.pwr.mainOn = true ∧ code.toNat / 4096 = 4)) ∧ (s.evr.tracked (reportPort g code.toNat)).find? (fun x => x.code == code.toNat) = some x ∧ s.beat - x.last < s.rateEv) ∧
    (∃ (s : State) (code : BitVec 16) (q : Nat), s.powered = true ∧ 0x100 ≤ code.toNat % 4096 ∧ ((code.toNat / 4096 = 0 ∨ code.toNat / 4096 = 15)) ∧ s.evr.lastOf 32 = some q ∧ s.evr.foldsInto 32 code.toNat 0xFF q (s.evr.last.drop (s.evr.last.length - s.evr.waiting)) = true) :=
  ⟨⟨{ up with powered := true }, none, 0x40FF, by decide +kernel⟩,
   ⟨{ up with powered := true }, none, 0x2100, by decide +kernel, by decide +kernel, by decide +kernel, fun _ _ h => noFold _ _ _ h, by decide +kernel⟩,
   ⟨{ up with powered := true, evr := { up.evr with ports := [(reportPort none 0x2100, [⟨0x2100, 5, false⟩])] }, beat := 504 }, none, 0x2100, ⟨0x2100, 5, false⟩, by decide +kernel⟩,
   ⟨{ up with powered := true, evr := { up.evr with folds := [(32, 7)], last := [{ rec0 with code := 0x100, seq := 7 }], waiting := 1 } }, 0x0100, 7, by decide +kernel⟩⟩

theorem wit_JournalMedium :
    (∃ (s : State), s.powered = true ∧ s.pwr.mainOn = true ∧ s.flushStarted = false) ∧
    (∃ (s : State) (e : _) (l : _), s.powered = true ∧ s.pwr.mainOn = true ∧ s.flushStarted = true ∧ (s.waitingRecs.take s.perPage).head? = some e ∧ (s.waitingRecs.take s.perPage).getLast? = some l) ∧
    (∃ (s : State) (e : _) (l : _) (k : _), s.powered = true ∧ s.pwr.mainOn = true ∧ s.flushStarted = true ∧ (s.waitingRecs.take s.perPage).head? = some e ∧ (s.waitingRecs.take s.perPage).getLast? = some l ∧ s.jnl.headOpen = true ∧ s.jnl.head = some k ∧ s.pageRoom k = true ∧ k < s.jnl.blocks.length ∧ s.jnl.lostNew = 0 ∧ ((s.evr.first = [] ∨ s.jnl.evid = []))) ∧
    (∃ (s : State) (n : Nat), s.powered = true ∧ s.pwr.mainOn = true ∧ ((s.jnl.present = false ∨ s.jnl.blocks.length ≤ n ∨ (s.nblk n).bad = true))) ∧
    (∃ (s : State) (n : Nat), s.powered = true ∧ s.pwr.mainOn = true ∧ s.jnl.present = true ∧ n < s.jnl.blocks.length ∧ (s.nblk n).bad = false ∧ (s.nblk n).part ≠ .none ∧ (s.nblk n).part ≠ .spare ∧ s.spares = []) ∧
    (∃ (s : State) (n : Nat), s.powered = true ∧ s.pwr.mainOn = true ∧ s.jnl.present = true ∧ n < s.jnl.blocks.length ∧ (s.nblk n).bad = false ∧ (s.nblk n).part ≠ .none ∧ (s.nblk n).part ≠ .spare ∧ s.spares ≠ []) ∧
    (∃ (s : State) (n : Nat), s.powered = true ∧ s.pwr.mainOn = true ∧ s.jnl.present = true ∧ n < s.jnl.blocks.length ∧ (s.nblk n).bad = false ∧ (s.nblk n).part = .spare) ∧
    (∃ (s : State) (n : Nat), s.powered = true ∧ s.pwr.mainOn = true ∧ s.jnl.present = true ∧ n < s.jnl.blocks.length ∧ (s.nblk n).bad = false ∧ (s.nblk n).part = .none) ∧
    (∃ (s : State) (n : Nat), s.powered = true ∧ s.pwr.mainOn = true ∧ ((s.refreshable n = false ∨ s.jnl.stopped = true ∨ s.spares = []))) ∧
    (∃ (s : State) (n : Nat), s.powered = true ∧ s.pwr.mainOn = true ∧ s.refreshable n = true ∧ s.jnl.stopped = false ∧ s.spares ≠ [] ∧ s.rdLimit ≤ (s.nblk n).reads) ∧
    (∃ (s : State), s.powered = true ∧ s.pwr.mainOn = true ∧ ((s.jnl.ready = false ∨ s.st.running = true ∨ (s.jnl.scrubBusy = false ∧ s.jnl.scrubBeats < scrubPeriod)))) ∧
    (∃ (s : State), s.powered = true ∧ s.pwr.mainOn = true ∧ s.jnl.ready = true ∧ s.st.running = false ∧ ((s.jnl.scrubBusy = true ∨ scrubPeriod ≤ s.jnl.scrubBeats))) ∧
    (∃ (s : State) (n : _) (k : _), s.powered = true ∧ s.pwr.mainOn = true ∧ s.jnl.ready = true ∧ s.st.running = false ∧ ((s.jnl.scrubBusy = true ∨ scrubPeriod ≤ s.jnl.scrubBeats)) ∧ s.refreshable n = true ∧ s.scrubBits ≤ k) ∧
    (∃ (s : State) (n : _), s.powered = true ∧ s.pwr.mainOn = true ∧ s.jnl.ready = true ∧ s.st.running = false ∧ ((s.jnl.scrubBusy = true ∨ scrubPeriod ≤ s.jnl.scrubBeats)) ∧ s.refreshable n = true) :=
  ⟨⟨{ up with powered := true, pwr := { up.pwr with mainOn := true } }, by decide +kernel⟩,
   ⟨{ up with powered := true, pwr := { up.pwr with mainOn := true }, jnl := { up.jnl with ready := true, stopped := false, flushDue := true, page := 1 }, evr := { up.evr with last := [rec0], waiting := 1 } }, rec0, rec0, by decide +kernel⟩,
   ⟨{ up with powered := true, pwr := { up.pwr with mainOn := true }, jnl := { up.jnl with headOpen := true, lostNew := 0, ready := true, stopped := false, flushDue := true, page := 1, head := some 0, pagesPerBlock := 1, blocks := [⟨.ring, false, false, 0, 0, []⟩] }, evr := { up.evr with last := [rec0], waiting := 1, first := [] } }, rec0, rec0, 0, by decide +kernel⟩,
   ⟨{ up with powered := true, pwr := { up.pwr with mainOn := true }, jnl := { up.jnl with present := false } }, 0, by decide +kernel⟩,
   ⟨{ up with powered := true, pwr := { up.pwr with mainOn := true }, jnl := { up.jnl with present := true, blocks := [⟨.ring, false, false, 0, 0, []⟩] } }, 0, by decide +kernel⟩,
   ⟨{ up with powered := true, pwr := { up.pwr with mainOn := true }, jnl := { up.jnl with present := true, blocks := [⟨.ring, false, false, 0, 0, []⟩, ⟨.spare, false, false, 0, 0, []⟩] } }, 0, by decide +kernel⟩,
   ⟨{ up with powered := true, pwr := { up.pwr with mainOn := true }, jnl := { up.jnl with present := true, blocks := [⟨.spare, false, false, 0, 0, []⟩] } }, 0, by decide +kernel⟩,
   ⟨{ up with powered := true, pwr := { up.pwr with mainOn := true }, jnl := { up.jnl with present := true, blocks := [⟨.none, false, false, 0, 0, []⟩] } }, 0, by decide +kernel⟩,
   ⟨{ up with powered := true, pwr := { up.pwr with mainOn := true } }, 0, by decide +kernel⟩,
   ⟨{ up with powered := true, pwr := { up.pwr with mainOn := true }, jnl := { up.jnl with stopped := false, ready := true, blocks := [⟨.ring, false, false, 0, 200000, []⟩, ⟨.spare, false, false, 0, 0, []⟩] } }, 0, by decide +kernel⟩,
   ⟨{ up with powered := true, pwr := { up.pwr with mainOn := true }, jnl := { up.jnl with ready := false } }, by decide +kernel⟩,
   ⟨{ up with powered := true, pwr := { up.pwr with mainOn := true }, jnl := { up.jnl with ready := true, scrubBusy := true }, st := { up.st with running := false } }, by decide +kernel⟩,
   ⟨{ up with powered := true, pwr := { up.pwr with mainOn := true }, jnl := { up.jnl with ready := true, scrubBusy := true, stopped := false, blocks := [⟨.ring, false, false, 0, 0, []⟩] }, st := { up.st with running := false } }, 0, 24, by decide +kernel⟩,
   ⟨{ up with powered := true, pwr := { up.pwr with mainOn := true }, jnl := { up.jnl with ready := true, scrubBusy := true, stopped := false, blocks := [⟨.ring, false, false, 0, 0, []⟩] }, st := { up.st with running := false } }, 0, by decide +kernel⟩⟩

theorem wit_TimeSamples :
    (∃ (s : State) (m : Fin 2) (x : SyncSample), s.powered = true ∧ s.pwr.mainOn = true ∧ ((s.ptpPort m.val = false ∨ (s.eth m.val).link = false ∨ s.time.slave ≠ m.val ∨ x.logInterval < -7 ∨ 1 < x.logInterval))) ∧
    (∃ (s : State) (m : Fin 2) (x : SyncSample), s.powered = true ∧ s.pwr.mainOn = true ∧ s.ptpPort m.val = true ∧ (s.eth m.val).link = true ∧ s.time.slave = m.val ∧ -7 ≤ x.logInterval ∧ x.logInterval ≤ 1 ∧ s.time.set = false ∧ s.ptpInitStep = true ∧ s.watch.wstate = .stopped) ∧
    (∃ (s : State) (m : Fin 2) (x : SyncSample), s.powered = true ∧ s.pwr.mainOn = true ∧ s.ptpPort m.val = true ∧ (s.eth m.val).link = true ∧ s.time.slave = m.val ∧ -7 ≤ x.logInterval ∧ x.logInterval ≤ 1 ∧ s.time.set = true ∧ u32 s.timeB 8 < x.offset.natAbs) ∧
    (∃ (s : State) (m : Fin 2) (x : SyncSample), s.powered = true ∧ s.pwr.mainOn = true ∧ s.ptpPort m.val = true ∧ (s.eth m.val).link = true ∧ s.time.slave = m.val ∧ -7 ≤ x.logInterval ∧ x.logInterval ≤ 1 ∧ s.time.set = true ∧ x.offset.natAbs ≤ u32 s.timeB 8 ∧ s.time.holdover = true ∧ s.time.good + 1 < u8 s.timeB 7) ∧
    (∃ (s : State) (m : Fin 2) (x : SyncSample), s.powered = true ∧ s.pwr.mainOn = true ∧ s.ptpPort m.val = true ∧ (s.eth m.val).link = true ∧ s.time.slave = m.val ∧ -7 ≤ x.logInterval ∧ x.logInterval ≤ 1 ∧ s.time.set = true ∧ x.offset.natAbs ≤ u32 s.timeB 8 ∧ ((s.time.holdover = false ∨ u8 s.timeB 7 ≤ s.time.good + 1))) ∧
    (∃ (s : State), s.powered = true ∧ s.pwr.mainOn = true ∧ s.time.sample = none) ∧
    (∃ (s : State) (o : _) (b : _) (iv : _), s.powered = true ∧ s.pwr.mainOn = true ∧ s.time.sample = some (o, b, iv) ∧ ((s.time.holdover = true ∨ s.time.slave = 3 ∨ s.beat < b + u8 s.timeB 6 * iv))) ∧
    (∃ (s : State) (o : _) (b : _) (iv : _), s.powered = true ∧ s.pwr.mainOn = true ∧ s.time.sample = some (o, b, iv) ∧ s.ptpOn = true ∧ s.time.slave ≠ 3 ∧ s.time.holdover = false ∧ b + u8 s.timeB 6 * iv ≤ s.beat) ∧
    (∃ (s : State) (n : Nat), s.powered = true ∧ n < 2 ^ 96) :=
  ⟨⟨{ up with powered := true, pwr := { up.pwr with mainOn := true } }, 0, ⟨0, 0⟩, by decide +kernel⟩,
   ⟨{ up with ldr := { up.ldr with running := true, image := some (img [(12, [(0, 9), (2, 3), (6, 2), (7, 4), (8, 100), (9, 0), (10, 0), (11, 0)])]) }, powered := true, pwr := { up.pwr with mainOn := true }, time := { up.time with set := false, eth := vmod up.time.eth 0 (fun x => { x with link := true }), slave := 0 }, watch := { up.watch with wstate := .stopped } }, 0, ⟨7, -7⟩, by decide +kernel⟩,
   ⟨{ up with ldr := { up.ldr with running := true, image := some (img [(12, [(0, 9), (2, 3), (6, 2), (7, 4), (8, 100), (9, 0), (10, 0), (11, 0)])]) }, powered := true, pwr := { up.pwr with mainOn := true }, time := { up.time with set := true, eth := vmod up.time.eth 0 (fun x => { x with link := true }), slave := 0 } }, 0, ⟨-101, 1⟩, by decide +kernel⟩,
   ⟨{ up with ldr := { up.ldr with running := true, image := some (img [(12, [(0, 9), (2, 3), (6, 2), (7, 4), (8, 100), (9, 0), (10, 0), (11, 0)])]) }, powered := true, pwr := { up.pwr with mainOn := true }, time := { up.time with set := true, holdover := true, eth := vmod up.time.eth 0 (fun x => { x with link := true }), slave := 0, good := 2 } }, 0, ⟨-100, 1⟩, by decide +kernel⟩,
   ⟨{ up with ldr := { up.ldr with running := true, image := some (img [(12, [(0, 9), (2, 3), (6, 2), (7, 4), (8, 100), (9, 0), (10, 0), (11, 0)])]) }, powered := true, pwr := { up.pwr with mainOn := true }, time := { up.time with set := true, eth := vmod up.time.eth 0 (fun x => { x with link := true }), slave := 0, holdover := true, good := 3 } }, 0, ⟨100, -7⟩, by decide +kernel⟩,
   ⟨{ up with powered := true, pwr := { up.pwr with mainOn := true }, time := { up.time with sample := none } }, by decide +kernel⟩,
   ⟨{ up with powered := true, pwr := { up.pwr with mainOn := true }, time := { up.time with sample := some (4, 5, 10), slave := 3 } }, 4, 5, 10, by decide +kernel⟩,
   ⟨{ up with ldr := { up.ldr with running := true, image := some (img [(12, [(0, 9), (2, 3), (6, 2), (7, 4), (8, 100), (9, 0), (10, 0), (11, 0)])]) }, powered := true, pwr := { up.pwr with mainOn := true }, time := { up.time with holdover := false, eth := vmod up.time.eth 0 (fun x => { x with link := true }), slave := 0, sample := some (4, 5, 10) }, beat := 25 }, 4, 5, 10, by decide +kernel⟩,
   ⟨{ up with powered := true }, 2 ^ 96 - 1, by decide +kernel⟩⟩

theorem wit_EthernetPorts :
    (∃ (s : State) (m : Fin 2), s.powered = true ∧ s.pwr.mainOn = true ∧ ((s.ptpPort m.val = false ∨ (s.eth m.val).link = false))) ∧
    (∃ (s : State) (m : Fin 2), s.powered = true ∧ s.pwr.mainOn = true ∧ s.ptpPort m.val = true ∧ (s.eth m.val).link = true ∧ (s.eth m.val).best = none) ∧
    (∃ (s : State) (m : Fin 2) (a : Announce) (b : _), s.powered = true ∧ s.pwr.mainOn = true ∧ s.ptpPort m.val = true ∧ (s.eth m.val).link = true ∧ (s.eth m.val).best = some b ∧ ((b.2 = a.identity ∨ lexBefore (masterKey (a.rank, a.identity)) (masterKey b) = true))) ∧
    (∃ (s : State) (m : Fin 2) (a : Announce) (b : _), s.powered = true ∧ s.pwr.mainOn = true ∧ s.ptpPort m.val = true ∧ (s.eth m.val).link = true ∧ (s.eth m.val).best = some b ∧ b.2 ≠ a.identity ∧ lexBefore (masterKey (a.rank, a.identity)) (masterKey b) = false) ∧
    (∃ (s : State) (m : Fin 2), s.powered = true ∧ s.pwr.mainOn = true ∧ s.ptpPort m.val = true ∧ (s.eth m.val).link = true) ∧
    (∃ (s : State) (m : Fin 2), s.powered = true ∧ s.pwr.mainOn = true ∧ s.ptpPort m.val = true ∧ (s.eth m.val).link = true ∧ ((s.ptpPeer = true ∨ (s.eth m.val).best.isSome = true))) ∧
    (∃ (s : State) (m : Fin 2), s.powered = true ∧ s.pwr.mainOn = true ∧ s.ptpPort m.val = true ∧ (s.eth m.val).link = true ∧ s.ptpPeer = false ∧ (s.eth m.val).best = none) ∧
    (∃ (s : State) (m : Fin 2), s.powered = true ∧ s.pwr.mainOn = true ∧ (s.eth m.val).asked = none) ∧
    (∃ (s : State) (m : Fin 2), s.powered = true ∧ s.pwr.mainOn = true ∧ s.ptpPort m.val = true ∧ (s.eth m.val).asked.isSome = true) ∧
    (∃ (s : State) (m : Fin 2) (up : Bool), s.powered = true ∧ s.pwr.mainOn = true ∧ (s.eth m.val).link = up) ∧
    (∃ (s : State) (m : Fin 2) (up : Bool), s.powered = true ∧ s.pwr.mainOn = true ∧ (s.eth m.val).link ≠ up) ∧
    (∃ (s : State), s.powered = true ∧ s.pwr.mainOn = true) :=
  ⟨⟨{ up with powered := true, pwr := { up.pwr with mainOn := true } }, 0, by decide +kernel⟩,
   ⟨{ up with ldr := { up.ldr with running := true, image := some (img [(12, [(0, 9), (2, 3), (6, 2), (7, 4), (8, 100), (9, 0), (10, 0), (11, 0)])]) }, powered := true, pwr := { up.pwr with mainOn := true }, time := { up.time with eth := vmod up.time.eth 0 (fun x => { x with link := true, best := none }), slave := 0 } }, 0, by decide +kernel⟩,
   ⟨{ up with ldr := { up.ldr with running := true, image := some (img [(12, [(0, 9), (2, 3), (6, 2), (7, 4), (8, 100), (9, 0), (10, 0), (11, 0)])]) }, powered := true, pwr := { up.pwr with mainOn := true }, time := { up.time with eth := vmod up.time.eth 0 (fun x => { x with link := true, best := some ([2], 6) }), slave := 0 } }, 0, ⟨[1], 5⟩, ([2], 6), by decide +kernel⟩,
   ⟨{ up with ldr := { up.ldr with running := true, image := some (img [(12, [(0, 9), (2, 3), (6, 2), (7, 4), (8, 100), (9, 0), (10, 0), (11, 0)])]) }, powered := true, pwr := { up.pwr with mainOn := true }, time := { up.time with eth := vmod up.time.eth 0 (fun x => { x with link := true, best := some ([2], 6) }), slave := 0 } }, 0, ⟨[2], 7⟩, ([2], 6), by decide +kernel⟩,
   ⟨{ up with ldr := { up.ldr with running := true, image := some (img [(12, [(0, 9), (2, 3), (6, 2), (7, 4), (8, 100), (9, 0), (10, 0), (11, 0)])]) }, powered := true, pwr := { up.pwr with mainOn := true }, time := { up.time with eth := vmod up.time.eth 0 (fun x => { x with link := true, best := some ([2], 6) }), slave := 0 } }, 0, by decide +kernel⟩,
   ⟨{ up with ldr := { up.ldr with running := true, image := some (img [(12, [(0, 9), (2, 3), (6, 2), (7, 4), (8, 100), (9, 0), (10, 0), (11, 0)])]) }, powered := true, pwr := { up.pwr with mainOn := true }, time := { up.time with eth := vmod up.time.eth 0 (fun x => { x with link := true, best := some ([2], 6) }), slave := 0 } }, 0, by decide +kernel⟩,
   ⟨{ up with ldr := { up.ldr with running := true, image := some (img [(12, [(0, 9), (2, 3), (6, 2), (7, 4), (8, 100), (9, 0), (10, 0), (11, 0)])]) }, powered := true, pwr := { up.pwr with mainOn := true }, time := { up.time with eth := vmod up.time.eth 0 (fun x => { x with link := true, best := none }), slave := 0 } }, 0, by decide +kernel⟩,
   ⟨{ up with powered := true, pwr := { up.pwr with mainOn := true }, time := { up.time with eth := vmod up.time.eth 0 (fun x => { x with asked := none }) } }, 0, by decide +kernel⟩,
   ⟨{ up with ldr := { up.ldr with running := true, image := some (img [(12, [(0, 9), (2, 3), (6, 2), (7, 4), (8, 100), (9, 0), (10, 0), (11, 0)])]) }, powered := true, pwr := { up.pwr with mainOn := true }, time := { up.time with eth := vmod up.time.eth 0 (fun x => { x with link := true, asked := some 3 }), slave := 0 } }, 0, by decide +kernel⟩,
   ⟨{ up with powered := true, pwr := { up.pwr with mainOn := true }, time := { up.time with eth := vmod up.time.eth 0 (fun x => { x with link := true }) } }, 0, true, by decide +kernel⟩,
   ⟨{ up with powered := true, pwr := { up.pwr with mainOn := true }, time := { up.time with eth := vmod up.time.eth 0 (fun x => { x with link := false }) } }, 0, true, by decide +kernel⟩,
   ⟨{ up with powered := true, pwr := { up.pwr with mainOn := true } }, by decide +kernel⟩⟩

theorem wit_PairLink :
    (∃ (s : State), s.powered = true ∧ s.pwr.mainOn = true ∧ ((s.pairImage = false ∨ s.lk.state ≠ 1))) ∧
    (∃ (s : State), s.powered = true ∧ s.pwr.mainOn = true ∧ s.pairImage = true ∧ s.lk.state = 1) ∧
    (∃ (s : State), s.powered = true ∧ s.pwr.mainOn = true ∧ s.lk.state ≠ 2) ∧
    (∃ (s : State) (m : HelloMsg), s.powered = true ∧ s.pwr.mainOn = true ∧ s.lk.state = 2 ∧ m.crcOk = false) ∧
    (∃ (s : State) (m : HelloMsg), s.powered = true ∧ s.pwr.mainOn = true ∧ s.lk.state = 2 ∧ m.crcOk = true ∧ m.pairId = s.pairId ∧ m.digest = s.structDigest ∧ m.chip ≠ s.chip ∧ m.chip ≤ 1 ∧ ((s.lk.helloRun + 1 < 16 ∨ 1000 < m.roundTrip))) ∧
    (∃ (s : State) (m : HelloMsg), s.powered = true ∧ s.pwr.mainOn = true ∧ s.lk.state = 2 ∧ m.crcOk = true ∧ m.pairId = s.pairId ∧ m.digest = s.structDigest ∧ m.chip ≠ s.chip ∧ m.chip ≤ 1 ∧ 16 ≤ s.lk.helloRun + 1 ∧ m.roundTrip ≤ 1000) ∧
    (∃ (s : State) (m : HelloMsg), s.powered = true ∧ s.pwr.mainOn = true ∧ s.lk.state = 2 ∧ m.crcOk = true ∧ ((m.pairId ≠ s.pairId ∨ m.digest ≠ s.structDigest ∨ m.chip = s.chip ∨ 1 < m.chip)) ∧ s.lk.mismatched = false) ∧
    (∃ (s : State) (m : HelloMsg), s.powered = true ∧ s.pwr.mainOn = true ∧ s.lk.state = 2 ∧ m.crcOk = true ∧ ((m.pairId ≠ s.pairId ∨ m.digest ≠ s.structDigest ∨ m.chip = s.chip ∨ 1 < m.chip)) ∧ s.lk.mismatched = true) ∧
    (∃ (s : State), s.powered = true ∧ s.pwr.mainOn = true ∧ s.lk.state ≠ 3) ∧
    (∃ (s : State) (m : BeatMsg), s.powered = true ∧ s.pwr.mainOn = true ∧ s.lk.state = 3 ∧ m.crcOk = false) ∧
    (∃ (s : State) (m : BeatMsg), s.powered = true ∧ s.pwr.mainOn = true ∧ s.lk.state = 3 ∧ m.crcOk = true ∧ (((m.phase - s.lk.phi0).natAbs ≤ 100 ∨ s.lk.skewBad = 0))) ∧
    (∃ (s : State) (m : BeatMsg), s.powered = true ∧ s.pwr.mainOn = true ∧ s.lk.state = 3 ∧ m.crcOk = true ∧ 100 < (m.phase - s.lk.phi0).natAbs ∧ 1 ≤ s.lk.skewBad) ∧
    (∃ (s : State) (m : SummaryMsg), s.powered = true ∧ s.pwr.mainOn = true ∧ s.lk.state = 3 ∧ m.crcOk = false) ∧
    (∃ (s : State) (m : SummaryMsg), s.powered = true ∧ s.pwr.mainOn = true ∧ s.lk.state = 3 ∧ m.crcOk = true) ∧
    (∃ (s : State), s.powered = true ∧ s.pwr.mainOn = true ∧ (s.lk.crcBeats.filter fun b => decide (s.beat < b + 500000)).length ≤ 16) ∧
    (∃ (s : State), s.powered = true ∧ s.pwr.mainOn = true ∧ 16 < (s.lk.crcBeats.filter fun b => decide (s.beat < b + 500000)).length) ∧
    (∃ (s : State), s.powered = true ∧ s.pwr.mainOn = true ∧ ((s.lk.state = 0 ∨ s.lk.state = 1))) ∧
    (∃ (s : State), s.powered = true ∧ s.pwr.mainOn = true ∧ s.lk.state = 2) ∧
    (∃ (s : State), s.powered = true ∧ s.pwr.mainOn = true ∧ s.lk.state = 3) :=
  ⟨⟨{ up with powered := true, pwr := { up.pwr with mainOn := true } }, by decide +kernel⟩,
   ⟨{ up with ldr := { up.ldr with running := true, image := some (img [(15, [(0, 0)])]) }, powered := true, pwr := { up.pwr with mainOn := true }, lk := { up.lk with state := 1 } }, by decide +kernel⟩,
   ⟨{ up with powered := true, pwr := { up.pwr with mainOn := true } }, by decide +kernel⟩,
   ⟨{ up with powered := true, pwr := { up.pwr with mainOn := true }, lk := { up.lk with state := 2 } }, ⟨false, 1, 0, [], 0, 1000, 0⟩, by decide +kernel⟩,
   ⟨{ up with powered := true, pwr := { up.pwr with mainOn := true }, lk := { up.lk with state := 2, helloRun := 14 } }, ⟨true, 1, 0, [], 0, 1000, 0⟩, by decide +kernel⟩,
   ⟨{ up with powered := true, pwr := { up.pwr with mainOn := true }, lk := { up.lk with state := 2, helloRun := 15 } }, ⟨true, 1, 0, [], 0, 1000, 0⟩, by decide +kernel⟩,
   ⟨{ up with powered := true, pwr := { up.pwr with mainOn := true }, lk := { up.lk with state := 2, mismatched := false } }, ⟨true, 0, 0, [], 0, 1000, 0⟩, by decide +kernel⟩,
   ⟨{ up with powered := true, pwr := { up.pwr with mainOn := true }, lk := { up.lk with state := 2, mismatched := true } }, ⟨true, 0, 0, [], 0, 1000, 0⟩, by decide +kernel⟩,
   ⟨{ up with powered := true, pwr := { up.pwr with mainOn := true } }, by decide +kernel⟩,
   ⟨{ up with powered := true, pwr := { up.pwr with mainOn := true }, lk := { up.lk with state := 3 } }, ⟨false, 0, 0, 0, 0, 0, 0⟩, by decide +kernel⟩,
   ⟨{ up with powered := true, pwr := { up.pwr with mainOn := true }, lk := { up.lk with state := 3, phi0 := 0, skewBad := 1 } }, ⟨true, 0, 0, 0, 0, 0, -100⟩, by decide +kernel⟩,
   ⟨{ up with powered := true, pwr := { up.pwr with mainOn := true }, lk := { up.lk with state := 3, phi0 := 0, skewBad := 1 } }, ⟨true, 0, 0, 0, 0, 0, -101⟩, by decide +kernel⟩,
   ⟨{ up with powered := true, pwr := { up.pwr with mainOn := true }, lk := { up.lk with state := 3 } }, ⟨false, 0, []⟩, by decide +kernel⟩,
   ⟨{ up with powered := true, pwr := { up.pwr with mainOn := true }, lk := { up.lk with state := 3 } }, ⟨true, 0, []⟩, by decide +kernel⟩,
   ⟨{ up with powered := true, pwr := { up.pwr with mainOn := true }, lk := { up.lk with crcBeats := List.replicate 16 0 }, beat := 499999 }, by decide +kernel⟩,
   ⟨{ up with powered := true, pwr := { up.pwr with mainOn := true }, lk := { up.lk with crcBeats := List.replicate 17 0 }, beat := 499999 }, by decide +kernel⟩,
   ⟨{ up with powered := true, pwr := { up.pwr with mainOn := true }, lk := { up.lk with state := 1 } }, by decide +kernel⟩,
   ⟨{ up with powered := true, pwr := { up.pwr with mainOn := true }, lk := { up.lk with state := 2 } }, by decide +kernel⟩,
   ⟨{ up with powered := true, pwr := { up.pwr with mainOn := true }, lk := { up.lk with state := 3 } }, by decide +kernel⟩⟩

theorem wit_PairStages :
    (∃ (s : State), s.powered = true ∧ s.pairImage = true ∧ s.lk.msgBeat + s.lossBeats ≤ s.beat) ∧
    (∃ (s : State), s.powered = true ∧ ((s.pairImage = false ∨ s.beat < s.lk.msgBeat + s.lossBeats))) ∧
    (∃ (s : State) (n : Fin 4), s.powered = true ∧ ((s.stagesRun = false ∨ (s.stage n.val).judged = true ∨ s.stageHappened n.val = false))) ∧
    (∃ (s : State) (n : Fin 4), s.powered = true ∧ s.stagesRun = true ∧ (s.stage n.val).judged = false ∧ s.stageHappened n.val = true ∧ s.sched.frameBeat < s.stageClose n.val ∧ s.stageOpen n.val ≤ s.sched.frameBeat) ∧
    (∃ (s : State) (n : Fin 4), s.powered = true ∧ s.stagesRun = true ∧ (s.stage n.val).judged = false ∧ s.stageHappened n.val = true ∧ s.sched.frameBeat < s.stageClose n.val ∧ s.sched.frameBeat < s.stageOpen n.val) ∧
    (∃ (s : State) (n : Fin 4), s.powered = true ∧ ((s.stagesRun = false ∨ (s.stage n.val).judged = true ∨ s.sched.frameBeat + 1 < s.stageClose n.val))) ∧
    (∃ (s : State) (n : Fin 4), s.powered = true ∧ s.stagesRun = true ∧ (s.stage n.val).judged = false ∧ s.stageClose n.val ≤ s.sched.frameBeat + 1) :=
  ⟨⟨{ up with ldr := { up.ldr with running := true, image := some (img [(15, [(0, 0), (48, 10), (49, 0), (88, 4), (89, 0), (90, 0), (91, 0), (92, 9), (93, 0), (94, 0), (95, 0)])]) }, powered := true, lk := { up.lk with msgBeat := 5 }, beat := 15 }, by decide +kernel⟩,
   ⟨{ up with ldr := { up.ldr with running := true, image := some (img [(15, [(48, 10), (49, 0), (88, 4), (89, 0), (90, 0), (91, 0), (92, 9), (93, 0), (94, 0), (95, 0)])]) }, powered := true, lk := { up.lk with msgBeat := 5 }, beat := 14 }, by decide +kernel⟩,
   ⟨{ up with powered := true }, 0, by decide +kernel⟩,
   ⟨{ up with ldr := { up.ldr with running := true, image := some (img [(15, [(48, 10), (49, 0), (88, 4), (89, 0), (90, 0), (91, 0), (92, 9), (93, 0), (94, 0), (95, 0)])]) }, powered := true, sched := { up.sched with origin := some 0, frameBeat := 8 }, lk := { up.lk with summaryIn := true } }, 3, by decide +kernel⟩,
   ⟨{ up with ldr := { up.ldr with running := true, image := some (img [(15, [(48, 10), (49, 0), (88, 4), (89, 0), (90, 0), (91, 0), (92, 9), (93, 0), (94, 0), (95, 0)])]) }, powered := true, sched := { up.sched with origin := some 0, frameBeat := 3 }, lk := { up.lk with summaryIn := true } }, 3, by decide +kernel⟩,
   ⟨{ up with ldr := { up.ldr with running := true, image := some (img [(15, [(48, 10), (49, 0), (88, 4), (89, 0), (90, 0), (91, 0), (92, 9), (93, 0), (94, 0), (95, 0)])]) }, powered := true, sched := { up.sched with origin := some 0, frameBeat := 7 }, lk := { up.lk with summaryIn := true } }, 3, by decide +kernel⟩,
   ⟨{ up with ldr := { up.ldr with running := true, image := some (img [(15, [(48, 10), (49, 0), (88, 4), (89, 0), (90, 0), (91, 0), (92, 9), (93, 0), (94, 0), (95, 0)])]) }, powered := true, sched := { up.sched with origin := some 0, frameBeat := 8 }, lk := { up.lk with summaryIn := true } }, 3, by decide +kernel⟩⟩

theorem wit_StepTakesCommands :
    (∃ (s : State), s.pending = []) :=
  ⟨{ up with pending := [] }, by decide +kernel⟩

theorem wit_CommandsComplete :
    (∃ (s : State) (c : Instr) (q : List Instr), s.pending = c :: q) :=
  ⟨{ up with pending := [.getbcr] }, .getbcr, [], by decide +kernel⟩

theorem wit_PowerGates :
    (∃ (s : State) (c : Instr), s.powered = false ∧ ((∀ x, c ≠ .powerOn x))) ∧
    (∃ (s : State) (c : Instr), s.pwr.mainOn = false ∧ mainCommand c = true) :=
  ⟨⟨{ up with powered := false }, .getbcr, by decide +kernel, fun _ h => nomatch h⟩,
   ⟨{ up with pwr := { up.pwr with mainOn := false } }, .journalFlush, by decide +kernel⟩⟩

theorem wit_ResetState :
    (∃ (g : _), g ∈ State.reset.so.groups.toList) ∧
    (∃ (i : _), i < 8) :=
  ⟨⟨OutGroup.reset, by decide +kernel⟩,
   ⟨7, by decide +kernel⟩⟩

theorem wit_FieldBoundaries :
    (∃ (c : Cell) (occT : Int) (freeT : Int), c.chkSeen = true ∧ c.chkLo = occT ∧ c.margin = 0 ∧ c.clmSeen = true ∧ c.clmLo = freeT) ∧
    (∃ (s : State) (i : Nat), i < 8 ∧ s.ev.band = i ∧ s.watch.speed = some (s.bandSpeedMax false s.ev.mainField i)) ∧
    (∃ (s : State) (i : Nat), i < 8 ∧ s.ev.floorBand = i ∧ s.watch.speed = some (s.bandSpeedMax true s.ev.floorField i)) :=
  ⟨⟨{ Cell.zero with chkSeen := true, chkLo := 5, clmSeen := true, clmLo := -3 }, 5, -3, by decide +kernel⟩,
   ⟨{ up with ev := { up.ev with band := 7 }, watch := { up.watch with speed := some 0xFFFF } }, 7, by decide +kernel⟩,
   ⟨{ up with ev := { up.ev with floorBand := 7 }, watch := { up.watch with speed := some 0xFFFF } }, 7, by decide +kernel⟩⟩

theorem wit_MemoryMoves :
    (∃ (s : State) (e : Fin 128) (g : Fin 64) (c : Fin 2) (k : Nat), s.powered = true ∧ s.pwr.mainOn = true ∧ s.MemOk ∧ s.mayIssue e ⟨g, c, k⟩ = true) :=
  ⟨{ up with ldr := { up.ldr with running := true, image := some (img [(2, [(1408, 255), (1426, 0)]), (3, [(0, 80), (1, 195), (2, 0), (3, 0), (4, 1), (5, 0), (6, 1), (8, 1), (9, 0), (10, 0), (11, 0), (48, 0), (49, 0), (112, 0), (113, 0), (114, 0), (115, 0), (116, 1), (117, 0), (120, 0), (121, 0), (122, 0), (123, 0), (124, 232), (125, 3), (126, 224), (127, 1)]), (4, [(0, 1), (1, 0), (8, 0), (9, 1), (10, 0), (11, 0), (17, 0), (18, 0), (24, 1), (25, 0), (28, 0), (29, 2), (30, 0), (31, 0), (68, 255), (256, 0), (260, 255), (261, 255), (262, 255), (263, 255), (264, 255), (265, 255), (266, 255), (267, 255), (268, 255), (269, 255)])]) }, powered := true, pwr := { up.pwr with mainOn := true }, sched := { up.sched with origin := some 0 }, watch := { up.watch with wstate := .trust }, cores := vmod up.cores 0 (fun x => { x with pwr := .active, classes := 15, retired := false, seq := [⟨⟨0, 0, 0⟩, 0, vrep 4 1, vrep 4 0⟩], portClosed := false }) }, 0, 0, 0, 0, by decide +kernel, by decide +kernel, ⟨by decide +kernel, by decide +kernel, by decide +kernel, by decide +kernel, by decide +kernel, by decide +kernel, by decide +kernel⟩, by decide +kernel⟩

theorem wit_HaltSnapshot :
    (∃ (s : State), s.powered = true ∧ s.pwr.mainOn = true ∧ ((s.jnl.snapDue = false ∨ s.canWrite = false))) ∧
    (∃ (s : State) (k : Nat) (r : Nat), s.powered = true ∧ s.pwr.mainOn = true ∧ s.jnl.snapDue = true ∧ s.canWrite = true ∧ 1 ≤ s.jnl.page ∧ s.jnl.evidOpen = true ∧ s.jnl.evidHead = some k ∧ k < s.jnl.blocks.length ∧ (s.nblk k).pages.length + 17 ≤ s.jnl.pagesPerBlock ∧ s.jnl.headOpen = true ∧ s.jnl.head = some r ∧ r < s.jnl.blocks.length ∧ (s.nblk r).pages.length + 17 ≤ s.jnl.pagesPerBlock ∧ r ≠ k ∧ s.evr.waiting ≤ s.evr.last.length ∧ s.evr.last.length ≤ 4096) :=
  ⟨⟨{ up with powered := true, pwr := { up.pwr with mainOn := true } }, by decide +kernel⟩,
   ⟨{ up with powered := true, pwr := { up.pwr with mainOn := true }, jnl := { up.jnl with snapDue := true, evidOpen := true, headOpen := true, ready := true, stopped := false, page := 1, evidHead := some 0, pagesPerBlock := 17, head := some 1, blocks := [⟨.evidence, false, false, 0, 0, []⟩, ⟨.ring, false, false, 0, 0, []⟩] } }, 0, 1, by decide +kernel⟩⟩

/-- TRUST with the trigger of a state-register fault. -/
def failing : State :=
  { up with watch := { up.watch with wstate := .trust, trig := [⟨.halt, 0x22⟩] }, st := { up.st with running := false } }

/-- The state of an answer. -/
def next (o : Host.Outcome State Fault Refusal) : State :=
  match o with
  | .next t => t
  | _ => State.reset

theorem next_of {o : Host.Outcome State Fault Refusal} {t : State} (h : o = .next t) : o = .next (next o) := by rw [h]; rfl

set_option maxRecDepth 100000 in
/-- A beat that leaves TRUST. -/
theorem wit_WatchStateChanges : ∃ s t i, exec (.beat i) s = .next t ∧ t.selftestFail = false ∧ t.watch.wstate ≠ s.watch.wstate := by
  refine ⟨failing, next (exec (.beat quiet) failing), quiet, ?_, by decide +kernel, by decide +kernel⟩
  obtain ⟨t, h, -⟩ := exec_ok (.beat quiet) failing
  exact next_of h

theorem reset_inv : State.reset.Inv := ⟨by decide +kernel, by decide +kernel, reset_memOk⟩

theorem wit_InvariantKept : ∃ s t, s.Inv ∧ step s = .next t := ⟨State.reset, State.reset, reset_inv, rfl⟩

end Sys2Proof.Tests
end

section
/-!
PROOFS. The scope of the machine (spec/00): the step takes the command at the front of the queue, and every command answers a next
state that holds the same queue.
-/
namespace Sys2Proof.Machine

theorem step_of_pending_cons {s : State} {c : Instr} {q : List Instr} (h : s.pending = c :: q) :
    step s = exec c { s with pending := q } := by
  simp only [step, h]

/-- The block idles (notes/assumptions/2.md). -/
theorem step_of_pending_nil {s : State} (h : s.pending = []) : step s = .next s := by
  simp only [step, h]

/-- Read off `exec_ok`, which goes through the commands one by one. -/
theorem exec_keeps_pending (c : Instr) (s : State) : Goes (exec c s) fun t => t.pending = s.pending :=
  (exec_ok c s).mono fun _ ok => ok.pending

/-- Settles O1: both clauses are the equations of `step`, for a queue with a front and for an empty one. -/
theorem stepTakesCommands : Obligations.StepTakesCommands :=
  ⟨fun _ _ _ => step_of_pending_cons rfl, fun _ h => step_of_pending_nil h⟩

/-- Settles O2: `exec` keeps the queue, so a step, which runs the front command on the rest, leaves the rest. -/
theorem commandsComplete : Obligations.CommandsComplete := by
  refine ⟨fun s c => exec_keeps_pending c s, fun s c q h => ?_⟩
  rw [step_of_pending_cons h]
  exact exec_keeps_pending c { s with pending := q }

end Sys2Proof.Machine
end

section
/-!
PROOFS. The state after reset (R13, R29, R280, R305), and the invariant that every step keeps.
-/
namespace Sys2Proof.Machine

theorem State.reset_inv : State.reset.Inv := ⟨resetWord_ok, by decide, reset_memOk⟩

/-- Settles O3: every value is read off `State.reset`. -/
theorem resetState : Obligations.ResetState := by
  refine ⟨rfl, rfl, rfl, rfl, rfl, rfl, rfl, ?_, ?_, rfl, rfl, State.reset_inv⟩
  · exact vrep_forall ⟨rfl, rfl, rfl⟩
  · decide

/-- The invariant does not speak of the queue. -/
theorem State.Inv.withPending {s : State} (h : s.Inv) (q : List Instr) : ({ s with pending := q } : State).Inv :=
  ⟨h.word, h.outs, ⟨h.mem.gddr, h.mem.cores, h.mem.engs, h.mem.plane0, h.mem.plane1, h.mem.floor, h.mem.buf⟩⟩

/-- Settles O4: an empty queue leaves the state; otherwise the front command keeps the invariant (`exec_ok`). -/
theorem invariantKept : Obligations.InvariantKept := by
  intro s t hs ht
  cases hq : s.pending with
  | nil =>
    rw [step_of_pending_nil hq] at ht
    exact Host.Outcome.next.inj ht ▸ hs
  | cons c q =>
    obtain ⟨u, hu, ok⟩ := exec_ok c { s with pending := q }
    rw [step_of_pending_cons hq, hu] at ht
    exact Host.Outcome.next.inj ht ▸ ok.inv (hs.withPending q)

end Sys2Proof.Machine
end

section
/-!
PROOFS. The CRC of the verdict word (R29).
-/
namespace Sys2Proof.Machine

/-- One shift of the CRC register of R29, without a message bit. -/
def crcShift (r : BitVec 8) : BitVec 8 := if r.msb then (r <<< 1) ^^^ 0x1D else r <<< 1

/-- The shift is linear, so a message bit that enters at its top bit can be added to the register beforehand. -/
theorem crcStepMsb_eq_crcShift (r b : BitVec 8) : crcStepMsb 0x1D r b.msb = crcShift (r ^^^ b) ^^^ (b <<< 1) := by
  have hs : (r ^^^ b) <<< 1 ^^^ b <<< 1 = r <<< 1 := by
    rw [BitVec.shiftLeft_xor_distrib, BitVec.xor_assoc, BitVec.xor_self, BitVec.xor_zero]
  unfold crcStepMsb crcShift
  rw [BitVec.msb_xor]
  split
  · rw [BitVec.xor_assoc, BitVec.xor_comm 0x1D, ← BitVec.xor_assoc, hs]
  · exact hs.symm

theorem byteBitsMsb_eq_map_msb (b : BitVec 8) : byteBitsMsb b = (List.range 8).map fun i => (b <<< i).msb := by
  simp [byteBitsMsb, upto, List.range_succ, BitVec.msb_eq_getLsbD_last]

/-- The first `n` bits of a byte, shifted in one by one, are the byte added at the start, less what has not been shifted out. -/
theorem foldl_crcStepMsb_eq (b r : BitVec 8) (n : Nat) :
    (List.range n).foldl (fun c i => crcStepMsb 0x1D c (b <<< i).msb) r =
      (List.range n).foldl (fun c _ => crcShift c) (r ^^^ b) ^^^ b <<< n := by
  induction n with
  | zero => simp
  | succ n ih =>
    rw [List.range_succ, List.foldl_append, List.foldl_append, ih]
    simp only [List.foldl_cons, List.foldl_nil]
    rw [crcStepMsb_eq_crcShift, BitVec.xor_assoc, BitVec.xor_self, BitVec.xor_zero, ← BitVec.shiftLeft_add]

theorem toNat_crcShift (r : BitVec 8) :
    (crcShift r).toNat = if 128 ≤ r.toNat then (2 * r.toNat ^^^ 0x1D) % 256 else 2 * r.toNat % 256 := by
  have hm : r.msb = decide (128 ≤ r.toNat) := BitVec.msb_eq_decide r
  have hs : (r <<< 1).toNat = 2 * r.toNat % 256 := by simp [BitVec.toNat_shiftLeft, Nat.shiftLeft_eq, Nat.mul_comm]
  unfold crcShift
  simp only [hm, decide_eq_true_eq]
  split
  · rw [BitVec.toNat_xor, hs]
    exact (Nat.xor_mod_two_pow (n := 8) (a := 2 * r.toNat) (b := 0x1D)).symm
  · exact hs

theorem toNat_foldl_crcShift (l : List Nat) (r : BitVec 8) :
    (l.foldl (fun c _ => crcShift c) r).toNat =
      l.foldl (fun c _ => if 128 ≤ c then (2 * c ^^^ 0x1D) % 256 else 2 * c % 256) r.toNat := by
  induction l generalizing r with
  | nil => rfl
  | cons _ l ih => rw [List.foldl_cons, List.foldl_cons, ih, toNat_crcShift]

/-- The CRC of the model over one byte is that of R29, bit by bit. -/
theorem toNat_foldl_byteBitsMsb (r b : BitVec 8) :
    ((byteBitsMsb b).foldl (crcStepMsb 0x1D) r).toNat = crcByte r.toNat b.toNat := by
  have hb : b <<< 8 = 0#8 := BitVec.shiftLeft_eq_zero (Nat.le_refl 8)
  rw [byteBitsMsb_eq_map_msb, List.foldl_map, foldl_crcStepMsb_eq, hb, BitVec.xor_zero, toNat_foldl_crcShift, BitVec.toNat_xor]
  rfl

theorem verdictCrc_eq_crcByte (n : Nat) :
    verdictCrc n = crcByte (crcByte (crcByte 0xFF (n / 65536 % 256)) (n / 256 % 256)) (n % 256) := by
  simp only [verdictCrc, crcMsb, List.foldl_cons, List.foldl_nil, toNat_foldl_byteBitsMsb, BitVec.toNat_ofNat]
  rfl

/-- Settles O7: for the bytes of a word by the linearity of the shift (`crcStepMsb_eq_crcShift`); the two check values by evaluation. -/
theorem verdictCrcHolds : Obligations.VerdictCrc := by
  refine ⟨fun w => ?_, by decide +kernel, by decide +kernel⟩
  rw [verdictCrc_eq_crcByte, Nat.div_div_eq_div_mul, Nat.div_div_eq_div_mul]
  rfl

end Sys2Proof.Machine
end

section
/-!
PROOFS. The watch over a beat: the transition that is chosen (R17 to R19), the state that a beat commits (R15, R20, R28), and the
commands that can move the watch at all (R18).
-/
namespace Sys2Proof.Machine

/-! ### The transition -/

/-- A trigger to HALT has been found. -/
def Halts (o : Option Trigger) : Prop := ∃ c, o = some ⟨.halt, c⟩

theorem better_halts (a b : Trigger) (h : a.target = .halt ∨ b.target = .halt) : (better a b).target = .halt := by
  have rank_halt (w : WState) : rank w = 0 ↔ w = .halt := by cases w <;> simp [rank]
  rw [← rank_halt, ← rank_halt] at h
  rw [← rank_halt]
  unfold better
  split
  · omega
  split
  · omega
  split <;> omega

theorem Trigger.halts {t : Trigger} (h : t.target = .halt) : Halts (some t) := ⟨t.cause, by rw [← h]⟩

theorem Halts.foldl {g : Option Trigger → Trigger → Option Trigger} (keep : ∀ o u, Halts o → Halts (g o u)) (l : List Trigger)
    {o : Option Trigger} (h : Halts o) : Halts (l.foldl g o) := by
  induction l generalizing o with
  | nil => exact h
  | cons u l ih => exact ih (keep o u h)

/-- HALT comes first in the order of R19: one listed trigger to HALT decides. -/
theorem resolve_halts {f : WState} {ts : List Trigger} {t : Trigger} (hm : t ∈ ts) (hl : listed f t = true) (ht : t.target = .halt) :
    Halts (resolve f ts) := by
  unfold resolve
  have hm' : t ∈ ts.filter (listed f) := List.mem_filter.2 ⟨hm, hl⟩
  generalize ts.filter (listed f) = l at hm'
  generalize hg : (fun (o : Option Trigger) (t : Trigger) => _) = g
  have keep (o : Option Trigger) (u : Trigger) (h : Halts o) : Halts (g o u) := by
    obtain ⟨c, rfl⟩ := h
    subst hg
    exact Trigger.halts (better_halts _ _ (.inl rfl))
  have take (o : Option Trigger) : Halts (g o t) := by
    subst hg
    cases o with
    | none => exact Trigger.halts ht
    | some a => exact Trigger.halts (better_halts _ _ (.inr ht))
  obtain ⟨l₁, l₂, rfl⟩ := List.append_of_mem hm'
  rw [List.foldl_append, List.foldl_cons]
  exact (take _).foldl keep l₂

theorem listed_halt {f : WState} (h : f ≠ .halt) : listed f ⟨.halt, 0x22⟩ = true := by
  cases f with
  | halt => exact absurd rfl h
  | _ => rfl

theorem State.wstate_of_haltOver {u : State} (h : u.haltOver = true) : u.watch.wstate = .halt := by
  simp only [State.haltOver, Bool.and_eq_true, beq_iff_eq] at h
  obtain ⟨⟨⟨⟨hw, -⟩, -⟩, -⟩, -⟩ := h
  exact hw

/-- Settles O11: the trigger is listed in every state but HALT, survives the filter of the return to TRUST, and wins. -/
theorem fatalHalts : Obligations.FatalHalts := by
  intro u hm hw hs
  have hover : ¬u.haltOver = true := fun h => hw (State.wstate_of_haltOver h)
  have hc : u.transition = u.chosen u.nextDoubt := by simp [State.transition, hs, hover]
  rw [hc]
  refine resolve_halts (t := ⟨.halt, 0x22⟩) ?_ (listed_halt hw) rfl
  simp [hm]

/-- Every transition of a beat is a row of the table of R17. -/
theorem State.transition_table {u : State} {g : Trigger} (h : u.transition = some g) :
    (u.watch.wstate, g.target, g.cause) ∈ transitionTable := by
  unfold State.transition at h
  split at h
  · cases h
  split at h
  next hover =>
    cases h
    rw [State.wstate_of_haltOver hover]
    decide
  next => exact listed_table _ _ (resolve_listed _ _ _ h)

/-! ### The state that a beat enters -/

/-- The state of the new beat before its commit: the doubt and the beat advanced, the transition taken. -/
def State.entered (u : State) : State := (u.takeDoubt u.nextDoubt).nextBeat.takeTransition u.transition

theorem State.beatStep_eq (s : State) (i : BeatIn) :
    let u := s.settle.startUpFault
    s.beatStep i = (u.entered.commit u.transition u.watch.doubt).openBeat i := rfl

theorem State.entered_beat (u : State) : u.entered.beat = (u.beat + 1) % 2 ^ 48 := by
  show ((u.takeDoubt u.nextDoubt).nextBeat.takeTransition u.transition).beat = _
  rw [(State.takeTransition_rel _ _).frame .beat (by decide), State.nextBeat_beat]
  rfl

theorem State.entered_selftestFail (u : State) : u.entered.selftestFail = u.selftestFail := by
  show ((u.takeDoubt u.nextDoubt).nextBeat.takeTransition u.transition).selftestFail = _
  rw [(State.takeTransition_rel _ _).frame .selftestFail (by decide), (State.nextBeat_rel _).frame .selftestFail (by decide)]
  rfl

/-- With no transition the watch state, the last transition and the sticky doubt stay, and the next doubt comes in. -/
theorem State.entered_watch_of_none {u : State} (h : u.transition = none) :
    u.entered.watch.wstate = u.watch.wstate ∧ u.entered.watch.lastBeat = u.watch.lastBeat ∧ u.entered.watch.doubt = u.nextDoubt ∧
      u.entered.watch.sticky = u.watch.sticky := by
  obtain ⟨v, hv⟩ := (u.takeDoubt u.nextDoubt).nextBeat_watch
  have he : u.entered.watch = (u.takeDoubt u.nextDoubt).nextBeat.watch := by rw [State.entered, h]; rfl
  rw [he, hv]
  exact ⟨rfl, rfl, rfl, rfl⟩

/-- A transition is entered and recorded, and STOPPED clears the doubt. -/
theorem State.entered_watch_of_some {u : State} {g : Trigger} (h : u.transition = some g) :
    u.entered.watch.wstate = g.target ∧ u.entered.watch.lastFrom = u.watch.wstate ∧ u.entered.watch.lastTo = g.target ∧
      u.entered.watch.lastCause = g.cause ∧ u.entered.watch.lastBeat = u.entered.beat ∧
      u.entered.watch.doubt = (if g.target = .stopped then 0 else u.nextDoubt) ∧ u.entered.watch.sticky = u.watch.sticky := by
  obtain ⟨v, hv⟩ := (u.takeDoubt u.nextDoubt).nextBeat_watch
  have hb : u.entered.beat = (u.takeDoubt u.nextDoubt).nextBeat.beat := (State.takeTransition_rel _ _).frame .beat (by decide)
  obtain ⟨a, b, hw⟩ := (u.takeDoubt u.nextDoubt).nextBeat.takeTransition_watch g
  obtain ⟨wstate, lastFrom, lastTo, lastCause, lastBeat, sticky, doubt⟩ :=
    (u.takeDoubt u.nextDoubt).nextBeat.enterWatch_fields g.target g.cause
  have he : u.entered = (u.takeDoubt u.nextDoubt).nextBeat.takeTransition (some g) := by rw [State.entered, h]
  rw [hb, he, hw]
  rw [hv] at lastFrom sticky doubt
  exact ⟨wstate, lastFrom, lastTo, lastCause, lastBeat, doubt, sticky⟩

/-! ### What a beat commits -/

theorem State.openBeat_watch {α : Type} (s : State) (i : BeatIn) (f : WatchState → α)
    (hf : ∀ w : WatchState, f w = f { w with trig := s.watch.trig, causes := s.watch.causes, clears := s.watch.clears } := by
      exact fun _ => rfl) :
    f (s.openBeat i).watch = f s.watch :=
  (State.openBeat_rel s i).frame.watch_field (by decide) f hf

/-- Commit and opening keep the watch state, the last transition and the doubt; the word is committed and the sticky doubt collects. -/
theorem State.commit_openBeat_watch (x : State) (o : Option Trigger) (d : BitVec 8) (i : BeatIn) :
    let w := ((x.commit o d).openBeat i).watch
    w.wstate = x.watch.wstate ∧ w.lastFrom = x.watch.lastFrom ∧ w.lastTo = x.watch.lastTo ∧ w.lastCause = x.watch.lastCause ∧
      w.lastBeat = x.watch.lastBeat ∧ w.doubt = x.watch.doubt ∧ w.sticky = x.watch.sticky ||| x.watch.doubt ∧ w.verdict = x.commitWord := by
  have h := x.commit_watch o d
  refine ⟨?_, ?_, ?_, ?_, ?_, ?_, ?_, ?_⟩
  · rw [State.openBeat_watch _ i (·.wstate), h]
  · rw [State.openBeat_watch _ i (·.lastFrom), h]
  · rw [State.openBeat_watch _ i (·.lastTo), h]
  · rw [State.openBeat_watch _ i (·.lastCause), h]
  · rw [State.openBeat_watch _ i (·.lastBeat), h]
  · rw [State.openBeat_watch _ i (·.doubt), h]
  · rw [State.openBeat_watch _ i (·.sticky), h]
  · rw [State.openBeat_watch _ i (·.verdict), h]

theorem State.commit_openBeat_keeps (x : State) (o : Option Trigger) (d : BitVec 8) (i : BeatIn) :
    let t := (x.commit o d).openBeat i
    t.beat = x.beat ∧ t.selftestFail = x.selftestFail ∧ t.st = x.st := by
  have hc := (State.commit_rel x o d).frame
  have ho := (State.openBeat_rel (x.commit o d) i).frame
  exact ⟨(ho .beat (by decide)).trans (hc .beat (by decide)),
    (ho .selftestFail (by decide)).trans (hc .selftestFail (by decide)), (ho .st (by decide)).trans (hc .st (by decide))⟩

theorem State.settle_startUpFault_beat (s : State) : s.settle.startUpFault.beat = s.beat := by
  rw [(State.startUpFault_rel _).frame .beat (by decide), (State.settle_rel s).frame .beat (by decide)]

theorem exec_beat {s : State} (i : BeatIn) (hp : s.powered = true) (hx : s.xtalOk = true) :
    exec (.beat i) s = .next (s.beatStep i) := by
  show s.island (fun s => if s.clocked then s.beatStep i else s) = _
  rw [island_eq hp, if_pos (by simp [State.clocked, hp, hx])]

/-- Without power or crystal no beat passes. -/
theorem exec_beat_stopped {s : State} (i : BeatIn) (h : ¬(s.powered = true ∧ s.xtalOk = true)) : exec (.beat i) s = .next s := by
  have hc : s.clocked = false := by simpa [State.clocked] using h
  show s.island (fun s => if s.clocked then s.beatStep i else s) = _
  simp [State.island, hc]

theorem State.commitWord_fields {x : State} (hs : x.selftestFail = false) (hr : x.st.running = false) :
    bits x.commitWord.toNat 29 3 = x.watch.wstate.code ∧
      bits x.commitWord.toNat 17 8 = (if x.watch.wstate = .stopped then 0 else x.watch.doubt.toNat) ∧
      bits x.commitWord.toNat 8 4 = x.beat % 16 := by
  have hw : x.commitWord = x.verdictWord := by simp [State.commitWord, hs, hr]
  rw [hw]
  exact x.verdictWord_bits

/-- Settles O9: the committed state is the entered one (`entered_watch_of_some`, `entered_watch_of_none`) with its word. -/
theorem beatCommits : Obligations.BeatCommits := by
  intro s i hp hx
  rw [exec_beat i hp hx, goes_next, State.beatStep_eq]
  dsimp only
  rw [← s.settle_startUpFault_beat]
  generalize s.settle.startUpFault = u
  obtain ⟨wstate, lastFrom, lastTo, lastCause, lastBeat, doubt, sticky, verdict⟩ :=
    u.entered.commit_openBeat_watch u.transition u.watch.doubt i
  obtain ⟨beat, failed, st⟩ := u.entered.commit_openBeat_keeps u.transition u.watch.doubt i
  rw [wstate, lastFrom, lastTo, lastCause, lastBeat, doubt, sticky, verdict, beat, failed, st]
  refine ⟨u.entered_beat, fun g hg => ?_, fun hn => ?_, fun hn => ?_, ?_, ?_, u.entered.commitWord_ok, fun hs hr => ?_, fun hs => ?_⟩
  · obtain ⟨wstate, lastFrom, lastTo, lastCause, lastBeat, -, -⟩ := State.entered_watch_of_some hg
    exact ⟨wstate, lastFrom, lastTo, lastCause, lastBeat⟩
  · obtain ⟨wstate, lastBeat, -, -⟩ := State.entered_watch_of_none hn
    exact ⟨wstate, lastBeat⟩
  · cases ht : u.transition with
    | none =>
      obtain ⟨-, -, doubt, -⟩ := State.entered_watch_of_none ht
      exact doubt
    | some g =>
      obtain ⟨-, -, -, -, -, doubt, -⟩ := State.entered_watch_of_some ht
      rw [doubt, if_neg (hn g ht)]
  · rintro ⟨g, ht, hg⟩
    obtain ⟨-, -, -, -, -, doubt, -⟩ := State.entered_watch_of_some ht
    rw [doubt, if_pos hg]
  · cases ht : u.transition with
    | none =>
      obtain ⟨-, -, -, sticky⟩ := State.entered_watch_of_none ht
      rw [sticky]
    | some g =>
      obtain ⟨-, -, -, -, -, -, sticky⟩ := State.entered_watch_of_some ht
      rw [sticky]
  · exact State.commitWord_fields hs hr
  · simp [State.commitWord, hs]

/-! ### Which commands move the watch -/

theorem movesWatch_cases {c : Instr} (h : movesWatch c = true) :
    (∃ i, c = .beat i) ∨ (∃ x, c = .powerOn x) ∨ c = .aonSupplyCollapse ∨ (∃ x, c = .wake x) ∨ (∃ x, c = .lrstPressAccepted x) ∨
      ∃ x, c = .lcApply x := by
  unfold movesWatch at h
  split at h <;> simp_all

/-- A beat that ends without a self-test failure began without one, and settled the watch state of the beat before. -/
theorem State.settle_startUpFault_wstate {s : State} (h : s.settle.startUpFault.selftestFail = false) :
    s.settle.startUpFault.watch.wstate = s.watch.wstate := by
  have hs : s.settle.startUpFault = s.settle := by
    unfold State.startUpFault at h ⊢
    split
    · rw [if_pos ‹_›] at h
      cases h
    · rfl
  rw [hs]
  exact (State.settle_rel s).frame .wstate (by decide)

/-- A change of the watch state by a beat without a self-test failure is a recorded row of the table of R17. -/
theorem State.beatStep_moves (s : State) (i : BeatIn) (hs : (s.beatStep i).selftestFail = false)
    (hw : (s.beatStep i).watch.wstate ≠ s.watch.wstate) :
    (s.beatStep i).watch.lastFrom = s.watch.wstate ∧ (s.beatStep i).watch.lastTo = (s.beatStep i).watch.wstate ∧
      (s.watch.wstate, (s.beatStep i).watch.wstate, (s.beatStep i).watch.lastCause) ∈ transitionTable ∧
      (s.beatStep i).watch.lastBeat = (s.beatStep i).beat := by
  have keep := s.settle_startUpFault_wstate
  rw [State.beatStep_eq] at hs hw ⊢
  generalize s.settle.startUpFault = u at keep hs hw ⊢
  obtain ⟨wstate, lastFrom, lastTo, lastCause, lastBeat, -, -, -⟩ :=
    u.entered.commit_openBeat_watch u.transition u.watch.doubt i
  obtain ⟨beat, failed, -⟩ := u.entered.commit_openBeat_keeps u.transition u.watch.doubt i
  rw [failed, u.entered_selftestFail] at hs
  rw [wstate, ← keep hs] at hw ⊢
  rw [lastFrom, lastTo, lastCause, lastBeat, beat]
  cases ht : u.transition with
  | none =>
    obtain ⟨wstate, -, -, -⟩ := State.entered_watch_of_none ht
    exact absurd wstate hw
  | some g =>
    obtain ⟨wstate, lastFrom, lastTo, lastCause, lastBeat, -, -⟩ := State.entered_watch_of_some ht
    rw [wstate, lastTo, lastCause]
    exact ⟨lastFrom, rfl, State.transition_table ht, lastBeat⟩

/-- Settles O6: the commands from `exec_ok`, which goes through them one by one; the beat from `State.beatStep_moves`. -/
theorem watchStateChanges : Obligations.WatchStateChanges := by
  refine ⟨fun s t c ht hw => ?_, fun s t i ht hs hw => ?_⟩
  · obtain ⟨u, hu, ok⟩ := exec_ok c s
    obtain rfl : u = t := Host.Outcome.next.inj (hu.symm.trans ht)
    cases hc : movesWatch c with
    | true => exact movesWatch_cases hc
    | false => exact absurd (ok.wstate hc) hw
  · by_cases hb : s.powered = true ∧ s.xtalOk = true
    · obtain ⟨hp, hx⟩ := hb
      rw [exec_beat i hp hx] at ht
      obtain rfl := Host.Outcome.next.inj ht
      exact s.beatStep_moves i hs hw
    · rw [exec_beat_stopped i hb] at ht
      obtain rfl := Host.Outcome.next.inj ht
      exact absurd rfl hw

end Sys2Proof.Machine
end

section
/-!
PROOFS. The triggers of arming, re-trust, time-out and floor occupancy (R21, R22, R23, R73, R558).
-/
namespace Sys2Proof.Machine

theorem State.armFramesReached_of {s : State} (hw : s.watch.wstate = .arming) (hb : s.watch.countBeat = some s.beat)
    (hc : s.armFrames ≤ s.watch.cleanCnt) (hf : s.ev.floorAvail = true) : s.armFramesReached = s.addTrig .trust 0x02 :=
  if_pos ⟨hw, hb, hc, hf⟩

theorem State.retrust_of {s : State} (hw : s.watch.wstate = .floor) (hb : s.watch.countBeat = some s.beat)
    (hc : s.ldr.vals.retrustFrames ≤ s.watch.cleanCnt) (hf : s.ev.floorAvail = true) (hr : s.watch.retrustBlocked = false)
    (hm : s.watch.intent.mode ≠ 1) : s.retrust = s.addTrig .trust 0x04 :=
  if_pos ⟨hw, hb, hc, hf, hr, hm⟩

theorem State.armTimeoutDue_of {s : State} (hw : s.watch.wstate = .arming) (hb : s.watch.countBeat = some s.beat)
    (ht : s.watch.armTicks = s.armTimeout + 1) : s.armTimeoutDue = s.addTrig .stopped 0x1B :=
  if_pos ⟨hw, hb, ht⟩

theorem State.retrustBlock_of {s : State} (hl : s.floorEntryLimit ≠ 0) (he : s.floorEntryLimit < s.floorEntriesIn.length)
    (hw : s.watch.wstate ≠ .stopped) : s.retrustBlock = { s with watch := { s.watch with retrustBlocked := true } } :=
  if_pos ⟨hl, he, hw⟩

/-- A floor run that is long enough confirms the occupancy, and stops a machine in FLOOR. -/
theorem State.floorOccupancy_confirmed {s : State} (hw : s.watch.wstate = .floor)
    (hr : s.bandPersist true s.ev.floorField s.ev.floorBand ≤ s.ev.floorRun) :
    s.floorOccupancy = ({ s with ev := { s.ev with floorOcc := true } } : State).addTrig .stopping 0x10 := by
  simp [State.floorOccupancy, hw, hr]

theorem State.floorOccupancy_withdrawn {s : State} (hr : s.ev.floorRun < s.bandPersist true s.ev.floorField s.ev.floorBand) :
    s.floorOccupancy = { s with ev := { s.ev with floorOcc := false } } := by
  simp [State.floorOccupancy, Nat.not_le.2 hr]

/-- Settles O12: each command is its operation on the powered island, which acts under the conditions named. -/
theorem watchTriggers : Obligations.WatchTriggers := by
  refine ⟨fun s hp hw hb hc hf => ?_, fun s hp hw hb hc hf hr hm => ?_, fun s hp hw hb ht => ?_, fun s hp hl he hw => ?_,
    fun s hp hw hr => ?_, fun s hp hr => ?_⟩
  · exact (island_eq hp _).trans (congrArg _ (State.armFramesReached_of hw hb hc hf))
  · exact (island_eq hp _).trans (congrArg _ (State.retrust_of hw hb hc hf hr hm))
  · exact (island_eq hp _).trans (congrArg _ (State.armTimeoutDue_of hw hb ht))
  · exact (island_eq hp _).trans (congrArg _ (State.retrustBlock_of hl he hw))
  · exact (island_eq hp _).trans (congrArg _ (State.floorOccupancy_confirmed hw hr))
  · exact (island_eq hp _).trans (congrArg _ (State.floorOccupancy_withdrawn hr))

end Sys2Proof.Machine
end

section
/-!
PROOFS. The accepted commands of the mailbox that change settings (R36, R345, R387, R388, R390).
-/
namespace Sys2Proof.Machine

/-- A state with another mailbox. -/
def State.withCmd (s : State) (k : CmdState) : State := { s with cmd := k }

/-- An accepted command runs on a state that differs in the mailbox alone, and its result joins those that wait for the next beat
(R516). -/
theorem Accepted.island_mailbox {s : State} {code : Nat} {c : CmdGo} (h : Accepted s code c) (hp : s.powered = true) :
    ∃ k : CmdState,
      s.island (fun s => s.mailbox code c) = .next ((s.withCmd k).runCommand code (mailArg c) c.alive.toNat) ∧
      ∀ t : State, t.cmd = k → ∀ code result trig,
        t.answer code c.alive.toNat result trig = { t with cmd := s.mailResult c c.alive.toNat code result trig } := by
  refine ⟨{ (s.withMail c).cmd with aliveLast := c.alive.toNat }, ?_, fun t ht code result trig => ?_⟩
  · rw [island_eq hp, h.run hp]
    rfl
  · unfold State.answer
    rw [ht]
    rfl

/-! ### The conditions of the commands (R518) -/

theorem State.selectCode_eq_zero {s : State} {k : Nat} (hw : s.watch.wstate = .stopped) (hs : s.ldr.service = false)
    (hk : k < profCount (s.sec 0x11)) : s.selectCode k = 0 := by
  simp [State.selectCode, firstCode, hw, hs, hk]

theorem State.serviceEnterCode_eq_zero {s : State} (hw : s.watch.wstate = .stopped) (hm : s.pwr.mainOn = true) :
    s.serviceEnterCode = 0 := by
  simp [State.serviceEnterCode, firstCode, hw, hm]

theorem State.serviceExitCode_eq_zero {s : State} (hi : s.inService = true) (hb : s.ldr.busy = false) : s.serviceExitCode = 0 := by
  simp [State.serviceExitCode, firstCode, hi, hb]

/-! ### The commands that pass their condition (R518) -/

theorem State.run_profileSelect {t : State} {w1 alive : Nat} (h : t.selectCode (bits w1 0 3) = 0) :
    t.runCommand 4 w1 alive = (t.useProfile (bits w1 0 3)).answer 4 alive 0 none := if_pos h

theorem State.run_profileSet {t : State} {w1 alive : Nat} (h : t.setCode (bits w1 0 3) (bits w1 8 8) = 0) :
    t.runCommand 5 w1 alive = (t.setParam (bits w1 0 3) (bits w1 8 8)).answer 5 alive 0 none := if_pos h

theorem State.run_intent {t : State} {w1 alive : Nat} (h : t.watch.wstate ≠ .halt) :
    t.runCommand 6 w1 alive = (t.takeIntent w1).answer 6 alive 0 none := if_neg h

theorem State.run_serviceEnter {t : State} {w1 alive : Nat} (h : t.serviceEnterCode = 0) :
    t.runCommand 7 w1 alive = t.serviceEnter.answer 7 alive 0 none := if_pos h

theorem State.run_serviceExit {t : State} {w1 alive : Nat} (h : t.serviceExitCode = 0) :
    t.runCommand 8 w1 alive = t.serviceExit.answer 8 alive 0 none := if_pos h

theorem State.run_clearFirstArea {t : State} {w1 alive : Nat} (h : t.inService = true) :
    t.runCommand 9 w1 alive = t.clearFirst.answer 9 alive 0 none := if_pos h

/-! ### SERVICE_EXIT (R390) -/

theorem State.abortTransfer_xferOpen (s : State) : s.abortTransfer.ldr.xferOpen = false := by
  cases h : s.ldr.xferOpen with
  | true => rw [abort_ldr h]
  | false => simp [State.abortTransfer, h]

/-- A load starts with no image running, outside SERVICE and with no tick origin; a transfer is left as it was. -/
theorem State.loadStart_effect (s : State) :
    s.loadStart.ldr.loading = true ∧ s.loadStart.ldr.running = false ∧ s.loadStart.ldr.service = false ∧
      s.loadStart.ldr.xferOpen = s.ldr.xferOpen ∧ s.loadStart.sched.origin = none := by
  refine ⟨rfl, rfl, rfl, ?_, rfl⟩
  have hc : s.clearMemories.ldr = s.ldr := (State.clearMemories_rel s).frame .ldr (by decide)
  have hb : s.clearMemories.bootWatchdogs.ldr = s.clearMemories.ldr := (State.bootWatchdogs_rel _).frame .ldr (by decide)
  show (if s.keptImg.isSome then s.clearMemories.bootWatchdogs else s.clearMemories).ldr.xferOpen = _
  split
  · rw [hb, hc]
  · rw [hc]

/-! ### CLEAR_FIRST_AREA (R345) -/

theorem State.append_first_length (s : State) (fp : Nat) (e : EvRec) : (s.append fp e).evr.first.length ≤ s.evr.first.length + 1 := by
  show (if s.evr.first.length < 256 then s.evr.first ++ [_] else s.evr.first).length ≤ _
  split <;> simp

theorem State.passRecord_first_length (s : State) (port : EvPort) (e : EvRec) :
    (s.passRecord port e).evr.first.length ≤ s.evr.first.length + 1 := by
  unfold State.passRecord
  dsimp only
  split
  · split
    · simp
    · exact s.append_first_length _ e
  · exact s.append_first_length _ e

/-- One report adds at most one record to the first area. -/
theorem State.record_first_length (s : State) (port : EvPort) (code source : Nat) (cls : FaultClass) (data : Nat) :
    (s.record port code source cls data).evr.first.length ≤ s.evr.first.length + 1 := by
  unfold State.record
  dsimp only
  split
  · exact s.passRecord_first_length port _
  · split
    · split
      · exact State.passRecord_first_length _ port _
      · exact Nat.le_succ _
    · exact State.passRecord_first_length _ port _

theorem State.clearFirst_effect (s : State) : s.clearFirst.jnl.firstCopy = none ∧ s.clearFirst.evr.first.length ≤ 1 := by
  refine ⟨?_, State.record_first_length _ _ _ _ _ _⟩
  unfold State.clearFirst
  rw [(State.event_rel _ _ _).frame.jnl_field (by decide) (·.firstCopy)]

/-- Settles O19: each command runs on `s` with its mailbox, where the command's condition holds, and answers result 0. -/
theorem settingsCommands : Obligations.SettingsCommands := by
  refine ⟨fun s c hp ha hw hs hk => ?_, fun s c hp ha h0 => ?_, fun s c hp ha hw => ?_, fun s c hp ha hw hm => ?_,
    fun s c hp ha hi hb => ?_, fun s c hp ha hi => ?_⟩ <;>
    obtain ⟨k, run, answer⟩ := ha.island_mailbox hp
  · refine run.trans ?_
    rw [State.run_profileSelect (t := s.withCmd k) (State.selectCode_eq_zero hw hs hk), answer _ rfl]
    rfl
  · refine run.trans ?_
    rw [State.run_profileSet (t := s.withCmd k) h0, answer _ rfl]
    rfl
  · refine run.trans ?_
    rw [State.run_intent (t := s.withCmd k) hw, answer _ rfl]
    rfl
  · refine run.trans ?_
    rw [State.run_serviceEnter (t := s.withCmd k) (State.serviceEnterCode_eq_zero hw hm), answer _ rfl]
    rfl
  · refine goes_of_eq (run.trans (congrArg _ (State.run_serviceExit (t := s.withCmd k) (State.serviceExitCode_eq_zero hi hb)))) ?_
    rw [answer _ ((State.serviceExit_rel (s.withCmd k)).frame .cmd (by decide))]
    obtain ⟨loading, running, service, xfer, origin⟩ := (s.withCmd k).abortTransfer.loadStart_effect
    exact ⟨rfl, loading, running, service, xfer.trans (State.abortTransfer_xferOpen _), origin⟩
  · refine goes_of_eq (run.trans (congrArg _ (State.run_clearFirstArea (t := s.withCmd k) hi))) ?_
    rw [answer _ ((State.clearFirst_rel (s.withCmd k)).frame .cmd (by decide))]
    exact ⟨rfl, State.clearFirst_effect _⟩

end Sys2Proof.Machine
end

section
/-!
PROOFS. The frames of the commands: each command is one operation of the island or of the main domain, whose frame the laws of the
operations (Laws/Rel*.lean) give.
-/
namespace Sys2Proof.Machine

/-- A command acts while its domain has its supplies, and else changes nothing. -/
theorem gated_frame {c : Prop} [Decidable c] {ps : List Piece} {s t : State} (h : Rel ps s t) :
    Goes (.next (if c then t else s)) (Frame ps s) :=
  goes_next.2 h.cond.frame

/-- A command of the mailbox changes the mailbox and what its own run changes (R514 to R517). -/
theorem mailbox_frame {ps : List Piece} {code : Nat} (h : ∀ (t : State) (w alive : Nat), Rel ps t (t.runCommand code w alive))
    (w : Within [.cmd] ps) (c : CmdGo) (s : State) : Goes (s.island fun s => s.mailbox code c) (Frame ps s) :=
  island_frame (State.mailbox_rel_of h w s c)

/-- A write to a register of the main domain changes what its operation changes, or is recorded as ignored (R506). -/
theorem mainWrite_frame {ps qs : List Piece} {a w k : Nat} {s t : State}
    (he : s.regWrite a w = if s.pwr.mainOn then t else s.ignoredWrite a k) (h : Rel qs s t) (hq : Within qs ps)
    (hl : Within [.evr, .log] ps) : Goes (s.island fun s => s.regWrite a w) (Frame ps s) :=
  island_frame (he ▸ .ite (fun _ => h.weaken hq) fun _ => (State.ignoredWrite_rel s a k).weaken hl)

/-- A write to a register of the island changes what its operation changes. -/
theorem islandWrite_frame {ps : List Piece} {a w : Nat} {s t : State} (he : s.regWrite a w = t) (h : Rel ps s t) :
    Goes (s.island fun s => s.regWrite a w) (Frame ps s) :=
  island_frame (he ▸ h)

/-- A read of one register changes the bus and what the read of its word changes (R507). -/
theorem read_frame {ps qs : List Piece} {a : Nat} (ha : a % 4 = 0) (hc : regCore a = none)
    (h : ∀ t : State, Rel qs t (t.readWord a).1) (hq : Within qs ps) (hi : Within [.i3c] ps) (s : State) :
    Goes (s.island fun s => s.readReg a) (Frame ps s) :=
  island_frame (State.readReg_rel_of ha hc (fun t => (h t).weaken hq) hi s)

theorem State.cvuAliveWrite_rel (s : State) (u : Fin 16) (w : Nat) : Rel [.evr, .io, .log] s (s.regWrite (cvuAddr u.val 0x24) w) := by
  rw [State.regWrite_cvuAlive]
  exact .ite
    (fun _ => .ite (fun _ => (State.ignoredWrite_rel ..).weaken .auto) fun _ => (State.cvuAlive_rel ..).weaken .auto)
    fun _ => (State.ignoredWrite_rel ..).weaken .auto

/-- Settles O56: each command by the law of its operation, those of the mailbox and the loader through their registers. -/
theorem watchAndLoaderFrames : Obligations.WatchAndLoaderFrames :=
  ⟨
    -- The watch, the frame tick, runs, coverage, telegrams and FSYNC
    fun _ _ => gated_frame (.cond (State.beatStep_rel ..)),
    fun _ => gated_frame (State.ss1MaxTimeDue_rel ..),
    fun _ => gated_frame (State.crossCheckFault_rel ..),
    fun _ => gated_frame (State.cellRulePersist_rel ..),
    fun _ => gated_frame (State.bandDown_rel ..),
    fun _ => gated_frame (State.floorOccupancy_rel ..),
    fun _ _ => gated_frame (State.frameTick_rel ..),
    fun _ => gated_frame (State.sweepComplete_rel ..),
    fun _ => gated_frame (State.masksReady_rel ..),
    fun _ => gated_frame (State.armFramesReached_rel ..),
    fun _ => gated_frame (State.retrust_rel ..),
    fun _ => gated_frame (State.armTimeoutDue_rel ..),
    fun _ => gated_frame (State.retrustBlock_rel ..),
    fun _ _ => gated_frame (State.microopsCancelled_rel ..),
    fun _ _ _ _ => gated_frame (State.constantCopyDone_rel ..),
    fun _ _ => gated_frame (State.coverageExpiry_rel ..),
    fun _ _ => gated_frame (State.telSend_rel ..),
    fun _ => gated_frame (State.telGapEndDue_rel ..),
    fun _ _ => gated_frame (State.fsyncAssert_rel ..),
    fun _ _ => gated_frame (State.fsyncRelease_rel ..),
    fun _ _ => gated_frame (State.goldenFail_rel ..),
    -- The mailbox: ARM, STOP, RESUME, PROFILE_SELECT, PROFILE_SET, INTENT, SERVICE_ENTER, SERVICE_EXIT, CLEAR_FIRST_AREA
    -- and LC_TRANSITION, which are the codes 1 to 10
    mailbox_frame State.run1_rel .auto,
    mailbox_frame State.run2_rel .auto,
    mailbox_frame State.run3_rel .auto,
    mailbox_frame State.run4_rel .auto,
    mailbox_frame State.run5_rel .auto,
    mailbox_frame State.run6_rel .auto,
    mailbox_frame State.run7_rel .auto,
    mailbox_frame State.run8_rel .auto,
    mailbox_frame State.run9_rel .auto,
    mailbox_frame State.run10_rel .auto,
    -- LC_APPLY and the loader
    fun _ _ => gated_frame (State.lcApply_rel ..),
    fun _ => mainWrite_frame (State.regWrite_ldrOpen ..) (State.ldrOpen_rel ..) .auto .auto,
    fun _ _ => gated_frame (State.streamWrite_rel ..),
    fun _ => mainWrite_frame (State.regWrite_ldrClose ..) (State.ldrClose_rel ..) .auto .auto,
    fun _ _ => gated_frame (State.stagedVerified_rel ..),
    fun _ => mainWrite_frame (State.regWrite_ldrAbort ..) (State.ldrAbort_rel ..) .auto .auto,
    fun _ _ => mainWrite_frame (State.regWrite_ldrActivate ..) (State.ldrActivate_rel ..) .auto .auto,
    fun _ => mainWrite_frame (State.regWrite_ldrCommit ..) (State.ldrCommit_rel ..) .auto .auto,
    fun _ _ _ _ => gated_frame (State.bulkChunk_rel ..),
    fun _ _ => gated_frame (State.imageLoad_rel ..)⟩

/-- Settles O57: each command by the law of its operation, register accesses through `mainWrite_frame`, `islandWrite_frame` and
`read_frame`. -/
theorem busFrames : Obligations.BusFrames :=
  ⟨
    -- The security block
    fun _ _ _ => gated_frame (.mainReg .auto (.refl _) fun t => .comp (.refl _) (State.idGenerate_rel t _ _) .auto),
    fun _ => mainWrite_frame (State.regWrite_certProgram ..) (State.certProgram_rel ..) .auto .auto,
    fun _ => mainWrite_frame (State.regWrite_certRead ..) (State.certRead_rel ..) .auto .auto,
    fun _ => mainWrite_frame (State.regWrite_keyOp ..) (State.keyOp_rel ..) .auto .auto,
    fun _ _ => mainWrite_frame (State.regWrite_attest ..) (State.attest_rel ..) .auto .auto,
    fun _ => gated_frame (State.reportSigned_rel ..),
    fun _ => mainWrite_frame (State.regWrite_bufClear ..) (State.bufClear_rel ..) .auto .auto,
    fun _ _ => gated_frame (State.streamWrite_rel ..),
    read_frame (by decide) (by decide) State.readWord_secBuf .auto .auto,
    -- Reads with an effect
    read_frame (by decide) (by decide) State.readWord_watch .auto .auto,
    read_frame (by decide) (by decide) State.readWord_beatLo .auto .auto,
    read_frame (by decide) (by decide) State.readWord_timeLo .auto .auto,
    read_frame (by decide) (by decide) State.readWord_gridData3 .auto .auto,
    read_frame (by decide) (by decide) State.readWord_recWin0 .auto .auto,
    read_frame (by decide) (by decide) State.readWord_recWin7 .auto .auto,
    fun _ _ => gated_frame (State.readReg_rel ..),
    -- Check-ins and control registers
    fun _ => islandWrite_frame (State.regWrite_ffClear ..) (State.ffClear_rel ..),
    fun _ _ _ => gated_frame (State.taskKick_rel ..),
    fun _ _ => gated_frame (State.svcKick_rel ..),
    fun _ => islandWrite_frame (State.regWrite_standbyReq ..) (State.standbyReq_rel ..),
    fun _ _ => gated_frame (State.wakeSteps_rel ..),
    fun _ _ => islandWrite_frame (State.regWrite_accOn ..) (State.accOnReq_rel ..),
    fun _ _ => islandWrite_frame (State.regWrite_accOff ..) (State.accOffReq_rel ..),
    fun _ _ => islandWrite_frame (State.regWrite_accCycle ..) (State.accCycleReq_rel ..),
    fun _ => mainWrite_frame (State.regWrite_timeStep ..) (State.timeStepWrite_rel ..) .auto .auto,
    fun _ => mainWrite_frame (State.regWrite_jnlRdPage ..) (State.rdPage_rel ..) .auto .auto,
    fun _ => mainWrite_frame (State.regWrite_jnlFlush ..) (State.flushCmd_rel ..) .auto .auto,
    fun _ => mainWrite_frame (State.regWrite_jnlFormat ..) (State.format_rel ..) .auto .auto,
    -- Check-value units, interrupts and register writes
    fun _ _ _ _ _ => gated_frame (.ite (fun _ => .cond (State.cvuFeed_rel ..)) fun _ =>
      .mainReg .auto (.refl _) fun t => State.cvuFeed_rel t _ _ _ _),
    fun _ _ _ _ => gated_frame (.ite (fun _ => .cond (.comp (.refl _) (State.cvuAlive_rel ..) .auto)) fun _ => State.cvuAliveWrite_rel ..),
    fun _ _ => gated_frame (State.irqClear_rel ..),
    fun _ _ _ => gated_frame (State.registerWrite_rel ..),
    -- The bus's own commands
    fun _ _ => gated_frame (State.cccSet_rel ..),
    fun _ _ => gated_frame (State.cccSet_rel ..),
    fun _ => gated_frame (State.cccSet_rel ..),
    fun _ _ _ => gated_frame (State.entdaa_rel ..),
    fun _ _ => gated_frame (State.cccSet_rel ..),
    fun _ _ _ => gated_frame (State.cccSet_rel ..),
    fun _ _ => gated_frame (State.rstact_rel ..),
    fun _ => gated_frame (State.cccSet_rel ..),
    fun _ _ _ _ => gated_frame (State.hdrWrite_rel ..),
    fun _ _ _ => gated_frame (State.hdrRead_rel ..),
    fun _ _ => gated_frame (State.cccSet_rel ..),
    fun _ _ => gated_frame (State.cccSet_rel ..),
    fun _ => gated_frame (State.cccRead_rel ..),
    fun _ => gated_frame (State.cccRead_rel ..),
    fun _ => gated_frame (State.cccRead_rel ..),
    fun _ => gated_frame (State.cccRead_rel ..),
    fun _ => gated_frame (State.cccRead_rel ..),
    fun _ => gated_frame (State.getStatus_rel ..),
    fun _ => gated_frame (State.cccRead_rel ..),
    fun _ => gated_frame (State.cccRead_rel ..),
    fun _ => gated_frame (State.busReset_rel ..),
    fun _ _ => gated_frame (State.ibiRequest_rel ..),
    fun _ => gated_frame (.mk_of (.refl _) .auto .auto)⟩

/-- Settles O58: each command by the law of its operation. -/
theorem safetyFrames : Obligations.SafetyFrames :=
  ⟨
    -- Safe inputs and test pulses
    fun _ _ => gated_frame (State.safeInputDemand_rel ..),
    fun _ _ => gated_frame (State.safeInputOn_rel ..),
    fun _ _ => gated_frame (State.discrepancyFault_rel ..),
    fun _ _ _ => gated_frame (State.stuckOnFault_rel ..),
    fun _ _ _ => gated_frame (State.crossShortFault_rel ..),
    fun _ _ => gated_frame (State.chatterFault_rel ..),
    fun _ _ => gated_frame (State.tpStart_rel ..),
    fun _ _ => gated_frame (State.tpEnd_rel ..),
    fun _ _ => gated_frame (State.tpPinFault_rel ..),
    -- Encoders and speed
    fun _ _ _ _ _ => gated_frame (State.encoderEdge_rel ..),
    fun _ _ => gated_frame (State.encoderFault_rel ..),
    fun _ => gated_frame (State.measureSpeed_rel ..),
    -- Safe outputs
    fun _ _ _ => gated_frame (State.offPulseStart_rel ..),
    fun _ _ => gated_frame (State.offPulseEnd_rel ..),
    fun _ _ _ => gated_frame (State.readbackFailure_rel ..),
    -- The lock-out keys
    fun _ _ => gated_frame (State.pressTakes_rel ..),
    fun _ => gated_frame (State.lrstIgnored_rel ..),
    fun _ => gated_frame (State.lrstDiscrepancy_rel ..),
    -- Heartbeats and primaries
    fun _ _ _ _ => gated_frame (State.hbEdge_rel ..),
    fun _ _ _ => gated_frame (State.hbLost_rel ..),
    fun _ _ => gated_frame (State.hbPersistSet_rel ..),
    fun _ _ => gated_frame (State.pwrToRst_rel ..),
    fun _ _ => gated_frame (State.rstToOff_rel ..),
    fun _ _ => gated_frame (State.offBeatsOver_rel ..),
    -- Watchdogs and clocks
    fun _ _ => gated_frame (State.taskPeriodEnd_rel ..),
    fun _ => gated_frame (State.svcPeriodEnd_rel ..),
    fun _ => gated_frame (State.svcRestart_rel ..),
    fun _ => gated_frame (State.standbyTimer_rel ..),
    fun _ _ => gated_frame (State.clockTrip_rel ..),
    fun _ _ => gated_frame (State.rcFreq_rel ..),
    fun _ => gated_frame (State.crystalStop_rel ..),
    -- Faults of the island and the controller pair
    fun _ _ _ => gated_frame (State.wdMismatch_rel ..),
    fun _ _ _ _ => gated_frame (State.lockstep_rel ..),
    fun _ _ _ => gated_frame (State.tcmEcc_rel ..),
    fun _ _ => gated_frame (State.raise_rel ..),
    fun _ => gated_frame (State.quietPeriodEnd_rel ..),
    fun _ => gated_frame (.mk_of (.refl _) .auto .auto)⟩

/-- Settles O60: each command by the law of its operation; POWER_ON acts without power. -/
theorem systemFrames : Obligations.SystemFrames :=
  ⟨
    -- Streams and claims
    fun _ _ _ _ _ => gated_frame (State.csiFrameStart_rel ..),
    fun _ _ _ => gated_frame (State.csiLong_rel ..),
    fun _ _ _ _ _ => gated_frame (State.csiFrameEnd_rel ..),
    fun _ _ => gated_frame (State.forwardFail_rel ..),
    fun _ _ => gated_frame (State.crocusStagingDone_rel ..),
    fun _ _ => gated_frame (State.crocusInjectionStart_rel ..),
    fun _ _ => gated_frame (State.crocusInjectionEnd_rel ..),
    fun _ _ => gated_frame (State.crocusDeadlineDue_rel ..),
    fun _ _ _ => gated_frame (State.claimRecord_rel ..),
    fun _ _ => gated_frame (State.claimAgeExpiry_rel ..),
    fun _ _ => gated_frame (State.verdictBatch_rel ..),
    fun _ _ _ _ _ _ => gated_frame (State.csiShort_rel ..),
    fun _ _ _ => gated_frame (.cond (State.rxLockChange_rel ..)),
    -- Events and the journal
    fun _ _ _ _ => gated_frame (.cond (State.report_rel ..)),
    fun _ => gated_frame (State.flush_rel ..),
    fun _ _ _ => gated_frame (State.programFail_rel ..),
    fun _ _ => gated_frame (State.nandTimeout_rel ..),
    fun _ _ => gated_frame (State.readDisturb_rel ..),
    fun _ _ => gated_frame (State.scrub_rel ..),
    fun _ => gated_frame (State.haltSnapshot_rel ..),
    -- Temperature, rails and start-up
    fun _ _ => gated_frame (State.temperature_rel ..),
    fun _ => gated_frame (State.sensorLimit_rel ..),
    fun _ _ => gated_frame (State.comparatorTrip_rel ..),
    fun _ _ _ => gated_frame (State.railWarnEvent_rel ..),
    fun _ _ _ => gated_frame (State.railTripFault_rel ..),
    fun _ _ _ _ => gated_frame (State.avsRead_rel ..),
    fun _ _ => goes_next.2 (State.powerOnSteps_rel ..).frame,
    fun _ => gated_frame (State.collapse_rel ..),
    fun _ => gated_frame (State.standbyEnter_rel ..),
    -- Device time and the Ethernet ports
    fun _ _ _ => gated_frame (State.ptpSync_rel ..),
    fun _ _ _ => gated_frame (State.announce_rel ..),
    fun _ _ => gated_frame (State.pdelayAnswer_rel ..),
    fun _ _ => gated_frame (State.delayAsk_rel ..),
    fun _ _ _ _ => gated_frame (State.delayDone_rel ..),
    fun _ => gated_frame (State.syncLossDue_rel ..),
    fun _ _ _ => gated_frame (State.linkChange_rel ..),
    fun _ _ => gated_frame (State.tsLaneMismatch_rel ..),
    fun _ _ => gated_frame (State.timeMismatch_rel ..),
    fun _ _ _ => gated_frame (State.frameDiscarded_rel ..),
    fun _ _ => gated_frame (State.pcsFault_rel ..),
    -- The pair
    fun _ => gated_frame (State.linkTrained_rel ..),
    fun _ _ => gated_frame (State.hello_rel ..),
    fun _ _ => gated_frame (State.beatMsg_rel ..),
    fun _ _ => gated_frame (State.frameSummary_rel ..),
    fun _ => gated_frame (State.linkCrcRateDue_rel ..),
    fun _ _ => gated_frame (State.laneLost_rel ..),
    fun _ => gated_frame (State.partnerLoss_rel ..),
    fun _ _ => gated_frame (State.stageEventDue_rel ..),
    fun _ _ => gated_frame (State.stageMissingDue_rel ..),
    -- Security operations and the debugger
    fun _ => gated_frame (State.secComplete_rel ..),
    fun _ => gated_frame (State.debuggerAttach_rel ..),
    fun _ _ => gated_frame (State.debuggerHalt_rel ..),
    fun _ _ => gated_frame (State.debuggerRelease_rel ..)⟩

end Sys2Proof.Machine
end

section
/-!
PROOFS. The cell rule, the bands, the masks and the sweep of the scene grid (R61, R64, R65, R68).
-/
namespace Sys2Proof.Machine

theorem State.cellRulePersist_of_got {s : State} (h : s.ev.got = true) :
    s.cellRulePersist =
      { s with ev := { s.ev with cellRule := decide (s.bandPersist false s.ev.mainField s.ev.band ≤ s.ev.run) } } :=
  if_neg (by simp [h])

theorem State.cellRulePersist_of_not_got {s : State} (h : s.ev.got = false) : s.cellRulePersist = s := if_pos h

theorem State.masksReady_of_due {s : State} (h : s.ev.maskDue.isSome = true) :
    s.masksReady =
      { s with ev := { s.ev with mainField := s.ev.nextField, floorField := s.ev.nextFloor, maskPsi := s.ev.nextPsi
                                 maskDue := none, maskNew := true } } := by
  obtain ⟨b, hb⟩ := Option.isSome_iff_exists.1 h
  simp only [State.masksReady, hb]

/-- The band below is the first of those under `cur` whose run is complete. -/
theorem State.bandBelow_eq_some {s : State} {cur b : Nat} {runs : Vector Nat 8} (hb : b < cur) (hr : s.bandDownBeats ≤ vget runs b 0)
    (hl : ∀ c, c < b → vget runs c 0 < s.bandDownBeats) : s.bandBelow cur runs = some b := by
  rw [State.bandBelow, upto, List.find?_range_eq_some]
  refine ⟨by simpa using hr, List.mem_range.2 hb, fun c hc => ?_⟩
  simpa using hl c hc

theorem State.bandBelow_lt {s : State} {cur b : Nat} {runs : Vector Nat 8} (h : s.bandBelow cur runs = some b) : b < cur :=
  List.mem_range.1 (List.mem_of_find?_eq_some h)

/-- A band moves down or stays. -/
theorem State.bandBelow_getD_le (s : State) (cur : Nat) (runs : Vector Nat 8) : (s.bandBelow cur runs).getD cur ≤ cur := by
  cases h : s.bandBelow cur runs with
  | none => exact Nat.le_refl cur
  | some b => exact Nat.le_of_lt (State.bandBelow_lt h)

theorem State.sweepComplete_of_due {s : State} (h : s.grid.sweepSince.isSome = true) :
    s.sweepComplete =
      { s with grid := { s.grid with
          plane1 := s.grid.plane0
          plane0 := s.grid.plane0.foldl (fun a kv => Sparse.put Cell.zero a kv.1 (s.sweepCell kv.1 kv.2)) []
          sweepSince := none } } := by
  obtain ⟨b, hb⟩ := Option.isSome_iff_exists.1 h
  simp only [State.sweepComplete, hb]

/-- Settles O14: each command is its operation under the condition named. The sweep rewrites the listed cells, and leaves an unlisted
one cleared (`State.sweepCell_zero`). -/
theorem gridEvaluation : Obligations.GridEvaluation := by
  refine ⟨fun s hp hm hg => ?_, fun s hp hm hg => ?_, fun s b hp hm hb hr hl => ?_, fun s hp hm hd => ?_, fun s hp hm hd hw => ?_⟩
  · exact (main_eq hp hm _).trans (congrArg _ (State.cellRulePersist_of_got hg))
  · exact (main_eq hp hm _).trans (congrArg _ (State.cellRulePersist_of_not_got hg))
  · refine goes_main hp hm ⟨?_, s.bandBelow_getD_le _ _⟩
    exact congrArg (·.getD s.ev.band) (State.bandBelow_eq_some hb hr hl)
  · exact (main_eq hp hm _).trans (congrArg _ (State.masksReady_of_due hd))
  · refine goes_main hp hm ?_
    rw [State.sweepComplete_of_due hd]
    exact ⟨rfl, rfl, fun k => Sparse.get_rewrite s.sweepCell k hw (s.sweepCell_zero k)⟩

end Sys2Proof.Machine
end

section
/-!
PROOFS. The writes of the scene grid: of checkers (R54, R57, R58), of claims (R55) and of detection lists with their matching (R69).
-/
namespace Sys2Proof.Machine

/-! ### Checker writes -/

/-- The cell that a write of a source frame reaches: its coordinates, moved by the scroll since then (R57). -/
def State.writeCell (s : State) (w : CheckerWrite) : Option Nat :=
  cellNo (w.x - (s.scrollSince w.srcFrame).1) (w.y - (s.scrollSince w.srcFrame).2)

theorem State.applyChecker_late {s : State} {w : CheckerWrite} (h : s.lateWrite w.srcFrame = true) :
    s.applyChecker w = (s.gridErr 2).checkFailed w.graph := if_pos h

/-- A late write fails its graph's check, and leaves the plane (R57). -/
theorem State.applyChecker_late_effect {s : State} {w : CheckerWrite} (h : s.lateWrite w.srcFrame = true) :
    (s.applyChecker w).grid.plane0 = s.grid.plane0 ∧ (s.applyChecker w).grid.err.getLsbD 2 = true ∧
      (s.applyChecker w).sched.failed = s.sched.failed ||| BitVec.twoPow 64 w.graph := by
  obtain ⟨err, ⟨e, grid⟩, failed⟩ := s.late_effect 2 w.graph (by decide) _ (State.applyChecker_late h)
  exact ⟨by rw [grid], err, failed⟩

theorem State.applyChecker_outside {s : State} {w : CheckerWrite} (h : s.lateWrite w.srcFrame = false) (hk : s.writeCell w = none) :
    s.applyChecker w = s := by
  rw [State.writeCell] at hk
  simp [State.applyChecker, h, hk]

theorem State.applyChecker_cell {s : State} {w : CheckerWrite} {k : Nat} (h : s.lateWrite w.srcFrame = false)
    (hk : s.writeCell w = some k) :
    s.applyChecker w =
      ({ s with grid := { s.grid with wbuf := s.grid.wbuf + 1 } } : State).modCell k fun c => c.checkerWrite w s.frame16 := by
  rw [State.writeCell] at hk
  simp [State.applyChecker, h, hk]

/-- A cell rewritten reads as rewritten. -/
theorem State.modCell_get_same (s : State) (k : Nat) (f : Cell → Cell) (hw : Sparse.wf Cell.zero s.grid.plane0 = true) :
    Sparse.get Cell.zero (s.modCell k f).grid.plane0 k = f (Sparse.get Cell.zero s.grid.plane0 k) :=
  Sparse.get_put_same _ _ _ hw

/-- A cell rewritten leaves the others. -/
theorem State.modCell_get_other (s : State) {k j : Nat} (f : Cell → Cell) (hj : j ≠ k) (hw : Sparse.wf Cell.zero s.grid.plane0 = true) :
    Sparse.get Cell.zero (s.modCell k f).grid.plane0 j = Sparse.get Cell.zero s.grid.plane0 j :=
  Sparse.get_put_other _ _ hj hw

/-- A state with other waiting writes. -/
def State.withStalled (s : State) (ws : List CheckerWrite) : State := { s with grid := { s.grid with stalled := ws } }

theorem State.checkerWrite_room {s : State} (w : CheckerWrite) (hb : s.bufferRoom = true) (hs : s.grid.stalled = []) :
    s.checkerWrite w = s.applyChecker w := if_pos ⟨hb, hs⟩

theorem State.checkerWrite_full {s : State} (w : CheckerWrite) (hb : s.bufferRoom = false) :
    s.checkerWrite w = (s.withStalled (s.grid.stalled ++ [w])).gridErr 3 :=
  if_neg (by simp [hb])

theorem State.writeBufferRoom_idle {s : State} (h : s.grid.stalled = []) : s.writeBufferRoom = s := by
  simp only [State.writeBufferRoom, h]

theorem State.writeBufferRoom_full {s : State} (h : s.bufferRoom = false) : s.writeBufferRoom = s := by
  unfold State.writeBufferRoom
  split
  · exact if_neg (by simp [h])
  · rfl

theorem State.writeBufferRoom_room {s : State} {w : CheckerWrite} {ws : List CheckerWrite} (hs : s.grid.stalled = w :: ws)
    (hb : s.bufferRoom = true) :
    s.writeBufferRoom = (s.withStalled ws).applyChecker w := by
  simp only [State.writeBufferRoom, hs, hb, if_true, State.withStalled]

/-! ### Claim writes -/

/-- A state with other claim items waiting. -/
def State.withClaimQ (s : State) (ws : List ClaimWrite) : State := { s with grid := { s.grid with claimQ := ws } }

theorem State.claimWrite_idle {s : State} (h : s.grid.claimQ = []) : s.claimWrite = s := by
  simp only [State.claimWrite, h]

theorem State.claimWrite_full {s : State} {w : ClaimWrite} {ws : List ClaimWrite} (hq : s.grid.claimQ = w :: ws)
    (hb : s.bufferRoom = false) : s.claimWrite = s.gridErr 3 := by
  simp [State.claimWrite, hq, hb]

theorem State.claimWrite_room {s : State} {w : ClaimWrite} {ws : List ClaimWrite} (hq : s.grid.claimQ = w :: ws)
    (hb : s.bufferRoom = true) : s.claimWrite = (s.withClaimQ ws).applyClaim w := by
  simp [State.claimWrite, State.withClaimQ, hq, hb]

theorem State.applyClaim_late {s : State} {w : ClaimWrite} (h : s.lateWrite w.srcFrame = true) : s.applyClaim w = s.gridErr 2 :=
  if_pos h

theorem State.cellAt_of {s t : State} (h : t.ldr = s.ldr) (p : PoseRec) (x y : Int) : t.cellAt p x y = s.cellAt p x y := by
  show ({ s with ldr := t.ldr } : State).cellAt p x y = _
  rw [h]

theorem State.claimAt_of {s t : State} (h : t.ldr = s.ldr) (m : CamModel) (it : ClaimItem) (v : Rat × Rat) :
    t.claimAt m it v = s.claimAt m it v := by
  show ({ s with ldr := t.ldr } : State).claimAt m it v = _
  rw [h]

/-- Where a claim item falls depends on the image alone. -/
theorem State.claimCells_of {s t : State} (h : t.ldr = s.ldr) (p : PoseRec) (m : CamModel) (it : ClaimItem) :
    t.claimCells p m it = s.claimCells p m it := by
  simp only [State.claimCells, State.cellAt_of h, State.claimAt_of h]

/-- One cell of a claim item written, moved by the scroll `d` (R55, R57). -/
def State.writeClaimCell (d : Int × Int) (s : State) (c : Int × Int × Int × Option Nat) : State :=
  match cellNo (c.1 - d.1) (c.2.1 - d.2) with
  | some k => s.modCell k fun x => x.claimWrite c.2.2.1 c.2.2.2 s.frame16
  | none => s

theorem State.writeClaimCell_keeps (d : Int × Int) (s : State) (c : Int × Int × Int × Option Nat) :
    (s.writeClaimCell d c).grid.claimQ = s.grid.claimQ ∧ (s.writeClaimCell d c).grid.wbuf = s.grid.wbuf ∧
      (s.writeClaimCell d c).grid.claims = s.grid.claims := by
  unfold State.writeClaimCell
  split <;> exact ⟨rfl, rfl, rfl⟩

/-- The cells of a claim item written, and counted in the buffer (R55, R58). -/
def State.writeClaimCells (s : State) (d : Int × Int) (cells : List (Int × Int × Int × Option Nat)) : State :=
  let u := cells.foldl (State.writeClaimCell d) s
  { u with grid := { u.grid with wbuf := u.grid.wbuf + cells.length } }

theorem State.writeClaimCells_keeps (s : State) (d : Int × Int) (cells : List (Int × Int × Int × Option Nat)) :
    (s.writeClaimCells d cells).grid.claimQ = s.grid.claimQ ∧ (s.writeClaimCells d cells).grid.wbuf = s.grid.wbuf + cells.length ∧
      (s.writeClaimCells d cells).grid.claims = s.grid.claims := by
  obtain ⟨claimQ, wbuf, claims⟩ := State.foldl_claims (State.writeClaimCell d) (State.writeClaimCell_keeps d) cells s
  exact ⟨claimQ, congrArg (· + cells.length) wbuf, claims⟩

/-- The footprint centre of an object joins the claims (R55, R69). -/
def State.addClaim (s : State) (c : ObjClaim) : State := { s with grid := { s.grid with claims := c :: s.grid.claims } }

theorem State.addClaim_keeps (s : State) (c : ObjClaim) :
    (s.addClaim c).grid.claimQ = s.grid.claimQ ∧ (s.addClaim c).grid.wbuf = s.grid.wbuf ∧
      (s.addClaim c).grid.claims = c :: s.grid.claims := ⟨rfl, rfl, rfl⟩

/-- A claim item that is not late writes its cells, and an object's footprint centre joins the claims (R55). -/
theorem State.applyClaim_eq {s : State} {w : ClaimWrite} {p : PoseRec} {m : CamModel} (h : s.lateWrite w.srcFrame = false)
    (hp : s.poseOf w.srcFrame = some p) (hm : s.camModel w.cam = some m) :
    s.applyClaim w =
      let d := s.scrollSince w.srcFrame
      let t := s.writeClaimCells d (s.claimCells p m w.item)
      match w.item, s.claimCentre p m w.item with
      | .object cls _ _ _ _, some c => t.addClaim ⟨c.1 - d.1, c.2 - d.2, cls, w.srcFrame⟩
      | _, _ => t := by
  rw [State.applyClaim, if_neg (by simp [h]), hp, hm]
  generalize s.claimCells = f
  generalize s.claimCentre = g
  rfl

/-- A claim item that is not late takes its cells into the buffer, and the centre of an object becomes the newest claim. -/
theorem State.applyClaim_effect {s : State} {w : ClaimWrite} {p : PoseRec} {m : CamModel} (h : s.lateWrite w.srcFrame = false)
    (hp : s.poseOf w.srcFrame = some p) (hm : s.camModel w.cam = some m) :
    (s.applyClaim w).grid.claimQ = s.grid.claimQ ∧
      (s.applyClaim w).grid.wbuf = s.grid.wbuf + (s.claimCells p m w.item).length ∧
      ∀ c, s.claimCentre p m w.item = some c → ∀ cls x0 x1 y1 r, w.item = .object cls x0 x1 y1 r →
        (s.applyClaim w).grid.claims =
          ⟨c.1 - (s.scrollSince w.srcFrame).1, c.2 - (s.scrollSince w.srcFrame).2, cls, w.srcFrame⟩ :: s.grid.claims := by
  rw [State.applyClaim_eq h hp hm]
  dsimp only
  obtain ⟨claimQ, wbuf, claims⟩ := s.writeClaimCells_keeps (s.scrollSince w.srcFrame) (s.claimCells p m w.item)
  split
  next cls _ _ _ _ c hi hc =>
    obtain ⟨addQ, addBuf, addClaims⟩ := (s.writeClaimCells (s.scrollSince w.srcFrame) (s.claimCells p m w.item)).addClaim_keeps
      ⟨c.1 - (s.scrollSince w.srcFrame).1, c.2 - (s.scrollSince w.srcFrame).2, cls, w.srcFrame⟩
    refine ⟨addQ.trans claimQ, addBuf.trans wbuf, fun c' hc' cls' x0 x1 y1 r hi' => ?_⟩
    rw [addClaims, claims, ← Option.some.inj (hc.symm.trans hc'), ← (ClaimItem.object.inj (hi.symm.trans hi')).1]
  next hn => exact ⟨claimQ, wbuf, fun c hc cls x0 x1 y1 r hi => absurd hc (hn cls x0 x1 y1 r c hi)⟩

/-! ### Detection lists and their matching -/

theorem State.detectionCommit_fits {s : State} {cam graph : Nat} {ds : List (Int × Int × Nat × Nat)} (src : Nat)
    (h : (s.grid.objs.filter fun o => o.cam != cam).length + ds.length ≤ 1024) :
    s.detectionCommit cam src graph ds =
      { s with grid := { s.grid with
          objs := (s.grid.objs.filter fun o => o.cam != cam) ++ s.entriesOf cam src ds, matchDue := some s.beat } } :=
  if_neg (Nat.not_lt.2 h)

theorem State.detectionCommit_overflow {s : State} {cam graph : Nat} {ds : List (Int × Int × Nat × Nat)} (src : Nat)
    (h : 1024 < (s.grid.objs.filter fun o => o.cam != cam).length + ds.length) :
    s.detectionCommit cam src graph ds = (s.gridErr 0).checkFailed graph := if_pos h

theorem State.objectMatch_idle {s : State} (h : s.grid.matchDue = none) : s.objectMatch = s := by
  simp only [State.objectMatch, h]

theorem State.objectMatch_due {s : State} (h : s.grid.matchDue ≠ none) :
    s.objectMatch = { s with grid := { s.grid with
      matchDue := none
      objs := s.grid.objs.map fun o => { o with matched := o.matched || s.grid.claims.any (s.matches o) } } } := by
  obtain ⟨b, hb⟩ := Option.ne_none_iff_exists'.1 h
  simp only [State.objectMatch, hb]

theorem State.objGraceExpiry_idle {s : State} (h : s.ev.got = false) : s.objGraceExpiry = s := if_pos h

/-- The object rule holds while a subject detection stays unmatched past OBJ_GRACE (R69). -/
theorem State.objGraceExpiry_objRule {s : State} (h : s.ev.got = true) :
    s.objGraceExpiry.ev.objRule = true ↔
      ∃ o ∈ s.grid.objs, s.subject o = true ∧ o.matched = false ∧ o.commit + s.objGrace ≤ s.beat := by
  rw [State.objGraceExpiry, if_neg (by simp [h])]
  simp only [List.any_eq_true, Bool.and_eq_true, Bool.not_eq_true', decide_eq_true_eq, and_assoc]

/-! ### The commands -/

theorem exec_checkerWrite (w : CheckerWrite) (s : State) :
    exec (.checkerWrite w) s = s.inMainDomain fun s => s.checkerWrite w := rfl

theorem exec_detectionListCommit (cam : Fin 64) (src : Nat) (g : Fin 64) (ds : List (Int × Int × Nat × Nat)) (s : State) :
    exec (.detectionListCommit cam src g ds) s = s.inMainDomain fun s => s.detectionCommit cam src g ds := rfl

/-- Settles O43: each command is its operation in the case named; a grid error changes nothing but its flag (`State.gridErr_grid`). -/
theorem gridWrites : Obligations.GridWrites := by
  refine ⟨fun s w hp hm hb hs hw => ⟨fun k hl hk => ?_, fun hl hk => ?_, fun hl => ?_⟩, fun s w hp hm hb => ?_,
    fun s w ws k hp hm hs => ⟨fun hb => ?_, fun hb hw hl hk => ?_⟩, fun s hp hm => ⟨fun h => ?_, fun h => ?_⟩,
    fun s w ws hp hm hq => ⟨fun hb => ?_, fun hb hl => ?_, fun p m hb hl hpose hcam => ?_⟩,
    fun s cam src g ds hp hm => ⟨fun h => ?_, fun h => ?_⟩,
    fun s hp hm => ⟨fun h => ?_, fun h => ?_, fun h => ?_, fun h => ?_⟩⟩
  -- A checker write with room in the buffer: to a cell, outside the grid, and late
  · rw [exec_checkerWrite, main_eq hp hm, goes_next, State.checkerWrite_room w hb hs, State.applyChecker_cell hl hk]
    exact ⟨State.modCell_get_same _ _ _ hw, rfl, fun j hj => State.modCell_get_other _ _ hj hw⟩
  · rw [exec_checkerWrite, main_eq hp hm, State.checkerWrite_room w hb hs, State.applyChecker_outside hl hk]
  · rw [exec_checkerWrite, main_eq hp hm, goes_next, State.checkerWrite_room w hb hs]
    exact State.applyChecker_late_effect hl
  -- A checker write without room
  · rw [exec_checkerWrite, main_eq hp hm, goes_next, State.checkerWrite_full w hb]
    obtain ⟨e, he⟩ := (s.withStalled (s.grid.stalled ++ [w])).gridErr_grid 3
    exact ⟨by rw [he]; rfl, by rw [he]; rfl, State.gridErr_set _ 3 (by decide)⟩
  -- The release of the oldest waiting write
  · exact (main_eq hp hm _).trans (congrArg _ (State.writeBufferRoom_full hb))
  · refine goes_main hp hm ?_
    rw [State.writeBufferRoom_room hs hb, State.applyChecker_cell (s := s.withStalled ws) hl hk]
    exact ⟨rfl, State.modCell_get_same _ _ _ hw⟩
  · exact (main_eq hp hm _).trans (congrArg _ (State.writeBufferRoom_idle h))
  -- Claim writes: none waiting, without room, late, and to the cells
  · exact (main_eq hp hm _).trans (congrArg _ (State.claimWrite_idle h))
  · refine goes_main hp hm ?_
    rw [State.claimWrite_full hq hb]
    obtain ⟨e, he⟩ := s.gridErr_grid 3
    exact ⟨by rw [he]; exact hq, State.gridErr_set _ 3 (by decide)⟩
  · refine goes_main hp hm ?_
    rw [State.claimWrite_room hq hb, State.applyClaim_late (s := s.withClaimQ ws) hl]
    obtain ⟨e, he⟩ := (s.withClaimQ ws).gridErr_grid 2
    exact ⟨by rw [he]; rfl, State.gridErr_set _ 2 (by decide), by rw [he]; rfl⟩
  · refine goes_main hp hm ?_
    rw [State.claimWrite_room hq hb, State.claimCells_of (s := s.withClaimQ ws) (t := s) rfl]
    exact State.applyClaim_effect (s := s.withClaimQ ws) hl hpose hcam
  -- Detection lists
  · rw [exec_detectionListCommit, main_eq hp hm, goes_next, State.detectionCommit_fits src h]
    exact ⟨rfl, rfl⟩
  · rw [exec_detectionListCommit, main_eq hp hm, goes_next]
    obtain ⟨err, ⟨e, grid⟩, failed⟩ := s.late_effect 0 g (by decide) _ (State.detectionCommit_overflow src h)
    exact ⟨by rw [grid], err, failed⟩
  -- Matching and the object rule
  · exact (main_eq hp hm _).trans (congrArg _ (State.objectMatch_idle h))
  · refine goes_main hp hm ?_
    rw [State.objectMatch_due h]
    exact ⟨rfl, rfl⟩
  · exact (main_eq hp hm _).trans (congrArg _ (State.objGraceExpiry_idle h))
  · exact goes_main hp hm (State.objGraceExpiry_objRule h)

end Sys2Proof.Machine
end

section
/-!
PROOFS. The floor cycles: their start (R376), the results of the two engines, and the cells that they write (R72).
-/
namespace Sys2Proof.Machine

/-! ### The start of a cycle -/

/-- What a floor cycle needs to start (R376). -/
def State.floorMayStart (s : State) : Prop :=
  s.img.isSome = true ∧ s.floorEngineOk = true ∧ s.flr.cycle = false ∧
    (s.ctxAt (s.floorRecB 1)).delivered > (vget s.sched.lastUsed (s.floorRecB 0) none).getD 0 ∧
      (s.floorRecB 2 = 0xFF ∨ s.ctxFresh (s.floorRecB 2) = true)

theorem State.floorCycleStart_flr {s : State} (h : s.floorMayStart) :
    s.floorCycleStart.flr = { s.flr with cycle := true, res0 := none, res1 := none } :=
  congrArg State.flr (if_pos h)

theorem State.floorCycleStart_of_not {s : State} (h : ¬s.floorMayStart) : s.floorCycleStart = s := if_neg h

/-! ### The end of a cycle -/

/-- A completed cycle is over, its results are gone, and its frame is the last completed one. -/
theorem State.floorCommit_cycle (s : State) (ws : List FloorWrite) :
    (s.floorCommit ws).flr.cycle = false ∧ (s.floorCommit ws).flr.res0 = none ∧ (s.floorCommit ws).flr.res1 = none ∧
      (s.floorCommit ws).flr.lastCycle = some s.sched.frame := ⟨rfl, rfl, rfl, rfl⟩

/-- A cycle that names one cell of the grid writes that cell. -/
theorem State.floorCommit_cells_single (s : State) {w : FloorWrite} (hx : w.x < 128) (hy : w.y < 64) :
    (s.floorCommit [w]).flr.cells = Sparse.put FloorCell.zero s.flr.cells (w.y * 128 + w.x)
      ⟨(midRadius (sat8 w.lo) (sat8 w.hi)).1, (midRadius (sat8 w.lo) (sat8 w.hi)).2, s.frame16, w.height, w.cls, true⟩ := by
  show (s.floorCellWrite w).flr.cells = _
  rw [State.floorCellWrite, if_pos ⟨hx, hy⟩]

/-! ### The delivery of results -/

/-- The results of a floor engine are held for its cycle (R72). -/
def State.floorHold (s : State) (e1 : Bool) (ws : List FloorWrite) : State :=
  { s with flr := if e1 then { s.flr with res1 := some ws } else { s.flr with res0 := some ws } }

/-- Holding results leaves the cells. -/
theorem State.floorHold_cells (s : State) (e1 : Bool) (ws : List FloorWrite) : (s.floorHold e1 ws).flr.cells = s.flr.cells := by
  cases e1 <;> rfl

theorem State.floorDeliver_idle {s : State} {e1 : Bool} (ws : List FloorWrite)
    (h : s.flr.cycle = false ∨ (if e1 then s.flr.f1Ok else s.flr.f0Ok) = false) : s.floorDeliver e1 ws = s := if_pos h

/-- The first of two engines waits for the other. -/
theorem State.floorDeliver_first {s : State} {e1 : Bool} (ws : List FloorWrite) (hc : s.flr.cycle = true) (h0 : s.flr.f0Ok = true)
    (h1 : s.flr.f1Ok = true) (hr : (if e1 then s.flr.res0 else s.flr.res1) = none) : s.floorDeliver e1 ws = s.floorHold e1 ws := by
  cases e1 with
  | false =>
    have hr : s.flr.res1 = none := hr
    simp [State.floorDeliver, State.floorHold, hc, h0, h1, hr]
  | true =>
    have hr : s.flr.res0 = none := hr
    simp [State.floorDeliver, State.floorHold, hc, h0, h1, hr]

/-- The second of two engines ends the cycle: the results are compared, and their hull is written. -/
theorem State.floorDeliver_second {s : State} {e1 : Bool} (ws : List FloorWrite) {a : List FloorWrite} (hc : s.flr.cycle = true)
    (h0 : s.flr.f0Ok = true) (h1 : s.flr.f1Ok = true) (hr : (if e1 then s.flr.res0 else s.flr.res1) = some a) :
    s.floorDeliver e1 ws =
      ((s.floorHold e1 ws).floorDisagree (if e1 then a else ws) (if e1 then ws else a)).floorCommit
        (hullAll (if e1 then a else ws) (if e1 then ws else a)) := by
  cases e1 with
  | false =>
    have hr : s.flr.res1 = some a := hr
    simp [State.floorDeliver, State.floorHold, hc, h0, h1, hr]
  | true =>
    have hr : s.flr.res0 = some a := hr
    simp [State.floorDeliver, State.floorHold, hc, h0, h1, hr]

/-- An engine whose partner is lost ends the cycle alone. -/
theorem State.floorDeliver_alone {s : State} {e1 : Bool} (ws : List FloorWrite) (hc : s.flr.cycle = true)
    (hOwn : (if e1 then s.flr.f1Ok else s.flr.f0Ok) = true) (hOther : (if e1 then s.flr.f0Ok else s.flr.f1Ok) = false) :
    s.floorDeliver e1 ws = (s.floorHold e1 ws).floorCommit ws := by
  cases e1 with
  | false =>
    have h0 : s.flr.f0Ok = true := hOwn
    have h1 : s.flr.f1Ok = false := hOther
    simp [State.floorDeliver, State.floorHold, hc, h0, h1]
  | true =>
    have h0 : s.flr.f0Ok = false := hOther
    have h1 : s.flr.f1Ok = true := hOwn
    simp [State.floorDeliver, State.floorHold, hc, h0, h1]

theorem State.floorDisagree_frame (s : State) (a b : List FloorWrite) : (s.floorDisagree a b).sched.frame = s.sched.frame :=
  congrArg SchedState.frame ((State.floorDisagree_rel s a b).frame .sched (by decide))

theorem exec_floorCycleComplete (e1 : Bool) (ws : List FloorWrite) (s : State) :
    exec (.floorCycleComplete e1 ws) s = s.island fun s => s.floorDeliver e1 ws := rfl

/-- A delivery to the powered island is `State.floorDeliver`. -/
theorem goes_floorCycleComplete {s t : State} {e1 : Bool} {ws : List FloorWrite} {p : State → Prop} (hp : s.powered = true)
    (h : s.floorDeliver e1 ws = t) (ht : p t) : Goes (exec (.floorCycleComplete e1 ws) s) p := by
  rw [exec_floorCycleComplete]
  exact goes_island hp (h ▸ ht)

/-- Settles O44: the start by its condition, a delivery by what the other engine has done (`State.floorDeliver_first`,
`State.floorDeliver_second`, `State.floorDeliver_alone`), and the written cells by the laws of sparse memories. -/
theorem floorCycles : Obligations.FloorCycles := by
  refine ⟨fun s hp hc hi he hd hx => ?_, fun s hp h => ?_, fun s e1 ws hp => ⟨fun h => ?_, fun hc h0 h1 r0 r1 => ?_,
    fun a hc h0 h1 hr => ?_, fun hc hOwn hOther => ?_⟩, fun s e1 w hp hc hOwn hOther hw hx hy => ?_⟩
  · exact goes_island hp (State.floorCycleStart_flr ⟨hi, he, hc, hd, hx⟩)
  · refine (island_eq hp _).trans (congrArg _ (State.floorCycleStart_of_not ?_))
    rintro ⟨hi, he, hc, -, -⟩
    rcases h with h | h | h
    · exact Bool.noConfusion (hc.symm.trans h)
    · rw [h] at hi
      exact Bool.noConfusion hi
    · exact Bool.noConfusion (he.symm.trans h)
  · rw [exec_floorCycleComplete, island_eq hp, State.floorDeliver_idle ws h]
  · have hr : (if e1 then s.flr.res0 else s.flr.res1) = none := by cases e1 <;> assumption
    exact goes_floorCycleComplete hp (State.floorDeliver_first ws hc h0 h1 hr) rfl
  · refine goes_floorCycleComplete hp (State.floorDeliver_second ws hc h0 h1 hr) ?_
    obtain ⟨cycle, res0, res1, last⟩ := State.floorCommit_cycle
      ((s.floorHold e1 ws).floorDisagree (if e1 then a else ws) (if e1 then ws else a))
      (hullAll (if e1 then a else ws) (if e1 then ws else a))
    exact ⟨cycle, res0, res1, last.trans (congrArg some (State.floorDisagree_frame ..))⟩
  · exact goes_floorCycleComplete hp (State.floorDeliver_alone ws hc hOwn hOther) ⟨rfl, rfl⟩
  · refine goes_floorCycleComplete hp (State.floorDeliver_alone [w] hc hOwn hOther) ?_
    rw [State.floorCommit_cells_single _ hx hy, State.floorHold_cells]
    exact ⟨Sparse.get_put_same _ _ _ hw, fun j hj => Sparse.get_put_other _ _ hj hw⟩

end Sys2Proof.Machine
end

section
/-!
PROOFS. The faults of cores, engines, memories and read-backs (R70, R72, R103, R104, R120, R121, R180, R282, R351).
-/
namespace Sys2Proof.Machine

/-- A fault raised after an operation that leaves fault collection, the beat and the image alone reacts as one raised before it. -/
theorem State.raise_reacts_after {ps : List Piece} {s u : State} (h : Frame ps s u) {src : Nat} (c : FaultClass) (info : Nat)
    (hs : src < 128 := by omega)
    (w : (ps.contains .fc || ps.contains .beat || ps.contains .ldr || ps.contains .pwr) = false := by decide) :
    Reacts s src c info (u.raise src c info) := by
  simp only [Bool.or_eq_false_iff, List.contains_eq_mem, decide_eq_false_iff_not] at w
  obtain ⟨⟨⟨hfc, hbeat⟩, hldr⟩, hpwr⟩ := w
  exact (State.raise_reacts u src c info hs).source (h .fc hfc) (h .beat hbeat) (State.keptImg_eq (h .ldr hldr) (h .pwr hpwr))

/-! ### Cores and their engines -/

theorem State.coreFault_of_retired {s : State} {n : Nat} (g : BitVec 4) (unit : Nat) (h : (s.core n).retired = true) :
    s.coreFault n g unit = s := if_pos h

/-- A faulted core: retired with its cause, its port closed, its sequencer empty, and OFF within 2 beats (R120). -/
theorem State.coreFault_core_eq {s : State} (n : Fin 32) (g : BitVec 4) (unit : Nat) (h : (s.core n).retired = false) :
    (s.coreFault n g unit).core n =
      { s.core n with
        retired := true, cause := retireCause unit, engFault := (s.core n).engFault ||| g, portClosed := true
        offBy := some (s.beat + 2), classes := 0, seq := [] } := by
  rw [State.coreFault, if_neg (by simp [h])]
  dsimp only
  generalize hu : (State.raiseCore _ _ _ _ _ : State) = u
  have hcores : u.cores = s.cores := hu ▸ (State.raiseCore_rel ..).frame .cores (by decide)
  generalize hv : (State.modCoreEngs _ _ _ : State) = v
  have hlose : (v.loseCore n.val).core n = v.core n :=
    congrArg (fun c => vget c n.val CoreState.default) ((State.loseCore_rel v n.val).frame .cores (by decide))
  rw [hlose, ← hv]
  refine (State.modCore_at u n _).trans ?_
  rw [State.core, hcores]
  rfl

theorem CoreState.setPower_offBy (c : CoreState) (b ps : Nat) : (c.setPower b ps).offBy = c.offBy := by
  unfold CoreState.setPower
  split
  · rfl
  · split
    · split <;> rfl
    · split <;> rfl
    · rfl

/-- A core whose bound is set goes OFF (R120). -/
theorem State.coreOff_core {s : State} {b : Nat} (n : Fin 32) (h : (s.core n).offBy = some b) :
    ((s.coreOff n).core n).pwr = .off ∧ ((s.coreOff n).core n).offBy = none := by
  rw [State.coreOff, h]
  dsimp only
  rw [State.setCorePower_core _ _ _ n.isLt]
  refine ⟨CoreState.setPower_off _ _, ?_⟩
  rw [CoreState.setPower_offBy, State.modCore_at]

/-- A core's fault report leaves the engines. -/
theorem State.raiseCore_eng (s : State) (src : Nat) (c : FaultClass) (info e g : Nat) : (s.raiseCore src c info e).eng g = s.eng g :=
  congrArg (fun v => vget v g EngState.default) ((State.raiseCore_rel ..).frame .engs (by decide))

/-- A core's fault report leaves the cores. -/
theorem State.raiseCore_core (s : State) (src : Nat) (c : FaultClass) (info e n : Nat) : (s.raiseCore src c info e).core n = s.core n :=
  congrArg (fun v => vget v n CoreState.default) ((State.raiseCore_rel ..).frame .cores (by decide))

theorem State.modEng_at (s : State) {g : Nat} (f : EngState → EngState) (h : g < 128) : (s.modEng g f).eng g = f (s.eng g) :=
  vget_vmod_same h

/-- A correctable error in an engine's SRAM counts there (R121). -/
theorem State.sramCe_engine (s : State) (n : Fin 32) (e : Fin 4) :
    (s.sramCe n (some e)).eng (4 * n + e) = { s.eng (4 * n + e) with ceLocal := satInc 65535 (s.eng (4 * n + e)).ceLocal } ∧
      Reacts s (28 + n.val) .ce (e.val * 256 + 4) (s.sramCe n (some e)) := by
  refine ⟨?_, (State.raiseCore_reacts _ _ .ce _ _ (by omega)).source rfl rfl⟩
  rw [State.sramCe, State.raiseCore_eng]
  exact State.modEng_at _ _ (by omega)

/-- A correctable error in a core's shared SRAM counts there (R121). -/
theorem State.sramCe_shared (s : State) (n : Fin 32) :
    (s.sramCe n none).core n = { s.core n with ceShared := satInc 65535 (s.core n).ceShared } ∧
      Reacts s (28 + n.val) .ce 0x10 (s.sramCe n none) := by
  refine ⟨?_, (State.raiseCore_reacts _ _ .ce _ _ (by omega)).source rfl rfl⟩
  rw [State.sramCe, State.raiseCore_core]
  exact State.modCore_at _ _ _

/-! ### GDDR6 -/

/-- A fault leaves the channels of GDDR6. -/
theorem State.raise_gddr (s : State) (src : Nat) (c : FaultClass) (info : Nat) : (s.raise src c info).gddr = s.gddr :=
  (State.raise_rel ..).frame .gddr (by decide)

theorem State.gddrEdc_ok (s : State) (c : Fin 8) :
    vget (s.gddrEdc c true).gddr c GddrChan.default =
        { vget s.gddr c GddrChan.default with retryOk := (vget s.gddr c GddrChan.default).retryOk + 1 } ∧
      Reacts s (68 + c.val) .ce (s.free (2 ^ 32)) (s.gddrEdc c true) := by
  refine ⟨?_, (State.raise_reacts _ _ .ce _ (by omega)).source rfl rfl⟩
  rw [State.gddrEdc, if_pos rfl, State.raise_gddr]
  exact vget_vmod_same c.isLt

theorem State.gddrEdc_failed (s : State) (c : Fin 8) :
    (vget (s.gddrEdc c false).gddr c GddrChan.default).retryFail = (vget s.gddr c GddrChan.default).retryFail + 1 ∧
      Reacts s (68 + c.val) .uc (s.free (2 ^ 32)) (s.gddrEdc c false) := by
  refine ⟨?_, (State.raise_reacts _ _ .uc _ (by omega)).source rfl rfl⟩
  rw [State.gddrEdc, if_neg Bool.false_ne_true, State.raise_gddr]
  exact congrArg GddrChan.retryFail (vget_vmod_same c.isLt)

/-- An uncorrectable error is kept with its address, and its unit is poisoned (R104). -/
theorem State.gddrUe_effect (s : State) (c : Fin 8) (unit : Nat) :
    (vget (s.gddrUe c unit).gddr c GddrChan.default).ueSeen = true ∧
      (vget (s.gddrUe c unit).gddr c GddrChan.default).ueAddr = unit % 2 ^ 29 ∧ unit ∈ (s.gddrUe c unit).poison ∧
        Reacts s (68 + c.val) .uc (s.free (2 ^ 32)) (s.gddrUe c unit) := by
  have hchan : vget (s.gddrUe c unit).gddr c GddrChan.default =
      { vget s.gddr c GddrChan.default with ueSeen := true, ueAddr := unit % 2 ^ 29 } := by
    rw [State.gddrUe, State.raise_gddr]
    exact vget_vmod_same c.isLt
  have hpoison : (s.gddrUe c unit).poison = unit :: s.poison.filter (· != unit) := (State.raise_rel ..).frame .poison (by decide)
  rw [hchan, hpoison]
  exact ⟨rfl, rfl, List.mem_cons_self, (State.raise_reacts _ _ .uc _ (by omega)).source rfl rfl⟩

/-- The descriptor that consumes poisoned data fails; the channels, the poison and the fault stay (R104). -/
theorem execGddrUe_goes {s : State} {c : Fin 8} {unit : Nat} (who : Option (Fin 64 × Fin 2 × Nat)) {p : State → Prop}
    (hp : s.powered = true) (hm : s.pwr.mainOn = true) (h : p (s.gddrUe c unit)) (hd : ∀ g k n, p ((s.gddrUe c unit).descFail g k n)) :
    Goes (execGddrUe c unit who s) p := by
  cases who with
  | none => exact goes_main hp hm h
  | some d => exact goes_main hp hm (hd _ _ _)

/-! ### Cells of the grids -/

/-- A fault with a flag of the grid: the flag is set, the planes and the floor stay, and the fault reacts. -/
theorem State.gridErr_raise_effect (u : State) {n src : Nat} (info : Nat) (hn : n < 8) (hs : src < 128) :
    let t := (u.gridErr n).raise src .uc info
    t.grid.plane0 = u.grid.plane0 ∧ t.grid.plane1 = u.grid.plane1 ∧ t.flr = u.flr ∧ t.grid.err.getLsbD n = true ∧
      Reacts u src .uc info t := by
  have hgrid : ((u.gridErr n).raise src .uc info).grid = (u.gridErr n).grid := (State.raise_rel ..).frame .grid (by decide)
  have hflr : ((u.gridErr n).raise src .uc info).flr = (u.gridErr n).flr := (State.raise_rel ..).frame .flr (by decide)
  obtain ⟨plane0, plane1⟩ := u.gridErr_plane n
  dsimp only
  rw [hgrid, hflr]
  exact ⟨plane0, plane1, (State.gridErr_rel u n).frame .flr (by decide), u.gridErr_set n hn,
    State.raise_reacts_after (State.gridErr_rel u n).frame .uc info⟩

/-- A grid cell with an uncorrectable error is emptied, and flagged (R70). -/
theorem State.cellUe_effect (s : State) (plane1 : Bool) (k : Nat) (h0 : Sparse.wf Cell.zero s.grid.plane0 = true)
    (h1 : Sparse.wf Cell.zero s.grid.plane1 = true) :
    Sparse.get Cell.zero (if plane1 then (s.cellUe plane1 k).grid.plane1 else (s.cellUe plane1 k).grid.plane0) k = Cell.zero ∧
      (s.cellUe plane1 k).grid.err.getLsbD 4 = true ∧ Reacts s (if plane1 then 61 else 60) .uc k (s.cellUe plane1 k) := by
  cases plane1 with
  | false =>
    obtain ⟨plane0, -, -, err, reacts⟩ := State.gridErr_raise_effect (n := 4) (src := 60)
      { s with grid := { s.grid with plane0 := Sparse.put Cell.zero s.grid.plane0 k Cell.zero } } k (by decide) (by decide)
    exact ⟨(congrArg (Sparse.get Cell.zero · k) plane0).trans (Sparse.get_put_same _ _ _ h0), err, reacts.source rfl rfl⟩
  | true =>
    obtain ⟨-, plane1, -, err, reacts⟩ := State.gridErr_raise_effect (n := 4) (src := 61)
      { s with grid := { s.grid with plane1 := Sparse.put Cell.zero s.grid.plane1 k Cell.zero } } k (by decide) (by decide)
    exact ⟨(congrArg (Sparse.get Cell.zero · k) plane1).trans (Sparse.get_put_same _ _ _ h1), err, reacts.source rfl rfl⟩

/-- A floor cell with an uncorrectable error is emptied, and flagged (R72). -/
theorem State.floorCellUe_effect (s : State) (k : Nat) (h : Sparse.wf FloorCell.zero s.flr.cells = true) :
    Sparse.get FloorCell.zero (s.floorCellUe k).flr.cells k = FloorCell.zero ∧ (s.floorCellUe k).grid.err.getLsbD 7 = true ∧
      Reacts s 66 .uc k (s.floorCellUe k) := by
  obtain ⟨-, -, flr, err, reacts⟩ := State.gridErr_raise_effect (n := 7) (src := 66)
    { s with flr := { s.flr with cells := Sparse.put FloorCell.zero s.flr.cells k FloorCell.zero } } k (by decide) (by decide)
  exact ⟨(congrArg (fun f => Sparse.get FloorCell.zero f.cells k) flr).trans (Sparse.get_put_same _ _ _ h), err, reacts.source rfl rfl⟩

/-! ### Floor engines -/

/-- A floor engine that is lost already raises nothing. -/
theorem State.floorEngineFault_lost {s : State} {e1 : Bool} (unit : Nat) (h : (if e1 then s.flr.f1Ok else s.flr.f0Ok) = false) :
    s.floorEngineFault e1 unit = s := if_pos h

theorem State.floorCellWrite_flr (s : State) (w : FloorWrite) : ∃ cells, (s.floorCellWrite w).flr = { s.flr with cells := cells } := by
  unfold State.floorCellWrite
  dsimp only
  split <;> exact ⟨_, rfl⟩

theorem State.foldl_floorCellWrite_flr (s : State) (ws : List FloorWrite) :
    ∃ cells, (ws.foldl (fun t w => t.floorCellWrite w) s).flr = { s.flr with cells := cells } := by
  induction ws generalizing s with
  | nil => exact ⟨_, rfl⟩
  | cons w ws ih =>
    obtain ⟨_, hw⟩ := s.floorCellWrite_flr w
    obtain ⟨cells, hws⟩ := ih (s.floorCellWrite w)
    exact ⟨cells, by rw [List.foldl_cons, hws, hw]⟩

/-- A completed cycle changes the cells and what the cycle holds: which engines are healthy stays. -/
theorem State.floorCommit_flr (s : State) (ws : List FloorWrite) : ∃ cells, (s.floorCommit ws).flr =
    { s.flr with cells := cells, cycle := false, res0 := none, res1 := none, lastCycle := some s.sched.frame } := by
  obtain ⟨cells, h⟩ := s.foldl_floorCellWrite_flr ws
  exact ⟨cells, congrArg (fun f : FloorState =>
    { f with cycle := false, res0 := none, res1 := none, lastCycle := some s.sched.frame }) h⟩

/-- The floor without one of its engines: removed for the power-on period, its results dropped (R180). -/
def FloorState.lose (f : FloorState) (e1 : Bool) : FloorState :=
  if e1 then { f with f1Ok := false, f1Lost := true, res1 := none } else { f with f0Ok := false, f0Lost := true, res0 := none }

/-- The info word of a floor engine's fault (R180). -/
def floorFaultInfo (e1 : Bool) (unit : Nat) : Nat := 0x02000000 + b2n e1 * 65536 + unit % 256

/-- The unit codes of a floor engine (R119) fit their byte. -/
theorem floorFaultInfo_eq (e1 : Bool) (unit : Fin 6) :
    floorFaultInfo e1 (unit.val + 1) = 0x02000000 + b2n e1 * 65536 + (unit.val + 1) := by
  rw [floorFaultInfo, Nat.mod_eq_of_lt (by omega)]

/-- A floor engine's fault loses the engine and raises source 3; results that the other engine holds may end the cycle. -/
theorem State.floorEngineFault_cases {s : State} {e1 : Bool} (unit : Nat) (h : (if e1 then s.flr.f1Ok else s.flr.f0Ok) = true) :
    let u := ({ s with flr := s.flr.lose e1 } : State).raise 3 .uc (floorFaultInfo e1 unit)
    s.floorEngineFault e1 unit = u ∨ ∃ ws, s.floorEngineFault e1 unit = u.floorCommit ws := by
  rw [State.floorEngineFault, if_neg (by simp [h])]
  dsimp only
  split
  next ws _ =>
    split
    · exact .inr ⟨ws, rfl⟩
    · exact .inl rfl
  next => exact .inl rfl

theorem State.floorEngineFault_effect {s : State} {e1 : Bool} (unit : Nat) (h : (if e1 then s.flr.f1Ok else s.flr.f0Ok) = true) :
    let t := s.floorEngineFault e1 unit
    t.flr.f0Ok = (s.flr.lose e1).f0Ok ∧ t.flr.f1Ok = (s.flr.lose e1).f1Ok ∧ t.flr.f0Lost = (s.flr.lose e1).f0Lost ∧
      t.flr.f1Lost = (s.flr.lose e1).f1Lost ∧ Reacts s 3 .uc (floorFaultInfo e1 unit) t := by
  have cases := State.floorEngineFault_cases unit h
  dsimp only at cases ⊢
  generalize hu : State.raise _ 3 .uc (floorFaultInfo e1 unit) = u at cases
  have hflr : u.flr = s.flr.lose e1 := hu ▸ (State.raise_rel ..).frame .flr (by decide)
  have reacts : Reacts s 3 .uc (floorFaultInfo e1 unit) u := hu ▸ (State.raise_reacts _ 3 .uc _ (by decide)).source rfl rfl
  rw [← hflr]
  obtain ht | ⟨ws, ht⟩ := cases
  · rw [ht]
    exact ⟨rfl, rfl, rfl, rfl, reacts⟩
  · obtain ⟨cells, hcommit⟩ := u.floorCommit_flr ws
    rw [ht, hcommit]
    exact ⟨rfl, rfl, rfl, rfl, reacts.frame (State.floorCommit_rel ..) (by decide)⟩

/-! ### Read-backs and the journal's device -/

/-- A read-back breach is the fatal fault of its group (R282). -/
theorem State.readbackFailure_reacts {s : State} {g : Fin 4} {b : Bool} {code : Nat} (h : s.rbBreach g b = some code) :
    Reacts s (9 + g.val / 2) .ft ((2 * (g.val % 2) + b2n b) * 256 + code) (s.readbackFailure g b) := by
  rw [State.readbackFailure, h]
  exact (State.raise_reacts _ _ .ft _ (by show 9 + g.val / 2 < 128; omega)).source rfl rfl

theorem State.readbackFailure_none {s : State} {g : Nat} {b : Bool} (h : s.rbBreach g b = none) : s.readbackFailure g b = s := by
  simp only [State.readbackFailure, h]

/-- An operation of the device that is not over in its time is the uncorrected fault of source 92 (R351). -/
theorem State.nandTimeout_reacts {s : State} (block : Nat) (h : s.pwr.mainOn = true) :
    Reacts s 92 .uc (block % 65536 + 65536 * s.free 256) (s.nandTimeout block) := by
  rw [State.nandTimeout, if_pos h]
  exact (State.raise_reacts _ _ .uc _ (by decide)).source rfl rfl

/-! ### The commands -/

/-- Settles O31: each command by the effect of its operation. -/
theorem coreAndMemoryFaults : Obligations.CoreAndMemoryFaults := by
  refine ⟨fun s n g unit hp hm => ⟨fun hr => ?_, fun hr => ?_⟩, fun s n b hp hm ho => ?_, fun s n e hp hm => ⟨?_, ?_⟩,
    fun s c hp hm => ⟨⟨s.free (2 ^ 32), ?_⟩, ⟨s.free (2 ^ 32), ?_⟩⟩, fun s c unit who hp hm => ⟨s.free (2 ^ 32), ?_⟩,
    fun s plane1 k hp hm h0 h1 => ?_, fun s k hp hw => ?_,
    fun s unit hp => ⟨fun h => ?_, fun h => ?_, fun h => ?_, fun h => ?_⟩, fun s g b hp => ⟨fun code h => ?_, fun h => ?_⟩,
    fun s block hp hm => ⟨s.free 256, s.free_lt 256 (by decide), ?_⟩⟩
  -- Cores and their engines
  · exact (main_eq hp hm fun s => s.coreFault n g unit.toNat).trans (congrArg _ (State.coreFault_of_retired g _ hr))
  · obtain ⟨-, -, reacts⟩ := s.coreFault_core n g unit.toNat hr
    refine goes_main (f := fun s => s.coreFault n g unit.toNat) hp hm ?_
    rw [State.coreFault_core_eq n g _ hr]
    exact ⟨rfl, rfl, rfl, rfl, rfl, rfl, reacts⟩
  · exact goes_main (f := fun s => s.coreOff n) hp hm (State.coreOff_core n ho)
  · exact goes_main (f := fun s => s.sramCe n (some e)) hp hm (s.sramCe_engine n e)
  · exact goes_main (f := fun s => s.sramCe n none) hp hm (s.sramCe_shared n)
  -- GDDR6
  · exact goes_main (f := fun s => s.gddrEdc c true) hp hm (s.gddrEdc_ok c)
  · exact goes_main (f := fun s => s.gddrEdc c false) hp hm (s.gddrEdc_failed c)
  · have ue := s.gddrUe_effect c unit
    refine execGddrUe_goes who hp hm ue fun g k n => ?_
    have hfail := State.descFail_rel (s.gddrUe c unit) g k n
    obtain ⟨ueSeen, ueAddr, poison, reacts⟩ := ue
    rw [hfail.frame .gddr (by decide), hfail.frame .poison (by decide)]
    exact ⟨ueSeen, ueAddr, poison, reacts.frame hfail (by decide)⟩
  -- Cells of the grids
  · exact goes_main (f := fun s => s.cellUe plane1 k) hp hm (s.cellUe_effect plane1 k h0 h1)
  · exact goes_island (f := fun s => s.floorCellUe k) hp (s.floorCellUe_effect k hw)
  -- Floor engines
  · obtain ⟨f0Ok, -, f0Lost, -, reacts⟩ := State.floorEngineFault_effect (e1 := false) (unit.val + 1) h
    rw [floorFaultInfo_eq] at reacts
    exact goes_island (f := fun s => s.floorEngineFault false (unit.val + 1)) hp ⟨f0Ok, f0Lost, reacts⟩
  · obtain ⟨-, f1Ok, -, f1Lost, reacts⟩ := State.floorEngineFault_effect (e1 := true) (unit.val + 1) h
    rw [floorFaultInfo_eq] at reacts
    exact goes_island (f := fun s => s.floorEngineFault true (unit.val + 1)) hp ⟨f1Ok, f1Lost, reacts⟩
  · exact (island_eq hp fun s => s.floorEngineFault false (unit.val + 1)).trans (congrArg _ (State.floorEngineFault_lost _ h))
  · exact (island_eq hp fun s => s.floorEngineFault true (unit.val + 1)).trans (congrArg _ (State.floorEngineFault_lost _ h))
  -- Read-backs and the journal's device
  · exact goes_island (f := fun s => s.readbackFailure g b) hp (State.readbackFailure_reacts h)
  · exact (island_eq hp fun s => s.readbackFailure g b).trans (congrArg _ (State.readbackFailure_none h))
  · exact goes_main (f := fun s => s.nandTimeout block) hp hm (State.nandTimeout_reacts block hm)

end Sys2Proof.Machine
end

section
/-!
PROOFS. The frames of the commands of cores, micro-operations, grids, GDDR6 and periodic tests.
-/
namespace Sys2Proof.Machine

/-- GDDR_UE changes what its fault changes, and with a descriptor that consumes the poisoned data what the descriptor's failure
changes (R104). -/
theorem execGddrUe_frame (chan : Fin 8) (unit : Nat) (consumer : Option (Fin 64 × Fin 2 × Nat)) (s : State) :
    Goes (execGddrUe chan unit consumer s)
      (Frame [.fc, .evr, .so, .sched, .cores, .gddr, .poison, .freeCtr, .collected, .irq, .log] s) := by
  have h : Rel [.fc, .evr, .so, .sched, .cores, .gddr, .poison, .freeCtr, .collected, .irq, .log] s (s.gddrUe chan.val unit) :=
    (State.gddrUe_rel s chan.val unit).weaken .auto
  cases consumer with
  | none => exact gated_frame h
  | some d => exact gated_frame (h.comp (State.descFail_rel ..) .auto)

/-- Settles O59: each command by the law of its operation. -/
theorem computeFrames : Obligations.ComputeFrames :=
  ⟨
    -- Cores and their power windows
    fun _ _ _ _ => gated_frame (State.coreFault_rel ..),
    fun _ _ => gated_frame (State.coreOff_rel ..),
    fun _ _ _ => gated_frame (State.sramCe_rel ..),
    fun _ _ => gated_frame (State.windowOpen_rel ..),
    fun _ _ => gated_frame (State.windowClose_rel ..),
    fun _ _ => gated_frame (State.coreWakeDone_rel ..),
    fun _ => gated_frame (State.avsTargetChange_rel ..),
    -- Graph runs and micro-operations
    fun _ _ => gated_frame (State.runReady_rel ..),
    fun _ _ => gated_frame (State.dispatch_rel ..),
    fun _ _ _ _ _ _ => gated_frame (State.microopIssue_rel ..),
    fun _ _ _ _ _ => gated_frame (State.microopRetire_rel ..),
    fun _ _ _ _ => gated_frame (State.descFail_rel ..),
    fun _ _ _ => gated_frame (State.compareExecute_rel ..),
    fun _ _ _ _ => gated_frame (State.barrierPass_rel ..),
    -- The scene grid and the floor
    fun _ _ => gated_frame (State.checkerWrite_rel ..),
    fun _ => gated_frame (State.writeBufferRoom_rel ..),
    fun _ => gated_frame (State.claimWrite_rel ..),
    fun _ _ _ _ _ => gated_frame (State.detectionCommit_rel ..),
    fun _ => gated_frame (State.objectMatch_rel ..),
    fun _ => gated_frame (State.objGraceExpiry_rel ..),
    fun _ _ _ => gated_frame (State.cellUe_rel ..),
    fun _ => gated_frame (State.floorCycleStart_rel ..),
    fun _ _ _ => gated_frame (State.floorDeliver_rel ..),
    fun _ _ _ => gated_frame (State.floorEngineFault_rel ..),
    fun _ _ => gated_frame (State.floorCellUe_rel ..),
    -- GDDR6 and the periodic tests
    fun _ _ _ => gated_frame (State.gddrEdc_rel ..),
    execGddrUe_frame,
    fun _ _ => gated_frame (State.sliceStart_rel ..),
    fun _ _ _ _ => gated_frame (State.sliceEnd_rel ..),
    fun _ _ => gated_frame (State.sliceAbort_rel ..)⟩

end Sys2Proof.Machine
end

section
/-!
PROOFS. Windows and wakes of the cores, the target of VDD_CORE, temperature and the AVSBus (R99, R196, R213, R447 to R450).
-/
namespace Sys2Proof.Machine

/-! ### Windows and wakes -/

/-- Without ticks no window opens. -/
theorem State.windowOpen_idle {s : State} (n : Nat) (h : s.ticksRun = false) : s.windowOpen n = s := by simp [State.windowOpen, h]

/-- Without ticks no window closes. -/
theorem State.windowClose_idle {s : State} (n : Nat) (h : s.ticksRun = false) : s.windowClose n = s := by simp [State.windowClose, h]

/-- A core without work is OFF for the whole frame (R198). -/
theorem State.windowOpen_noWork {s : State} (n : Fin 32) (hm : s.pwr.mainOn = true) (ht : s.ticksRun = true)
    (h : s.windowAt n s.sched.frameBeat = none) : ((s.windowOpen n).core n).pwr = .off ∧ ((s.windowOpen n).core n).classes = 0 := by
  rw [State.windowOpen, if_pos ⟨ht, hm⟩, h, State.modCore_at, State.setCorePower_core _ _ _ n.isLt]
  exact ⟨CoreState.setPower_off _ _, rfl⟩

/-- A window sets the core's slot, clock point and classes; the clock and the power state follow in their own time (R196). -/
theorem State.windowOpen_slot {s : State} (n : Fin 32) {i : Nat} (hm : s.pwr.mainOn = true) (ht : s.ticksRun = true)
    (h : s.windowAt n s.sched.frameBeat = some (some i)) :
    ((s.windowOpen n).core n).slot = i ∧ ((s.windowOpen n).core n).wantClk = slotClock s.planB (s.slotEntry n i) ∧
      ((s.windowOpen n).core n).classes = (if (s.core n).retired then 0 else slotClasses s.planB (s.slotEntry n i)) := by
  rw [State.windowOpen, if_pos ⟨ht, hm⟩, h]
  dsimp only
  obtain ⟨k, hk⟩ := State.clockCore_core _ n.val n.isLt
  rw [hk, State.modCore_at, State.setCorePower_core _ _ _ n.isLt]
  refine ⟨rfl, rfl, ?_⟩
  dsimp only
  rw [CoreState.setPower_retired]

/-- Between windows none opens. -/
theorem State.windowOpen_between {s : State} (n : Nat) (h : s.windowAt n s.sched.frameBeat = some none) : s.windowOpen n = s := by
  simp [State.windowOpen, h]

/-- Between windows a core takes no new descriptor and goes to clock point 2 (R213). -/
theorem State.windowClose_between {s : State} (n : Fin 32) (hm : s.pwr.mainOn = true) (ht : s.ticksRun = true)
    (h : s.windowAt n s.sched.frameBeat = some none) : ((s.windowClose n).core n).classes = 0 ∧ ((s.windowClose n).core n).wantClk = 2 := by
  rw [State.windowClose, if_pos ⟨ht, hm, h⟩]
  obtain ⟨k, hk⟩ := State.clockCore_core _ n.val n.isLt
  rw [hk, State.modCore_at]
  exact ⟨rfl, rfl⟩

/-- Only a core between windows closes one. -/
theorem State.windowClose_of_ne {s : State} (n : Nat) (h : s.windowAt n s.sched.frameBeat ≠ some none) : s.windowClose n = s :=
  if_neg fun hc => h hc.2.2

/-- A core whose wake is over is ACTIVE (R99). -/
theorem State.coreWakeDone_over {s : State} (n : Fin 32) {b : Nat} (hw : (s.core n).wakeEnd = some b) (hb : b ≤ s.beat)
    (hp : (s.core n).pwr = .waking) : (s.coreWakeDone n).core n = { s.core n with pwr := .active, wakeEnd := none } := by
  rw [State.coreWakeDone, hw]
  dsimp only
  rw [if_pos ⟨hb, hp⟩, State.modCore_at]

/-- A core that does not wake stays as it is. -/
theorem State.coreWakeDone_idle {s : State} (n : Nat) (h : (s.core n).wakeEnd = none ∨ (s.core n).pwr ≠ .waking) : s.coreWakeDone n = s := by
  rw [State.coreWakeDone]
  cases hw : (s.core n).wakeEnd with
  | none => rfl
  | some b => exact if_neg fun hc => h.elim (fun e => by simp [hw] at e) fun hp => hp hc.2

/-! ### The target of VDD_CORE -/

/-- The target takes the voltage of the chosen point, and remembers the one before it for the widened window (R445, R447). -/
theorem State.avsTargetChange_pwr {s : State} (hm : s.pwr.mainOn = true) (ht : s.ticksRun = true)
    (h : voltOf s.powB s.avsPoint ≠ s.pwr.target) : s.avsTargetChange.pwr =
      { s.pwr with point := s.avsPoint, target := voltOf s.powB s.avsPoint, oldTarget := s.pwr.target, targetBeat := s.beat } := by
  simp only [State.avsTargetChange, if_pos (show s.ticksRun = true ∧ s.pwr.mainOn = true from ⟨ht, hm⟩), if_neg h]

/-- A point with the voltage in force changes no target. -/
theorem State.avsTargetChange_same {s : State} (hm : s.pwr.mainOn = true) (ht : s.ticksRun = true)
    (h : voltOf s.powB s.avsPoint = s.pwr.target) : s.avsTargetChange.pwr = { s.pwr with point := s.avsPoint } := by
  simp only [State.avsTargetChange, if_pos (show s.ticksRun = true ∧ s.pwr.mainOn = true from ⟨ht, hm⟩), if_pos h]

/-! ### Temperature -/

/-- The conversions of R449: the sensors after a reading. -/
def State.converted (s : State) (conv : List (Int × Int)) : Vector Sensor 48 :=
  vmapIdx (fun i x => if s.sensorOn i then x.convert (conv.getD i (0, 0)).1 (conv.getD i (0, 0)).2 else x) s.therm.sens

/-- A sensor after a reading: converted where it has its supply. -/
theorem State.converted_sens {s t : State} {conv : List (Int × Int)} (h : t.therm.sens = s.converted conv) (i : Fin 48) :
    t.sens i = (if s.sensorOn i then (s.sens i).convert (conv.getD i (0, 0)).1 (conv.getD i (0, 0)).2 else s.sens i) := by
  rw [State.sens, h]
  exact vget_vmapIdx _ _ _ _ i.isLt

/-- T as R449 and R450 take it from the sensors of a state, where `t0` was in force. -/
def State.newT (u : State) (t0 : Int) : Int :=
  let t := (u.highest.map (·.1)).getD t0
  if (upto 8).filter (fun p => u.sensorOn (32 + 2 * p) && u.pairLost p) = [] then t else max t118 t

/-- T depends on the sensors and on which of them have their supply. -/
theorem State.newT_congr {u v : State} (hp : u.pwr = v.pwr) (hs : u.therm.sens = v.therm.sens) (t0 : Int) : u.newT t0 = v.newT t0 := by
  have hsens : u.sens = v.sens := funext fun i => congrArg (fun w => vget w i Sensor.default) hs
  unfold State.newT State.highest State.sensorOn State.pairLost
  rw [hsens, hp]

/-- With no pair lost T is the highest valid reading (R449). -/
theorem State.newT_of_noneLost {u : State} (t0 : Int) (h : ∀ p < 8, (u.sensorOn (32 + 2 * p) && u.pairLost p) = false) :
    u.newT t0 = (u.highest.map (·.1)).getD t0 :=
  if_pos (List.filter_eq_nil_iff.2 fun p hp => by simp [h p (List.mem_range.1 hp)])

/-- With a lost pair T is at least 118 °C (R450). -/
theorem State.t118_le_newT {u : State} (t0 : Int) (h : ∃ p < 8, (u.sensorOn (32 + 2 * p) && u.pairLost p) = true) :
    t118 ≤ u.newT t0 := by
  obtain ⟨p, hp, hlost⟩ := h
  have hsome : (upto 8).filter (fun p => u.sensorOn (32 + 2 * p) && u.pairLost p) ≠ [] :=
    fun hnil => List.filter_eq_nil_iff.1 hnil p (List.mem_range.2 hp) hlost
  rw [State.newT, if_neg hsome]
  exact le_max_left _ _

/-- A reading converts the sensors and takes T from them: its events and faults change neither the sensors nor T. -/
theorem State.temperature_effect (s : State) (conv : List (Int × Int)) :
    (s.temperature conv).therm.sens = s.converted conv ∧ (s.temperature conv).therm.t = (s.temperature conv).newT s.therm.t := by
  unfold State.temperature
  dsimp only
  generalize hu : List.foldl (fun (t : State) i => if s.sensorOn i && (t.sens i).bad == 1 then t.event 0xA105 i else t) _ _ = u
  have hrel : Rel [.evr, .log] { s with therm := { s.therm with sens := s.converted conv } } u :=
    hu ▸ .foldl (.refl _) fun t i => .cond (State.event_rel ..)
  have hut : u.therm = { s.therm with sens := s.converted conv } := hrel.frame .therm (by decide)
  generalize hv : List.foldl (fun (t : State) _ => t.raise 111 .uc 0x02) u _ = v
  have hrel' : Rel [.fc, .evr, .so, .freeCtr, .collected, .irq, .log] u v := hv ▸ .foldl (.refl _) fun t _ => State.raise_rel ..
  have hvt : v.therm = u.therm := hrel'.frame .therm (by decide)
  have hvp : v.pwr = u.pwr := hrel'.frame .pwr (by decide)
  refine ⟨by simp [hvt, hut], ?_⟩
  refine Eq.trans ?_ (State.newT_congr (u := v) rfl rfl _)
  have ht : s.therm.t = v.therm.t := by rw [hvt, hut]
  have hlost : (upto 8).filter (fun p => u.sensorOn (32 + 2 * p) && u.pairLost p) =
      (upto 8).filter fun p => v.sensorOn (32 + 2 * p) && v.pairLost p := by
    simp only [State.sensorOn, State.pairLost, State.sens, hvt, hvp]
  rw [State.newT, ht, hlost]
  cases v.highest <;> rfl

/-! ### Sensors that stay invalid -/

/-- One core of SENSOR_INVALID_LIMIT. -/
def State.coreSensorLimit (s : State) (n : Nat) : State :=
  if (s.sens n).bad ≥ 4 && !(s.core n).retired then s.coreFault n 0 0x15 else s

theorem State.sensorLimit_eq (s : State) : s.sensorLimit = (upto 32).foldl State.coreSensorLimit s := rfl

theorem State.coreSensorLimit_sens (s : State) (m n : Nat) : (s.coreSensorLimit m).sens n = s.sens n :=
  congrArg (fun t : ThermState => vget t.sens n Sensor.default) ((Rel.cond (State.coreFault_rel s m 0 0x15)).frame .therm (by decide))

/-- The limit retires the core of its sensor after four bad readings, and no other. -/
theorem State.coreSensorLimit_retired (s : State) (m : Nat) (n : Fin 32) :
    ((s.coreSensorLimit m).core n).retired = ((s.core n).retired || decide (m = n.val ∧ 4 ≤ (s.sens n).bad)) := by
  unfold State.coreSensorLimit
  split
  case isTrue h =>
    rw [State.coreFault_retired]
    by_cases hm : m = n.val
    · subst hm
      simp_all
    · simp [hm]
  case isFalse h =>
    by_cases hm : m = n.val
    · subst hm
      cases hr : (s.core n).retired <;> simp_all
    · simp [hm]

theorem State.foldl_coreSensorLimit_retired (l : List Nat) (s : State) (n : Fin 32) :
    ((l.foldl State.coreSensorLimit s).core n).retired = ((s.core n).retired || decide (n.val ∈ l ∧ 4 ≤ (s.sens n).bad)) := by
  induction l generalizing s with
  | nil => simp
  | cons m l ih =>
    rw [List.foldl_cons, ih, State.coreSensorLimit_sens, State.coreSensorLimit_retired, Bool.or_assoc, ← Bool.decide_or]
    congr 2
    rw [← or_and_right, List.mem_cons, eq_comm (a := n.val)]

/-- A core is retired by its own sensor's fourth bad reading (R450). -/
theorem State.sensorLimit_retired (s : State) (n : Fin 32) :
    (s.sensorLimit.core n).retired = ((s.core n).retired || decide (4 ≤ (s.sens n).bad)) := by
  rw [State.sensorLimit_eq, State.foldl_coreSensorLimit_retired]
  simp [upto]

/-! ### The AVSBus -/

/-- The retries count as errors, and the currents of the regulators that were read are summed (R448). -/
theorem State.avsRead_pwr {s : State} (regs : List (Option (Nat × Nat))) (retries : Nat) (status : Bool) (hm : s.pwr.mainOn = true)
    (hi : s.img.isSome = true) :
    (s.avsRead regs retries status).pwr.errors = satAdd 255 s.pwr.errors retries ∧
      (s.avsRead regs retries status).pwr.i10ma = (((regs.take (regCount s.powB)).filterMap id).map (·.2)).foldl (· + ·) 0 := by
  unfold State.avsRead
  rw [if_pos ⟨hm, hi⟩]
  dsimp only
  generalize hu : List.foldl _ _ _ = u
  have he : u.pwr.errors = satAdd 255 s.pwr.errors retries := by
    subst hu
    refine List.foldlRecOn _ _ (motive := fun t : State => t.pwr.errors = satAdd 255 s.pwr.errors retries) rfl fun t ht i _ => ?_
    split
    · exact ht
    · exact (State.regUnread_errors t i).trans ht
  generalize hv : (if ((regs.take (regCount s.powB)).filterMap id).length = regCount s.powB then _ else u : State) = v
  have hev : v.pwr.errors = u.pwr.errors := by
    subst hv
    split <;> rfl
  obtain ⟨hce, hci⟩ := State.currentCheck_pwr v ((((regs.take (regCount s.powB)).filterMap id).map (·.2)).foldl (· + ·) 0)
  generalize State.currentCheck _ _ = w at *
  obtain ⟨hve, hvi⟩ := State.voltageCheck_pwr w
  have hpwr : ∀ b : Bool, (if b = true then w.voltageCheck.raise 109 .uc 0x02 else w.voltageCheck).pwr = w.voltageCheck.pwr
    | true => State.raise_pwr ..
    | false => rfl
  rw [hpwr]
  exact ⟨(hve.trans (hce.trans hev)).trans he, hvi.trans hci⟩

/-- Without an image nothing is read. -/
theorem State.avsRead_noImage {s : State} (regs : List (Option (Nat × Nat))) (retries : Nat) (status : Bool) (h : s.img = none) :
    s.avsRead regs retries status = s := if_neg fun hc => by simp [h] at hc

/-- Settles O37: each command by what its operation does to its cores, supplies or sensors. -/
theorem windowsAndTemperature : Obligations.WindowsAndTemperature := by
  refine ⟨fun s n hp hm ht => ⟨fun h => ?_, fun i h => ?_, fun h => ⟨?_, ?_⟩, fun h => ?_⟩, fun s n hp hm ht => ⟨?_, ?_⟩,
    fun s n hp hm => ⟨fun b hw hb hpw => ?_, fun h => ?_⟩, fun s hp hm ht => ⟨fun h => ?_, fun h => ?_⟩, fun s conv hp => ?_,
    fun s n hp => ?_, fun s regs retries status hp hm hi => ?_, fun s regs retries status hp hm hi => ?_⟩
  -- Windows
  · exact goes_main (f := fun s => s.windowOpen n) hp hm (State.windowOpen_noWork n hm ht h)
  · exact goes_main (f := fun s => s.windowOpen n) hp hm (State.windowOpen_slot n hm ht h)
  · exact (main_eq hp hm fun s => s.windowOpen n).trans (congrArg _ (State.windowOpen_between n h))
  · exact goes_main (f := fun s => s.windowClose n) hp hm (State.windowClose_between n hm ht h)
  · exact (main_eq hp hm fun s => s.windowClose n).trans (congrArg _ (State.windowClose_of_ne n h))
  · exact (main_eq hp hm fun s => s.windowOpen n).trans (congrArg _ (State.windowOpen_idle n ht))
  · exact (main_eq hp hm fun s => s.windowClose n).trans (congrArg _ (State.windowClose_idle n ht))
  -- Wakes
  · exact goes_main (f := fun s => s.coreWakeDone n) hp hm (State.coreWakeDone_over n hw hb hpw)
  · exact (main_eq hp hm fun s => s.coreWakeDone n).trans (congrArg _ (State.coreWakeDone_idle n h))
  -- The target of VDD_CORE
  · exact goes_main (f := State.avsTargetChange) hp hm (State.avsTargetChange_pwr hm ht h)
  · exact goes_main (f := State.avsTargetChange) hp hm (State.avsTargetChange_same hm ht h)
  -- Temperature
  · obtain ⟨hsens, ht⟩ := State.temperature_effect s conv
    refine goes_island (f := fun s => s.temperature conv) hp ⟨fun i => ?_, fun h => ?_, fun h => ?_⟩
    · exact State.converted_sens hsens i
    · exact ht.trans (State.newT_of_noneLost _ h)
    · exact ht ▸ State.t118_le_newT _ h
  · refine goes_island (f := State.sensorLimit) hp ?_
    rw [State.sensorLimit_retired]
    exact ⟨fun h => by simp [h], fun h => by simp [Nat.not_le.2 h]⟩
  -- The AVSBus
  · exact goes_main (f := fun s => s.avsRead regs retries status) hp hm (State.avsRead_pwr regs retries status hm hi)
  · exact (main_eq hp hm fun s => s.avsRead regs retries status).trans (congrArg _ (State.avsRead_noImage regs retries status hi))

end Sys2Proof.Machine
end

section
/-!
PROOFS. A move between memories: what a place in memory reads after a write, and what the write leaves (R92, R94, R102, R104, R133).
-/
namespace Sys2Proof

/-- The address of a place in its memory. -/
def MemLoc.addr : MemLoc → Nat
  | .engine a | .core a | .gddr a => a

end Sys2Proof

namespace Sys2Proof.Machine

/-! ### The memory that a place is in -/

/-- The memory that a place seen from engine `g` is in. -/
def State.memAt (s : State) (g : Nat) : MemLoc → Mem
  | .engine _ => (s.eng g).sram
  | .core _ => (s.core (g / 4)).sram
  | .gddr _ => s.gddrMem

theorem State.memRead_eq (s : State) (g n : Nat) (l : MemLoc) : s.memRead g n l = (s.memAt g l).readN l.addr n := by
  cases l <;> rfl

@[simp] theorem State.memRead_length (s : State) (g n : Nat) (l : MemLoc) : (s.memRead g n l).length = n := by
  simp [State.memRead_eq, Mem.readN, upto]

theorem EngState.sram_wf {e : EngState} (h : e.ok = true) : e.sram.wf = true := by
  simp only [EngState.ok, Bool.and_eq_true] at h
  exact h.1.1

/-- Of an engine or a core that is not there, the default with its empty memory is read. -/
theorem State.MemOk.memAt_wf {s : State} (h : s.MemOk) (g : Nat) : ∀ l, (s.memAt g l).wf = true
  | .engine _ => EngState.sram_wf (vget_of_forall (P := fun x : EngState => x.ok = true) h.engs rfl)
  | .core _ => vget_of_forall (P := fun x : CoreState => x.sram.wf = true) h.cores rfl
  | .gddr _ => h.gddr

theorem SameMem.memAt {s t : State} (h : SameMem s t) (g : Nat) : ∀ l, t.memAt g l = s.memAt g l
  | .engine _ => h.engs g
  | .core _ => h.cores (g / 4)
  | .gddr _ => h.gddr

/-! ### A write at a place -/

/-- A write at a place of an existing engine writes the place's memory from its address on. -/
theorem State.memAt_memWrite (s : State) {g : Nat} (hg : g < 128) (bs : List Byte) (l : MemLoc) :
    (s.memWrite g bs l).memAt g l = (s.memAt g l).writeN l.addr bs := by
  cases l with
  | engine a => exact congrArg EngState.sram (s.modEng_at _ hg)
  | core a => exact congrArg CoreState.sram (s.modCore_at ⟨g / 4, by omega⟩ _)
  | gddr a => rfl

/-- The bytes written at a place are the bytes read there. -/
theorem State.memRead_memWrite {s : State} {g : Nat} (hg : g < 128) {l : MemLoc} (h : (s.memAt g l).wf = true) (bs : List Byte) :
    (s.memWrite g bs l).memRead g bs.length l = bs := by
  rw [State.memRead_eq, s.memAt_memWrite hg, Mem.readN_writeN _ _ h]

/-- A byte of a place's memory outside those written reads as before. -/
theorem State.memAt_memWrite_read {s : State} {g : Nat} (hg : g < 128) {l : MemLoc} (h : (s.memAt g l).wf = true) {bs : List Byte} {x : Nat}
    (hx : x < l.addr ∨ l.addr + bs.length ≤ x) : ((s.memWrite g bs l).memAt g l).read x = (s.memAt g l).read x := by
  rw [s.memAt_memWrite hg, Mem.read_writeN_other _ hx h]

/-- GDDR6 reads as before outside the bytes written there. -/
theorem State.memWrite_gddr_read {s : State} {g : Nat} (hg : g < 128) {l : MemLoc} (h : (s.memAt g l).wf = true) {bs : List Byte} {x : Nat}
    (hx : ∀ a, l = .gddr a → x < a ∨ a + bs.length ≤ x) : (s.memWrite g bs l).gddrMem.read x = s.gddrMem.read x := by
  cases l with
  | engine _ | core _ => rfl
  | gddr a => exact State.memAt_memWrite_read hg h (hx a rfl)

/-- The memory of an engine reads as before outside the bytes written to the moving engine's own. -/
theorem State.memWrite_eng_read {s : State} {g : Nat} (hg : g < 128) {l : MemLoc} (h : (s.memAt g l).wf = true) {bs : List Byte} {j x : Nat}
    (hx : ∀ a, l = .engine a → j = g → x < a ∨ a + bs.length ≤ x) : ((s.memWrite g bs l).eng j).sram.read x = (s.eng j).sram.read x := by
  cases l with
  | gddr _ | core _ => rfl
  | engine a =>
    by_cases hj : j = g
    · subst hj
      exact State.memAt_memWrite_read hg h (hx a rfl rfl)
    · exact congrArg (fun e : EngState => e.sram.read x) (vget_vmod_other (Ne.symm hj))

/-- The memory of a core reads as before outside the bytes written to the moving engine's core. -/
theorem State.memWrite_core_read {s : State} {g : Nat} (hg : g < 128) {l : MemLoc} (h : (s.memAt g l).wf = true) {bs : List Byte} {j x : Nat}
    (hx : ∀ a, l = .core a → j = g / 4 → x < a ∨ a + bs.length ≤ x) : ((s.memWrite g bs l).core j).sram.read x = (s.core j).sram.read x := by
  cases l with
  | gddr _ | engine _ => rfl
  | core a =>
    by_cases hj : j = g / 4
    · subst hj
      exact State.memAt_memWrite_read hg h (hx a rfl rfl)
    · exact congrArg (fun c : CoreState => c.sram.read x) (vget_vmod_other (Ne.symm hj))

/-! ### The move at issue -/

theorem SameMem.charge (s : State) (n cls : Nat) (e : Rat) : SameMem s (s.charge n cls e) := ⟨rfl, fun _ => rfl, fun _ => rfl⟩

theorem SameMem.modEntry (s : State) (n : Nat) (r : DescRef) (f : SeqEntry → SeqEntry) : SameMem s (s.modEntry n r f) :=
  .modCore s n _ fun _ => rfl

/-- A move at a state with the memories of `s` writes what `s` reads at the source. -/
theorem SameMem.microEffect_move {s u : State} (h : SameMem s u) (g : Nat) (x : OpCtx) (src dst : MemLoc) (n : Nat) :
    ∃ v, SameMem s v ∧ u.microEffect g x (.move src dst n) = v.memWrite g (s.memRead g n src) dst :=
  ⟨u, h, by rw [State.microEffect, h.memRead]⟩

/-- What an issue charges and counts touches no memory, so the move writes what the state before the issue reads at the source. -/
theorem State.microopIssue_move {s : State} {g : Nat} {r : DescRef} (h : s.mayIssue g r = true) (src dst : MemLoc) (n : Nat) :
    ∃ u, SameMem s u ∧ s.microopIssue g r (.move src dst n) = u.memWrite g (s.memRead g n src) dst := by
  rw [State.microopIssue, if_pos h]
  dsimp only
  refine SameMem.microEffect_move ?_ ..
  refine .trans ?_ (.modEng _ _ _ ?_)
  · exact (SameMem.charge ..).trans (.modEntry ..)
  · exact fun _ => rfl

/-- Settles O36: the move is a write, at the destination, of the bytes read at the source, in the memories of the state before the
issue. -/
theorem memoryMoves : Obligations.MemoryMoves := by
  intro s e g c k n src dst hp hm hok hi
  refine goes_main (f := fun s => s.microopIssue e ⟨g, c, k⟩ (.move src dst n)) hp hm ?_
  obtain ⟨u, same, hmove⟩ := State.microopIssue_move hi src dst n
  have wf : (u.memAt e dst).wf = true := same.memAt e dst ▸ hok.memAt_wf e dst
  have len := s.memRead_length e n src
  rw [hmove]
  refine ⟨?_, fun x hx => ?_, fun j x hx => ?_, fun j x hx => ?_⟩
  · simpa only [len] using State.memRead_memWrite e.isLt wf (s.memRead e n src)
  · rw [State.memWrite_gddr_read e.isLt wf (len.symm ▸ hx), same.gddr]
  · rw [State.memWrite_eng_read e.isLt wf (len.symm ▸ hx), same.engs]
  · rw [State.memWrite_core_read e.isLt wf (len.symm ▸ hx), same.cores]

end Sys2Proof.Machine
end

section
/-!
PROOFS. The faults of the clocks, the watchdog copies, the controller pair, the rails and the comparators (R173, R175, R312, R314, R315,
R444, R451).
-/
namespace Sys2Proof.Machine

set_option Elab.async false

/-- A fault leaves the watchdogs. -/
theorem State.raise_wd (s : State) (src : Nat) (c : FaultClass) (info : Nat) : (s.raise src c info).wd = s.wd :=
  (State.raise_rel ..).frame .wd (by decide)

/-- A fault leaves the controller pair. -/
theorem State.raise_ctrl (s : State) (src : Nat) (c : FaultClass) (info : Nat) : (s.raise src c info).ctrl = s.ctrl :=
  (State.raise_rel ..).frame .ctrl (by decide)

/-! ### Clocks -/

/-- The stop of the crystal is kept, and is the fatal fault of source 1 (R312). -/
theorem State.crystalStop_effect {s : State} (h : s.xtalOk = true) :
    s.crystalStop.xtalOk = false ∧ Reacts s 1 .ft (s.free (2 ^ 32)) s.crystalStop := by
  rw [State.crystalStop, if_pos h]
  exact ⟨(State.raise_rel ..).frame .xtalOk (by decide), (State.raise_reacts _ 1 .ft _ (by decide)).source rfl rfl⟩

/-- A trip of a clock monitor is the fatal fault of source 18; of the watchdogs it changes at most the request to wake (R314). -/
theorem State.clockFault_effect (u : State) (info : Nat) :
    let t := (u.raise 18 .ft info).wakeRequest 7
    (t.wd = u.wd ∨ t.wd = { u.wd with wakePending := true, wakeSrc := 7 }) ∧ Reacts u 18 .ft info t := by
  have wake := (u.raise 18 .ft info).wakeRequest_wd 7
  rw [State.raise_wd] at wake
  exact ⟨wake, (u.raise_reacts 18 .ft info (by decide)).frame (State.wakeRequest_rel ..) (by decide)⟩

/-- A clock without edges is flagged: the crystal's flag, or the RC oscillator's (R314). -/
theorem State.clockTrip_effect (s : State) (rc : Bool) :
    (s.clockTrip rc).wd.xtalStopFlag = (s.wd.xtalStopFlag || !rc) ∧ (s.clockTrip rc).wd.ircStopFlag = (s.wd.ircStopFlag || rc) ∧
      Reacts s 18 .ft (b2n rc * 256 + 1) (s.clockTrip rc) := by
  obtain ⟨wd, reacts⟩ := State.clockFault_effect
    { s with wd := { s.wd with xtalStopFlag := s.wd.xtalStopFlag || !rc, ircStopFlag := s.wd.ircStopFlag || rc } } (b2n rc * 256 + 1)
  rw [State.clockTrip]
  refine ⟨?_, ?_, reacts.source rfl rfl⟩ <;> obtain wd | wd := wd <;> rw [wd]

/-- An RC oscillator that is more than 5 % off is flagged with its deviation (R314). -/
theorem State.rcFreq_off {s : State} {dev : Int} (h : 500 < dev.natAbs) :
    (s.rcFreq dev).wd.ircDev = dev ∧ (s.rcFreq dev).wd.ircFreqFlag = true ∧ Reacts s 18 .ft 0x102 (s.rcFreq dev) := by
  obtain ⟨wd, reacts⟩ := State.clockFault_effect { s with wd := { s.wd with ircDev := dev, ircFreqFlag := true } } 0x102
  rw [State.rcFreq]
  dsimp only
  rw [if_pos h]
  refine ⟨?_, ?_, reacts.source rfl rfl⟩ <;> obtain wd | wd := wd <;> rw [wd]

/-- Within 5 % the deviation is only kept (R314). -/
theorem State.rcFreq_within {s : State} {dev : Int} (h : dev.natAbs ≤ 500) :
    s.rcFreq dev = { s with wd := { s.wd with ircDev := dev } } := if_neg (Nat.not_lt.2 h)

/-! ### The controller pair -/

/-- A mismatch outside SPLIT is kept with what the comparator saw, and is the fatal fault of source 20 (R173). -/
theorem State.lockstep_effect {s : State} (kind reg cycle : Nat) (h : s.ctrl.split = false) :
    let t := s.lockstep kind reg cycle
    t.ctrl.lockstepOk = false ∧ t.ctrl.kind = kind ∧ t.ctrl.reg = (if kind = 1 then reg else 0) ∧ t.ctrl.cycle = cycle ∧
      Reacts s 20 .ft (s.free (2 ^ 32)) t := by
  rw [State.lockstep, if_neg (by simp [h])]
  dsimp only
  rw [(State.raiseAt_rel ..).frame .ctrl (by decide)]
  exact ⟨rfl, rfl, rfl, rfl, (State.raiseAt_reacts _ 20 .ft _ _ _ (by decide)).source rfl rfl⟩

/-- In SPLIT the comparators' mismatch is not raised (R178). -/
theorem State.lockstep_split {s : State} (kind reg cycle : Nat) (h : s.ctrl.split = true) : s.lockstep kind reg cycle = s := if_pos h

/-- An uncorrected TCM error is fatal (R175). -/
theorem State.tcmEcc_uncorrected (s : State) (info : Nat) :
    (s.tcmEcc true info).ctrl = s.ctrl ∧ Reacts s 21 .ft info (s.tcmEcc true info) :=
  ⟨s.raise_ctrl 21 .ft info, s.raise_reacts 21 .ft info (by decide)⟩

/-- A corrected TCM error counts (R175). -/
theorem State.tcmEcc_corrected (s : State) (info : Nat) :
    (s.tcmEcc false info).ctrl.tcmCe = satInc 65535 s.ctrl.tcmCe ∧ Reacts s 21 .ce info (s.tcmEcc false info) := by
  rw [State.tcmEcc, if_neg Bool.false_ne_true, State.raise_ctrl]
  exact ⟨rfl, (State.raise_reacts _ 21 .ce info (by decide)).source rfl rfl⟩

/-! ### Rails and comparators -/

/-- An always-on rail is watched, and a main rail while its monitor is armed (R444). -/
theorem State.railWatched_iff (s : State) (n : Nat) : s.railWatched n = true ↔ aonRail n = true ∨ s.pwr.armed.getLsbD n = true := by
  rw [State.railWatched, Bool.or_eq_true]

/-- A warning keeps the rail's voltage and its flag, and is no fault (R444). -/
theorem State.railWarnEvent_effect {s : State} {n : Nat} (mv : Nat) (hn : n < 9) (h : s.railWatched n = true) :
    vget (s.railWarnEvent n mv).pwr.mv n 0 = mv ∧ (s.railWarnEvent n mv).pwr.railWarn = s.pwr.railWarn ||| BitVec.twoPow 9 n ∧
      (s.railWarnEvent n mv).fc = s.fc := by
  refine ⟨?_, ?_, (State.railWarnEvent_rel ..).frame .fc (by decide)⟩ <;>
    rw [State.railWarnEvent, if_pos h, (State.event_rel ..).frame .pwr (by decide)]
  · exact vget_vset_same hn
  · rfl

/-- A trip keeps the rail's voltage, takes it out of its window and is fatal, from the source of its domain (R444). -/
theorem State.railTripFault_effect {s : State} {n : Nat} (mv : Nat) (hn : n < 9) (h : s.railWatched n = true) :
    vget (s.railTripFault n mv).pwr.mv n 0 = mv ∧
      (s.railTripFault n mv).pwr.inWindow = s.pwr.inWindow &&& ~~~BitVec.twoPow 9 n ∧
      Reacts s (if aonRail n then 2 else 108) .ft (n * 256 + 1) (s.railTripFault n mv) := by
  rw [State.railTripFault, if_pos h]
  dsimp only
  rw [State.raise_pwr]
  have src : (if aonRail n then 2 else 108) < 128 := by split <;> decide
  exact ⟨vget_vset_same hn, rfl, (State.raise_reacts _ _ .ft _ src).source rfl rfl⟩

/-- A monitor that is not armed raises nothing (R444). -/
theorem State.rail_unwatched {s : State} {n : Nat} (mv : Nat) (h : s.railWatched n = false) :
    s.railWarnEvent n mv = s ∧ s.railTripFault n mv = s := by
  have h' : ¬s.railWatched n = true := by simp [h]
  exact ⟨if_neg h', if_neg h'⟩

/-- A 125 °C comparator that trips is kept, and is the fatal fault of source 111 (R451). -/
theorem State.comparatorTrip_effect (s : State) (i : Fin 48) :
    ((s.comparatorTrip i).sens i).trip = true ∧ Reacts s 111 .ft (i.val * 256 + 1) (s.comparatorTrip i) := by
  rw [State.comparatorTrip, State.sens, (State.raise_rel ..).frame .therm (by decide)]
  exact ⟨congrArg Sensor.trip (vget_vmod_same i.isLt), (State.raise_reacts _ 111 .ft _ (by decide)).source rfl rfl⟩

/-! ### The commands -/

/-- Settles O30: each command by the effect of its operation. -/
theorem supervisionFaults : Obligations.SupervisionFaults := by
  refine ⟨fun s hp hx => ⟨s.free (2 ^ 32), ?_⟩, fun s hp => ?_, fun s rc hp => ?_, fun s dev hp => ⟨fun h => ?_, fun h => ?_⟩,
    fun s k i hp => ?_, fun s kind reg cycle hp => ⟨fun h => ?_, fun h => ⟨s.free (2 ^ 32), ?_⟩⟩, fun s info hp => ⟨?_, ?_, ?_⟩,
    fun s n mv hp h => ⟨?_, ?_⟩, fun s n mv hp ha hm => ?_, fun s i hp => ?_⟩
  -- Clocks
  · exact goes_island (f := State.crystalStop) hp (State.crystalStop_effect hx)
  · exact goes_island (f := fun s => { s with xtalOk := true }) hp ⟨rfl, (Rel.mk_of (.refl s) .auto .auto).frame⟩
  · exact goes_island (f := fun s => s.clockTrip rc) hp (s.clockTrip_effect rc)
  · exact goes_island (f := fun s => s.rcFreq dev) hp (State.rcFreq_off h)
  · exact (island_eq hp fun s => s.rcFreq dev).trans (congrArg _ (State.rcFreq_within h))
  · exact goes_island (f := fun s => s.wdMismatch (12 + k) i) hp ⟨State.raise_wd .., State.raise_reacts _ _ _ _ (by omega)⟩
  -- The controller pair
  · exact (island_eq hp fun s => s.lockstep kind reg cycle).trans (congrArg _ (State.lockstep_split _ _ _ h))
  · exact goes_island (f := fun s => s.lockstep kind reg cycle) hp (State.lockstep_effect _ _ _ h)
  · exact goes_island (f := fun s => s.tcmEcc true info.toNat) hp (s.tcmEcc_uncorrected _)
  · exact goes_island (f := fun s => s.tcmEcc false info.toNat) hp (s.tcmEcc_corrected _)
  · exact goes_island (f := fun s => s.raise 22 .ft info.toNat) hp (s.raise_reacts 22 .ft _ (by decide))
  -- Rails and comparators
  · exact goes_island (f := fun s => s.railWarnEvent n mv) hp
      (State.railWarnEvent_effect mv n.isLt ((s.railWatched_iff n).2 h))
  · exact goes_island (f := fun s => s.railTripFault n mv) hp
      (State.railTripFault_effect mv n.isLt ((s.railWatched_iff n).2 h))
  · obtain ⟨warn, trip⟩ := State.rail_unwatched (s := s) (n := n) mv (by rw [State.railWatched, ha, hm]; rfl)
    exact ⟨(island_eq hp fun s => s.railWarnEvent n mv).trans (congrArg _ warn),
      (island_eq hp fun s => s.railTripFault n mv).trans (congrArg _ trip)⟩
  · exact goes_island (f := fun s => s.comparatorTrip i) hp (s.comparatorTrip_effect i)

end Sys2Proof.Machine
end

section
/-!
PROOFS. The periodic self-tests: slices, aborts, coverage expiry and the golden-frame test (R187, R404, R411 to R413).
-/
namespace Sys2Proof.Machine

set_option Elab.async false

/-! ### Coverage of a test -/

/-- A change of a test's coverage leaves the other fields of the self-tests. -/
theorem State.modCov_st (s : State) (k : TestKind) (f : TestCov → TestCov) : ∃ cores links chans,
    (s.modCov k f).st = { s.st with cores := cores, links := links, chans := chans } := by
  cases k <;> exact ⟨_, _, _, rfl⟩

/-- A fault of a test leaves the self-tests. -/
theorem State.testFault_st (s : State) (k : TestKind) (c : FaultClass) (code : Nat) : (s.testFault k c code).st = s.st :=
  (State.testFault_rel ..).frame .st (by decide)

theorem State.exists_of_testInside {s : State} {k : TestKind} (h : s.testInside k = true) : k.exists' = true :=
  (Bool.and_eq_true_iff.1 h).1

/-- The core of an LBIST inside the rotation exists and is not retired (R410). -/
theorem State.testInside_lbist {s : State} {n : Nat} (h : s.testInside (.lbist n) = true) : n < 32 ∧ (s.core n).retired = false := by
  simp only [State.testInside, TestKind.exists', TestKind.involved, List.all_cons, List.all_nil, State.inRotation, Bool.and_eq_true,
    decide_eq_true_eq, Bool.not_eq_true'] at h
  obtain ⟨exists', ⟨-, retired⟩, -⟩ := h
  exact ⟨exists', retired⟩

/-! ### Slices -/

/-- Without a slice in progress none ends. -/
theorem State.sliceEnd_none {s : State} {k : TestKind} (h : s.sliceOf k = none) (a b : Bool) : s.sliceEnd k a b = s := by
  rw [State.sliceEnd, h]

/-- A wrong length is INCOMPLETE, whatever the signature (R404, R405). -/
theorem State.sliceEnd_short {s : State} {k : TestKind} {r : SliceRun} (h : s.sliceOf k = some r) (sig : Bool) :
    s.sliceEnd k false sig = (s.dropSlice k).sliceIncomplete := by
  rw [State.sliceEnd, h]
  rfl

/-- A slice is not over before its time. -/
theorem State.sliceEnd_early {s : State} {k : TestKind} {r : SliceRun} (h : s.sliceOf k = some r) (hb : s.beat < r.start + k.beats)
    (sig : Bool) : s.sliceEnd k true sig = s := by
  rw [State.sliceEnd, h]
  exact if_pos hb

/-- The end of a slice of full length of a test inside the rotation: failed, passed, or passed as the last of its test (R404, R410). -/
theorem State.sliceEnd_over {s : State} {k : TestKind} {r : SliceRun} (h : s.sliceOf k = some r) (hb : r.start + k.beats ≤ s.beat)
    (hi : s.testInside k = true) (sig : Bool) : s.sliceEnd k true sig =
      if !sig then (s.dropSlice k).sliceFails k
      else if r.slice + 1 < k.slices then (s.dropSlice k).modCov k fun c => { c with slice := r.slice + 1 }
      else (s.dropSlice k).testDone k := by
  rw [State.sliceEnd, h]
  dsimp only
  rw [Bool.not_true, if_neg Bool.false_ne_true, if_neg (Nat.not_lt.2 hb), hi, Bool.not_true, if_neg Bool.false_ne_true]

/-- A passed slice counts up to the number of its test's slices. -/
theorem State.sliceEnd_passed {s : State} {k : TestKind} {r : SliceRun} (h : s.sliceOf k = some r) (hb : r.start + k.beats ≤ s.beat)
    (hi : s.testInside k = true) (hr : r.slice + 1 < k.slices) :
    (s.sliceEnd k true true).cov k = { s.cov k with slice := r.slice + 1 } ∧
      (s.sliceEnd k true true).st.slices = s.st.slices.filter (·.kind != k) := by
  rw [State.sliceEnd_over h hb hi, Bool.not_true, if_neg Bool.false_ne_true, if_pos hr]
  refine ⟨?_, ?_⟩
  · rw [State.modCov_at _ _ _ (State.exists_of_testInside hi)]
    cases k <;> rfl
  · obtain ⟨_, _, _, st⟩ := State.modCov_st (s.dropSlice k) k fun c => { c with slice := r.slice + 1 }
    rw [st]
    rfl

/-- The last slice completes the test: its interval starts anew at the frame, or for a scrub at the beat (R410). -/
theorem State.sliceEnd_complete {s : State} {k : TestKind} {r : SliceRun} (h : s.sliceOf k = some r) (hb : r.start + k.beats ≤ s.beat)
    (hi : s.testInside k = true) (hr : k.slices ≤ r.slice + 1) :
    let t := s.sliceEnd k true true
    (t.cov k).slice = 0 ∧ (t.cov k).aborts = 0 ∧ t.st.slices = s.st.slices.filter (·.kind != k) ∧
      (∀ n, k = .lbist n ∨ k = .link n → (t.cov k).last = some s.sched.frame) ∧ (∀ n, k = .scrub n → (t.cov k).last = some s.beat) := by
  rw [State.sliceEnd_over h hb hi, Bool.not_true, if_neg Bool.false_ne_true, if_neg (Nat.not_lt.2 hr)]
  exact State.testDone_cov (s.dropSlice k) k (State.exists_of_testInside hi)

/-- A failed LBIST slice starts its test anew and retires the core, with the cause of unit code 0x17 (R409). -/
theorem State.sliceEnd_lbist_failed {s : State} {n : Nat} {r : SliceRun} (h : s.sliceOf (.lbist n) = some r)
    (hb : r.start + (TestKind.lbist n).beats ≤ s.beat) (hi : s.testInside (.lbist n) = true) :
    let t := s.sliceEnd (.lbist n) true false
    (t.cov (.lbist n)).slice = 0 ∧ (t.core n).retired = true ∧ (t.core n).cause = 6 := by
  obtain ⟨hn, hret⟩ := State.testInside_lbist hi
  rw [State.sliceEnd_over h hb hi, Bool.not_false, if_pos rfl, State.sliceFails]
  dsimp only
  generalize hu : State.modCov _ _ _ = u
  have slice : (u.cov (.lbist n)).slice = 0 := hu ▸ congrArg TestCov.slice (State.modCov_at _ _ _ (State.exists_of_testInside hi))
  have retired : (u.core n).retired = false := hu ▸ hret
  obtain ⟨lost, cause, -⟩ := u.coreFault_core ⟨n, hn⟩ 0 0x17 retired
  rw [State.cov_eq (s := u) _ ((State.coreFault_rel ..).frame .st (by decide))]
  exact ⟨slice, lost, cause⟩

/-! ### Aborts -/

theorem State.sliceAbort_none {s : State} {k : TestKind} (h : s.sliceOf k = none) : s.sliceAbort k = s := by
  rw [State.sliceAbort, h]

/-- A slice that has not begun is not aborted (R413). -/
theorem State.sliceAbort_early {s : State} {k : TestKind} {r : SliceRun} (h : s.sliceOf k = some r) (hb : s.beat ≤ r.start) :
    s.sliceAbort k = s := by
  rw [State.sliceAbort, h]
  exact if_pos hb

/-- An aborted slice is INCOMPLETE, and counts for its test and in all (R413, R414). -/
theorem State.sliceAbort_effect {s : State} {k : TestKind} {r : SliceRun} (h : s.sliceOf k = some r) (hb : r.start < s.beat)
    (he : k.exists' = true) :
    let t := s.sliceAbort k
    (t.cov k).aborts = (s.cov k).aborts + 1 ∧ t.st.aborts = satInc 65535 s.st.aborts ∧ t.st.incomplete = satInc 65535 s.st.incomplete ∧
      t.st.slices = s.st.slices.filter (·.kind != k) := by
  rw [State.sliceAbort, h]
  dsimp only
  rw [if_neg (Nat.not_le.2 hb)]
  generalize hu : State.modCov _ _ _ = u
  generalize hv : State.event _ 0xD102 _ = v
  obtain ⟨_, _, _, ust⟩ := State.modCov_st (s.dropSlice k).sliceIncomplete k fun c => { c with aborts := c.aborts + 1 }
  have ucov : u.cov k = { s.cov k with aborts := (s.cov k).aborts + 1 } := by
    rw [← hu, State.modCov_at _ _ _ he]
    cases k <;> rfl
  have vst : v.st = { u.st with aborts := satInc 65535 u.st.aborts } := hv ▸ (State.event_rel ..).frame .st (by decide)
  have vcov : v.cov k = u.cov k := by cases k <;> simp only [State.cov, vst]
  have fault : (if 17 ≤ (v.cov k).aborts ∧ ((v.cov k).aborts - 17) % 16 = 0 then v.testFault k .ce 0x1A else v).st = v.st := by
    split
    · exact State.testFault_st ..
    · rfl
  rw [State.cov_eq k fault, fault, vcov, ucov, vst, ← hu, ust]
  exact ⟨rfl, rfl, rfl, rfl⟩

/-! ### Coverage expiry -/

/-- A test is judged once in a frame (R411). -/
theorem State.coverageExpiry_judged {s : State} {k : TestKind} (h : (s.cov k).judged = some s.sched.frame) : s.coverageExpiry k = s :=
  if_neg (by simp [h])

/-- The judgment of a test at the end of a frame: a test that was due in it has expired (R411). -/
theorem State.coverageExpiry_eq {s : State} {k : TestKind} (ht : s.ticksRun = true) (hf : 1 ≤ s.sched.frame)
    (hi : s.testInside k = true) (hj : (s.cov k).judged ≠ some s.sched.frame) :
    let u := s.modCov k fun c => { c with judged := some s.sched.frame }
    s.coverageExpiry k =
      if s.dueIn k (s.sched.frame - 1) then
        ({ u with st := { u.st with expired := u.st.expired ||| BitVec.twoPow 3 k.expiredBit } } : State).testFault k .uc 0x19
      else u := if_pos (by simp [ht, hf, hi, hj])

/-- An expired test sets the bit of its kind (R411, R419). -/
theorem State.coverageExpiry_due {s : State} {k : TestKind} (ht : s.ticksRun = true) (hf : 1 ≤ s.sched.frame)
    (hi : s.testInside k = true) (hj : (s.cov k).judged ≠ some s.sched.frame) (hd : s.dueIn k (s.sched.frame - 1) = true) :
    (s.coverageExpiry k).st.expired = s.st.expired ||| BitVec.twoPow 3 k.expiredBit ∧
      (s.coverageExpiry k).cov k = { s.cov k with judged := some s.sched.frame } := by
  rw [State.coverageExpiry_eq ht hf hi hj, if_pos hd, State.cov_eq _ (State.testFault_st ..), State.testFault_st]
  refine ⟨?_, ?_⟩
  · obtain ⟨_, _, _, st⟩ := s.modCov_st k fun c => { c with judged := some s.sched.frame }
    rw [st]
  · refine Eq.trans ?_ (s.modCov_at k (fun c => { c with judged := some s.sched.frame }) (State.exists_of_testInside hi))
    cases k <;> rfl

/-- A test that was not due is only judged (R411). -/
theorem State.coverageExpiry_notDue {s : State} {k : TestKind} (ht : s.ticksRun = true) (hf : 1 ≤ s.sched.frame)
    (hi : s.testInside k = true) (hj : (s.cov k).judged ≠ some s.sched.frame) (hd : s.dueIn k (s.sched.frame - 1) = false) :
    (s.coverageExpiry k).st.expired = s.st.expired ∧ (s.coverageExpiry k).cov k = { s.cov k with judged := some s.sched.frame } ∧
      (s.coverageExpiry k).fc = s.fc := by
  obtain ⟨_, _, _, st⟩ := s.modCov_st k fun c => { c with judged := some s.sched.frame }
  rw [State.coverageExpiry_eq ht hf hi hj, if_neg (by simp [hd]), State.modCov_at _ _ _ (State.exists_of_testInside hi), st]
  exact ⟨rfl, rfl, (State.modCov_rel ..).frame .fc (by decide)⟩

/-! ### The golden-frame test -/

/-- A core whose golden run can be bad is not retired (R187). -/
theorem State.retired_of_goldenBad {s : State} {n : Nat} (h : s.goldenBad n = true) : (s.core n).retired = false := by
  simp only [State.goldenBad, Bool.and_eq_true, Bool.not_eq_true'] at h
  obtain ⟨⟨⟨⟨-, retired⟩, -⟩, -⟩, -⟩ := h
  exact retired

/-- A golden failure counts with its core, which is retired (R187). -/
theorem State.goldenFail_effect {s : State} (n : Fin 32) (h : s.goldenBad n = true) :
    (s.goldenFail n).golden = { s.golden with lastFail := n, fails := satInc 255 s.golden.fails } ∧
      ((s.goldenFail n).core n).retired = true ∧ Reacts s (28 + n.val) .uc 0x18 (s.goldenFail n) := by
  rw [State.goldenFail, if_pos h]
  obtain ⟨retired, -, reacts⟩ := State.coreFault_core
    { s with golden := { s.golden with lastFail := n, fails := satInc 255 s.golden.fails } } n 0 0x18 (State.retired_of_goldenBad h)
  exact ⟨(State.coreFault_rel ..).frame .golden (by decide), retired, reacts.source rfl rfl⟩

/-! ### The commands -/

/-- Settles O34: each command by the case of its operation. -/
theorem periodicTests : Obligations.PeriodicTests := by
  refine ⟨fun s k hp hm => ⟨fun h => ?_, fun h => ?_⟩,
    fun s k r hp hm hr => ⟨fun sig => ?_, fun sig hb => ?_, fun hb hi hs => ?_, fun hb hi hs => ?_, fun n hk hb hi => ?_, fun hb => ?_,
      fun hb he => ?_⟩,
    fun s k hp hm hr => ⟨fun a b => ?_, ?_⟩, fun s k hp hm ht hf hi hj => ⟨fun hd => ?_, fun hd => ?_⟩, fun s k hp hm hj => ?_,
    fun s n hp hm => ⟨fun h => ?_, fun h => ?_⟩⟩
  -- Slices
  · exact (main_eq hp hm fun s => s.sliceStart k).trans (congrArg _ (if_pos h))
  · exact (main_eq hp hm fun s => s.sliceStart k).trans (congrArg _ (if_neg (by simp [h])))
  · exact (main_eq hp hm fun s => s.sliceEnd k false sig).trans (congrArg _ (State.sliceEnd_short hr sig))
  · exact (main_eq hp hm fun s => s.sliceEnd k true sig).trans (congrArg _ (State.sliceEnd_early hr hb sig))
  · exact goes_main (f := fun s => s.sliceEnd k true true) hp hm (State.sliceEnd_passed hr hb hi hs)
  · exact goes_main (f := fun s => s.sliceEnd k true true) hp hm (State.sliceEnd_complete hr hb hi hs)
  · subst hk
    exact goes_main (f := fun s => s.sliceEnd (.lbist n) true false) hp hm (State.sliceEnd_lbist_failed hr hb hi)
  -- Aborts
  · exact (main_eq hp hm fun s => s.sliceAbort k).trans (congrArg _ (State.sliceAbort_early hr hb))
  · exact goes_main (f := fun s => s.sliceAbort k) hp hm (State.sliceAbort_effect hr hb he)
  · exact (main_eq hp hm fun s => s.sliceEnd k a b).trans (congrArg _ (State.sliceEnd_none hr a b))
  · exact (main_eq hp hm fun s => s.sliceAbort k).trans (congrArg _ (State.sliceAbort_none hr))
  -- Coverage expiry
  · exact goes_main (f := fun s => s.coverageExpiry k) hp hm (State.coverageExpiry_due ht hf hi hj hd)
  · exact goes_main (f := fun s => s.coverageExpiry k) hp hm (State.coverageExpiry_notDue ht hf hi hj hd)
  · exact (main_eq hp hm fun s => s.coverageExpiry k).trans (congrArg _ (State.coverageExpiry_judged hj))
  -- The golden-frame test
  · exact goes_main (f := fun s => s.goldenFail n) hp hm (State.goldenFail_effect n h)
  · exact (main_eq hp hm fun s => s.goldenFail n).trans (congrArg _ (if_neg (by simp [h])))

end Sys2Proof.Machine
end

section
/-!
PROOFS. The frame tick (R193): what it closes (R20, R21, R59, R72, R206, R279), and the frame that it begins (R36, R46, R62, R65,
R410).
-/
namespace Sys2Proof.Machine

/-! ### The count of clean frames -/

theorem State.countFrame_keeps_intent (s : State) :
    s.countFrame.watch.intent = s.watch.intent ∧ s.countFrame.watch.intentNext = s.watch.intentNext ∧
      s.countFrame.watch.intentAge = s.watch.intentAge := by
  unfold State.countFrame
  dsimp only
  split <;> exact ⟨rfl, rfl, rfl⟩

/-- In ARMING and FLOOR a tick counts the frame that closes (R21, R22, R558). -/
theorem State.countFrame_of_counting {s : State} (h : s.watch.wstate = .arming ∨ s.watch.wstate = .floor) :
    s.countFrame = { s with watch := { s.watch with
      cleanCnt := if s.watch.doubt ≠ 0 then 0 else if s.watch.partialFrame then s.watch.cleanCnt
        else if s.closedClean then satInc 255 s.watch.cleanCnt else 0
      partialFrame := false, countBeat := some s.beat
      armTicks := if s.watch.wstate == .arming then s.watch.armTicks + 1 else s.watch.armTicks } } :=
  if_pos (by simpa using h)

/-! ### What a tick does before the new frame begins -/

/-- The part of FRAME_TICK before the new frame begins: frame 0 closes nothing (notes/assumptions/17.md). -/
def State.frameCloses (s : State) (a : Nat) : State :=
  if s.sched.frame = 0 then (s.takeDistance.numericFlags).newRuns else (((s.frameEnds a).numericFlags).newRuns).frameTravel

theorem State.frameTick_eq_frameBegins {s : State} (a : Nat) (h : s.sched.tickDue = true) :
    s.frameTick a = (s.frameCloses a).frameBegins := s.frameTick_eq a h

theorem State.frameCloses_first_rel {s : State} (a : Nat) (h : s.sched.frame = 0) :
    Rel [.evr, .enc, .sched, .engs, .log] s (s.frameCloses a) := by
  rw [State.frameCloses, if_pos h]
  exact .comp (.comp ((State.takeDistance_rel s).weaken .auto) (State.numericFlags_rel _) .auto) (State.newRuns_rel _) .auto

theorem State.frameCloses_later {s : State} (a : Nat) (h : s.sched.frame ≠ 0) :
    s.frameCloses a = (((s.frameEnds a).numericFlags).newRuns).frameTravel := if_neg h

/-- What the end of a frame leaves for the frame's travel and its runs to change. -/
theorem State.frameCloses_later_rel {s : State} (a : Nat) (h : s.sched.frame ≠ 0) :
    Rel [.evr, .enc, .sched, .engs, .grid, .flr, .collected, .log] (s.frameEnds a) (s.frameCloses a) := by
  rw [State.frameCloses_later a h]
  exact .comp (.comp ((State.numericFlags_rel _).weaken .auto) (State.newRuns_rel _) .auto) (State.frameTravel_rel _) .auto

/-- Of the watch, what closes a later frame changes its count alone. -/
theorem State.frameCloses_counted_rel {s : State} (a : Nat) (h : s.sched.frame ≠ 0) :
    Rel [.fc, .evr, .enc, .so, .pwr, .sched, .engs, .grid, .flr, .io, .freeCtr, .collected, .irq, .log] s.countFrame (s.frameCloses a) :=
  .comp ((s.frameEnds_effect a).1.weaken .auto) (State.frameCloses_later_rel a h) .auto

/-- What closes a frame keeps what the frame that begins takes up. -/
theorem State.frameCloses_keeps (s : State) (a : Nat) :
    (s.frameCloses a).beat = s.beat ∧ (s.frameCloses a).ev = s.ev ∧ (s.frameCloses a).watch.intent = s.watch.intent ∧
      (s.frameCloses a).watch.intentNext = s.watch.intentNext ∧ (s.frameCloses a).watch.intentAge = s.watch.intentAge := by
  by_cases h : s.sched.frame = 0
  · have fr := (State.frameCloses_first_rel a h).frame
    exact ⟨fr .beat (by decide), fr .ev (by decide), fr.watch_field (by decide) (·.intent), fr.watch_field (by decide) (·.intentNext),
      fr.watch_field (by decide) (·.intentAge)⟩
  · have fr := (State.frameCloses_counted_rel a h).frame
    have fc := s.countFrame_rel.frame
    obtain ⟨intent, next, age⟩ := s.countFrame_keeps_intent
    exact ⟨(fr .beat (by decide)).trans (fc .beat (by decide)), (fr .ev (by decide)).trans (fc .ev (by decide)),
      (fr.watch_field (by decide) (·.intent)).trans intent, (fr.watch_field (by decide) (·.intentNext)).trans next,
      (fr.watch_field (by decide) (·.intentAge)).trans age⟩

/-- An operation that leaves the encoders alone leaves their frame sums. -/
theorem Frame.encAt {ps : List Piece} {s t : State} (h : Frame ps s t) (hp : Piece.enc ∉ ps) (e : Nat) : t.encAt e = s.encAt e :=
  congrArg (fun x : EncState => vget x.enc e Encoder.default) (h .enc hp)

theorem State.frameTravel_sums (s : State) (e : Nat) : (s.frameTravel.encAt e).frameSum = 0 := by
  unfold State.frameTravel
  dsimp only
  rw [(State.floorTick_rel ..).frame.encAt (by decide), (State.scroll_rel ..).frame.encAt (by decide)]
  exact s.takeDistance_sums e

/-- The edges of the frame that closes are taken (R279); those before the tick origin are discarded. -/
theorem State.frameCloses_sums (s : State) (a e : Nat) : ((s.frameCloses a).encAt e).frameSum = 0 := by
  unfold State.frameCloses
  split
  · rw [(State.newRuns_rel _).frame.encAt (by decide), (State.numericFlags_rel _).frame.encAt (by decide)]
    exact s.takeDistance_sums e
  · exact State.frameTravel_sums _ e

/-- The end of a later frame clears what was gathered in it (R20, R206). -/
theorem State.frameCloses_clears {s : State} (a : Nat) (h : s.sched.frame ≠ 0) :
    (s.frameCloses a).pwr.energy = 0 ∧ (s.frameCloses a).pwr.frameUnread = false ∧ (s.frameCloses a).io.claimFail = false := by
  have fr := (State.frameCloses_later_rel a h).frame
  rw [fr .pwr (by decide), fr .io (by decide)]
  exact (s.frameEnds_effect a).2

/-! ### The tick -/

/-- A due tick of any frame: the frame that begins is that of `State.frameBegins_effect`, over what closing keeps. -/
theorem State.frameTick_effect {s : State} (a : Nat) (h : s.sched.tickDue = true) :
    let t := s.frameTick a
    t.sched.tickDue = false ∧ t.watch.intent = s.watch.intentNext.getD s.watch.intent ∧ t.watch.intentNext = none ∧
    t.watch.intentAge = satInc 255 s.watch.intentAge ∧ t.watch.frameClean = (t.watch.doubt == 0 && t.watch.intent.mode == 0) ∧
    (∀ e, e < 2 → (t.encAt e).frameSum = 0) ∧ t.golden.done = 0 ∧ t.ev.maskDue = some s.beat ∧
    t.ev.closing = (s.ev.mainField, s.ev.band, s.ev.maskPsi) ∧ t.st.lbistCore = t.sched.frame % 32 := by
  obtain ⟨beat, ev, keepIntent, keepNext, keepAge⟩ := s.frameCloses_keeps a
  obtain ⟨due, intent, next, age, clean, -, -, -, -, golden, mask, closing, lbist⟩ := (s.frameCloses a).frameBegins_effect
  rw [keepIntent, keepNext] at intent
  rw [keepAge] at age
  rw [beat] at mask
  rw [ev] at closing
  rw [State.frameTick_eq_frameBegins a h]
  refine ⟨due, intent, next, age, clean, fun e _ => ?_, golden, mask, closing, lbist⟩
  rw [(State.frameBegins_rel _).frame.encAt (by decide)]
  exact s.frameCloses_sums a e

/-- Frame 0 closes nothing. -/
theorem State.frameTick_first {s : State} (a : Nat) (h : s.sched.tickDue = true) (h0 : s.sched.frame = 0) :
    let t := s.frameTick a
    t.grid = s.grid ∧ t.flr = s.flr ∧ t.pwr = s.pwr ∧ t.watch.cleanCnt = s.watch.cleanCnt := by
  have closed := (State.frameCloses_first_rel a h0).frame
  have begun := (s.frameCloses a).frameBegins_rel.frame
  obtain ⟨-, -, -, -, -, clean, -⟩ := (s.frameCloses a).frameBegins_effect
  rw [State.frameTick_eq_frameBegins a h]
  exact ⟨(begun .grid (by decide)).trans (closed .grid (by decide)), (begun .flr (by decide)).trans (closed .flr (by decide)),
    (begun .pwr (by decide)).trans (closed .pwr (by decide)), clean.trans (closed.watch_field (by decide) (·.cleanCnt))⟩

theorem State.frameTick_clears {s : State} (a : Nat) (h : s.sched.tickDue = true) (h0 : s.sched.frame ≠ 0) :
    let t := s.frameTick a
    t.pwr.energy = 0 ∧ t.pwr.frameUnread = false ∧ t.io.claimFail = false := by
  have begun := (s.frameCloses a).frameBegins_rel.frame
  dsimp only
  rw [State.frameTick_eq_frameBegins a h, begun .pwr (by decide), begun .io (by decide)]
  exact State.frameCloses_clears a h0

/-- The tick of a later frame leaves the count of clean frames as `State.countFrame` makes it. -/
theorem State.frameTick_count {s : State} (a : Nat) (h : s.sched.tickDue = true) (h0 : s.sched.frame ≠ 0) :
    let t := s.frameTick a
    t.watch.cleanCnt = s.countFrame.watch.cleanCnt ∧ t.watch.countBeat = s.countFrame.watch.countBeat ∧
      t.watch.partialFrame = s.countFrame.watch.partialFrame ∧ t.watch.armTicks = s.countFrame.watch.armTicks := by
  have closed := (State.frameCloses_counted_rel a h0).frame
  obtain ⟨-, -, -, -, -, clean, count, part, ticks, -⟩ := (s.frameCloses a).frameBegins_effect
  rw [State.frameTick_eq_frameBegins a h]
  exact ⟨clean.trans (closed.watch_field (by decide) (·.cleanCnt)), count.trans (closed.watch_field (by decide) (·.countBeat)),
    part.trans (closed.watch_field (by decide) (·.partialFrame)), ticks.trans (closed.watch_field (by decide) (·.armTicks))⟩

/-- Settles O15: what closes the frame and what begins the next one (`State.frameTick_eq_frameBegins`). -/
theorem frameTicks : Obligations.FrameTicks := by
  refine ⟨fun s a hp h => goes_island hp (State.frameTick_effect a h), fun s a hp h h0 => goes_island hp (State.frameTick_first a h h0),
    fun s a hp h h0 => goes_island (f := fun s => s.frameTick a) hp ?_, fun s a hp h => ?_⟩
  · obtain ⟨energy, unread, claim⟩ := State.frameTick_clears a h h0
    obtain ⟨clean, count, part, ticks⟩ := State.frameTick_count a h h0
    refine ⟨energy, unread, claim, fun hw => ?_, fun hw => ?_⟩
    · rw [State.countFrame_of_counting hw] at clean count part
      exact ⟨count, part, clean⟩
    · rw [State.countFrame_of_counting (.inl hw), hw] at ticks
      exact ticks
  · exact (island_eq hp fun s => s.frameTick a).trans (congrArg _ (if_neg (by simp [h])))

end Sys2Proof.Machine
end

section
/-!
PROOFS. The frame-sync pins (R195) and the verdict telegrams (R474, R476).
-/
namespace Sys2Proof.Machine

/-! ### FSYNC -/

/-- Setting one pin leaves the others. -/
theorem State.setFsync_pins (s : State) (k : Fin 4) (v : Bool) :
    vget (s.setFsync k v).sched.fsync k false = v ∧
      ∀ j, j ≠ k.val → vget (s.setFsync k v).sched.fsync j false = vget s.sched.fsync j false :=
  ⟨vget_vset_same k.isLt, fun _ hj => vget_vset_other hj.symm⟩

/-! ### Telegrams -/

/-- A port on which a telegram can leave (R476): the service core runs, the link is up and the bound of 25 beats holds. -/
def State.telCanLeave (s : State) (late : Bool) (x : Telegram) (m : Nat) : Bool :=
  !late && s.svcUp && (s.eth m).link && decide (s.beat ≤ x.beat + 25)

theorem State.telCanLeave_iff {s : State} {late : Bool} {x : Telegram} {m : Nat} :
    s.telCanLeave late x m = true ↔ s.svcUp = true ∧ (s.eth m).link = true ∧ late = false ∧ s.beat ≤ x.beat + 25 := by
  simp only [State.telCanLeave, Bool.and_eq_true, Bool.not_eq_true', decide_eq_true_eq]
  tauto

/-- A late telegram leaves on no port. -/
theorem State.telCanLeave_late (s : State) (x : Telegram) (m : Nat) : s.telCanLeave true x m = false := rfl

/-- The ports of TEL_PORTS. -/
def State.telPortList (s : State) : List Nat := (upto 2).filter fun m => bitAt s.telPorts m

theorem State.mem_telPortList {s : State} {m : Nat} : m ∈ s.telPortList ↔ m < 2 ∧ bitAt s.telPorts m = true := by
  simp [State.telPortList, upto]

theorem State.telSend_cons {s : State} {x : Telegram} {q : List Telegram} (late : Bool) (h : s.tel.queue = x :: q) :
    s.telSend late = { s with tel := { s.tel with
      queue := q
      out := (s.telPortList.filter (s.telCanLeave late x)).map fun m => (m, s.telFrame m x)
      dropped := satAdd 4095 s.tel.dropped (s.telPortList.filter fun m => !s.telCanLeave late x m).length } } := by
  unfold State.telSend
  rw [h]
  rfl

/-- The oldest telegram goes out on the enabled ports on which it can leave. -/
theorem State.telSend_out {s : State} {x : Telegram} {q : List Telegram} (late : Bool) (h : s.tel.queue = x :: q) (m : Nat) (f : List Byte) :
    (m, f) ∈ (s.telSend late).tel.out ↔ m < 2 ∧ f = s.telFrame m x ∧ bitAt s.telPorts m = true ∧ s.svcUp = true ∧
      (s.eth m).link = true ∧ late = false ∧ s.beat ≤ x.beat + 25 := by
  rw [State.telSend_cons late h]
  simp only [List.mem_map, List.mem_filter, State.mem_telPortList, State.telCanLeave_iff, Prod.mk.injEq]
  constructor
  · rintro ⟨n, ⟨⟨hn, hb⟩, leaves⟩, rfl, rfl⟩
    exact ⟨hn, rfl, hb, leaves⟩
  · rintro ⟨hm, rfl, hb, leaves⟩
    exact ⟨m, ⟨⟨hm, hb⟩, leaves⟩, rfl, rfl⟩

/-- A late telegram counts as dropped on each enabled port. -/
theorem State.telSend_late {s : State} {x : Telegram} {q : List Telegram} (h : s.tel.queue = x :: q) :
    (s.telSend true).tel.out = [] ∧ (s.telSend true).tel.dropped = satAdd 4095 s.tel.dropped s.telPortList.length := by
  rw [State.telSend_cons true h]
  simp [State.telCanLeave_late]

/-- The gap ends with nothing to say: the word is again the one last sent (R474). -/
theorem State.telGapEndDue_same {s : State} (ha : s.telActive = true) (hh : s.tel.held ≠ 0) (hg : s.telGapOver = true)
    (hs : s.tel.lastSent = some (telKey s.watch.verdict.toNat)) : s.telGapEndDue = { s with tel := { s.tel with held := 0 } } := by
  rw [State.telGapEndDue, if_pos ⟨ha, hh, hg⟩, if_pos hs]

theorem State.telGapEndDue_changed {s : State} (ha : s.telActive = true) (hh : s.tel.held ≠ 0) (hg : s.telGapOver = true)
    (hs : s.tel.lastSent ≠ some (telKey s.watch.verdict.toNat)) : s.telGapEndDue = s.telChange s.tel.held := by
  rw [State.telGapEndDue, if_pos ⟨ha, hh, hg⟩, if_neg hs]

theorem State.telChange_tel (s : State) (changes : Nat) :
    (s.telChange changes).tel.held = 0 ∧ (s.telChange changes).tel.lastChange = some s.beat ∧
      (s.telChange changes).tel.lastSent = some (telKey s.watch.verdict.toNat) := ⟨rfl, rfl, rfl⟩

/-- Settles O16: each pin by `State.setFsync_pins`, the telegram sent by its ports, the end of the gap by its two cases. -/
theorem frameSignals : Obligations.FrameSignals := by
  refine ⟨fun s k hp on => goes_island (f := fun s => s.fsyncAssert k) hp ?_,
    fun s k hp off => goes_island (f := fun s => s.fsyncRelease k) hp ?_,
    fun s late x q hp hm hq => goes_main (f := fun s => s.telSend late) hp hm ⟨?_, State.telSend_out late hq, ?_⟩,
    fun s hp hm ha hh hg hs => (main_eq hp hm _).trans (congrArg _ (State.telGapEndDue_same ha hh hg hs)),
    fun s hp hm ha hh hg hs => goes_main (f := fun s => s.telGapEndDue) hp hm ?_⟩
  · rw [State.fsyncAssert, if_pos on]
    exact s.setFsync_pins k true
  · rw [State.fsyncRelease, if_neg (by simp [off])]
    exact s.setFsync_pins k false
  · rw [State.telSend_cons late hq]
  · rintro rfl
    exact State.telSend_late hq
  · rw [State.telGapEndDue_changed ha hh hg hs]
    exact s.telChange_tel s.tel.held

end Sys2Proof.Machine
end

section
/-!
PROOFS. Transfers of an image to a slot, over the register of the loader (R384, R391) and over BULK (R253).
-/
namespace Sys2Proof.Machine

/-! ### Events, beside what they change -/

theorem State.event_ldr (s : State) (c d : Nat) : (s.event c d).ldr = s.ldr := (State.event_rel s c d).frame .ldr (by decide)

theorem State.event_io (s : State) (c d : Nat) : (s.event c d).io = s.io := (State.event_rel s c d).frame .io (by decide)

theorem State.ignoredWrite_ldr (s : State) (a k : Nat) : (s.ignoredWrite a k).ldr = s.ldr := State.event_ldr s _ _

/-! ### The loader in SERVICE -/

theorem State.ldrOpen_effect {s : State} (hs : s.inService = true) (hx : s.ldr.xferOpen = false) (hb : s.ldr.busy = false) :
    s.ldrOpen.ldr = { s.ldr with xferOpen := true, received := [], stagedRefusal := none
                                 target := if s.ldr.running then !s.ldr.runSlot else !s.ldr.prefSlot } ∧
      s.ldrOpen.io.bulk.seq = 0 := by
  rw [State.ldrOpen, if_neg (by simp [hs]), if_neg (by simp [hx, hb]), State.event_ldr, State.event_io]
  exact ⟨rfl, rfl⟩

theorem State.imageBytes_fit {s : State} {bs : List Byte} (h : s.ldr.received.length + bs.length ≤ s.ldr.length) :
    s.imageBytes bs = { s with ldr := { s.ldr with received := s.ldr.received ++ bs } } := if_neg (Nat.not_lt.2 h)

/-- Data beyond LENGTH aborts the transfer. -/
theorem State.imageBytes_overrun {s : State} {bs : List Byte} (hx : s.ldr.xferOpen = true)
    (h : s.ldr.length < s.ldr.received.length + bs.length) :
    (s.imageBytes bs).ldr = { s.ldr with overrun := true, xferOpen := false, aborted := true, received := [] } := by
  rw [State.imageBytes, if_pos h]
  exact abort_ldr (s := { s with ldr := { s.ldr with overrun := true } }) hx

/-- A write to LDR_WDATA that an open transfer from it takes. -/
theorem State.streamWrite_wdata {s : State} {bs : List Byte} (hs : s.inService = true) (hx : s.ldr.xferOpen = true)
    (hb : s.ldr.srcBulk = false) (hne : bs ≠ []) (hl : bs.length ≤ 4096) : s.streamWrite ldrWdataAddr bs = s.imageBytes bs := by
  rw [State.streamWrite, if_neg (by simpa using hne), if_neg (by simp [inService_main hs]), if_pos rfl, List.take_of_length_le hl,
    State.wdata, if_neg (by simp [hs]), if_neg (by simp [hx, hb, hne, hl])]

/-- A chunk in its turn, with a right CRC, that an open transfer from BULK takes. -/
theorem State.bulkChunk_match {s : State} {p vc : Nat} {bs : List Byte} (hport : s.bulkPort p vc = true) (hs : s.inService = true)
    (hx : s.ldr.xferOpen = true) (hb : s.ldr.srcBulk = true) (hp : s.ldr.bulkPort = p) (hl : bs.length = 16 + u32 bs 4)
    (h1 : 1 ≤ u32 bs 4) (h2 : u32 bs 4 ≤ 32768) (hc : crc32c (slice bs 0 12 ++ bs.drop 16) = u32 bs 12)
    (hq : u32 bs 8 = s.io.bulk.seq) (ho : u32 bs 0 = s.ldr.received.length) :
    s.bulkChunk p vc bs =
      ({ s with io := { s.io with bulk := { s.io.bulk with seq := (s.io.bulk.seq + 1) % 2 ^ 32 } } } : State).imageBytes (bs.drop 16) := by
  have hcrc : (bs.length != 16 + u32 bs 4 || !inRange 1 32768 (u32 bs 4) || crc32c (slice bs 0 12 ++ bs.drop 16) != u32 bs 12) = false := by
    simp [hl, hc, inRange, h1, h2]
  have hseq : (u32 bs 8 != s.io.bulk.seq || u32 bs 0 != s.ldr.received.length) = false := by simp [hq, ho]
  rw [State.bulkChunk, if_neg (by simp [hport, inService_main hs]), if_neg (by simp [hs, hx, hb, hp])]
  dsimp only
  rw [hcrc, hseq]
  rfl

theorem State.ldrClose_short {s : State} (hs : s.inService = true) (hx : s.ldr.xferOpen = true) (hj : s.jnl.stopped = false)
    (h : s.ldr.received.length ≠ s.ldr.length) :
    s.ldrClose.ldr = { s.ldr with xferOpen := false, aborted := true, received := [] } := by
  rw [State.ldrClose, if_neg (by simp [hs]), if_neg (by simp [hx, hj]), if_pos h, abort_ldr hx]

theorem State.ldrClose_full {s : State} (hs : s.inService = true) (hx : s.ldr.xferOpen = true) (hj : s.jnl.stopped = false)
    (h : s.ldr.received.length = s.ldr.length) : ∃ r, s.ldrClose.ldr = { s.ldr with xferOpen := false, busy := true, stagedRefusal := r } := by
  rw [State.ldrClose, if_neg (by simp [hs]), if_neg (by simp [hx, hj]), if_neg (by simp [h])]
  exact ⟨_, rfl⟩

theorem State.ldrAbort_effect {s : State} (hs : s.inService = true) (hx : s.ldr.xferOpen = true) :
    s.ldrAbort.ldr = { s.ldr with xferOpen := false, aborted := true, received := [] } := by
  rw [State.ldrAbort, if_pos hs, abort_ldr hx]

theorem State.ldrActivate_effect {s : State} {b : Bool} (hs : s.inService = true) (hb : s.ldr.busy = false) (hv : s.slotValid b = true)
    (hr : s.ldr.otpCtr ≤ (s.slot b).rollback) (hp : s.ldr.prefSlot ≠ b) : (s.ldrActivate b).ldr = { s.ldr with prefSlot := b } := by
  rw [State.ldrActivate, if_neg (by simp [hs]), if_neg (by simp [hb, hv, hr, hp]), State.event_ldr]

theorem State.ldrCommit_effect {s : State} (hs : s.inService = true) (hr : s.ldr.running = true) (ha : s.ldr.advLeft ≠ 0)
    (ho : s.ldr.otpCtr < s.runRollback) : s.ldrCommit.ldr = { s.ldr with otpCtr := s.runRollback, advLeft := s.ldr.advLeft - 1 } := by
  rw [State.ldrCommit, if_neg (by simp [hs]), if_neg (by simp [hr, ha, ho]), State.event_ldr]

/-! ### Writes to LDR_CTRL -/

/-- In SERVICE a write to LDR_CTRL does the operation of its bits. -/
theorem goes_ldrCtrl {s : State} {w : Nat} {f : State → State} {P : State → Prop} (hp : s.powered = true) (hs : s.inService = true)
    (hw : s.regWrite ldrCtrlAddr w = if s.pwr.mainOn then f s else s.ignoredWrite ldrCtrlAddr 3) (h : P (f s)) :
    Goes (s.island fun s => s.regWrite ldrCtrlAddr w) P := by
  rw [if_pos (inService_main hs)] at hw
  exact goes_island hp (hw ▸ h)

/-- An operation that is ignored outside SERVICE leaves the loader, with the main domain on or off. -/
theorem goes_ldrCtrl_outside {s : State} {w : Nat} {f : State → State} (hp : s.powered = true)
    (hw : s.regWrite ldrCtrlAddr w = if s.pwr.mainOn then f s else s.ignoredWrite ldrCtrlAddr 3) (hf : f s = s.ignoredWrite ldrCtrlAddr 1) :
    Goes (s.island fun s => s.regWrite ldrCtrlAddr w) fun t => t.ldr = s.ldr := by
  refine goes_island hp ?_
  rw [hw, hf]
  split
  · exact State.ignoredWrite_ldr s _ _
  · exact State.ignoredWrite_ldr s _ _

/-- Settles O23: each command by the case of its operation. -/
theorem imageTransfer : Obligations.ImageTransfer := by
  refine ⟨fun s hp hs hx hb => goes_ldrCtrl hp hs s.regWrite_ldrOpen (State.ldrOpen_effect hs hx hb),
    fun s bs hp hs hx hb hne hl => ⟨fun h => ?_, fun h => goes_island (f := fun s => s.streamWrite ldrWdataAddr bs) hp ?_⟩,
    fun s p vc bs hp hport hs hx hb hbp hl h1 h2 hc hq ho hf => goes_main (f := fun s => s.bulkChunk p vc bs) hp (inService_main hs) ?_,
    fun s hp hs hx hj => ⟨fun h => goes_ldrCtrl hp hs s.regWrite_ldrClose (State.ldrClose_short hs hx hj h),
      fun h => goes_ldrCtrl hp hs s.regWrite_ldrClose (State.ldrClose_full hs hx hj h)⟩,
    fun s hp hs hx => goes_ldrCtrl hp hs s.regWrite_ldrAbort (State.ldrAbort_effect hs hx),
    fun s b hp hs hb hv hr hpref => goes_ldrCtrl (f := fun s => s.ldrActivate b) hp hs (s.regWrite_ldrActivate b)
      (State.ldrActivate_effect hs hb hv hr hpref),
    fun s hp hs hr ha ho => goes_ldrCtrl hp hs s.regWrite_ldrCommit (State.ldrCommit_effect hs hr ha ho), fun s hp hs x hx => ?_⟩
  · rw [← State.imageBytes_fit h, ← State.streamWrite_wdata hs hx hb hne hl]
    exact island_eq hp fun s => s.streamWrite ldrWdataAddr bs
  · rw [State.streamWrite_wdata hs hx hb hne hl]
    exact State.imageBytes_overrun hx h
  · rw [State.bulkChunk_match hport hs hx hb hbp hl h1 h2 hc hq ho, State.imageBytes_fit (by simpa using hf)]
    exact ⟨rfl, rfl⟩
  · have out : (!s.inService) = true := by simp [hs]
    simp only [List.mem_cons, List.not_mem_nil, or_false] at hx
    rcases hx with rfl | rfl | rfl | rfl | rfl | rfl
    · exact goes_ldrCtrl_outside hp s.regWrite_ldrOpen (if_pos out)
    · exact goes_ldrCtrl_outside hp s.regWrite_ldrClose (if_pos out)
    · exact goes_ldrCtrl_outside hp s.regWrite_ldrAbort (if_neg (by simp [hs]))
    · exact goes_ldrCtrl_outside (f := fun s => s.ldrActivate false) hp (s.regWrite_ldrActivate false) (if_pos out)
    · exact goes_ldrCtrl_outside (f := fun s => s.ldrActivate true) hp (s.regWrite_ldrActivate true) (if_pos out)
    · exact goes_ldrCtrl_outside hp s.regWrite_ldrCommit (if_pos out)

end Sys2Proof.Machine
end

section
/-!
PROOFS. The check-value units: feeds (R255) and alive checks (R256).
-/
namespace Sys2Proof.Machine

theorem State.cvu_modCvu_same (s : State) {n : Nat} (f : CvuState → CvuState) (h : n < 16) : (s.modCvu n f).cvu n = f (s.cvu n) :=
  vget_vmod_same h

theorem State.cvu_modCvu_other (s : State) {n j : Nat} (f : CvuState → CvuState) (h : j ≠ n) : (s.modCvu n f).cvu j = s.cvu j :=
  vget_vmod_other h.symm

/-! ### Feeds -/

/-- While the main domain is on, a feed reaches its unit from either side. -/
theorem exec_cvuFeed {s : State} (hp : s.powered = true) (hm : s.pwr.mainOn = true) (u : Fin 16) (bs : List Byte) (rt ok : Bool) :
    exec (.cvuFeed u bs rt ok) s = .next (s.cvuFeed u bs rt ok) := by
  show execCvuFeed u bs rt ok s = _
  rw [execCvuFeed, island_eq hp]
  cases rt with
  | true => exact congrArg _ (if_pos hm)
  | false => exact congrArg _ (if_pos hm)

/-- A feed by the owner of the unit, on which the two lanes agree. -/
theorem State.cvuFeed_agree {s : State} {n : Nat} {bs : List Byte} (hm : s.pwr.mainOn = true) (hl : bs.length ∈ [1, 2, 4]) :
    s.cvuFeed n bs (decide (n < 8)) true =
      s.modCvu n fun c => { c with value := BitVec.ofNat 64 (cvuRun c.poly c.reflect c.value.toNat bs) } := by
  rw [State.cvuFeed, if_pos ⟨hm, hl⟩, if_pos rfl]
  rfl

/-- A feed by the runtime, on which the two lanes disagree: the unit's error is latched, and the fault of source 22 is raised. -/
theorem State.cvuFeed_disagree {s : State} {n : Nat} {bs : List Byte} (hm : s.pwr.mainOn = true) (hl : bs.length ∈ [1, 2, 4]) (hn : n < 8) :
    ((s.cvuFeed n bs true false).cvu n).laneErr = true ∧ ∃ info, Reacts s 22 .ft info (s.cvuFeed n bs true false) := by
  rw [State.cvuFeed, if_pos ⟨hm, hl⟩, if_pos (by simp [hn])]
  simp only [Bool.false_eq_true, if_false, if_true]
  generalize hv : BitVec.ofNat 64 (s.free (2 ^ cvuWidth (s.cvu n).poly)) = v
  generalize hu : (s.freed.modCvu n fun x => { x with value := v, laneErr := true }) = u
  have rel : Rel [.evr, .io, .freeCtr, .log] s (u.event 0x7103 n) := by
    rw [← hu]
    exact .comp (.comp (.refl _) (.mk_of (ps := [.io, .freeCtr]) (.refl _) .auto .auto) .auto) (State.event_rel ..) .auto
  have fr := rel.frame
  refine ⟨?_, _, (State.raise_reacts _ 22 .ft _ (by decide)).source (fr .fc (by decide)) (fr .beat (by decide))
    (State.keptImg_eq (fr .ldr (by decide)) (fr .pwr (by decide)))⟩
  have io : ((u.event 0x7103 n).freed.raise 22 .ft ((u.event 0x7103 n).free (2 ^ 32))).io = u.io :=
    ((State.raise_rel ..).frame .io (by decide)).trans (State.event_io ..)
  rw [State.cvu, io, ← hu]
  exact congrArg CvuState.laneErr (State.cvu_modCvu_same s.freed _ (by omega))

/-- A plain feed to a unit of the runtime is ignored. -/
theorem State.cvuFeed_plain {s : State} {n : Nat} {bs : List Byte} (hm : s.pwr.mainOn = true) (hl : bs.length ∈ [1, 2, 4]) (hn : n < 8)
    (ok : Bool) : s.cvuFeed n bs false ok = s.ignoredWrite (cvuAddr n (feedOff bs.length)) 2 := by
  rw [State.cvuFeed, if_pos ⟨hm, hl⟩, if_neg (by simp [hn])]
  rfl

/-! ### Alive checks -/

/-- A value written by the owner of the unit. -/
theorem State.cvuAlive_owner {s : State} {n : Nat} (hm : s.pwr.mainOn = true) (v : Nat) :
    s.cvuAlive n v (decide (n < 8)) = s.modCvu n (·.aliveIn v) := by
  rw [State.cvuAlive, if_pos hm, if_pos rfl]

/-- The owner's value reaches its unit, from the runtime or through the register. -/
theorem exec_cvuAliveCheck {s : State} (hp : s.powered = true) (hm : s.pwr.mainOn = true) (u : Fin 16) (v : BitVec 16) :
    exec (.cvuAliveCheck u v (decide (u.val < 8))) s = .next (s.modCvu u (·.aliveIn v.toNat)) := by
  show execCvuAliveCheck u v _ s = _
  rw [execCvuAliveCheck, island_eq hp]
  congr 1
  by_cases hu : u.val < 8
  · rw [← State.cvuAlive_owner hm]
    simp [hu, hm]
  · rw [← State.cvuAlive_owner hm]
    simp [hu, hm, State.regWrite_cvuAlive, Nat.mod_eq_of_lt v.isLt]

theorem goes_cvuAliveCheck {s : State} {u : Fin 16} {v : BitVec 16} {rt : Bool} {c : CvuState} (hp : s.powered = true)
    (hm : s.pwr.mainOn = true) (hrt : rt = decide (u.val < 8)) (h : (s.cvu u).aliveIn v.toNat = c) :
    Goes (exec (.cvuAliveCheck u v rt) s) fun t => t.cvu u = c := by
  subst hrt h
  exact goes_of_eq (exec_cvuAliveCheck hp hm u v) (State.cvu_modCvu_same s _ u.isLt)

theorem CvuState.aliveIn_taken {c : CvuState} {v : Nat} (hw : c.width ≠ 0) (hp : c.primed = true) (h1 : 1 ≤ c.aliveStep v)
    (h2 : c.aliveStep v ≤ c.gap + 1) : c.aliveIn v = { c with last := v } := by
  rw [CvuState.aliveIn, if_neg hw, if_pos hp]
  exact if_pos ⟨h1, h2⟩

theorem CvuState.aliveIn_error {c : CvuState} {v : Nat} (hw : c.width ≠ 0) (hp : c.primed = true)
    (h : ¬(1 ≤ c.aliveStep v ∧ c.aliveStep v ≤ c.gap + 1)) :
    c.aliveIn v = { c with last := v, aliveErr := true, aliveErrs := satInc 65535 c.aliveErrs } := by
  rw [CvuState.aliveIn, if_neg hw, if_pos hp]
  exact if_neg h

theorem CvuState.aliveIn_first {c : CvuState} (v : Nat) (hw : c.width ≠ 0) (hp : c.primed = false) :
    c.aliveIn v = { c with last := v, primed := true } := by
  rw [CvuState.aliveIn, if_neg hw, if_neg (by simp [hp])]

/-- Settles O27: each feed by its side and its lanes, each value by `CvuState.aliveIn`. -/
theorem channelVerification : Obligations.ChannelVerification := by
  refine ⟨fun s u bs rt hp hm hl hrt => goes_of_eq (exec_cvuFeed hp hm u bs rt true) ?_,
    fun s u bs hp hm hl hu => goes_of_eq (exec_cvuFeed hp hm u bs true false) (State.cvuFeed_disagree hm hl hu),
    fun s u bs ok hp hm hl hu => goes_of_eq (exec_cvuFeed hp hm u bs false ok) ?_,
    fun s u v rt hp hm hrt => ⟨fun hw hpr h1 h2 => goes_cvuAliveCheck hp hm hrt (CvuState.aliveIn_taken hw hpr h1 h2),
      fun hw hpr h => goes_cvuAliveCheck hp hm hrt (CvuState.aliveIn_error hw hpr h),
      fun hw hpr => goes_cvuAliveCheck hp hm hrt (CvuState.aliveIn_first _ hw hpr)⟩⟩
  · rw [hrt, State.cvuFeed_agree hm hl]
    exact ⟨State.cvu_modCvu_same s _ u.isLt, fun j hj => State.cvu_modCvu_other s _ hj, rfl⟩
  · rw [State.cvuFeed_plain hm hl hu]
    have fr := (State.ignoredWrite_rel s (cvuAddr u (feedOff bs.length)) 2).frame
    exact ⟨fr .io (by decide), fr .fc (by decide)⟩

end Sys2Proof.Machine
end

section
/-!
PROOFS. Camera frames on a port that forwards, outside Crocus channels (R230, R231, R232, R234).
-/
namespace Sys2Proof.Machine

/-! ### Ports -/

theorem State.port_sends (s : State) {p : Nat} (pkts : List TxPkt) (h : p < 16) : (s.sends p pkts).port p = { s.port p with out := pkts } :=
  s.port_modPort_same _ h

theorem State.port_of {s t : State} (p : Nat) (h : t.io.ports = s.io.ports) : t.port p = s.port p :=
  congrArg (fun v => vget v p PortState.reset) h

theorem State.ctxAt_of {s t : State} (x : Nat) (h : t.io.ctx = s.io.ctx) : t.ctxAt x = s.ctxAt x :=
  congrArg (fun v => vget v x CtxState.default) h

/-! ### Frames of all contexts of a channel -/

/-- An operation on every context of a channel handles each one once, in a state that agrees with the first one on it. -/
theorem State.ctxOn_fold (f : State → Nat → State) (hs : ∀ t x, CtxStep t (f t x)) (ho : ∀ t x y, x ≠ y → (f t x).ctxAt y = t.ctxAt y)
    (s t : State) (p vc : Nat) : CtxStep t ((s.ctxOn p vc).foldl f t) ∧
      ∀ x ∈ s.ctxOn p vc, ∃ u, CtxStep t u ∧ u.ctxAt x = t.ctxAt x ∧ ((s.ctxOn p vc).foldl f t).ctxAt x = (f u x).ctxAt x := by
  obtain ⟨step, -, each⟩ := State.foldl_ctx f hs ho (s.ctxOn p vc) t
  exact ⟨step, each (s.ctxOn_nodup p vc)⟩

/-- A frame start in every context of a channel. -/
def State.startContexts (s : State) (p vc n : Nat) : State := (s.ctxOn p vc).foldl (fun t x => t.ctxFrameStart x n) s

theorem State.startContexts_fold (s : State) (p vc n : Nat) : CtxStep s (s.startContexts p vc n) ∧
    ∀ x ∈ s.ctxOn p vc, ∃ u, CtxStep s u ∧ u.ctxAt x = s.ctxAt x ∧ (s.startContexts p vc n).ctxAt x = (u.ctxFrameStart x n).ctxAt x :=
  State.ctxOn_fold (fun t x => t.ctxFrameStart x n) (fun t x => t.ctxFrameStart_step x n) (fun t _ _ h => t.ctxFrameStart_other n h) s s p vc

/-- A frame end in every context of a channel. -/
def State.endContexts (s : State) (p vc n : Nat) : State := (s.ctxOn p vc).foldl (fun t x => t.ctxFrameEnd x n) s

theorem State.endContexts_fold (s : State) (p vc n : Nat) : CtxStep s (s.endContexts p vc n) ∧
    ∀ x ∈ s.ctxOn p vc, ∃ u, CtxStep s u ∧ u.ctxAt x = s.ctxAt x ∧ (s.endContexts p vc n).ctxAt x = (u.ctxFrameEnd x n).ctxAt x :=
  State.ctxOn_fold (fun t x => t.ctxFrameEnd x n) (fun t x => t.ctxFrameEnd_step x n) (fun t _ _ h => t.ctxFrameEnd_other n h) s s p vc

theorem State.startContexts_opened {s : State} {p vc x : Nat} (n : Nat) (hx : x ∈ s.ctxOn p vc) :
    let c := (s.startContexts p vc n).ctxAt x
    c.isOpen = true ∧ c.frameNo = n ∧ c.fsBeat = s.beat ∧ c.lines = 0 ∧ (c.curErr.getLsbD 1 = true ↔ frameNoOk (s.ctxAt x).prevNo n = false) := by
  obtain ⟨u, step, before, after⟩ := (s.startContexts_fold p vc n).2 x hx
  have opened := u.ctxFrameStart_same n (State.ctxOn_lt hx)
  rw [before, step.beat] at opened
  dsimp only
  rw [after]
  exact opened

theorem State.endContexts_closed {s : State} {p vc x : Nat} (n : Nat) (hx : x ∈ s.ctxOn p vc) (ho : (s.ctxAt x).isOpen = true) :
    let c := (s.endContexts p vc n).ctxAt x
    c.isOpen = false ∧
    ((s.ctxAt x).curErr = 0 → (s.ctxAt x).lines = cLines s.strB x → (s.ctxAt x).frameNo = n →
      c.complete = true ∧ c.newest = (s.ctxAt x).writing ∧ c.delivered = (s.ctxAt x).delivered + 1 ∧ c.doneBeat = s.beat) ∧
    (((s.ctxAt x).curErr ≠ 0 ∨ (s.ctxAt x).lines ≠ cLines s.strB x ∨ (s.ctxAt x).frameNo ≠ n) →
      c.newest = (s.ctxAt x).newest ∧ c.delivered = (s.ctxAt x).delivered ∧ c.badFrames = satInc 65535 (s.ctxAt x).badFrames) := by
  obtain ⟨u, step, before, after⟩ := (s.endContexts_fold p vc n).2 x hx
  have closed := u.ctxFrameEnd_same n (State.ctxOn_lt hx) (before ▸ ho) _ rfl
  rw [before, step.beat, State.strB_of step.ldr] at closed
  dsimp only
  rw [after]
  exact closed

/-! ### Forwarded frames -/

/-- A forwarded frame start: its packets, with a stamp where the port stamps, and the frame joins the open ones of the port. -/
theorem State.csiFrameStart_forwarded {s : State} {p vc : Nat} (n : Nat) (h16 : p < 16) (hr : s.camRx p = true) (ht : s.camTx p = true)
    (hc : s.crocusVc p vc = false) :
    (s.csiFrameStart p vc n .good).io.ctx = (s.startContexts p vc n).io.ctx ∧
    ∃ out, (s.csiFrameStart p vc n .good).port p =
        { s.port p with fwdStopped := false, openVcs := (vc, n) :: (s.port p).openVcs.filter (·.1 != vc), out := out } ∧
      (pStamp s.strB p = false → out = [shortPkt vc 0 n]) ∧
      ∀ x l, pStamp s.strB p = true → s.ctxOn p vc = x :: l →
        out = [shortPkt vc 0 n, longPkt vc 0x37 (s.stampBytes 1 (cCam s.strB x) n) false] := by
  have step := (s.startContexts_fold p vc n).1
  generalize hu : s.startContexts p vc n = u at step ⊢
  have hc' : u.crocusVc p vc = false := (State.crocusVc_of p vc step.ldr).trans hc
  have ht' : u.camTx p = true := (State.camTx_of p step.ldr step.pwr).trans ht
  generalize hv : u.modPort p (fun x => { x with fwdStopped := false, openVcs := (vc, n) :: x.openVcs.filter (·.1 != vc) }) = v
  have hcv : v.crocusVc p vc = false := hv ▸ hc'
  have hport : ∀ out, (v.sends p out).port p =
      { s.port p with fwdStopped := false, openVcs := (vc, n) :: (s.port p).openVcs.filter (·.1 != vc), out := out } := by
    intro out
    rw [State.port_sends _ _ h16, ← hv, State.port_modPort_same _ _ h16, State.port_of p step.ports]
  have hctx : v.io.ctx = u.io.ctx := hv ▸ rfl
  unfold State.startContexts at hu
  rw [State.csiFrameStart, if_pos hr]
  simp only [State.header, reduceCtorEq, if_false, hu, hc', ht', hv, hcv, Bool.false_eq_true, if_true, Bool.false_and, List.nil_append]
  cases hxs : s.ctxOn p vc with
  | nil => exact ⟨hctx, _, hport _, fun _ => rfl, nofun⟩
  | cons x l =>
    dsimp only
    cases hs : pStamp s.strB p with
    | false => exact ⟨hctx, _, hport _, fun _ => rfl, nofun⟩
    | true =>
      refine ⟨hctx, _, hport _, nofun, fun y m _ h => ?_⟩
      rw [(List.cons.inj h).1]

theorem State.csiFrameEnd_forwarded {s : State} {p vc : Nat} (n : Nat) (hr : s.camRx p = true) (ht : s.camTx p = true)
    (hc : s.crocusVc p vc = false) (hf : (s.port p).fwdStopped = false) :
    s.csiFrameEnd p vc n .good =
      ((s.endContexts p vc n).modPort p fun x => { x with openVcs := x.openVcs.filter (·.1 != vc) }).sends p [shortPkt vc 1 n] := by
  have step := (s.endContexts_fold p vc n).1
  generalize hu : s.endContexts p vc n = u at step ⊢
  have ht' : u.camTx p = true ∧ (u.port p).fwdStopped = false :=
    ⟨(State.camTx_of p step.ldr step.pwr).trans ht, State.port_of p step.ports ▸ hf⟩
  generalize hv : (u.modPort p fun x => { x with openVcs := x.openVcs.filter (·.1 != vc) }).sends p [shortPkt vc 1 n] = v
  have hcv : v.crocusVc p vc = false := hv ▸ (State.crocusVc_of p vc step.ldr).trans hc
  unfold State.endContexts at hu
  rw [State.csiFrameEnd, if_pos hr]
  simp only [State.header, reduceCtorEq, if_false, hu, if_pos ht', hv, hcv, Bool.false_eq_true]

/-- Settles O45: the port by the forwarding of the frame, each context by its own step. -/
theorem cameraFrames : Obligations.CameraFrames := by
  refine ⟨fun s p vc n hp hr ht hc => goes_island (f := fun s => s.csiFrameStart p vc n .good) hp ?_,
    fun s p vc n hp hr ht hc hf => goes_island (f := fun s => s.csiFrameEnd p vc n .good) hp ?_⟩
  · obtain ⟨ctx, out, port, plain, stamped⟩ := State.csiFrameStart_forwarded n p.isLt hr ht hc
    simp only [port, State.ctxAt_of _ ctx]
    exact ⟨trivial, List.mem_cons_self, plain, stamped, fun x hx => State.startContexts_opened n hx⟩
  · rw [State.csiFrameEnd_forwarded n hr ht hc hf, State.port_sends _ _ p.isLt, State.port_modPort_same _ _ p.isLt,
      State.port_of p (s.endContexts_fold p vc n).1.ports]
    exact ⟨rfl, rfl, fun x hx ho => State.endContexts_closed n hx ho⟩

end Sys2Proof.Machine
end

section
/-!
PROOFS. Long and short packets, headers, receiver locks and forwarding failures of a camera port (R230 to R232, R234, R235, R260).
-/
namespace Sys2Proof.Machine

/-! ### Lines -/

/-- A stamp line where the port makes its own stamps: it is not forwarded (R234). -/
def State.dropsStamp (s : State) (p : Nat) (k : LongPkt) : Bool := k.dt == 0x37 && pStamp s.strB p

/-- What a long packet latches in its port (R260). -/
def State.noteLong (s : State) (p : Nat) (k : LongPkt) : State :=
  let s1 := if s.dropsStamp p k || !storedDt k.dt then s.modPort p fun x => { x with err := x.err ||| 2 } else s
  if k.crcOk then s1 else s1.modPort p fun x => { x with err := x.err ||| 4, crcErrs := satInc 65535 x.crcErrs }

theorem State.noteLong_port (s : State) {p : Nat} (k : LongPkt) (h : p < 16) :
    ((s.noteLong p k).port p).out = (s.port p).out ∧ ((s.noteLong p k).port p).fwdStopped = (s.port p).fwdStopped ∧
    (k.crcOk = false → ((s.noteLong p k).port p).err.getLsbD 2 = true ∧ ((s.noteLong p k).port p).crcErrs = satInc 65535 (s.port p).crcErrs) ∧
    ((s.dropsStamp p k || !storedDt k.dt) = true → ((s.noteLong p k).port p).err.getLsbD 1 = true) := by
  unfold State.noteLong
  cases s.dropsStamp p k || !storedDt k.dt <;> cases k.crcOk <;> simp [State.port_modPort_same _ _ h]

theorem State.noteLong_keeps (s : State) (p : Nat) (k : LongPkt) :
    (s.noteLong p k).ldr = s.ldr ∧ (s.noteLong p k).pwr = s.pwr ∧ (s.noteLong p k).io.ctx = s.io.ctx := by
  unfold State.noteLong
  cases s.dropsStamp p k || !storedDt k.dt <;> cases k.crcOk <;> exact ⟨rfl, rfl, rfl⟩

theorem State.ctxOn_of {s t : State} (p vc : Nat) (hl : t.ldr = s.ldr) : t.ctxOn p vc = s.ctxOn p vc := by
  simp only [State.ctxOn, State.ctxUsed_of _ hl, State.strB_of hl]

/-- A line in every context of its channel. -/
def State.lineContexts (s : State) (p : Nat) (k : LongPkt) : State :=
  (s.ctxOn p k.vc).foldl (fun t x => lineIn k t x (cDt s.strB x)) (s.noteLong p k)

theorem State.lineContexts_fold (s : State) (p : Nat) (k : LongPkt) : CtxStep (s.noteLong p k) (s.lineContexts p k) ∧
    ∀ x ∈ s.ctxOn p k.vc, ∃ u, CtxStep (s.noteLong p k) u ∧ u.ctxAt x = (s.noteLong p k).ctxAt x ∧
      (s.lineContexts p k).ctxAt x = (lineIn k u x (cDt s.strB x)).ctxAt x :=
  State.ctxOn_fold (fun t x => lineIn k t x (cDt s.strB x)) (fun t x => lineIn_step k t x _) (fun t x y h => lineIn_other k t x _ y h)
    s (s.noteLong p k) p k.vc

theorem State.lineContexts_at {s : State} {p x : Nat} {k : LongPkt} (hx : x ∈ s.ctxOn p k.vc) (ho : (s.ctxAt x).isOpen = true) :
    (((s.lineContexts p k).ctxAt x).curErr = if k.crcOk then (s.ctxAt x).curErr else (s.ctxAt x).curErr ||| 1) ∧
    (((s.lineContexts p k).ctxAt x).lines = if cDt s.strB x = k.dt then (s.ctxAt x).lines + 1 else (s.ctxAt x).lines) := by
  obtain ⟨u, -, before, after⟩ := (s.lineContexts_fold p k).2 x hx
  rw [State.ctxAt_of x (s.noteLong_keeps p k).2.2] at before
  have line := lineIn_same k u x (cDt s.strB x) (State.ctxOn_lt hx) (before ▸ ho)
  rw [before] at line
  rw [after]
  exact line

/-- Outside Crocus channels a line is forwarded as it came (R248). -/
theorem State.margin_outside {s : State} {p vc : Nat} (hc : s.crocusVc p vc = false) (dt line : Nat) (l : List Byte) :
    s.margin p vc dt line l = (s, l) := by
  rw [State.margin, if_neg (by simp [hc])]

/-- A long packet with a good header: what it latches in the port, the line in its contexts, and what the port sends. -/
theorem State.csiLong_good {s : State} {p : Nat} {k : LongPkt} (h16 : p < 16) (hr : s.camRx p = true) (hh : k.hdr = .good) :
    (s.csiLong p k).io.ctx = (s.lineContexts p k).io.ctx ∧
    ∃ out, (s.csiLong p k).port p = { (s.noteLong p k).port p with out := out } ∧
      (s.dropsStamp p k = true → out = (s.port p).out) ∧
      (s.dropsStamp p k = false → s.camTx p = true → s.crocusVc p k.vc = false → (s.port p).fwdStopped = false →
        out = [longPkt k.vc k.dt k.payload (!k.crcOk)]) := by
  have step := (s.lineContexts_fold p k).1
  obtain ⟨ldr, pwr, -⟩ := s.noteLong_keeps p k
  obtain ⟨outNoted, stopNoted, -⟩ := s.noteLong_port k h16
  have heq : ∃ line, s.csiLong p k =
      if s.dropsStamp p k || !(s.lineContexts p k).camTx p || ((s.lineContexts p k).port p).fwdStopped then s.lineContexts p k
      else ((s.lineContexts p k).margin p k.vc k.dt line k.payload).1.sends p
        [longPkt k.vc k.dt ((s.lineContexts p k).margin p k.vc k.dt line k.payload).2 (!k.crcOk)] := by
    have on : (s.noteLong p k).ctxOn p k.vc = s.ctxOn p k.vc := State.ctxOn_of p k.vc ldr
    unfold State.lineContexts
    rw [State.csiLong, if_pos hr, hh, ← on]
    exact ⟨(((s.noteLong p k).ctxOn p k.vc).find? fun x => cDt s.strB x == k.dt).elim 0 fun x => ((s.noteLong p k).ctxAt x).lines, rfl⟩
  obtain ⟨line, heq⟩ := heq
  have ht : (s.lineContexts p k).camTx p = s.camTx p :=
    (State.camTx_of p step.ldr step.pwr).trans (State.camTx_of p ldr pwr)
  have hc : (s.lineContexts p k).crocusVc p k.vc = s.crocusVc p k.vc :=
    (State.crocusVc_of p _ step.ldr).trans (State.crocusVc_of p _ ldr)
  rw [State.port_of p step.ports, stopNoted, ht] at heq
  rw [heq]
  split
  · next kept =>
    refine ⟨rfl, _, State.port_of p step.ports, fun _ => outNoted, fun hd htx _ hf => ?_⟩
    simp [hd, htx, hf] at kept
  · next sent =>
    obtain ⟨ports, ctx⟩ := (s.lineContexts p k).margin_ports p k.vc k.dt line k.payload
    generalize margined : (s.lineContexts p k).margin p k.vc k.dt line k.payload = r at ports ctx ⊢
    refine ⟨ctx, [longPkt k.vc k.dt r.2 (!k.crcOk)], ?_, fun hd => absurd (by simp [hd]) sent, fun _ _ hcv _ => ?_⟩
    · rw [State.port_sends _ _ h16, State.port_of p ports, State.port_of p step.ports]
    · rw [← margined, State.margin_outside (hc.trans hcv)]

/-! ### Headers and short packets -/

/-- A packet with an uncorrectable header does nothing else (R231). -/
theorem exec_uncorrectable {s : State} {p : Fin 16} {vc n dt : Nat} {k : LongPkt} {c : Instr} (hp : s.powered = true)
    (hr : s.camRx p.val = true) (hk : k.hdr = .uncorrectable)
    (hc : c ∈ [Instr.csiFrameStart p vc n .uncorrectable, .csiFrameEnd p vc n .uncorrectable, .csiShortPacket p vc dt n .uncorrectable,
      .csiLongPacket p k]) : exec c s = .next (s.header p .uncorrectable) := by
  simp only [List.mem_cons, List.not_mem_nil, or_false] at hc
  rcases hc with rfl | rfl | rfl | rfl
  · refine (island_eq hp fun s => s.csiFrameStart p vc n .uncorrectable).trans (congrArg _ ?_)
    rw [State.csiFrameStart, if_pos hr]
    exact if_pos rfl
  · refine (island_eq hp fun s => s.csiFrameEnd p vc n .uncorrectable).trans (congrArg _ ?_)
    rw [State.csiFrameEnd, if_pos hr]
    exact if_pos rfl
  · refine (island_eq hp fun s => s.csiShort p vc dt n .uncorrectable).trans (congrArg _ ?_)
    rw [State.csiShort, if_pos hr]
    exact if_pos rfl
  · refine (island_eq hp fun s => s.csiLong p k).trans (congrArg _ ?_)
    rw [State.csiLong, if_pos hr, hk]
    exact if_pos rfl

theorem State.csiShort_forwarded {s : State} {p dt : Nat} (vc n : Nat) (hr : s.camRx p = true)
    (hdt : dt = 2 ∨ dt = 3 ∨ (8 ≤ dt ∧ dt ≤ 15)) (ht : s.camTx p = true) (hf : (s.port p).fwdStopped = false) :
    s.csiShort p vc dt n .good = s.sends p [shortPkt vc dt n] := by
  rw [State.csiShort, if_pos hr]
  exact if_pos (And.intro hdt ⟨ht, hf⟩)

/-! ### Locks and forwarding failures -/

theorem State.rxLockChange_effect {s : State} {p : Nat} (locked : Bool) (h16 : p < 16) (h0 : s.role p ≠ 0) (h3 : s.role p ≠ 3) :
    ((s.rxLockChange p locked).port p).rxLock = locked ∧
      (locked = false → ((s.rxLockChange p locked).port p).err.getLsbD 0 = true) := by
  rw [State.rxLockChange, if_pos ⟨h0, h3⟩, State.port_modPort_same _ _ h16]
  refine ⟨rfl, fun h => ?_⟩
  simp [h]

theorem State.crocus_of {s t : State} (p : Nat) (h : t.io.crocus = s.io.crocus) : t.crocus p = s.crocus p :=
  congrArg (fun v => vget v p CrocusState.reset) h

/-- The fault of a forwarding failure (R235): it leaves the streams. -/
theorem State.raise_forwarding (s : State) {p : Nat} (h16 : p < 16) :
    (s.freed.raise (76 + p) .uc (s.free (2 ^ 32))).io = s.io ∧
      Reacts s (76 + p) .uc (s.free (2 ^ 32)) (s.freed.raise (76 + p) .uc (s.free (2 ^ 32))) :=
  ⟨(State.raise_rel ..).frame .io (by decide), (State.raise_reacts s.freed (76 + p) .uc _ (by omega)).source rfl rfl⟩

/-- A failed transmitter of a camera, outside an injection: it ends the open frames and stops (R235). -/
theorem State.forwardFail_camera {s : State} {p : Nat} (h16 : p < 16) (ht : s.camTx p = true) (hi : (s.crocus p).injecting = none) :
    (∃ info, Reacts s (76 + p) .uc info (s.forwardFail p)) ∧
      (s.forwardFail p).port p = { s.port p with
        fwdStopped := true, openVcs := [], err := (s.port p).err ||| 32, out := (s.port p).openVcs.map fun v => shortPkt v.1 1 v.2 } := by
  obtain ⟨io, reacts⟩ := s.raise_forwarding h16
  generalize hu : s.freed.raise (76 + p) .uc (s.free (2 ^ 32)) = u at io reacts
  have hi' : (u.crocus p).injecting = none := State.crocus_of p (congrArg StreamState.crocus io) ▸ hi
  have port : u.port p = s.port p := State.port_of p (congrArg StreamState.ports io)
  rw [State.forwardFail, if_pos ht]
  simp only [hu, hi', Option.isSome_none, Bool.false_eq_true, false_and, if_false, List.append_nil, port]
  refine ⟨⟨_, reacts.of_eq rfl rfl⟩, ?_⟩
  exact (State.port_modPort_same _ _ h16).trans (by rw [State.port_sends _ _ h16, port])

/-- A failed transmitter of the verdict stream (R252). -/
theorem State.forwardFail_verdict {s : State} {p : Nat} (h16 : p < 16) (hr : s.role p = 3) (hm : s.pwr.mainOn = true) :
    (∃ info, Reacts s (76 + p) .uc info (s.forwardFail p)) ∧ ((s.forwardFail p).port p).err.getLsbD 5 = true := by
  obtain ⟨-, reacts⟩ := s.raise_forwarding h16
  rw [State.forwardFail, if_neg (by simp [State.camTx, hr]), if_pos ⟨hr, hm⟩, State.port_modPort_same _ _ h16]
  exact ⟨⟨_, reacts.of_eq rfl rfl⟩, by simp⟩

/-- Settles O46: each command by its operation; a packet with an uncorrectable header is its header alone. -/
theorem cameraPackets : Obligations.CameraPackets := by
  refine ⟨fun s p k hp hr hh => goes_island (f := fun s => s.csiLong p k) hp ?_,
    fun s p k hp hr ht hh hdt hst => goes_island (f := fun s => s.csiLong p k) hp ?_,
    fun s p vc n dt k c hp hr hk hc => goes_of_eq (exec_uncorrectable hp hr hk hc) (s.header_bad p p.isLt),
    fun s p vc dt n hp hr hdt ht hf => goes_island (f := fun s => s.csiShort p vc dt n .good) hp ?_,
    fun s p locked hp hon h0 h3 =>
      goes_island (f := fun s => if s.pwr.mainOn || decide (p.val ≤ 1) then s.rxLockChange p locked else s) hp ?_,
    fun s p hp hm ht hi => goes_main (f := fun s => s.forwardFail p) hp hm ?_,
    fun s p hp hm hr => goes_main (f := fun s => s.forwardFail p) hp hm (State.forwardFail_verdict p.isLt hr hm)⟩
  · obtain ⟨ctx, out, port, -, forwarded⟩ := State.csiLong_good p.isLt hr hh
    obtain ⟨-, -, crc, dtErr⟩ := s.noteLong_port k p.isLt
    simp only [port, State.ctxAt_of _ ctx]
    refine ⟨fun ht hc hf hs => forwarded ?_ ht hc hf, crc, fun hd => dtErr (by simp [hd]), fun x hx ho => State.lineContexts_at hx ho⟩
    by_cases h : k.dt = 0x37
    · simp [State.dropsStamp, hs h]
    · simp [State.dropsStamp, h]
  · obtain ⟨-, out, port, dropped, -⟩ := State.csiLong_good p.isLt hr hh
    obtain ⟨-, -, -, dtErr⟩ := s.noteLong_port k p.isLt
    have drop : s.dropsStamp p k = true := by simp [State.dropsStamp, hdt, hst]
    rw [port]
    exact ⟨dropped drop, dtErr (by simp [drop])⟩
  · rw [State.csiShort_forwarded vc n hr hdt ht hf]
    exact s.port_sends _ p.isLt
  · rw [if_pos (by simpa using hon)]
    exact State.rxLockChange_effect locked p.isLt h0 h3
  · obtain ⟨reacts, port⟩ := State.forwardFail_camera p.isLt ht hi
    rw [port]
    exact ⟨reacts, rfl, rfl, by simp, rfl⟩

end Sys2Proof.Machine
end

section
/-!
PROOFS. The Crocus injector: staging (R244), blanking injections (R245, R246), and the deadline of an answer (R249).
-/
namespace Sys2Proof.Machine

/-! ### Staging -/

theorem State.crocusStagingDone_none {s : State} {p : Nat} (h : (s.crocus p).staging = none) : s.crocusStagingDone p = s := by
  rw [State.crocusStagingDone, h]

theorem State.crocusStagingDone_right {s : State} {p f : Nat} (h : (s.crocus p).staging = some f)
    (hh : Config.shake256 (frData s.crB f) 32 = frHash s.crB f) :
    s.crocusStagingDone p = s.modCrocus p fun c => { c with staging := none, staged := some f } := by
  rw [State.crocusStagingDone, h]
  exact if_pos hh

/-- A wrong hash is a forwarding fault and a deferral. -/
theorem State.crocusStagingDone_wrong {s : State} {p f : Nat} (h16 : p < 16) (h : (s.crocus p).staging = some f)
    (hh : Config.shake256 (frData s.crB f) 32 ≠ frHash s.crB f) :
    (∃ info, Reacts s (76 + p) .uc info (s.crocusStagingDone p)) ∧
      (s.crocusStagingDone p).crocus p =
        { s.crocus p with hashFail := true, skip := satInc 255 (s.crocus p).skip, owed := false, staging := none, staged := none } := by
  obtain ⟨io, reacts⟩ := s.raise_forwarding h16
  rw [State.crocusStagingDone, h]
  dsimp only
  rw [if_neg hh]
  generalize s.freed.raise (76 + p) .uc (s.free (2 ^ 32)) = u at io reacts ⊢
  have crocus : u.crocus p = s.crocus p := State.crocus_of p (congrArg StreamState.crocus io)
  refine ⟨⟨_, (reacts.of_eq (u := u.modCrocus p fun c => { c with hashFail := true }) rfl rfl).frame (State.deferral_rel ..) (by decide)⟩, ?_⟩
  rw [(State.deferral_effect _ h16).1, State.crocus_modCrocus _ _ h16, crocus]

/-! ### Blanking injections -/

/-- A port in a mode has a Crocus record. -/
theorem State.crocusRec_of_mode {s : State} {p : Nat} (h : s.crMode p = 1) : (s.crocusRec p).isSome = true := by
  cases hr : s.crocusRec p with
  | some _ => rfl
  | none => simp [State.crMode, hr] at h

/-- The conditions under which an injection is started or deferred (R246). -/
structure InjectionDue (s : State) (p fe : Nat) : Prop where
  mode : s.crMode p = 1
  owed : (s.crocus p).owed = true
  idle : (s.crocus p).injecting = none
  answered : (s.crocus p).answerTo = none
  beat : s.beat = fe + 1
  tx : s.camTx p = true

theorem State.crocusInjectionStart_due {s : State} {p fe f : Nat} (hfe : (s.crocus p).camFe = some fe) (hf : (s.crocus p).staged = some f)
    (due : InjectionDue s p fe) (fits : s.beat + s.crTInj p f + s.crHalf p 8 ≤ (s.crocus p).camFs + s.frameBeats) :
    let t := s.crocusInjectionStart p
    t.io.crocus = (s.modCrocus p fun c => { c with injecting := some s.beat, stampFrame := s.sched.frame }).io.crocus ∧
      t.io.ports = (s.sends p (shortPkt (s.crByte p 4) 0 (s.crocusNumber p) ::
        if pStamp s.strB p then [longPkt (s.crByte p 4) 0x37 (s.stampBytes 2 (s.crByte p 0) (s.crocusNumber p)) false] else [])).io.ports := by
  dsimp only
  rw [State.crocusInjectionStart]
  simp only [hfe, hf]
  rw [if_pos ⟨due.mode, due.owed, due.idle, due.answered, due.beat, due.tx⟩, if_pos fits]
  split <;> exact ⟨rfl, rfl⟩

theorem State.crocusInjectionStart_deferred {s : State} {p fe f : Nat} (hfe : (s.crocus p).camFe = some fe)
    (hf : (s.crocus p).staged = some f) (due : InjectionDue s p fe)
    (late : (s.crocus p).camFs + s.frameBeats < s.beat + s.crTInj p f + s.crHalf p 8) : s.crocusInjectionStart p = s.deferral p := by
  rw [State.crocusInjectionStart]
  simp only [hfe, hf]
  rw [if_pos ⟨due.mode, due.owed, due.idle, due.answered, due.beat, due.tx⟩, if_neg (by omega)]

theorem State.crocusInjectionStart_none {s : State} {p : Nat} (h : (s.crocus p).staged = none ∨ (s.crocus p).camFe = none) :
    s.crocusInjectionStart p = s := by
  rw [State.crocusInjectionStart]
  rcases h with h | h
  · cases (s.crocus p).camFe <;> simp [h]
  · simp [h]

theorem State.crocusInjectionEnd_none {s : State} {p : Nat} (h : (s.crocus p).injecting = none) : s.crocusInjectionEnd p = s := by
  rw [State.crocusInjectionEnd, h]

theorem State.crocusInjectionEnd_early {s : State} {p b f : Nat} (hb : (s.crocus p).injecting = some b) (hf : (s.crocus p).staged = some f)
    (early : s.beat + 1 < b + s.crTInj p f) : s.crocusInjectionEnd p = s := by
  rw [State.crocusInjectionEnd, hb, hf]
  exact if_neg (by omega)

theorem State.crocusInjectionEnd_due {s : State} {p b f : Nat} (hb : (s.crocus p).injecting = some b) (hf : (s.crocus p).staged = some f)
    (hm : s.crMode p = 1) (due : b + s.crTInj p f ≤ s.beat + 1) :
    s.crocusInjectionEnd p =
      (s.sends p (crLines s.crB f (s.crByte p 4) ++ [shortPkt (s.crByte p 4) 1 (s.crocusNumber p)])).injectionMade p f := by
  rw [State.crocusInjectionEnd, hb, hf]
  exact if_pos ⟨hm, due⟩

/-- An injection that is made counts, and its answer is awaited (R245, R249). -/
theorem State.injectionMade_effect (s : State) {p : Nat} (f : Nat) (h16 : p < 16) :
    let c := (s.injectionMade p f).crocus p
    c.injecting = none ∧ c.skip = 0 ∧ c.pending = true ∧ c.answerTo = some f ∧ c.deadline = some (s.beat + s.crDeadline p) ∧
      c.injected = ((s.crocus p).injected + 1) % 65536 := by
  dsimp only
  rw [State.injectionMade, State.crocus_modCrocus _ _ h16]
  exact ⟨rfl, rfl, rfl, rfl, rfl, rfl⟩

/-! ### The deadline of an answer -/

theorem State.crocusDeadlineDue_none {s : State} {p : Nat} (h : (s.crocus p).answerTo = none) : s.crocusDeadlineDue p = s := by
  rw [State.crocusDeadlineDue, h]

theorem State.crocusDeadlineDue_early {s : State} {p f d : Nat} (hf : (s.crocus p).answerTo = some f) (hd : (s.crocus p).deadline = some d)
    (early : s.beat < d) : s.crocusDeadlineDue p = s := by
  rw [State.crocusDeadlineDue, hf, hd]
  exact if_neg (by omega)

theorem State.crocusDeadlineDue_passed {s : State} {p f d : Nat} (hf : (s.crocus p).answerTo = some f)
    (hd : (s.crocus p).deadline = some d) (passed : d ≤ s.beat) : s.crocusDeadlineDue p = s.answerBad p 2 := by
  rw [State.crocusDeadlineDue, hf, hd]
  exact if_pos passed

/-- A late answer (R249). -/
theorem State.answerBad_late (s : State) {p : Nat} (h16 : p < 16) :
    let c := (s.answerBad p 2).crocus p
    c.late = true ∧ c.pending = false ∧ c.answerTo = none ∧ c.deadline = none ∧ (s.answerBad p 2).watch.causes.getLsbD 3 = true := by
  have late : ∀ (u : State) (d : Nat), ((u.event 0x7102 d).addDoubt 3).crocus p = u.crocus p :=
    fun u d => State.crocus_of p (congrArg StreamState.crocus (u.event_io 0x7102 d))
  rw [State.answerBad]
  dsimp only
  rw [late, State.crocus_modCrocus _ _ h16]
  exact ⟨by simp, rfl, rfl, rfl, by simp [State.addDoubt]⟩

/-- Settles O47: each command by the case of its operation. -/
theorem crocusInjections : Obligations.CrocusInjections := by
  refine ⟨fun s p hp hm => ⟨fun h => ?_, fun f h => ⟨fun hh => goes_main (f := fun s => s.crocusStagingDone p) hp hm ?_,
      fun hh => goes_main (f := fun s => s.crocusStagingDone p) hp hm (State.crocusStagingDone_wrong p.isLt h hh)⟩⟩,
    fun s p fe f hp hm hfe hf hmode ho hi ha hb ht => ?_, fun s p hp hm h => ?_,
    fun s p hp hm => ⟨fun h => ?_, fun b f hb hf hmode => ⟨fun early => ?_,
      fun due => goes_main (f := fun s => s.crocusInjectionEnd p) hp hm ?_⟩⟩,
    fun s p hp hm => ⟨fun h => ?_, fun f d hf hd => ⟨fun early => ?_,
      fun passed => goes_main (f := fun s => s.crocusDeadlineDue p) hp hm ?_⟩⟩⟩
  -- Staging
  · exact (main_eq hp hm fun s => s.crocusStagingDone p).trans (congrArg _ (State.crocusStagingDone_none h))
  · rw [State.crocusStagingDone_right h hh]
    exact State.crocus_modCrocus _ _ p.isLt
  -- The start of an injection
  · have due : InjectionDue s p fe := ⟨hmode, ho, hi, ha, hb, ht⟩
    refine ⟨fun fits => goes_main (f := fun s => s.crocusInjectionStart p) hp hm ?_,
      fun late => goes_main (f := fun s => s.crocusInjectionStart p) hp hm ?_⟩
    · obtain ⟨crocus, ports⟩ := State.crocusInjectionStart_due hfe hf due fits
      rw [State.crocus_of p crocus, State.crocus_modCrocus _ _ p.isLt, State.port_of p ports, State.port_sends _ _ p.isLt]
      exact ⟨rfl, rfl, rfl⟩
    · rw [State.crocusInjectionStart_deferred hfe hf due late]
      obtain ⟨crocus, starved⟩ := s.deferral_effect p.isLt
      rw [crocus]
      exact ⟨rfl, rfl, hi, starved (State.crocusRec_of_mode hmode)⟩
  · exact (main_eq hp hm fun s => s.crocusInjectionStart p).trans (congrArg _ (State.crocusInjectionStart_none h))
  -- The end of an injection
  · exact (main_eq hp hm fun s => s.crocusInjectionEnd p).trans (congrArg _ (State.crocusInjectionEnd_none h))
  · exact (main_eq hp hm fun s => s.crocusInjectionEnd p).trans (congrArg _ (State.crocusInjectionEnd_early hb hf early))
  · rw [State.crocusInjectionEnd_due hb hf hmode due]
    exact ⟨congrArg PortState.out (s.port_sends _ p.isLt), State.injectionMade_effect _ f p.isLt⟩
  -- The deadline of an answer
  · exact (main_eq hp hm fun s => s.crocusDeadlineDue p).trans (congrArg _ (State.crocusDeadlineDue_none h))
  · exact (main_eq hp hm fun s => s.crocusDeadlineDue p).trans (congrArg _ (State.crocusDeadlineDue_early hf hd early))
  · rw [State.crocusDeadlineDue_passed hf hd passed]
    exact s.answerBad_late p.isLt

end Sys2Proof.Machine
end

section
/-!
PROOFS. Claim records (R237, R239, R241), the age of claims (R242), and the batches of verdict words (R251, R252).
-/
namespace Sys2Proof.Machine

/-! ### Packets of a claim port -/

/-- A long packet on the channel of a claim port. -/
structure OnClaimChannel (s : State) (p : Nat) (k : LongPkt) : Prop where
  role : s.role p = 2
  main : s.pwr.mainOn = true
  vc : k.vc = pVc s.strB p

theorem goes_claimRecord {s : State} {p : Fin 16} {k : LongPkt} {P : State → Prop} (hp : s.powered = true) (hm : s.pwr.mainOn = true)
    (h : P (s.claimRecord p k)) : Goes (exec (.claimRecord p k) s) P := goes_main (f := fun s => s.claimRecord p k) hp hm h

theorem State.claimStream_of {s t : State} (n : Nat) (h : t.io.claims = s.io.claims) : t.claimStream n = s.claimStream n :=
  congrArg (fun v => vget v n ClaimStream.reset) h

/-- A claim record that arrived intact: its packet and its own CRC hold. -/
structure IntactRecord (s : State) (p : Nat) (k : LongPkt) : Prop where
  channel : OnClaimChannel s p k
  hdr : k.hdr = .good
  packetCrc : k.crcOk = true
  dt : k.dt = 0x30
  recordCrc : claimCrcOk k.payload = true

/-- The step of a record's ALIVE value from the last one of its stream (R240). -/
def ClaimStream.aliveStep (c : ClaimStream) (h : ClaimHdr) : Nat := (h.alive + 65536 - c.aliveLast) % 65536

/-- The stream takes a record: its first one since ARMING, or one whose ALIVE value is within the gap (R240). -/
def ClaimStream.takes (c : ClaimStream) (gap : Nat) (h : ClaimHdr) : Bool :=
  c.fresh || decide (1 ≤ c.aliveStep h ∧ c.aliveStep h ≤ gap + 1)

theorem ClaimStream.takes_iff {c : ClaimStream} {gap : Nat} {h : ClaimHdr} :
    c.takes gap h = true ↔ c.fresh = true ∨ (1 ≤ c.aliveStep h ∧ c.aliveStep h ≤ gap + 1) := by
  simp [ClaimStream.takes]

/-- A record's ALIVE value is taken over by its stream, right or wrong (R240). -/
def State.noteAlive (s : State) (n : Nat) (h : ClaimHdr) : State := s.modClaim n fun c => { c with aliveLast := h.alive, fresh := false }

theorem State.claimStream_modClaim (s : State) {n : Nat} (f : ClaimStream → ClaimStream) (h : n < 4) :
    (s.modClaim n f).claimStream n = f (s.claimStream n) := vget_vmod_same h

theorem State.noteAlive_stream (s : State) {n : Nat} (h : ClaimHdr) (hn : n < 4) :
    (s.noteAlive n h).claimStream n = { s.claimStream n with aliveLast := h.alive, fresh := false } := s.claimStream_modClaim _ hn

theorem State.claimRecord_other {s : State} {p : Nat} {k : LongPkt} (h : s.role p ≠ 2 ∨ k.vc ≠ pVc s.strB p) : s.claimRecord p k = s :=
  if_neg fun ⟨hr, _, hv⟩ => h.elim (· hr) (· hv)

/-- A packet whose CRC fails: its header and its port are counted before the stream fails (R239, R260). -/
theorem State.claimRecord_packetCrc {s : State} {p : Nat} {k : LongPkt} (hc : OnClaimChannel s p k) (hh : k.hdr ≠ .uncorrectable)
    (hk : k.crcOk = false) : ∃ u : State, u.io.claims = s.io.claims ∧
      s.claimRecord p k = u.claimFails (pClaimStream s.strB p) 1 0 (claimHdr k.payload) := by
  refine ⟨(s.header p k.hdr).modPort p fun x => { x with err := x.err ||| 4, crcErrs := satInc 65535 x.crcErrs }, ?_, ?_⟩
  · cases h : k.hdr with
    | good => rfl
    | corrected => rfl
    | uncorrectable => exact absurd h hh
  · rw [State.claimRecord, if_pos ⟨hc.role, hc.main, hc.vc⟩]
    dsimp only
    rw [if_pos (show k.hdr = .uncorrectable ∨ k.crcOk = false from .inr hk), if_neg (by simp [hk, hh])]

theorem State.claimRecord_recordCrc {s : State} {p : Nat} {k : LongPkt} (hc : OnClaimChannel s p k) (hh : k.hdr = .good)
    (hk : k.crcOk = true) (hd : k.dt = 0x30) (hr : claimCrcOk k.payload = false) :
    s.claimRecord p k = s.claimFails (pClaimStream s.strB p) 2 0 (claimHdr k.payload) := by
  rw [State.claimRecord, if_pos ⟨hc.role, hc.main, hc.vc⟩]
  simp [hh, hk, hd, hr, State.header]

/-- An intact record with the next ALIVE value of its stream is judged by its format, and one that passes by its type. -/
def State.claimTaken (s : State) (n : Nat) (k : LongPkt) : State :=
  let t := s.noteAlive n (claimHdr k.payload)
  let code := s.claimFormat n 0x30 k.payload
  if code ≠ 0 then t.claimFails n 4 code (claimHdr k.payload)
  else if (claimHdr k.payload).rtype = 0x0F then t.claimFrameEnd n (claimHdr k.payload)
  else t.claimItems (claimHdr k.payload) k.payload

theorem State.claimRecord_intact {s : State} {p : Nat} {k : LongPkt} (hi : IntactRecord s p k) :
    s.claimRecord p k =
      if (s.claimStream (pClaimStream s.strB p)).takes (pAliveGap s.strB p) (claimHdr k.payload) then s.claimTaken (pClaimStream s.strB p) k
      else (s.noteAlive (pClaimStream s.strB p) (claimHdr k.payload)).claimFails (pClaimStream s.strB p) 3 0 (claimHdr k.payload) := by
  rw [State.claimRecord, if_pos ⟨hi.channel.role, hi.channel.main, hi.channel.vc⟩]
  simp only [hi.hdr, hi.packetCrc, hi.dt, hi.recordCrc, State.header, reduceCtorEq, Bool.true_or, if_true, Bool.true_eq_false, or_self,
    and_false, if_false, ne_eq, not_true_eq_false]
  rw [← Bool.not_or]
  change (if (!(s.claimStream (pClaimStream s.strB p)).takes (pAliveGap s.strB p) (claimHdr k.payload)) = true then _ else _) = _
  -- The format does not depend on what the stream counts, so it is that of the state before.
  cases (s.claimStream (pClaimStream s.strB p)).takes (pAliveGap s.strB p) (claimHdr k.payload) <;> rfl

/-- The items of a passing record are queued for the grid, unless they answer a Crocus frame (R243). -/
theorem State.claimItems_real (s : State) {h : ClaimHdr} (b : List Byte) (hc : h.crocus = false) :
    (s.claimItems h b).io.claims = s.io.claims ∧
      (s.claimItems h b).grid.claimQ = s.grid.claimQ ++ ((upto h.count).map (claimItem b)).flatMap (gridItems h) := by
  rw [State.claimItems]
  dsimp only
  rw [if_neg (by simp [hc])]
  exact ⟨rfl, rfl⟩

theorem State.claimTaken_badFormat {s : State} {n : Nat} {k : LongPkt} (hn : n < 4) (hcode : s.claimFormat n 0x30 k.payload ≠ 0) :
    let t := s.claimTaken n k
    (t.claimStream n).err.getLsbD 3 = true ∧ (t.claimStream n).formatCode = s.claimFormat n 0x30 k.payload ∧
      t.watch.causes.getLsbD 2 = true := by
  obtain ⟨failed, doubt⟩ := State.claimFails_effect (s.noteAlive n (claimHdr k.payload)) (claimHdr k.payload) hn (s.claimTaken n k) (if_pos hcode)
  dsimp only
  rw [failed]
  exact ⟨by simp, rfl, doubt⟩

theorem State.claimTaken_items {s : State} {n : Nat} {k : LongPkt} (hn : n < 4) (hcode : s.claimFormat n 0x30 k.payload = 0)
    (htype : (claimHdr k.payload).rtype ≠ 0x0F) (hreal : (claimHdr k.payload).crocus = false) :
    let t := s.claimTaken n k
    (t.claimStream n).aliveLast = (claimHdr k.payload).alive ∧
      t.grid.claimQ = s.grid.claimQ ++ ((upto (claimHdr k.payload).count).map (claimItem k.payload)).flatMap (gridItems (claimHdr k.payload)) := by
  obtain ⟨claims, queue⟩ := (s.noteAlive n (claimHdr k.payload)).claimItems_real k.payload hreal
  dsimp only
  rw [State.claimTaken, if_neg (not_not.2 hcode), if_neg htype, State.claimStream_of _ claims, s.noteAlive_stream _ hn]
  exact ⟨rfl, queue⟩

theorem State.claimTaken_frameEnd {s : State} {n : Nat} {k : LongPkt} (hn : n < 4) (hcode : s.claimFormat n 0x30 k.payload = 0)
    (htype : (claimHdr k.payload).rtype = 0x0F) (hreal : (claimHdr k.payload).crocus = false) (hcam : (claimHdr k.payload).cam < 64)
    (hbad : ((s.camClaims (claimHdr k.payload).cam).frameFor (claimHdr k.payload)).bad = false) :
    let t := s.claimTaken n k
    (t.claimStream n).frames = satInc 65535 (s.claimStream n).frames ∧
      (t.camClaims (claimHdr k.payload).cam).doneReal = some (claimHdr k.payload).srcFrame ∧
      (t.camClaims (claimHdr k.payload).cam).ref = max (s.camClaims (claimHdr k.payload).cam).ref (claimHdr k.payload).srcBeat ∧
      (t.camClaims (claimHdr k.payload).cam).real = none ∧ t.grid.matchDue.isSome = true := by
  obtain ⟨frames, rest⟩ := (s.noteAlive n (claimHdr k.payload)).claimFrameEnd_real (claimHdr k.payload) hn hcam hreal hbad
  rw [s.noteAlive_stream _ hn] at frames
  dsimp only
  rw [State.claimTaken, if_neg (not_not.2 hcode), if_pos htype]
  exact ⟨frames, rest⟩

/-! ### The age of claims -/

/-- What the judgment of an age leaves before it is a cause of D1: a change is noted (R242), and wakes from STANDBY (R326). -/
def State.noteOverAge (s : State) (n : Nat) : State :=
  if s.overAge n = (s.claimStream n).overAge then s
  else
    let e := (s.modClaim n fun c => { c with overAge := s.overAge n }).event 0x2101 (n + b2n (s.overAge n) * 256)
    if s.overAge n then e.wakeRequest 5 else e

theorem State.claimAgeExpiry_eq (s : State) (n : Nat) :
    s.claimAgeExpiry n = if s.overAge n then (s.noteOverAge n).addDoubt 1 else s.noteOverAge n := rfl

theorem State.noteOverAge_stream (s : State) {n : Nat} (hn : n < 4) : ((s.noteOverAge n).claimStream n).overAge = s.overAge n := by
  unfold State.noteOverAge
  dsimp only
  split
  · next same => exact same.symm
  · generalize hu : (s.modClaim n fun c => { c with overAge := s.overAge n }).event 0x2101 (n + b2n (s.overAge n) * 256) = u
    have noted : (u.claimStream n).overAge = s.overAge n := by
      rw [← hu, State.claimStream_of n (congrArg StreamState.claims (State.event_io ..)), State.claimStream_modClaim _ _ hn]
    split
    · rw [State.claimStream_of n (congrArg StreamState.claims ((State.wakeRequest_rel u 5).frame .io (by decide)))]
      exact noted
    · exact noted

theorem State.claimAgeExpiry_effect (s : State) {n : Nat} (hn : n < 4) :
    ((s.claimAgeExpiry n).claimStream n).overAge = s.overAge n ∧
      (s.overAge n = true → (s.claimAgeExpiry n).watch.causes.getLsbD 1 = true) := by
  rw [State.claimAgeExpiry_eq]
  split
  · exact ⟨s.noteOverAge_stream hn, fun _ => by simp [State.addDoubt]⟩
  · next young => exact ⟨s.noteOverAge_stream hn, fun old => absurd old young⟩

/-! ### Verdict batches -/

theorem State.verdictPort_lt {s : State} {p : Nat} (h : s.verdictPort = some p) : p < 16 :=
  List.mem_range.1 (List.mem_of_find?_eq_some h)

theorem State.verdictBatch_none {s : State} (sent : Bool) (h : s.verdictPort = none) : s.verdictBatch sent = s := by
  rw [State.verdictBatch]
  simp only [h]

theorem State.verdictBatch_early {s : State} (sent : Bool) (h : s.beat < 64 * s.io.v.next + 64) : s.verdictBatch sent = s := by
  cases hp : s.verdictPort with
  | none => exact State.verdictBatch_none sent hp
  | some p =>
    rw [State.verdictBatch]
    simp only [hp]
    exact if_neg (by omega)

theorem State.verdictBatch_sent {s : State} {p : Nat} (hp : s.verdictPort = some p) (hv : s.verdictOn = true)
    (hb : 64 * s.io.v.next + 64 ≤ s.beat) (ht : s.beat ≤ 64 * s.io.v.next + 65) :
    ((s.verdictBatch true).port p).out = [shortPkt (pVc s.strB p) 0 (s.io.v.next % 65536 % 65535 + 1),
        longPkt (pVc s.strB p) 0x31 (s.batchBytes s.io.v.next) false, shortPkt (pVc s.strB p) 1 (s.io.v.next % 65536 % 65535 + 1)] ∧
      (s.verdictBatch true).io.v.next = s.io.v.next + 1 ∧ (s.verdictBatch true).io.v.alive = s.io.v.next % 65536 := by
  rw [State.verdictBatch]
  simp only [hp]
  rw [if_pos ⟨hv, hb⟩, if_pos ⟨trivial, ht⟩]
  exact ⟨congrArg PortState.out (s.port_sends _ (State.verdictPort_lt hp)), rfl, rfl⟩

theorem State.verdictBatch_dropped {s : State} {p : Nat} {sent : Bool} (hp : s.verdictPort = some p) (hv : s.verdictOn = true)
    (hb : 64 * s.io.v.next + 64 ≤ s.beat) (h : sent = false ∨ 64 * s.io.v.next + 65 < s.beat) :
    (s.verdictBatch sent).io = { s.io with v := { s.io.v with txFault := true, next := s.io.v.next + 1 } } := by
  rw [State.verdictBatch]
  simp only [hp]
  rw [if_pos ⟨hv, hb⟩, if_neg fun ⟨hs, ht⟩ => h.elim (by simp [hs]) (by omega)]

/-- Settles O48: a record by the first check that fails, or by its type; a batch by its beat. -/
theorem claimRecords : Obligations.ClaimRecords := by
  refine ⟨fun s p k hp hm h => ?_, fun s p k n hp hm hr hv hn h4 => ?_,
    fun s n hp => goes_island (f := fun s => s.claimAgeExpiry n) hp (s.claimAgeExpiry_effect n.isLt),
    fun s sent hp hm => ⟨fun h => ?_, fun h => ?_, fun p hport hv hb => ⟨?_, fun h => goes_main (f := fun s => s.verdictBatch sent) hp hm ?_⟩⟩⟩
  · exact (main_eq hp hm fun s => s.claimRecord p k).trans (congrArg _ (State.claimRecord_other h))
  · subst hn
    have channel : OnClaimChannel s p k := ⟨hr, hm, hv⟩
    refine ⟨fun hh hk => goes_claimRecord hp hm ?_, fun hh hk hd hc => goes_claimRecord hp hm ?_,
      fun hh hk hd hc hf ha => goes_claimRecord hp hm ?_, fun hh hk hd hc ha => ?_⟩
    · obtain ⟨u, claims, record⟩ := State.claimRecord_packetCrc channel hh hk
      obtain ⟨failed, doubt⟩ := u.claimFails_effect _ h4 _ record
      rw [failed, State.claimStream_of _ claims]
      exact ⟨by simp, rfl, doubt⟩
    · obtain ⟨failed, doubt⟩ := s.claimFails_effect _ h4 _ (State.claimRecord_recordCrc channel hh hk hd hc)
      rw [failed]
      exact ⟨by simp, rfl, doubt⟩
    · have skipped : ¬(s.claimStream (pClaimStream s.strB p)).takes (pAliveGap s.strB p) (claimHdr k.payload) = true := by
        rw [ClaimStream.takes_iff, hf]
        simp only [Bool.false_eq_true, false_or, ClaimStream.aliveStep]
        omega
      obtain ⟨failed, doubt⟩ := State.claimFails_effect _ _ h4 _
        ((State.claimRecord_intact ⟨channel, hh, hk, hd, hc⟩).trans (if_neg skipped))
      rw [failed, s.noteAlive_stream _ h4]
      exact ⟨by simp, rfl, doubt⟩
    · have record := (State.claimRecord_intact ⟨channel, hh, hk, hd, hc⟩).trans (if_pos (ClaimStream.takes_iff.2 ha))
      refine ⟨fun hcode => goes_claimRecord hp hm ?_, fun hcode htype hreal => goes_claimRecord hp hm ?_,
        fun hcode htype hreal hcam hbad => goes_claimRecord hp hm ?_⟩
      · rw [record]
        exact State.claimTaken_badFormat h4 hcode
      · rw [record]
        exact State.claimTaken_items h4 hcode htype hreal
      · rw [record]
        exact State.claimTaken_frameEnd h4 hcode htype hreal hcam hbad
  · exact (main_eq hp hm fun s => s.verdictBatch sent).trans (congrArg _ (State.verdictBatch_none sent h))
  · exact (main_eq hp hm fun s => s.verdictBatch sent).trans (congrArg _ (State.verdictBatch_early sent h))
  · rintro rfl ht
    exact goes_main (f := fun s => s.verdictBatch true) hp hm (State.verdictBatch_sent hport hv hb ht)
  · rw [State.verdictBatch_dropped hport hv hb h]
    exact ⟨rfl, rfl, rfl⟩

end Sys2Proof.Machine
end

section
/-!
PROOFS. The maximum time of the stop, and the cross-check of the encoders (R277, R287).
-/
namespace Sys2Proof.Machine

theorem State.addTrig_collects (s : State) (w : WState) (cause : Nat) : (⟨w, cause⟩ : Trigger) ∈ (s.addTrig w cause).watch.trig :=
  List.mem_append_right _ (List.mem_singleton_self _)

/-- A fault leaves the state of the watch. -/
theorem State.raise_wstate (s : State) (src : Nat) (c : FaultClass) (info : Nat) : (s.raise src c info).watch.wstate = s.watch.wstate :=
  (State.raise_rel ..).frame .wstate (by decide)

/-- A fault leaves the encoders. -/
theorem State.raise_enc (s : State) (src : Nat) (c : FaultClass) (info : Nat) : (s.raise src c info).enc = s.enc :=
  (State.raise_rel ..).frame .enc (by decide)

/-- A stop that has not reached standstill in its time is the fatal fault of source 11 and the trigger of cause 0x20 (R287). -/
theorem State.ss1MaxTimeDue_late {s : State} (hw : s.watch.wstate = .stopping) (ht : s.watch.ss1Since + s.ss1MaxTime ≤ s.beat)
    (hv : s.speedBelow s.standstillMmps = false) (hf : s.fc.activeFt.getLsbD 11 = false) :
    s.ss1MaxTimeDue = (s.raise 11 .ft 0x02).addTrig .halt 0x20 := if_pos ⟨hw, ht, hv, hf⟩

/-- A disagreement longer than ENC_DISC_BEATS is marked as declared, and is the uncorrected fault of source 8 (R277). -/
theorem State.crossCheckFault_declared {s : State} (hr : s.encDiscBeats < s.enc.xchkRun) (hd : s.enc.xchkDone = false) :
    s.crossCheckFault = (({ s with enc := { s.enc with xchkDone := true } } : State).raise 8 .uc 0x04).holdXchk := if_pos ⟨hr, hd⟩

/-- Settles O13: each command by the equation of its operation in the case named. -/
theorem stopAndSpeedFaults : Obligations.StopAndSpeedFaults := by
  refine ⟨fun s hp hw ht hv hf => goes_island (f := State.ss1MaxTimeDue) hp ?_,
    fun s hp hr hd => goes_island (f := State.crossCheckFault) hp ?_⟩
  · rw [State.ss1MaxTimeDue_late hw ht hv hf]
    exact ⟨(s.raise_reacts 11 .ft 2 (by decide)).frame (State.addTrig_rel ..) (by decide), State.addTrig_collects ..,
      (s.raise_wstate ..).trans hw⟩
  · rw [State.crossCheckFault_declared hr hd]
    refine ⟨((State.raise_reacts _ 8 .uc 4 (by decide)).frame (State.holdXchk_rel _) (by decide)).source rfl rfl, ?_⟩
    rw [State.holdXchk, State.raise_enc]

end Sys2Proof.Machine
end

section
/-!
PROOFS. Safe inputs: demands, the return to ON and the faults that lock (R265 to R273), and test pulses (R270, R272).
-/
namespace Sys2Proof.Machine

/-! ### Demands and the return to ON -/

theorem State.safeInputDemand_due {s : State} {i : Nat} (h : s.demandDue i = true) : s.safeInputDemand i = s.demand i := if_pos h

theorem State.safeInputDemand_not_due {s : State} {i : Nat} (h : s.demandDue i = false) : s.safeInputDemand i = s :=
  if_neg (Bool.eq_false_iff.1 h)

/-- A demand of an input of role STOP stops (R265). -/
theorem State.demand_stop {s : State} {i : Nat} (h : s.siRole i = 1) : (⟨.stopping, 0x14⟩ : Trigger) ∈ (s.demand i).watch.trig := by
  rw [State.demand, if_pos h]
  exact State.addTrig_collects ..

/-- A demand of an input of role STO is the fatal fault of its source outside HALT (R265). -/
theorem State.demand_sto {s : State} {i : Fin 8} (h : s.siRole i = 2) (hw : s.watch.wstate ≠ .halt) :
    Reacts s (4 + i.val / 4) .ft (i.val % 4 * 256 + 6) (s.demand i) := by
  rw [State.demand, if_neg (by simp [h]), if_pos h, if_neg hw]
  exact (State.raise_reacts_after (State.event_rel ..).frame .ft _).source rfl rfl

theorem State.safeInputOn_due {s : State} {i : Fin 8} (h : s.onDue i = true) :
    (s.safeInputOn i).inp i = { s.inp i with on := true } := by
  rw [State.safeInputOn, if_pos h, State.modInp_at]

theorem State.safeInputOn_not_due {s : State} {i : Nat} (h : s.onDue i = false) : s.safeInputOn i = s := if_neg (Bool.eq_false_iff.1 h)

/-! ### Faults that lock -/

theorem SafeInput.modChan_on (x : SafeInput) (b : Bool) (f : SafeChan → SafeChan) : (x.modChan b f).on = x.on := by
  cases b <;> rfl

/-- A command that locks its input with a fault where this is due, after a change `f` that is not to the input's level. -/
theorem goes_lockFault_if {s : State} {i : Fin 8} {x : Instr} {due : Bool} {code cause : Nat} {f : SafeInput → SafeInput}
    (hx : exec x s = .next (if due then ({ s with si := vmod s.si i f } : State).lockFault i code cause else s))
    (hf : ∀ y, (f y).on = y.on) :
    (due = true → Goes (exec x s) fun t => (t.inp i).locked = true ∧ (t.inp i).lockCause = cause ∧ (t.inp i).unlockArmed = false ∧
      (t.inp i).on = false ∧ ((s.inp i).on = false → Reacts s (4 + i.val / 4) .uc (i.val % 4 * 256 + code) t)) ∧
    (due = false → exec x s = .next s) := by
  refine ⟨fun h => ⟨_, hx, ?_⟩, fun h => hx.trans (congrArg _ (if_neg (Bool.eq_false_iff.1 h)))⟩
  rw [if_pos h]
  exact s.lockFault_effect i f hf code cause _ rfl

/-- The inputs of a list locked one after the other for one cause: each of them is locked for it. -/
theorem State.foldl_lock_inp (cause : Nat) (i : Fin 8) : ∀ (l : List Nat) (s : State),
    (i.val ∈ l ∨ (s.inp i).locked = true ∧ (s.inp i).lockCause = cause) →
    ((l.foldl (fun (t : State) j => t.lock j cause) s).inp i).locked = true ∧
      ((l.foldl (fun (t : State) j => t.lock j cause) s).inp i).lockCause = cause
  | [], _, h => h.resolve_left (by simp)
  | j :: l, s, h => by
    refine State.foldl_lock_inp cause i l (s.lock j cause) ?_
    by_cases hj : j = i.val
    · obtain ⟨locked, lockCause, -, -⟩ := s.lock_inp i cause
      rw [hj]
      exact .inr ⟨locked, lockCause⟩
    · rw [s.lock_other j i cause hj]
      exact h.imp_left fun hm => (List.mem_cons.1 hm).resolve_left (Ne.symm hj)

/-- Locks leave the test-pulse sources. -/
theorem State.foldl_lock_tp (cause : Nat) (l : List Nat) (s : State) : (l.foldl (fun (t : State) j => t.lock j cause) s).tp = s.tp :=
  (Rel.foldl (.refl s) fun t j => State.lock_rel t j cause).frame .tp (by decide)

/-! ### Test pulses -/

theorem State.tpStart_due {s : State} {k : Fin 4} (h : s.tpDueAt k s.beat = true)
    (hs : (vget s.tp k TestPulse.default).start ≠ some s.beat) :
    vget (s.tpStart k).tp k TestPulse.default = { vget s.tp k TestPulse.default with high := false, start := some s.beat } := by
  rw [State.tpStart, if_pos h]
  exact (vget_vmod_same k.isLt).trans (if_neg hs)

theorem State.tpStart_not_due {s : State} {k : Nat} (h : s.tpDueAt k s.beat = false) : s.tpStart k = s := if_neg (Bool.eq_false_iff.1 h)

/-- A pulse whose width has passed rises (R270). -/
theorem State.tpEnd_over {s : State} {k : Fin 4} {p : Nat} (h : (vget s.tp k TestPulse.default).start = some p)
    (hb : p + s.tpWidth ≤ s.beat) :
    vget (s.tpEnd k).tp k TestPulse.default = { vget s.tp k TestPulse.default with high := true } := by
  rw [State.tpEnd]
  refine (vget_vmod_same k.isLt).trans ?_
  simp only [h]
  exact if_pos (.inl hb)

/-- A wrong level at a source's pin: the fault is marked, and every input in use that is wired to the source is locked (R272). -/
theorem State.tpPinFault_due {s : State} {k : Fin 4} (h : (vget s.tp k TestPulse.default).wrongDue = true) :
    vget (s.tpPinFault k).tp k TestPulse.default = { vget s.tp k TestPulse.default with wrongDue := false, faulted := true } ∧
      ∀ i : Fin 8, s.siRole i ≠ 0 → (s.siTp i false = k ∨ s.siTp i true = k) →
        ((s.tpPinFault k).inp i).locked = true ∧ ((s.tpPinFault k).inp i).lockCause = 5 := by
  rw [State.tpPinFault, if_pos h]
  refine ⟨?_, fun i hr hw => State.foldl_lock_inp 5 i _ _ (.inl ?_)⟩
  · rw [State.foldl_lock_tp, (State.raise_rel ..).frame .tp (by decide)]
    exact vget_vmod_same k.isLt
  · simp [upto, i.isLt, hr, hw]

theorem State.tpPinFault_not_due {s : State} {k : Nat} (h : (vget s.tp k TestPulse.default).wrongDue = false) : s.tpPinFault k = s :=
  if_neg (Bool.eq_false_iff.1 h)

/-! ### The commands -/

/-- Settles O41: each command by its operation, due or not; the four faults that lock by `goes_lockFault_if`. -/
theorem safeInputs : Obligations.SafeInputs := by
  refine ⟨fun s i hp h => goes_island (f := fun s => s.safeInputDemand i) hp ?_, fun s i hp h => ?_,
    fun s i hp => ⟨fun h => ?_, fun h => ?_⟩, fun s i b x due code cause hp hx => ?_,
    fun s k hp => ⟨fun h hs => ?_, fun h => ?_, fun p h hb => ?_, fun h => ?_, fun h => ?_⟩⟩
  -- Demands and the return to ON
  · rw [State.safeInputDemand_due h, State.demand_inp]
    exact ⟨rfl, rfl, State.demand_stop, State.demand_sto⟩
  · exact (island_eq hp fun s => s.safeInputDemand i).trans (congrArg _ (State.safeInputDemand_not_due h))
  · exact goes_island (f := fun s => s.safeInputOn i) hp (State.safeInputOn_due h)
  · exact (island_eq hp fun s => s.safeInputOn i).trans (congrArg _ (State.safeInputOn_not_due h))
  -- Faults that lock
  · simp only [List.mem_cons, Prod.mk.injEq, List.not_mem_nil, or_false] at hx
    obtain ⟨rfl, rfl, rfl, rfl⟩ | ⟨rfl, rfl, rfl, rfl⟩ | ⟨rfl, rfl, rfl, rfl⟩ | ⟨rfl, rfl, rfl, rfl⟩ := hx
    · exact goes_lockFault_if (island_eq hp fun s => s.discrepancyFault i) fun _ => rfl
    · exact goes_lockFault_if (island_eq hp fun s => s.stuckOnFault i b) fun _ => SafeInput.modChan_on ..
    · exact goes_lockFault_if (island_eq hp fun s => s.crossShortFault i b) fun _ => SafeInput.modChan_on ..
    · exact goes_lockFault_if (island_eq hp fun s => s.chatterFault i) fun _ => rfl
  -- Test pulses
  · exact goes_island (f := fun s => s.tpStart k) hp (State.tpStart_due h hs)
  · exact (island_eq hp fun s => s.tpStart k).trans (congrArg _ (State.tpStart_not_due h))
  · exact goes_island (f := fun s => s.tpEnd k) hp (State.tpEnd_over h hb)
  · exact goes_island (f := fun s => s.tpPinFault k) hp (State.tpPinFault_due h)
  · exact (island_eq hp fun s => s.tpPinFault k).trans (congrArg _ (State.tpPinFault_not_due h))

end Sys2Proof.Machine
end

section
/-!
PROOFS. Encoder edges, faults and speeds (R274, R276, R277).
-/
namespace Sys2Proof.Machine

/-! ### Edges -/

theorem edgeSign_still (a b : Bool) : edgeSign a b a b = 0 := by simp [edgeSign]

theorem edgeSign_double {a b a' b' : Bool} (ha : a ≠ a') (hb : b ≠ b') : edgeSign a b a' b' = 0 := by simp [edgeSign, ha, hb]

/-- A leads B: the four changes of a forward turn. -/
theorem edgeSign_forward {a b a' b' : Bool}
    (h : (a, b, a', b') ∈ [(false, false, true, false), (true, false, true, true), (true, true, false, true), (false, true, false, false)]) :
    edgeSign a b a' b' = 1 := by
  revert a b a' b'
  decide

/-- B leads A: the four changes of a backward turn. -/
theorem edgeSign_backward {a b a' b' : Bool}
    (h : (a, b, a', b') ∈ [(true, false, false, false), (true, true, true, false), (false, true, true, true), (false, false, false, true)]) :
    edgeSign a b a' b' = -1 := by
  revert a b a' b'
  decide

section
variable {e : Encoder} {rev : Bool} {zEdges zTol : Nat} {a b z : Bool}

/-- A change counts by the sign of its edge, times the direction of the encoder's mounting, in the position and the sum. -/
theorem Encoder.change_of_edgeSign {n : Int} (h : edgeSign e.a e.b a b = n) :
    (e.change rev zEdges zTol a b z).pos = e.pos + BitVec.ofInt 32 (n * if rev then -1 else 1) ∧
      (e.change rev zEdges zTol a b z).sum = e.sum + (n * if rev then -1 else 1) ∧
      (e.change rev zEdges zTol a b z).count = e.count + n.natAbs := by
  subst h
  cases rev <;> simp [Encoder.change]

/-- A double change is illegal, and no other is (R274, R275). -/
theorem Encoder.change_curIllegal :
    (e.change rev zEdges zTol a b z).curIllegal = (e.curIllegal || (e.a != a && e.b != b)) := rfl

/-- A change of no edge moves nothing. -/
theorem Encoder.change_of_no_edge (h : edgeSign e.a e.b a b = 0) :
    (e.change rev zEdges zTol a b z).pos = e.pos ∧ (e.change rev zEdges zTol a b z).sum = e.sum := by
  obtain ⟨pos, sum, -⟩ := Encoder.change_of_edgeSign (rev := rev) (zEdges := zEdges) (zTol := zTol) (z := z) h
  rw [pos, sum, Int.zero_mul]
  exact ⟨BitVec.add_zero _, Int.add_zero _⟩

/-- The levels as they were: nothing moves, and nothing is illegal. -/
theorem Encoder.change_still (ha : e.a = a) (hb : e.b = b) :
    (e.change rev zEdges zTol a b z).pos = e.pos ∧ (e.change rev zEdges zTol a b z).sum = e.sum ∧
      (e.change rev zEdges zTol a b z).curIllegal = e.curIllegal := by
  obtain ⟨pos, sum⟩ := Encoder.change_of_no_edge (rev := rev) (zEdges := zEdges) (zTol := zTol) (z := z)
    (show edgeSign e.a e.b a b = 0 by rw [ha, hb, edgeSign_still])
  exact ⟨pos, sum, by simp [Encoder.change_curIllegal, ha]⟩

theorem Encoder.change_forward
    (h : (e.a, e.b, a, b) ∈ [(false, false, true, false), (true, false, true, true), (true, true, false, true), (false, true, false, false)]) :
    (e.change rev zEdges zTol a b z).pos = e.pos + BitVec.ofInt 32 (if rev then -1 else 1) ∧
      (e.change rev zEdges zTol a b z).sum = e.sum + (if rev then -1 else 1) ∧
      (e.change rev zEdges zTol a b z).count = e.count + 1 := by
  simpa only [Int.one_mul, Int.natAbs_one] using Encoder.change_of_edgeSign (edgeSign_forward h)

theorem Encoder.change_backward
    (h : (e.a, e.b, a, b) ∈ [(true, false, false, false), (true, true, true, false), (false, true, true, true), (false, false, false, true)]) :
    (e.change rev zEdges zTol a b z).pos = e.pos + BitVec.ofInt 32 (-if rev then -1 else 1) ∧
      (e.change rev zEdges zTol a b z).sum = e.sum - (if rev then -1 else 1) ∧
      (e.change rev zEdges zTol a b z).count = e.count + 1 := by
  simpa only [Int.neg_one_mul, Int.sub_eq_add_neg, Int.natAbs_neg, Int.natAbs_one] using Encoder.change_of_edgeSign (edgeSign_backward h)

/-- A change of both levels moves nothing, and is illegal. -/
theorem Encoder.change_double (ha : e.a ≠ a) (hb : e.b ≠ b) :
    (e.change rev zEdges zTol a b z).pos = e.pos ∧ (e.change rev zEdges zTol a b z).curIllegal = true :=
  ⟨(Encoder.change_of_no_edge (edgeSign_double ha hb)).1, by simp [Encoder.change_curIllegal, ha, hb]⟩

end

/-- An edge changes its encoder as the encoder's settings say. -/
theorem State.encoderEdge_encAt (s : State) (e : Fin 2) (a b z : Bool) :
    (s.encoderEdge e a b z).encAt e = (s.encAt e).change (s.encReverse e) (s.encZEdges e) (s.encZTol e) a b (z && e.val == 0) :=
  vget_vmod_same e.isLt

/-! ### Faults and speeds. A fault of an encoder, due as `d` says, is taken by its flag. -/

theorem Encoder.take_rate {x : Encoder} {d : Bool} (h : x.dueRate = d) :
    (if d then { x with dueRate := false, fRate := true } else x) = { x with dueRate := false, fRate := x.fRate || d } := by
  cases d with
  | true => rw [if_pos rfl, Bool.or_true]
  | false => rw [if_neg Bool.false_ne_true, Bool.or_false, ← h]

theorem Encoder.take_illegal {x : Encoder} {d : Bool} (h : x.dueIllegal = d) :
    (if d then { x with dueIllegal := false, fIllegal := true } else x) = { x with dueIllegal := false, fIllegal := x.fIllegal || d } := by
  cases d with
  | true => rw [if_pos rfl, Bool.or_true]
  | false => rw [if_neg Bool.false_ne_true, Bool.or_false, ← h]

theorem Encoder.take_index {x : Encoder} {d : Bool} (h : x.dueIndex = d) :
    (if d then { x with dueIndex := false, fIndex := true } else x) = { x with dueIndex := false, fIndex := x.fIndex || d } := by
  cases d with
  | true => rw [if_pos rfl, Bool.or_true]
  | false => rw [if_neg Bool.false_ne_true, Bool.or_false, ← h]

/-- The faults of an encoder that are due become flags; one that is due alone is raised with its code (R277, R290). -/
theorem State.encoderFault_effect (s : State) (e : Fin 2) :
    let x := s.encAt e
    let t := s.encoderFault e
    t.encAt e =
      { x with
        dueRate := false, dueIllegal := false, dueIndex := false
        fRate := x.fRate || x.dueRate, fIllegal := x.fIllegal || x.dueIllegal, fIndex := x.fIndex || x.dueIndex } ∧
    (x.dueRate = true → x.dueIllegal = false → x.dueIndex = false → Reacts s (7 + e.val) .uc (e.val * 256 + 1) t) ∧
    (x.dueRate = false → x.dueIllegal = true → x.dueIndex = false → Reacts s (7 + e.val) .uc (e.val * 256 + 2) t) ∧
    (x.dueRate = false → x.dueIllegal = false → x.dueIndex = true → Reacts s (7 + e.val) .uc (e.val * 256 + 3) t) := by
  unfold State.encoderFault
  dsimp only
  generalize h1 : (if (s.encAt e).dueRate then _ else s : State) = s1
  generalize h2 : (if (s.encAt e).dueIllegal then _ else s1 : State) = s2
  generalize h3 : (if (s.encAt e).dueIndex then _ else s2 : State) = s3
  obtain ⟨rate, rateReacts, noRate⟩ := s.encFault_step e _ _ 1 s1 h1.symm
  obtain ⟨illegal, illegalReacts, noIllegal⟩ := s1.encFault_step e _ _ 2 s2 h2.symm
  obtain ⟨index, indexReacts, noIndex⟩ := s2.encFault_step e _ _ 3 s3 h3.symm
  refine ⟨?_, fun hr hi hx => ?_, fun hr hi hx => ?_, fun hr hi hx => ?_⟩
  · replace rate := rate.trans (Encoder.take_rate rfl)
    replace illegal := illegal.trans (Encoder.take_illegal (by rw [rate]))
    replace index := index.trans (Encoder.take_index (by rw [illegal, rate]))
    rw [index, illegal, rate]
  · rw [noIndex hx, noIllegal hi]
    exact rateReacts hr
  · rw [noIndex hx, ← noRate hr]
    exact illegalReacts hi
  · rw [← noRate hr, ← noIllegal hi]
    exact indexReacts hx

/-- The speeds of the beat: the machine's is the larger one while both are valid, each encoder's is its own (R276, R277). -/
theorem State.measureSpeed_encAt (s : State) (e : Fin 2) :
    s.measureSpeed.encAt e =
      { s.encAt e with v := if s.encValid e then some ((s.encAt e).speedOf s.speedWin (s.encEdgeNm e)) else none } := by
  refine (vget_vmapIdx _ s.enc.enc _ Encoder.default e.isLt).trans ?_
  match e with
  | 0 => rfl
  | 1 => rfl

end Sys2Proof.Machine
end

section
/-!
PROOFS. Off-pulses (R283, R284), and the commands of encoders and off-pulses.
-/
namespace Sys2Proof.Machine

/-! ### The start of a pulse -/

theorem OutGroup.modChan_same (x : OutGroup) (b : Bool) (f : OutChan → OutChan) : (x.modChan b f).chan b = f (x.chan b) := by
  cases b <;> rfl

theorem OutGroup.modChan_other (x : OutGroup) (b : Bool) (f : OutChan → OutChan) : (x.modChan b f).chan (!b) = x.chan (!b) := by
  cases b <;> rfl

theorem OutGroup.modChan_pulsesOk (x : OutGroup) (b : Bool) (f : OutChan → OutChan) : (x.modChan b f).pulsesOk = x.pulsesOk := by
  cases b <;> rfl

/-- A pulse that may start drives its channel low, and only that one (R283). -/
theorem State.offPulseStart_may {s : State} {g : Fin 4} {b : Bool} (h : s.pulseMayStart g b = true) :
    ((s.offPulseStart g b).grp g).pulse = some ⟨b, s.beat, false, false, false⟩ ∧
      (((s.offPulseStart g b).grp g).chan b).high = false ∧
      ((s.offPulseStart g b).grp g).chan (!b) = (s.grp g).chan (!b) := by
  rw [State.offPulseStart, if_pos h, State.modGrp_at]
  exact ⟨rfl, congrArg OutChan.high (OutGroup.modChan_same ..), OutGroup.modChan_other ..⟩

theorem State.offPulseStart_may_not {s : State} {g : Nat} {b : Bool} (h : s.pulseMayStart g b = false) : s.offPulseStart g b = s :=
  if_neg (Bool.eq_false_iff.1 h)

/-! ### The return of the channel -/

theorem State.pulseReturn_none {s : State} {g : Fin 4} (h : (s.grp g).pulse = none) : (s.pulseReturn g).grp g = s.grp g := by
  simp only [State.pulseReturn, State.modGrp_at, h]

/-- While the width has not passed, nothing returns. -/
theorem State.pulseReturn_early {s : State} {g : Fin 4} {p : OffPulse} (h : (s.grp g).pulse = some p)
    (hb : s.beat < p.start + s.soPulseWidth g) : (s.pulseReturn g).grp g = s.grp g := by
  simp [State.pulseReturn, State.modGrp_at, h, Nat.not_le.2 hb]

/-- The channel of a pulse is driven again once the width has passed; its read-back and the count stay (R283). -/
theorem State.pulseReturn_pulse {s : State} {g : Fin 4} {p : OffPulse} (h : (s.grp g).pulse = some p) :
    ((s.pulseReturn g).grp g).pulse = some { p with returning := p.returning || decide (p.start + s.soPulseWidth g ≤ s.beat) } ∧
      (((s.pulseReturn g).grp g).chan p.chan).rb = ((s.grp g).chan p.chan).rb ∧
      ((s.pulseReturn g).grp g).pulsesOk = (s.grp g).pulsesOk := by
  simp only [State.pulseReturn, State.modGrp_at, h]
  split
  · rename_i hr
    simp only [Bool.and_eq_true, decide_eq_true_eq] at hr
    exact ⟨by simp [hr.1], (congrArg OutChan.rb (OutGroup.modChan_same (s.grp g) p.chan fun c => { c with high := true }) :),
      OutGroup.modChan_pulsesOk ..⟩
  · rename_i hr
    have same : (p.returning || decide (p.start + s.soPulseWidth g ≤ s.beat)) = p.returning := by simpa using hr
    exact ⟨by rw [h, same], rfl, rfl⟩

/-! ### The verdict on a pulse (R284) -/

theorem State.pulseVerdict_otherDropped {s : State} {g : Nat} {p : OffPulse} (rb : Bool) (h : p.otherDropped = true) :
    s.pulseVerdict g p rb = some (some 0x03) := if_pos h

theorem State.pulseVerdict_low {s : State} {g : Nat} {p : OffPulse} (rb : Bool) (hs : p.start ≤ s.beat) (ho : p.otherDropped = false)
    (hr : p.returning = false) (hb : s.beat + 2 < p.start + s.soPulseWidth g) : s.pulseVerdict g p rb = none := by
  have early : ¬s.soPulseWidth g ≤ s.beat - p.start + 2 := by omega
  simp [State.pulseVerdict, ho, hr, early]

theorem State.pulseVerdict_passed {s : State} {g : Nat} {p : OffPulse} (hb : p.start + s.soPulseWidth g < s.beat)
    (ho : p.otherDropped = false) (hs : p.sawOff = true) (hr : p.returning = true) : s.pulseVerdict g p true = some none := by
  have late : s.soPulseWidth g < s.beat - p.start := by omega
  simp [State.pulseVerdict, ho, hs, hr, late]

/-! ### The end of a pulse: one equation for each verdict -/

theorem State.offPulseEnd_none {s : State} {g : Nat} (h : ((s.pulseReturn g).grp g).pulse = none) : s.offPulseEnd g = s.pulseReturn g := by
  simp only [State.offPulseEnd, h]

section
variable {s : State} {g : Nat} {p : OffPulse}

theorem State.offPulseEnd_pending (h : ((s.pulseReturn g).grp g).pulse = some p)
    (hv : (s.pulseReturn g).pulseVerdict g p (((s.pulseReturn g).grp g).chan p.chan).rb = none) : s.offPulseEnd g = s.pulseReturn g := by
  simp only [State.offPulseEnd, h, hv]

theorem State.offPulseEnd_passed (h : ((s.pulseReturn g).grp g).pulse = some p)
    (hv : (s.pulseReturn g).pulseVerdict g p (((s.pulseReturn g).grp g).chan p.chan).rb = some none) :
    s.offPulseEnd g = (s.pulseReturn g).modGrp g fun x =>
      { x.modChan p.chan (fun c => { c with reached := true }) with pulse := none, pulsesOk := (x.pulsesOk + 1) % 65536 } := by
  simp only [State.offPulseEnd, h, hv]

theorem State.offPulseEnd_failed {code : Nat} (h : ((s.pulseReturn g).grp g).pulse = some p)
    (hv : (s.pulseReturn g).pulseVerdict g p (((s.pulseReturn g).grp g).chan p.chan).rb = some (some code)) :
    s.offPulseEnd g =
      ((s.pulseReturn g).modGrp g fun x => { x with pulse := none }).raise (soSource g) .ft (soInfo g p.chan code) := by
  simp only [State.offPulseEnd, h, hv]

end

/-- The return of a channel is no fault. -/
theorem State.pulseReturn_fc (s : State) (g : Nat) : (s.pulseReturn g).fc = s.fc := (State.pulseReturn_rel ..).frame .fc (by decide)

/-- A pulse that is over and has shown its channel off, then on, passes: the group is idle again and counts it (R284). -/
theorem State.offPulseEnd_effect_of_passed {s : State} {g : Fin 4} {p : OffPulse} (h : (s.grp g).pulse = some p)
    (hb : p.start + s.soPulseWidth g < s.beat) (ho : p.otherDropped = false) (hs : p.sawOff = true)
    (hrb : ((s.grp g).chan p.chan).rb = true) :
    ((s.offPulseEnd g).grp g).pulse = none ∧ (((s.offPulseEnd g).grp g).chan p.chan).reached = true ∧
      ((s.offPulseEnd g).grp g).pulsesOk = ((s.grp g).pulsesOk + 1) % 65536 := by
  obtain ⟨pulse, rb, pulsesOk⟩ := State.pulseReturn_pulse h
  have verdict : (s.pulseReturn g).pulseVerdict g { p with returning := p.returning || decide (p.start + s.soPulseWidth g ≤ s.beat) }
      (((s.pulseReturn g).grp g).chan p.chan).rb = some none := by
    rw [rb, hrb]
    exact State.pulseVerdict_passed hb ho hs (by simp [Nat.le_of_lt hb])
  rw [State.offPulseEnd_passed pulse verdict, State.modGrp_at, ← pulsesOk]
  exact ⟨rfl, congrArg OutChan.reached (OutGroup.modChan_same ..), rfl⟩

/-- A pulse in which the other channel has dropped is the fatal fault of the group (R284). -/
theorem State.offPulseEnd_reacts_of_otherDropped {s : State} {g : Fin 4} {p : OffPulse} (h : (s.grp g).pulse = some p)
    (ho : p.otherDropped = true) :
    Reacts s (9 + g.val / 2) .ft ((2 * (g.val % 2) + b2n p.chan) * 256 + 3) (s.offPulseEnd g) := by
  obtain ⟨pulse, -, -⟩ := State.pulseReturn_pulse h
  rw [State.offPulseEnd_failed pulse (State.pulseVerdict_otherDropped _ ho)]
  exact (State.raise_reacts _ _ .ft _ (by show 9 + g.val / 2 < 128; omega)).source (s.pulseReturn_fc g) rfl

/-- Settles O42: each command by the effect of its operation. -/
theorem encodersAndPulses : Obligations.EncodersAndPulses := by
  refine ⟨fun s e a b z hp => goes_island (f := fun s => s.encoderEdge e a b z) hp ?_,
    fun s e hp => goes_island (f := fun s => s.encoderFault e) hp ?_,
    fun s hp => goes_island (f := State.measureSpeed) hp ⟨rfl, fun e => by rw [State.measureSpeed_encAt]⟩,
    fun s g b hp => ⟨fun h => ?_, fun h => ?_⟩, fun s g p hp h => ⟨fun hs ho hr hb => ?_, fun hb ho hs hrb => ?_, fun ho => ?_⟩,
    fun s g hp h => ?_⟩
  · rw [State.encoderEdge_encAt]
    exact ⟨rfl, rfl, Encoder.change_still, Encoder.change_forward, Encoder.change_backward, Encoder.change_double⟩
  · obtain ⟨flags, rate, illegal, index⟩ := s.encoderFault_effect e
    rw [flags]
    exact ⟨rfl, rfl, rfl, rfl, rfl, rfl, rate, illegal, index⟩
  · exact goes_island (f := fun s => s.offPulseStart g b) hp (State.offPulseStart_may h)
  · exact (island_eq hp fun s => s.offPulseStart g b).trans (congrArg _ (State.offPulseStart_may_not h))
  · refine goes_island (f := fun s => s.offPulseEnd g) hp ?_
    have same := State.pulseReturn_early h (by omega)
    rw [State.offPulseEnd_pending (same ▸ h) (State.pulseVerdict_low _ hs ho hr hb)]
    exact ⟨same, s.pulseReturn_fc g⟩
  · exact goes_island (f := fun s => s.offPulseEnd g) hp (State.offPulseEnd_effect_of_passed h hb ho hs hrb)
  · exact goes_island (f := fun s => s.offPulseEnd g) hp (State.offPulseEnd_reacts_of_otherDropped h ho)
  · refine goes_island (f := fun s => s.offPulseEnd g) hp ?_
    have same := State.pulseReturn_none h
    rw [State.offPulseEnd_none (same ▸ h)]
    exact ⟨same, s.pulseReturn_fc g⟩

end Sys2Proof.Machine
end

section
/-!
PROOFS. What the supplies gate: a command acts on the island, or on the main domain, and only while that has its power (R91, R311).
-/
namespace Sys2Proof.Machine

theorem island_of_unpowered {s : State} (h : s.powered = false) (f : State → State) : s.island f = .next s := by
  simp [State.island, h]

theorem inMainDomain_of_unpowered {s : State} (h : s.powered = false) (f : State → State) : s.inMainDomain f = .next s := by
  simp [State.inMainDomain, h]

theorem inMainDomain_of_off {s : State} (h : s.pwr.mainOn = false) (f : State → State) : s.inMainDomain f = .next s := by
  simp [State.inMainDomain, h]

/-- The gate of each command but POWER_ON: the main domain's for a command of that domain, the island's for every other one. -/
theorem exec_gated (s : State) (c : Instr) (h : ∀ x, c ≠ .powerOn x) :
    ∃ f, exec c s = if mainCommand c then s.inMainDomain f else s.island f := by
  cases c with
  | powerOn x => exact absurd rfl (h x)
  | _ =>
    dsimp only [exec, mainCommand]
    exact ⟨_, rfl⟩

/-- Settles O5: every command but POWER_ON is gated (`exec_gated`), and POWER_ON is no command of the main domain. -/
theorem powerGates : Obligations.PowerGates := by
  refine ⟨fun s c hp hc => ?_, fun s c hm hc => ?_⟩
  · obtain ⟨f, hf⟩ := exec_gated s c hc
    rw [hf]
    split
    · exact inMainDomain_of_unpowered hp f
    · exact island_of_unpowered hp f
  · obtain ⟨f, hf⟩ := exec_gated s c fun x hx => by rw [hx] at hc; cases hc
    rw [hf, if_pos hc]
    exact inMainDomain_of_off hm f

end Sys2Proof.Machine
end

section
/-!
PROOFS. Check-ins of the tasks and of the service core (R317, R318, R319, R322).
-/
namespace Sys2Proof.Machine

/-! ### How a check-in is judged (R318) -/

theorem judgeKick_second (o op cl : Nat) : judgeKick true o op cl = some 2 := rfl

section
variable {o op cl : Nat}

theorem judgeKick_early (h : o < op) : judgeKick false o op cl = some 1 := if_pos h

theorem judgeKick_inside (ho : op ≤ o) (hc : o < cl) : judgeKick false o op cl = none :=
  (if_neg (Nat.not_lt.2 ho)).trans (if_pos hc)

theorem judgeKick_late (ho : op ≤ o) (hc : cl ≤ o) : judgeKick false o op cl = some 3 :=
  (if_neg (Nat.not_lt.2 ho)).trans (if_neg (Nat.not_lt.2 hc))

/-- A check-in is taken in a period that is not judged, and as the first one in its window. -/
theorem kick_taken {free checked : Bool} (h : free = true ∨ (checked = false ∧ op ≤ o ∧ o < cl)) :
    free = true ∨ judgeKick checked o op cl = none :=
  h.imp_right fun ⟨hk, ho, hc⟩ => hk ▸ judgeKick_inside ho hc

end

/-! ### Check-ins of a task -/

theorem State.modTask_task (s : State) (k : Fin 16) (f : TaskWd → TaskWd) : (s.modTask k f).task k = f (s.task k) :=
  vget_vmod_same k.isLt

theorem State.modTask_other (s : State) {k j : Nat} (f : TaskWd → TaskWd) (h : j ≠ k) : (s.modTask k f).task j = s.task j :=
  vget_vmod_other h.symm

section
variable {s : State} {k own o : Nat} (he : s.taskEn k = true) (hf : s.wd.taskFrozen = false) (ho : (s.task k).off = some o)
include he hf ho

theorem State.taskKick_taken
    (h : (s.task k).noJudge = true ∨ judgeKick (s.task k).checked (if s.taskRc k then own else o) (s.taskOpen k) (s.taskClose k) = none) :
    s.taskKick k own = s.modTask k fun x => { x with checked := true } := by
  obtain h | h := h <;> simp [State.taskKick, he, hf, ho, h]

theorem State.taskKick_fault {code : Nat} (hn : (s.task k).noJudge = false)
    (h : judgeKick (s.task k).checked (if s.taskRc k then own else o) (s.taskOpen k) (s.taskClose k) = some code) :
    Reacts s 12 .ft (k * 256 + code) (s.taskKick k own) := by
  have fault : s.taskKick k own = (s.modTask k fun x => { x with checked := true }).taskFault k code false := by
    simp [State.taskKick, he, hf, ho, hn, h]
  rw [fault]
  exact (taskFault_reacts _ k code false).source rfl rfl

end

/-- A check-in of a task that is not enabled is only recorded (R318). -/
theorem State.taskKick_disabled {s : State} {k : Nat} (own : Nat) (h : s.taskEn k = false) :
    (s.taskKick k own).wd = s.wd ∧ (s.taskKick k own).fc = s.fc := by
  rw [State.taskKick, if_pos h]
  exact ⟨(State.event_rel ..).frame .wd (by decide), (State.event_rel ..).frame .fc (by decide)⟩

/-! ### The end of a task's period (R319) -/

theorem State.taskPeriodEnd_missing {s : State} {k : Nat} (h : s.taskPeriodDue k = true) (hc : (s.task k).checked = false)
    (hn : (s.task k).noJudge = false) : Reacts s 12 .ft (k * 256 + 4) (s.taskPeriodEnd k) := by
  simp only [State.taskPeriodEnd, h, if_true, hc, hn, Bool.or_false, Bool.false_eq_true, if_false]
  exact (taskFault_reacts s k 4 true).frame (State.modTask_rel ..) (by decide)

/-- A period that was checked in, or is not judged, ends without a fault; on the RC oscillator the next one begins. -/
theorem State.taskPeriodEnd_over {s : State} {k : Fin 16} (h : s.taskPeriodDue k = true)
    (hc : (s.task k).checked = true ∨ (s.task k).noJudge = true) :
    (s.taskPeriodEnd k).fc = s.fc ∧
      (s.taskRc k = true → (s.taskPeriodEnd k).task k = { s.task k with off := some 0, checked := false, noJudge := false }) := by
  have ends : s.taskPeriodEnd k = s.modTask k fun y =>
      if s.taskRc k then { y with off := some 0, checked := false, noJudge := false } else { y with noJudge := true } := by
    simp [State.taskPeriodEnd, h, hc]
  rw [ends, State.modTask_task]
  exact ⟨rfl, fun hr => if_pos hr⟩

/-! ### The service core (R322) -/

section
variable {s : State} {own o : Nat} (he : s.svcEn = true) (hf : s.wd.svcFrozen = false) (hd : s.wd.svc.downSince = none)
  (hs : s.pwr.standby = false) (ho : s.wd.svc.off = some o)
include he hf hd hs ho

theorem State.svcKick_taken
    (h : s.wd.svc.noJudge = true ∨ judgeKick s.wd.svc.checked (if s.svcRc then own else o) s.svcOpen s.svcClose = none) :
    s.svcKick own = { s with wd := { s.wd with svc := { s.wd.svc with checked := true } } } := by
  obtain h | h := h <;> simp [State.svcKick, he, hf, hd, hs, ho, h]

theorem State.svcKick_fault {code : Nat} (hn : s.wd.svc.noJudge = false)
    (h : judgeKick s.wd.svc.checked (if s.svcRc then own else o) s.svcOpen s.svcClose = some code) :
    Reacts s 13 .uc code (s.svcKick own) ∧ (s.svcKick own).wd.svc.downSince = some s.beat := by
  have fault : s.svcKick own =
      ({ s with wd := { s.wd with svc := { s.wd.svc with checked := true } } } : State).svcFault code false := by
    simp [State.svcKick, he, hf, hd, hs, ho, hn, h]
  rw [fault]
  exact (svcFault_reacts _ code false).imp_left fun reacts => reacts.source rfl rfl

end

theorem State.svcPeriodEnd_missing {s : State} (h : s.svcPeriodDue = true) (hc : s.wd.svc.checked = false)
    (hn : s.wd.svc.noJudge = false) : s.svcPeriodEnd = s.svcFault 4 true := by
  simp [State.svcPeriodEnd, h, hc, hn]

theorem State.svcPeriodEnd_over {s : State} (h : s.svcPeriodDue = true) (hc : s.wd.svc.checked = true ∨ s.wd.svc.noJudge = true) :
    s.svcPeriodEnd.fc = s.fc ∧ s.svcPeriodEnd.wd.svc.downSince = s.wd.svc.downSince := by
  rw [State.svcPeriodEnd, if_pos h, if_pos (by simpa using hc)]
  refine ⟨rfl, ?_⟩
  dsimp only
  split <;> rfl

/-- The service core stays in reset for 16 beats, then its period 0 begins. -/
theorem State.svcRestart_down {s : State} {d : Nat} (h : s.wd.svc.downSince = some d) :
    s.svcRestart = if d + 16 ≤ s.beat then
        { s with wd := { s.wd with svc :=
          { s.wd.svc with downSince := none, off := some 0, checked := false, noJudge := false, restarts := satInc 65535 s.wd.svc.restarts } } }
      else s := by
  simp only [State.svcRestart, h]

/-! ### The commands -/

/-- Settles O28: a check-in by its judgment (`judgeKick`), a period's end by what has checked in, the restart by its beat. -/
theorem watchdogCheckIns : Obligations.WatchdogCheckIns := by
  refine ⟨fun s k own o hp he hf ho => ⟨fun h => ?_, fun hn hk => ?_, fun hn hk h1 => ?_, fun hn hk h1 h2 => ?_⟩,
    fun s k own hp h => ?_, fun s own o hp hm he hf hd hs ho => ⟨fun h => ?_, fun code hn h => ?_⟩,
    fun s k hp h => ⟨fun hc hn => ?_, fun hc => ?_⟩, fun s hp h => ⟨fun hc hn => ?_, fun hc => ?_⟩,
    fun s d hp hd hb => ?_, fun s d hp hd hb => ?_⟩
  -- Tasks
  · refine goes_island (f := fun s => s.taskKick k own) hp ?_
    rw [State.taskKick_taken he hf ho (kick_taken h)]
    exact ⟨State.modTask_task .., fun j hj => State.modTask_other _ _ hj, rfl⟩
  · exact goes_island (f := fun s => s.taskKick k own) hp (State.taskKick_fault he hf ho hn (hk ▸ judgeKick_second ..))
  · exact goes_island (f := fun s => s.taskKick k own) hp (State.taskKick_fault he hf ho hn (hk ▸ judgeKick_early h1))
  · exact goes_island (f := fun s => s.taskKick k own) hp (State.taskKick_fault he hf ho hn (hk ▸ judgeKick_late h1 h2))
  · exact goes_island (f := fun s => s.taskKick k own) hp (State.taskKick_disabled own h)
  -- The service core's check-ins
  · exact (main_eq hp hm fun s => s.svcKick own).trans (congrArg _ (State.svcKick_taken he hf hd hs ho (kick_taken h)))
  · exact goes_main (f := fun s => s.svcKick own) hp hm (State.svcKick_fault he hf hd hs ho hn h)
  -- Ends of periods
  · exact goes_island (f := fun s => s.taskPeriodEnd k) hp (State.taskPeriodEnd_missing h hc hn)
  · exact goes_island (f := fun s => s.taskPeriodEnd k) hp (State.taskPeriodEnd_over h hc)
  · refine goes_island (f := State.svcPeriodEnd) hp ?_
    rw [State.svcPeriodEnd_missing h hc hn]
    exact svcFault_reacts s 4 true
  · exact goes_island (f := State.svcPeriodEnd) hp (State.svcPeriodEnd_over h hc)
  -- The restart
  · exact (island_eq hp State.svcRestart).trans (congrArg _ ((State.svcRestart_down hd).trans (if_pos hb)))
  · exact (island_eq hp State.svcRestart).trans (congrArg _ ((State.svcRestart_down hd).trans (if_neg (Nat.not_le.2 hb))))

end Sys2Proof.Machine
end

section
/-!
PROOFS. Heartbeat monitors of the primaries (R323, R324), and the STANDBY timer (R326).
-/
namespace Sys2Proof.Machine

/-! ### A monitor that becomes LOST (R324) -/

theorem State.hbLose_lost (s : State) (k : Fin 2) :
    ((s.hbLose k).hbAt k).alive = false ∧ ((s.hbLose k).hbAt k).run = 0 ∧
      ((s.hbLose k).hbAt k).lastEdge = (s.hbAt k).lastEdge ∧ ((s.hbLose k).hbAt k).early = (s.hbAt k).early := by
  rw [State.hbLose_at]
  split
  · exact ⟨rfl, rfl, rfl, rfl⟩
  · rename_i h
    exact ⟨Bool.eq_false_iff.2 h, rfl, rfl, rfl⟩

/-- A loss that is due finds the monitor ALIVE: it is dated and counted. -/
theorem State.hbLost_due {s : State} {k : Fin 2} {own : Bool} (h : s.hbLostDue k own = true) :
    (s.hbLost k own).hbAt k =
      { s.hbAt k with alive := false, run := 0, lostSince := s.beat, losses := satInc 65535 (s.hbAt k).losses } := by
  have alive : (s.hbAt k).alive = true := by
    simp only [State.hbLostDue, Bool.and_eq_true] at h
    exact h.1.2
  rw [State.hbLost, if_pos h, State.hbLose_at, if_pos alive]

theorem State.hbPersistSet_due {s : State} {k : Fin 2} (h : s.hbPersistDue k = true) :
    (s.hbPersistSet k).hbAt k = { s.hbAt k with persist := true } := by
  rw [State.hbPersistSet, if_pos h, State.modHb_at]

/-! ### Edges (R323, R324) -/

/-- A monitor that has seen an edge in beat `b`, `i` beats after the last one. -/
def HbMon.edge (x : HbMon) (level : Bool) (b i : Nat) : HbMon :=
  { x with level := level, lastEdge := some b, lastInterval := min 65535 i }

section
variable {s : State} {k : Fin 2} {level : Bool} {own : Nat} (he : s.hbEn k = true) (hl : (s.hbAt k).level ≠ level)
  (hr : ¬(s.hbRising k = true ∧ level = false))
include he hl hr

theorem State.hbEdge_first (h : (s.hbAt k).lastEdge = none) :
    (s.hbEdge k level own true).hbAt k = { s.hbAt k with level := level, lastEdge := some s.beat } := by
  simp only [State.hbEdge, he, hl, hr, h, Bool.true_eq_false, or_self, if_false, State.modHb_at]

variable {p i : Nat} (h : (s.hbAt k).lastEdge = some p) (hi : (if s.hbRc k then own else s.beat - p) = i)
include h hi

/-- A later edge is judged by its interval: too early, too late, or one more of the run. -/
theorem State.hbEdge_judged :
    ∃ u : State, u.hbAt k = (s.hbAt k).edge level s.beat i ∧
      (i < s.hbMin k →
        s.hbEdge k level own true = (u.modHb k fun y => { y with lastEdge := none, early := satInc 65535 y.early }).hbLose k) ∧
      (s.hbMin k ≤ i → s.hbMax k < i → s.hbEdge k level own true = u.hbLose k) ∧
      (s.hbMin k ≤ i → i ≤ s.hbMax k → s.hbEdge k level own true =
        let v := u.modHb k fun y => { y with run := satInc 255 (s.hbAt k).run }
        if (s.hbAt k).alive = false ∧ satInc 255 (s.hbAt k).run ≥ s.hbAlive k then
          (v.modHb k fun y => { y with alive := true, persist := false }).event 0x2100 (k + 256)
        else v) := by
  refine ⟨(s.modHb k fun y => { y with level := level }).modHb k fun y => { y with lastEdge := some s.beat, lastInterval := min 65535 i },
    ?_, fun h1 => ?_, fun h1 h2 => ?_, fun h1 h2 => ?_⟩
  · rw [State.modHb_at, State.modHb_at]
    rfl
  all_goals simp only [State.hbEdge, he, hl, hr, h, hi, Bool.true_eq_false, or_self, if_false]
  · rw [if_pos h1]
  · rw [if_neg (Nat.not_lt.2 h1), if_pos h2]
  · rw [if_neg (Nat.not_lt.2 h1), if_neg (Nat.not_lt.2 h2)]

theorem State.hbEdge_early (hmin : i < s.hbMin k) :
    ((s.hbEdge k level own true).hbAt k).alive = false ∧ ((s.hbEdge k level own true).hbAt k).run = 0 ∧
      ((s.hbEdge k level own true).hbAt k).lastEdge = none ∧
      ((s.hbEdge k level own true).hbAt k).early = satInc 65535 (s.hbAt k).early := by
  obtain ⟨u, hu, early, -, -⟩ := State.hbEdge_judged he hl hr h hi
  rw [early hmin]
  have lost := (u.modHb k fun y => { y with lastEdge := none, early := satInc 65535 y.early }).hbLose_lost k
  rwa [State.modHb_at, hu] at lost

theorem State.hbEdge_late (hmin : s.hbMin k ≤ i) (hmax : s.hbMax k < i) :
    ((s.hbEdge k level own true).hbAt k).alive = false ∧ ((s.hbEdge k level own true).hbAt k).run = 0 ∧
      ((s.hbEdge k level own true).hbAt k).lastEdge = some s.beat := by
  obtain ⟨u, hu, -, late, -⟩ := State.hbEdge_judged he hl hr h hi
  rw [late hmin hmax]
  obtain ⟨alive, run, lastEdge, -⟩ := u.hbLose_lost k
  exact ⟨alive, run, lastEdge.trans (by rw [hu]; rfl)⟩

theorem State.hbEdge_inside (hmin : s.hbMin k ≤ i) (hmax : i ≤ s.hbMax k) :
    ((s.hbEdge k level own true).hbAt k).lastEdge = some s.beat ∧
      ((s.hbEdge k level own true).hbAt k).run = satInc 255 (s.hbAt k).run ∧
      ((s.hbEdge k level own true).hbAt k).losses = (s.hbAt k).losses ∧
      ((s.hbEdge k level own true).hbAt k).alive = ((s.hbAt k).alive || decide (s.hbAlive k ≤ satInc 255 (s.hbAt k).run)) := by
  obtain ⟨u, hu, -, -, inside⟩ := State.hbEdge_judged he hl hr h hi
  rw [inside hmin hmax]
  dsimp only
  split
  · rename_i ha
    rw [State.event_hb, State.modHb_at, State.modHb_at, hu]
    exact ⟨rfl, rfl, rfl, by simp [ha.2]⟩
  · rename_i ha
    rw [State.modHb_at, hu]
    refine ⟨rfl, rfl, rfl, ?_⟩
    cases hx : (s.hbAt k).alive with
    | true => exact hx
    | false => simpa [HbMon.edge, hx] using ha

end

/-! ### The STANDBY timer (R326) -/

/-- A wake request in STANDBY starts a wake from its source. -/
theorem State.wakeRequest_wakes {s : State} (n : Nat) (hn : s.pwr.entering = none) (hs : s.pwr.standby = true) (hw : s.pwr.waking = false) :
    (s.wakeRequest n).pwr = { s.pwr with waking := true } ∧ (s.wakeRequest n).wd.wakePending = true ∧ (s.wakeRequest n).wd.wakeSrc = n := by
  refine ⟨(s.wakeRequest_waking n hn hs hw).1, ?_⟩
  rw [State.wakeRequest, if_neg (by simp [hn]), if_pos ⟨hs, hw⟩]
  dsimp only
  split
  · exact ⟨rfl, rfl⟩
  · rw [(State.irqSet_rel ..).frame .wd (by decide)]
    exact ⟨rfl, rfl⟩

theorem State.standbyTimer_due {s : State} (hs : s.pwr.standby = true) (h0 : s.standbyPeriod ≠ 0)
    (h : s.wd.standbySince + s.standbyPeriod ≤ s.beat) : s.standbyTimer = s.wakeRequest 2 := if_pos ⟨hs, h0, h⟩

/-! ### The commands -/

/-- Settles O29: an edge by its interval (`State.hbEdge_judged`), a loss and PERSIST when due, the timer by its wake request. -/
theorem heartbeatMonitors : Obligations.HeartbeatMonitors := by
  refine ⟨fun s k level own hp he hpw hl hr => ?_, fun s k own hp h => ?_, fun s k hp h => ?_, fun s hp hs hn hw h0 h => ?_⟩
  · have edge {P : State → Prop} (hP : P (s.hbEdge k level own true)) : Goes (exec (.heartbeatEdge k level own) s) P :=
      goes_island (f := fun s => s.hbEdge k level own (s.prim k).pwrEn) hp (by rwa [hpw])
    exact ⟨fun h => edge (State.hbEdge_first he hl hr h), fun p h h1 h2 => edge (State.hbEdge_inside he hl hr h rfl h1 h2),
      fun p h h1 => edge (State.hbEdge_early he hl hr h rfl h1), fun p h h1 h2 => edge (State.hbEdge_late he hl hr h rfl h1 h2)⟩
  · refine goes_island (f := fun s => s.hbLost k own) hp ?_
    rw [State.hbLost_due h]
    exact ⟨rfl, rfl, rfl, rfl⟩
  · exact goes_island (f := fun s => s.hbPersistSet k) hp (State.hbPersistSet_due h)
  · refine goes_island (f := State.standbyTimer) hp ?_
    rw [State.standbyTimer_due hs h0 h]
    exact State.wakeRequest_wakes 2 hn hs hw

end Sys2Proof.Machine
end

section
/-!
PROOFS. The entry to STANDBY (R452, R453), and the end of the quiet period (R302, R303).
-/
namespace Sys2Proof.Machine

/-! ### A request for STANDBY (R452) -/

theorem State.event_flushDue (s : State) (c d : Nat) (h : s.jnl.flushDue = true) : (s.event c d).jnl.flushDue = true :=
  State.record_flushDue _ _ _ _ _ _ h

theorem State.primB_of {s t : State} (hl : t.ldr = s.ldr) : t.primB = s.primB := by
  show ({ s with ldr := t.ldr } : State).primB = _
  rw [hl]

theorem State.primEnter_primB (s : State) (k : Nat) : (s.primEnter k).primB = s.primB :=
  State.primB_of ((State.primEnter_rel s k).frame .ldr (by decide))

theorem State.primEnter_flushDue (s : State) (k : Nat) (h : s.jnl.flushDue = true) : (s.primEnter k).jnl.flushDue = true := by
  rw [State.primEnter]
  split
  · exact h
  · exact State.event_flushDue _ _ _ h

theorem State.primEnter_entering (s : State) (k : Nat) : (s.primEnter k).pwr.entering = s.pwr.entering := by
  rw [State.primEnter]
  split
  · rfl
  · rw [State.accPowerDown_prim]

/-- A primary that does not keep its power is powered down, unless it is off already. -/
theorem State.primEnter_down {s : State} {k : Nat} (hk : k < 2) (h : primKeep s.primB k = false) (h0 : (s.prim k).seq ≠ 0) :
    ((s.primEnter k).prim k).seq = 3 ∧ ((s.primEnter k).prim k).rstN = false := by
  rw [State.primEnter, if_neg (by simp [h, h0]), State.prim, State.accPowerDown_prim]
  have down := vget_vmod_same (v := s.pwr.acc) (f := fun a => { a with seq := 3, rstN := false, since := s.beat, cycling := false })
    (d := AccState.default) hk
  rw [down]
  exact ⟨rfl, rfl⟩

theorem State.primEnter_other (s : State) {k j : Nat} (h : k ≠ j) : (s.primEnter k).prim j = s.prim j := by
  rw [State.primEnter]
  split
  · rfl
  · rw [State.prim, State.accPowerDown_prim]
    exact vget_vmod_other h

/-- The state in which a request for STANDBY that is allowed powers the primaries down. -/
def State.standbyAsked (s : State) : State :=
  { s with
    pwr := { s.pwr with entering := some s.beat }
    ldr := { s.ldr with running := false, service := true }
    sched := { s.sched with origin := none, tickDue := false, fsync := vrep 4 false }
    jnl := { s.jnl with flushDue := true } }

theorem State.standbyReq_allowed {s : State} (h : s.standbyAllowed = true) : s.standbyReq = (s.standbyAsked.primEnter 0).primEnter 1 :=
  if_pos h

theorem State.standbyReq_enters {s : State} (h : s.standbyAllowed = true) :
    s.standbyReq.pwr.entering = some s.beat ∧ s.standbyReq.ldr.running = false ∧ s.standbyReq.ldr.service = true ∧
      s.standbyReq.sched.origin = none ∧ s.standbyReq.sched.tickDue = false ∧ s.standbyReq.jnl.flushDue = true := by
  have rel : Rel [.evr, .pwr, .log] s.standbyAsked ((s.standbyAsked.primEnter 0).primEnter 1) :=
    .comp (State.primEnter_rel ..) (State.primEnter_rel ..) .auto
  rw [State.standbyReq_allowed h, rel.frame .ldr (by decide), rel.frame .sched (by decide), State.primEnter_entering, State.primEnter_entering]
  exact ⟨rfl, rfl, rfl, rfl, rfl, State.primEnter_flushDue _ _ (State.primEnter_flushDue _ _ rfl)⟩

theorem State.standbyReq_primaries {s : State} (h : s.standbyAllowed = true) (k : Fin 2) (hk : primKeep s.primB k = false)
    (h0 : (s.prim k).seq ≠ 0) : (s.standbyReq.prim k).seq = 3 ∧ (s.standbyReq.prim k).rstN = false := by
  rw [State.standbyReq_allowed h]
  match k with
  | 0 =>
    rw [show ((0 : Fin 2) : Nat) = 0 from rfl, State.primEnter_other _ Nat.one_ne_zero]
    exact State.primEnter_down (by decide) hk h0
  | 1 =>
    refine State.primEnter_down (by decide) ?_ ?_
    · rw [State.primEnter_primB]
      exact hk
    · rw [State.primEnter_other _ Nat.zero_ne_one]
      exact h0

theorem State.standbyReq_refused {s : State} (h : s.standbyAllowed = false) :
    s.standbyReq.pwr = s.pwr ∧ s.standbyReq.ldr = s.ldr ∧ s.standbyReq.sched = s.sched := by
  rw [State.standbyReq, if_neg (by simp [h])]
  have rel := s.ignoredWrite_rel 0x0C0004 1
  exact ⟨rel.frame .pwr (by decide), rel.frame .ldr (by decide), rel.frame .sched (by decide)⟩

/-! ### The power-down (R452, R453) -/

/-- The state in STANDBY before a wake request that was held through the entry takes effect. -/
def State.standbyEntered (s : State) : State :=
  ({ s.mainLost with
    pwr := { s.mainLost.pwr with standby := true, entering := none, wakeHeld := none, waking := false }
    wd := { s.mainLost.wd with standbySince := s.beat, svc := { s.mainLost.wd.svc with off := none, noJudge := true } } } : State).event 0xA103 0

theorem State.standbyEntered_effect (s : State) :
    s.standbyEntered.pwr = { s.mainLost.pwr with standby := true, entering := none, wakeHeld := none, waking := false } ∧
      s.standbyEntered.wd.standbySince = s.beat ∧ s.standbyEntered.gddrMem = [] ∧ s.standbyEntered.grid = State.reset.grid := by
  have rel (t : State) := State.event_rel t 0xA103 0
  rw [State.standbyEntered, (rel _).frame .pwr (by decide), (rel _).frame .wd (by decide), (rel _).frame .gddrMem (by decide),
    (rel _).frame .grid (by decide)]
  exact ⟨rfl, rfl, rfl, rfl⟩

theorem State.wakeWrite_waking {s : State} (hn : s.pwr.entering = none) (hs : s.pwr.standby = true) (hw : s.pwr.waking = false) :
    s.wakeWrite.pwr = { s.pwr with waking := true } := by
  rw [State.wakeWrite, if_neg (by simp [hn]), if_pos ⟨hs, hw⟩]
  exact (State.event_rel ..).frame .pwr (by decide)

/-- The entry keeps what it leaves in STANDBY; a held wake request starts the wake. -/
theorem State.standbyEnter_due {s : State} (h : s.standbyDue = true) :
    s.standbyEnter.pwr = { s.standbyEntered.pwr with waking := s.pwr.wakeHeld.isSome } ∧
      s.standbyEnter.wd.standbySince = s.standbyEntered.wd.standbySince ∧
      s.standbyEnter.gddrMem = s.standbyEntered.gddrMem ∧ s.standbyEnter.grid = s.standbyEntered.grid := by
  obtain ⟨pwr, -⟩ := s.standbyEntered_effect
  have hn : s.standbyEntered.pwr.entering = none := by rw [pwr]
  have hs : s.standbyEntered.pwr.standby = true := by rw [pwr]
  have hw : s.standbyEntered.pwr.waking = false := by rw [pwr]
  cases hh : s.pwr.wakeHeld with
  | none =>
    have enter : s.standbyEnter = s.standbyEntered := by simp only [State.standbyEnter, h, if_true, hh, State.standbyEntered]
    rw [enter]
    exact ⟨by rw [Option.isSome_none, ← hw], rfl, rfl, rfl⟩
  | some src =>
    have enter : s.standbyEnter = if src = 0 then s.standbyEntered.wakeWrite else s.standbyEntered.wakeRequest src := by
      simp only [State.standbyEnter, h, if_true, hh, State.standbyEntered]
    rw [enter]
    split
    · have rel := s.standbyEntered.wakeWrite_rel
      exact ⟨State.wakeWrite_waking hn hs hw, congrArg WdState.standbySince (rel.frame .wd (by decide)),
        rel.frame .gddrMem (by decide), rel.frame .grid (by decide)⟩
    · have rel := s.standbyEntered.wakeRequest_rel src
      obtain ⟨waking, since⟩ := State.wakeRequest_waking _ src hn hs hw
      exact ⟨waking, since, rel.frame .gddrMem (by decide), rel.frame .grid (by decide)⟩

theorem State.standbyEnter_not_due {s : State} (h : s.standbyDue = false) : s.standbyEnter = s := if_neg (by simp [h])

/-! ### The end of the quiet period (R302, R303) -/

section
variable {s : State} (h : s.fc.quietEnd = some s.beat)
include h

theorem State.quietPeriodEnd_idle (h0 : s.fc.activeUc = 0) :
    s.quietPeriodEnd = { s with fc := { s.fc with quietEnd := none } } := (if_pos h).trans (if_pos h0)

theorem State.quietPeriodEnd_recovers (h0 : s.fc.activeUc ≠ 0) (hl : s.recoveriesIn.length + 1 ≤ s.recLimit) :
    s.quietPeriodEnd = s.recover := (if_pos h).trans ((if_neg h0).trans (if_neg (Nat.not_lt.2 hl)))

theorem State.quietPeriodEnd_escalates (h0 : s.fc.activeUc ≠ 0) (hl : s.recLimit < s.recoveriesIn.length + 1) :
    s.quietPeriodEnd = s.escalate := (if_pos h).trans ((if_neg h0).trans (if_pos hl))

end

theorem State.quietPeriodEnd_not_due {s : State} (h : s.fc.quietEnd ≠ some s.beat) : s.quietPeriodEnd = s := if_neg h

/-- A recovery clears the uncorrected faults and counts; its records are about the recorder only. -/
theorem State.recover_fc (s : State) :
    s.recover.fc = { s.fc with
      activeUc := 0, quietEnd := none, releaseDue := true
      recoveries := s.beat :: s.recoveriesIn, recTotal := satInc 65535 s.fc.recTotal } := by
  have records (l : List Nat) : (l.foldl (fun (t : State) src =>
      t.record (.block (blockOf src)) (blockOf src * 4096 + 4) src .event (vget t.fc.info src 0)) s).fc = s.fc :=
    (Rel.foldl (.refl s) fun _ _ => State.record_rel ..).frame .fc (by decide)
  rw [State.recover]
  dsimp only
  rw [records]

theorem State.escalate_fatal {s : State} (h : s.fc.lastUc < 128) : s.escalate.fc.escalated = true ∧ Fatal s.fc.lastUc 0xFFFFFFFF s.escalate := by
  rw [State.escalate]
  dsimp only
  rw [State.ftReaction_escalated, (State.faultRecord_rel ..).frame .fc (by decide)]
  exact ⟨rfl, (State.ftReaction_fatal _ _ _ _ h).1⟩

/-! ### The commands -/

/-- Settles O33: the request and the power-down by what they enter, the end of the quiet period by its three cases. -/
theorem standbyAndRecovery : Obligations.StandbyAndRecovery := by
  refine ⟨fun s hp => ⟨fun h => ?_, fun h => ?_⟩, fun s hp => ⟨fun h => ?_, fun h => ?_⟩,
    fun s hp hq => ⟨fun h0 => ?_, fun h0 hl => ?_, fun h0 hl hs => ?_⟩, fun s hp h => ?_⟩
  -- STANDBY
  · refine goes_island (f := fun s => s.regWrite 0x0C0004 1) hp ?_
    rw [State.regWrite_standbyReq]
    obtain ⟨entering, running, service, origin, tickDue, flushDue⟩ := State.standbyReq_enters h
    exact ⟨entering, running, service, origin, tickDue, flushDue, State.standbyReq_primaries h⟩
  · refine goes_island (f := fun s => s.regWrite 0x0C0004 1) hp ?_
    rw [State.regWrite_standbyReq]
    exact State.standbyReq_refused h
  · refine goes_island (f := State.standbyEnter) hp ?_
    have kept := (State.standbyEnter_rel s).frame
    obtain ⟨pwr, since, gddrMem, grid⟩ := State.standbyEnter_due h
    obtain ⟨pwr', since', gddrMem', grid'⟩ := s.standbyEntered_effect
    rw [pwr, pwr', since, since', gddrMem, gddrMem', grid, grid', kept.watch_eq (by decide) (by decide), kept.fc_eq (by decide)]
    exact ⟨rfl, rfl, rfl, rfl, rfl, rfl, rfl, rfl, rfl⟩
  · exact (island_eq hp State.standbyEnter).trans (congrArg _ (State.standbyEnter_not_due h))
  -- The quiet period
  · exact (island_eq hp State.quietPeriodEnd).trans (congrArg _ (State.quietPeriodEnd_idle hq h0))
  · refine goes_island (f := State.quietPeriodEnd) hp ?_
    rw [State.quietPeriodEnd_recovers hq h0 hl, State.recover_fc]
    exact ⟨rfl, rfl, rfl, rfl, rfl, rfl⟩
  · refine goes_island (f := State.quietPeriodEnd) hp ?_
    rw [State.quietPeriodEnd_escalates hq h0 hl]
    exact State.escalate_fatal hs
  · exact (island_eq hp State.quietPeriodEnd).trans (congrArg _ (State.quietPeriodEnd_not_due h))

end Sys2Proof.Machine
end

section
/-!
PROOFS. The HALT snapshot (R309, R349, R350, R353).
-/
namespace Sys2Proof.Machine

/-- What a snapshot writes to the evidence area: the whole last area in pages, and a page of the latch records. -/
def State.snapParts (s : State) : List (List EvRec) :=
  pieces s.perPage 16 s.evr.last ++ [s.evr.last.filter fun e => e.code == 0x2103]

theorem State.snapParts_length (s : State) : s.snapParts.length ≤ 17 := by
  rw [State.snapParts, List.length_append]
  exact Nat.add_le_add_right (pieces_length s.perPage 16 s.evr.last) 1

/-- The snapshot taken: its parts go to the evidence area, then the waiting records to the ring. -/
theorem State.haltSnapshot_taken {s : State} (hd : s.jnl.snapDue = true) (hw : s.canWrite = true) :
    s.haltSnapshot = (upto 17).foldl (fun (t : State) _ => t.copyPage)
      (s.snapParts.foldl (fun (t : State) l => t.snapPage l) { s with jnl := { s.jnl with snapDue := false } }) := by
  rw [State.haltSnapshot, if_pos (by simp [hd, hw]), State.snapParts, List.foldl_append]
  rfl

theorem State.haltSnapshot_not_due {s : State} (h : s.jnl.snapDue = false ∨ s.canWrite = false) : s.haltSnapshot = s :=
  if_neg (by obtain h | h := h <;> simp [h])

/-- Settles O51: the parts of the snapshot by `State.snapPages`, the waiting records by `State.copyPages`; 17 pages hold either. -/
theorem haltSnapshot : Obligations.HaltSnapshot := by
  refine ⟨fun s hp hm h => (main_eq hp hm State.haltSnapshot).trans (congrArg _ (State.haltSnapshot_not_due h)),
    fun s k r hp hm hd hw hpage heo heh hk hkp hho hh hr hrp hrk hwl hl => goes_main (f := State.haltSnapshot) hp hm ?_⟩
  have evidRoom : (s.nblk k).pages.length + s.snapParts.length ≤ s.jnl.pagesPerBlock := (Nat.add_le_add_left s.snapParts_length _).trans hkp
  obtain ⟨b, l, n, snap, length, other, ps, pages, data⟩ :=
    State.snapPages k s.snapParts { s with jnl := { s.jnl with snapDue := false } } heo heh hk evidRoom
  have ringRoom : s.evr.waiting ≤ 17 * s.perPage := by
    rw [State.perPage]
    omega
  obtain ⟨u, copy, waiting, snapDue, copied, -, kept⟩ :=
    State.copyPages r 17 (({ s with jnl := { s.jnl with snapDue := false } } : State).withPages b l n) hho hh (length ▸ hr) hpage
      (by rw [other r hrk]; exact hrp) hwl ringRoom
  rw [State.haltSnapshot_taken hd hw, snap, copy]
  exact ⟨snapDue, waiting, copied, ps, by rw [kept k hrk.symm, pages]; rfl, data⟩

end Sys2Proof.Machine
end

section
/-!
PROOFS. The security buffer (R436, R441) and the debugger (R327, R440).
-/
namespace Sys2Proof.Machine

/-! ### The security buffer -/

/-- A write that fits before the end of the buffer is a write of its bytes at the pointer. -/
theorem State.bufWrite_fit {s : State} {bs : List Byte} (hl : bs.length ≤ 4096) (hp : s.secu.ptr + bs.length ≤ 65536) :
    (s.bufWrite bs).secu = { s.secu with
      buf := s.secu.buf.writeN s.secu.ptr bs, ptr := (s.secu.ptr + bs.length) % 65536
      len := max s.secu.len (s.secu.ptr + bs.length), reportValid := false } := by
  simp only [State.bufWrite, List.take_of_length_le hl, if_pos hp, upto, List.range_eq_range']
  rw [Mem.foldl_write s.secu.ptr bs 0 _ hp]
  rfl

/-- The bytes of a write to SEC_BUF_DATA reach the buffer. -/
theorem State.streamWrite_secBuf {s : State} {bs : List Byte} (hm : s.pwr.mainOn = true) (hne : bs ≠ []) (hl : bs.length ≤ 4096) :
    s.streamWrite secBufAddr bs = s.bufWrite bs := by
  rw [State.streamWrite, if_neg (by simpa using hne), if_neg (by simp [hm]), if_neg (by decide), List.take_of_length_le hl]

theorem State.streamWrite_secBuf_effect {s : State} {bs : List Byte} (hm : s.pwr.mainOn = true) (hne : bs ≠ []) (hl : bs.length ≤ 4096)
    (hp : s.secu.ptr + bs.length ≤ 65536) (hw : s.secu.buf.wf = true) :
    let t := s.streamWrite secBufAddr bs
    (∀ i (h : i < bs.length), t.secu.buf.read (s.secu.ptr + i) = bs[i]) ∧
      (∀ a, a < s.secu.ptr ∨ s.secu.ptr + bs.length ≤ a → t.secu.buf.read a = s.secu.buf.read a) ∧
      t.secu.ptr = (s.secu.ptr + bs.length) % 65536 ∧ t.secu.len = max s.secu.len (s.secu.ptr + bs.length) ∧ t.secu.reportValid = false := by
  dsimp only
  rw [State.streamWrite_secBuf hm hne hl, State.bufWrite_fit hl hp]
  exact ⟨fun i hi => Mem.read_writeN bs hi hw, fun a ha => Mem.read_writeN_other bs ha hw, rfl, rfl, rfl⟩

/-- A read of SEC_BUF_DATA answers the four bytes at the pointer, and advances it. -/
theorem State.readReg_secBuf {s : State} (hm : s.pwr.mainOn = true) (hh : s.i3c.hdr = false) :
    let t := s.readReg secBufAddr
    t.i3c.ack = true ∧ t.i3c.resp = leBytes 4 s.bufWord ∧ t.secu = { s.secu with ptr := (s.secu.ptr + 4) % 65536 } := by
  dsimp only
  rw [s.readReg_island secBufAddr (by decide) (by decide) hh (.inl hm) (by decide)]
  let x : State := { s with i3c := { s.i3c with readAddr := secBufAddr } }
  have word : x.regWord secBufAddr = s.bufWord := (if_pos hm : x.inMain x.bufWord = x.bufWord)
  have side : x.readSide secBufAddr = x.bufRead := if_pos ⟨rfl, hm⟩
  dsimp only
  rw [word, side]
  exact ⟨rfl, rfl, rfl⟩

/-! ### The debugger -/

section
variable {s : State} (h : s.debugOk = true)
include h

theorem State.debuggerAttach_ok : s.debuggerAttach = { s with lc := { s.lc with debugSeen := true } } := if_pos h

/-- A halted service core freezes its own watchdog. -/
theorem State.debuggerHalt_svc : s.debuggerHalt true = { s with wd := { s.wd with svcFrozen := true } } := if_pos h

/-- Halted controllers freeze the task watchdog. -/
theorem State.debuggerHalt_controllers :
    s.debuggerHalt false = { s with wd := { s.wd with taskFrozen := true }, ctrl := { s.ctrl with halted := true } } := if_pos h

end

theorem State.debugger_refused {s : State} (h : s.debugOk = false) : s.debuggerAttach = s ∧ ∀ b, s.debuggerHalt b = s :=
  ⟨if_neg (by simp [h]), fun _ => if_neg (by simp [h])⟩

/-! ### The commands -/

/-- Settles O22: the buffer by its memory (`State.bufWrite_fit`), the debugger by the life-cycle state that permits it. -/
theorem securityBufferAndDebug : Obligations.SecurityBufferAndDebug := by
  refine ⟨fun s bs hp hm hne hl hf hw => ?_, fun s hp hm hh => ?_, fun s hp h => ⟨?_, ?_, ?_⟩, fun s hp => ⟨?_, ?_⟩,
    fun s hp h => ⟨?_, fun b => ?_⟩⟩
  -- The buffer
  · exact goes_island (f := fun s => s.streamWrite secBufAddr bs) hp (State.streamWrite_secBuf_effect hm hne hl hf hw)
  · exact goes_island (f := fun s => s.readReg secBufAddr) hp (State.readReg_secBuf hm hh)
  -- The debugger
  · exact (island_eq hp State.debuggerAttach).trans (congrArg _ (State.debuggerAttach_ok h))
  · exact (island_eq hp fun s => s.debuggerHalt true).trans (congrArg _ (State.debuggerHalt_svc h))
  · exact (island_eq hp fun s => s.debuggerHalt false).trans (congrArg _ (State.debuggerHalt_controllers h))
  · exact island_eq hp fun s => s.debuggerRelease true
  · exact island_eq hp fun s => s.debuggerRelease false
  · exact (island_eq hp State.debuggerAttach).trans (congrArg _ (State.debugger_refused h).1)
  · exact (island_eq hp fun s => s.debuggerHalt b).trans (congrArg _ ((State.debugger_refused h).2 b))

end Sys2Proof.Machine
end

section
/-!
PROOFS. Commands of the control registers: the first-fault latch (R309), interrupt status (R512), a step of the device time (R472)
and the journal's commands (R350, R354, R369).
-/
namespace Sys2Proof.Machine

/-! ### The first-fault latch (R309) -/

theorem State.ffClear_idle {s : State} (h : s.anyActive = false) :
    s.ffClear.fc = { s.fc with latch := none, ffOvf := false, firstFt := none } := by
  rw [State.ffClear, if_neg (by simp [h])]
  exact (State.event_rel ..).frame .fc (by decide)

theorem State.ffClear_active {s : State} (h : s.anyActive = true) : s.ffClear.fc = s.fc := by
  rw [State.ffClear, if_pos h]
  exact (State.ignoredWrite_rel ..).frame .fc (by decide)

/-! ### A step of the device time (R472) -/

theorem State.leaveHoldover_time (s : State) :
    s.leaveHoldover.time.now = s.time.now ∧ s.leaveHoldover.time.holdover = false ∧ s.leaveHoldover.time.steps = s.time.steps := by
  rw [State.leaveHoldover]
  split
  · rw [(State.holdEvent_rel ..).frame .time (by decide)]
    exact ⟨rfl, rfl, rfl⟩
  · rename_i h
    exact ⟨rfl, Bool.eq_false_iff.2 h, rfl⟩

theorem State.stepTime_time (s : State) (o : Int) :
    (s.stepTime o).time = { s.time with now := ofInt 64 (s.time.now + o), set := true, f := 0, steps := satInc 65535 s.time.steps } :=
  State.event_time ..

/-- The write steps the time by the offset of a sample that is fresh, in STOPPED or SERVICE. -/
theorem State.timeStepWrite_fresh {s : State} {o : Int} {b iv : Nat} (h : s.time.sample = some (o, b, iv)) (hb : s.beat ≤ b + 2 * iv)
    (hw : s.watch.wstate = .stopped ∨ s.ldr.service = true) :
    s.timeStepWrite.time.now = ofInt 64 (s.time.now + o) ∧ s.timeStepWrite.time.set = true ∧ s.timeStepWrite.time.holdover = false ∧
      s.timeStepWrite.time.steps = satInc 65535 s.time.steps := by
  obtain ⟨now, holdover, steps⟩ := s.leaveHoldover_time
  simp only [State.timeStepWrite, h]
  rw [if_pos ⟨hb, hw⟩, State.stepTime_time, ← now, ← steps]
  exact ⟨rfl, rfl, holdover, rfl⟩

/-- Without a sample, or outside STOPPED and SERVICE, the write is ignored. -/
theorem State.timeStepWrite_ignored {s : State} (h : s.time.sample = none ∨ (s.watch.wstate ≠ .stopped ∧ s.ldr.service = false)) :
    s.timeStepWrite.time = s.time := by
  have ignored : s.timeStepWrite = s.ignoredWrite 0x0D0004 1 := by
    rw [State.timeStepWrite]
    split
    · rename_i hs
      obtain h | ⟨hw, hv⟩ := h
      · rw [hs] at h
        cases h
      · exact if_neg (by simp [hw, hv])
    · rfl
  rw [ignored]
  exact (State.ignoredWrite_rel ..).frame .time (by decide)

/-! ### A page read (R369) -/

theorem State.rdPage_found {s : State} {n : Nat} {p : NandPage} (hr : s.jnl.ready = true)
    (hp : s.jnl.pageAt (s.jnl.rdSeqLo + 2 ^ 32 * s.jnl.rdSeqHi) = some (n, p)) (he : s.epochPage p = true) (ha : s.authentic p = true) :
    s.rdPage.jnl.rdOk = true ∧ s.rdPage.jnl.rdFail = false ∧ s.rdPage.jnl.buffer = p.data := by
  simp only [State.rdPage, hr, hp, he, ha, Bool.not_true, Bool.false_eq_true, if_true, if_false]
  exact ⟨trivial, trivial, trivial⟩

theorem State.rdPage_missing {s : State}
    (h : s.jnl.ready = false ∨ s.jnl.pageAt (s.jnl.rdSeqLo + 2 ^ 32 * s.jnl.rdSeqHi) = none) :
    s.rdPage.jnl.rdOk = false ∧ s.rdPage.jnl.rdFail = true ∧ s.rdPage.jnl.buffer = [] := by
  have failed : s.rdPage = { s with jnl := { s.jnl with rdOk := false, rdFail := true, buffer := [] } } := by
    rw [State.rdPage]
    obtain h | h := h
    · exact if_neg (by simp [h])
    · simp only [h, ite_self]
  rw [failed]
  exact ⟨rfl, rfl, rfl⟩

/-! ### A format (R354) -/

theorem layout_length (slots evid spare : Nat) : ∀ (i : Nat) (l : List NandBlock), (layout slots evid spare i l).length = l.length
  | _, [] => rfl
  | i, b :: l => by
    rw [layout]
    split <;> rw [List.length_cons, List.length_cons, layout_length]

theorem State.format_fits {s : State} (hs : s.ldr.service = true ∨ s.ldr.running = false) (hp : s.jnl.present = true)
    (h1 : inRange 64 512 s.jnl.slotMib = true) (h2 : inRange 16 256 s.jnl.evidMib = true)
    (hb : 8 + 2 * s.blocksFor s.jnl.slotMib + s.blocksFor s.jnl.evidMib + max 16 (cdiv (s.jnl.blocks.countP fun b => !b.bad) 50) + 64 ≤
      s.jnl.blocks.countP fun b => !b.bad) :
    s.format.jnl.formatted = true ∧ s.format.jnl.ready = true ∧ s.format.jnl.stopped = false ∧ s.format.jnl.firstCopy = none ∧
      (s.format.slot false).valid = false ∧ (s.format.slot true).valid = false ∧ s.format.jnl.blocks.length = s.jnl.blocks.length := by
  have permitted : (s.ldr.service || !s.ldr.running) = true := by simpa using hs
  simp only [State.format, permitted, hp, h1, h2, Bool.and_self, Bool.not_true, Bool.false_eq_true, if_false, if_neg (Nat.not_lt.2 hb)]
  exact ⟨trivial, trivial, trivial, trivial, rfl, rfl, layout_length ..⟩

/-- Without a device, or with a running image outside SERVICE, a format is only recorded. -/
theorem State.format_refused {s : State} (h : s.jnl.present = false ∨ (s.ldr.service = false ∧ s.ldr.running = true)) :
    s.format.jnl.blocks = s.jnl.blocks ∧ s.format.jnl.ready = s.jnl.ready ∧ s.format.ldr = s.ldr := by
  have refused : s.format = s.event 0x9103 1 := by
    refine if_pos ?_
    obtain h | ⟨hs, hr⟩ := h
    · simp [h]
    · simp [hs, hr]
  have rel := (s.event_rel 0x9103 1).frame
  rw [refused]
  exact ⟨State.event_blocks .., rel.jnl_field (by decide) (·.ready), rel .ldr (by decide)⟩

/-! ### The commands -/

/-- A write to a register of the main domain that starts an operation does it while the domain is on. -/
theorem mainWrite_eq {s : State} {a w : Nat} {f : State → State} (hp : s.powered = true) (hm : s.pwr.mainOn = true)
    (hx : s.regWrite a w = if s.pwr.mainOn then f s else s.ignoredWrite a 3) : (s.island fun s => s.regWrite a w) = .next (f s) := by
  rw [island_eq hp, hx, if_pos hm]

/-- Settles O26: each command by the operation that its register write starts, in the case named. -/
theorem controlRegisters : Obligations.ControlRegisters := by
  refine ⟨fun s hp h => ?_, fun s hp h => ?_, fun s m hp => ?_,
    fun s o b iv hp hm h hb hw => goes_of_eq (mainWrite_eq hp hm s.regWrite_timeStep) (State.timeStepWrite_fresh h hb hw),
    fun s hp hm h => goes_of_eq (mainWrite_eq hp hm s.regWrite_timeStep) (State.timeStepWrite_ignored h),
    fun s hp hm => mainWrite_eq hp hm s.regWrite_jnlFlush,
    fun s n p hp hm hr hpage he ha => goes_of_eq (mainWrite_eq hp hm s.regWrite_jnlRdPage) (State.rdPage_found hr hpage he ha),
    fun s hp hm h => goes_of_eq (mainWrite_eq hp hm s.regWrite_jnlRdPage) (State.rdPage_missing h),
    fun s hp hm hs hd h1 h2 hb => goes_of_eq (mainWrite_eq hp hm s.regWrite_jnlFormat) (State.format_fits hs hd h1 h2 hb),
    fun s hp hm h => goes_of_eq (mainWrite_eq hp hm s.regWrite_jnlFormat) (State.format_refused h)⟩
  · refine goes_island (f := fun s => s.regWrite 0x080014 1) hp ?_
    rw [State.regWrite_ffClear]
    exact State.ffClear_idle h
  · refine goes_island (f := fun s => s.regWrite 0x080014 1) hp ?_
    rw [State.regWrite_ffClear]
    exact State.ffClear_active h
  · exact goes_island (f := fun s => s.irqClear m) hp ⟨rfl, fun n hn => irqClear_ibi s m n hn⟩

end Sys2Proof.Machine
end

section
/-!
PROOFS. Event records: the port that takes one, its rate limit, and how it folds or is appended (R339 to R344).
-/
namespace Sys2Proof.Machine

/-! ### A record at its port -/

/-- The record of a report, before an append numbers and dates it. -/
def State.newRec (s : State) (code source : Nat) (cls : FaultClass) (data : Nat) : EvRec :=
  ⟨s.beat, 0, code, source, cls, false, false, false, 0, 0, data % 2 ^ 64⟩

/-- The recorder with other codes tracked at its ports. -/
def State.withPorts (s : State) (l : List (EvPort × List RateEntry)) : State := { s with evr := { s.evr with ports := l } }

/-- Records of blocks 0x0 and 0xF are never limited (R342). -/
theorem State.record_unlimited (s : State) (port : EvPort) {code : Nat} (source : Nat) (cls : FaultClass) (data : Nat)
    (h : code / 4096 = 0 ∨ code / 4096 = 15) :
    s.record port code source cls data = s.passRecord port (s.newRec code source cls data) := if_pos h

/-- A code that its port does not track is passed. -/
theorem State.record_untracked {s : State} {port : EvPort} {code : Nat} (source : Nat) (cls : FaultClass) (data : Nat)
    (h : (s.evr.tracked port).find? (fun x => x.code == code) = none) :
    ∃ l, s.record port code source cls data = (s.withPorts l).passRecord port (s.newRec code source cls data) := by
  by_cases hb : code / 4096 = 0 ∨ code / 4096 = 15
  · exact ⟨s.evr.ports, s.record_unlimited port source cls data hb⟩
  · simp only [State.record, if_neg hb, h]
    exact ⟨_, rfl⟩

/-- A passed record that does not fold into the last one of its folding point is appended (R343, R344). -/
theorem State.record_appends {s : State} {port : EvPort} {code source : Nat} (cls : FaultClass) (data : Nat)
    (h : (s.evr.tracked port).find? (fun x => x.code == code) = none)
    (hf : ∀ q wait, s.evr.lastOf (foldPoint port) = some q → s.evr.foldsInto (foldPoint port) code source q wait = false) :
    ∃ l, s.record port code source cls data = (s.withPorts l).append (foldPoint port) (s.newRec code source cls data) := by
  obtain ⟨l, passed⟩ := State.record_untracked source cls data h
  exact ⟨l, passed.trans ((s.withPorts l).passRecord_append port _ hf)⟩

/-- A code passed less than an interval of its class before is only counted (R342). -/
theorem State.record_limited {s : State} {port : EvPort} {code : Nat} {x : RateEntry} (source : Nat) {cls : FaultClass} (data : Nat)
    (h0 : code / 4096 ≠ 0) (h15 : code / 4096 ≠ 15) (h : (s.evr.tracked port).find? (fun x => x.code == code) = some x)
    (hr : s.beat - x.last < s.rateOf cls) :
    ∃ l, (s.record port code source cls data).evr = { s.evr with ports := l, limited := satInc (2 ^ 32 - 1) s.evr.limited } := by
  simp only [State.record, if_neg (not_or.2 ⟨h0, h15⟩), h, if_neg (Nat.not_le.2 hr)]
  exact ⟨_, rfl⟩

/-- A record that folds advances the one it folds into, in both areas (R343). -/
theorem State.passRecord_folds {s : State} {port : EvPort} {e : EvRec} {q : Nat} (hq : s.evr.lastOf (foldPoint port) = some q)
    (hf : s.evr.foldsInto (foldPoint port) e.code e.source q (s.evr.last.drop (s.evr.last.length - s.evr.waiting)) = true) :
    (s.passRecord port e).evr = { s.evr with
      last := s.evr.last.map fun x => if x.seq == q then x.fold else x
      first := s.evr.first.map fun x => if x.seq == q then x.fold else x
      folded := satInc (2 ^ 32 - 1) s.evr.folded } := by
  simp only [State.passRecord, hq, hf, if_true]

/-! ### The command -/

/-- A reserved code, an engine's port without power, and a code of another block than the engines' record nothing (R341). -/
theorem exec_eventRecord_of_refused {s : State} {g : Option (Fin 128)} {code : BitVec 16} (data : BitVec 64) (hp : s.powered = true)
    (h : code.toNat % 4096 < 0x100 ∨ (g.isSome = true ∧ (s.pwr.mainOn = false ∨ code.toNat / 4096 ≠ 4))) :
    exec (.eventRecord g code data) s = .next s := by
  refine (island_eq hp _).trans (congrArg _ ?_)
  obtain h | ⟨hg, hm | h4⟩ := h
  · have reserved : s.report (g.map fun k => k.val) code.toNat data.toNat = s := if_pos h
    rw [reserved, ite_self]
  · refine if_neg ?_
    rw [hm, Bool.or_false, Option.isNone_iff_eq_none]
    exact Option.isSome_iff_ne_none.1 hg
  · obtain ⟨k, rfl⟩ := Option.isSome_iff_exists.1 hg
    have other : s.report (some k.val) code.toNat data.toNat = s := by
      simp only [State.report, if_neg h4, ite_self]
    rw [Option.map_some, other, ite_self]

theorem exec_eventRecord {s : State} {g : Option (Fin 128)} {code : BitVec 16} (data : BitVec 64) (hp : s.powered = true)
    (hc : 0x100 ≤ code.toNat % 4096) (hg : g.isSome = true → s.pwr.mainOn = true ∧ code.toNat / 4096 = 4) :
    exec (.eventRecord g code data) s = .next (s.record (reportPort g code.toNat) code.toNat 0xFF .event data.toNat) := by
  refine (island_eq hp _).trans (congrArg _ ?_)
  rw [report_eq s g _ _ hc fun h => (hg h).2]
  refine if_pos ?_
  cases g with
  | none => rfl
  | some k => exact (hg rfl).1

/-- Settles O49: the command is a record at its port (`exec_eventRecord`), which is appended, limited or folded. -/
theorem eventRecords : Obligations.EventRecords := by
  refine ⟨fun s g code data hp h => exec_eventRecord_of_refused data hp h, fun s g code data hp hc hg hf ht => ?_,
    fun s g code data x hp hc h0 h15 hg hx hr => ?_, fun s code data q hp hc hb hq hf => ?_⟩
  · refine goes_of_eq (exec_eventRecord data hp hc hg) ?_
    obtain ⟨l, appended⟩ := State.record_appends .event data.toNat ht hf
    rw [appended]
    obtain ⟨last, rest⟩ := (s.withPorts l).append_effect (foldPoint (reportPort g code.toNat)) (s.newRec code.toNat 0xFF .event data.toNat)
    refine ⟨last.trans ?_, rest⟩
    rw [State.newRec, Nat.mod_eq_of_lt data.isLt]
    rfl
  · refine goes_of_eq (exec_eventRecord data hp hc hg) ?_
    obtain ⟨l, limited⟩ := State.record_limited (cls := .event) 0xFF data.toNat h0 h15 hx hr
    rw [limited]
    exact ⟨rfl, rfl, rfl, rfl⟩
  · refine goes_of_eq (exec_eventRecord data hp hc (g := none) fun h => Bool.noConfusion h) ?_
    rw [s.record_unlimited _ 0xFF .event data.toNat hb, State.passRecord_folds hq hf]
    exact ⟨rfl, rfl, rfl⟩

end Sys2Proof.Machine
end

section
/-!
PROOFS. The medium of the journal: flushes (R350), bad blocks and their spares (R355), read-disturb refreshes (R357) and scrub passes
(R358).
-/
namespace Sys2Proof.Machine

/-! ### Blocks -/

/-- A block that a refresh moves is a good block of a partition that is not the spare pool's. -/
theorem State.refreshable_block {s : State} {n : Nat} (h : s.refreshable n = true) :
    n < s.jnl.blocks.length ∧ (s.nblk n).part ≠ .spare := by
  simp only [State.refreshable, Bool.and_eq_true, decide_eq_true_eq] at h
  obtain ⟨⟨⟨-, hn⟩, -⟩, used⟩ := h
  refine ⟨hn, fun hs => ?_⟩
  simp [hs, Part.static] at used

/-- A fault of the journal after operations on the recorder and the medium reacts as one before them. -/
theorem State.nandFault_reacts_after {s u : State} (h : Rel [.evr, .jnl, .freeCtr, .log] s u) {src : Nat} (c : FaultClass) (n : Nat)
    (hs : src < 128 := by omega) : ∃ info, Reacts s src c info (u.nandFault src c n) := by
  obtain ⟨info, reacts⟩ := u.nandFault_reacts src c n hs
  have fr := h.frame
  exact ⟨info, reacts.source (fr .fc (by decide)) (fr .beat (by decide))
    (State.keptImg_eq (fr .ldr (by decide)) (fr .pwr (by decide)))⟩

/-! ### Flushes (R350) -/

theorem State.flush_not_started {s : State} (h : s.flushStarted = false) : s.flush = s := if_neg (by simp [h])

/-- The waiting records that the next page takes. -/
def State.pageRecs (s : State) : List EvRec := s.waitingRecs.take s.perPage

/-- The first `n` waiting records, up to `copied`, counted as copied. -/
def State.countCopied (s : State) (n copied : Nat) (flushDue : Bool) : State :=
  { s with evr := { s.evr with waiting := s.evr.waiting - n }, jnl := { s.jnl with copied, flushDue } }

theorem State.copyFirst_not_needed {s : State} (h : s.evr.first = [] ∨ s.jnl.evid = []) : s.copyFirst = s := by
  simp only [State.copyFirst]
  obtain h | h := h
  · rw [h]
    rfl
  · split
    · exact if_pos (by simp [h])
    · rfl

section
variable {s : State} {e l : EvRec} (he : s.pageRecs.head? = some e) (hl : s.pageRecs.getLast? = some l)
include he hl

theorem State.copyPage_eq :
    s.copyPage = (s.ringPage e.seq s.pageRecs.length (s.pageRecs.flatMap EvRec.bytes)).countCopied s.pageRecs.length l.seq
      (s.jnl.flushDue && s.evr.waiting - s.pageRecs.length != 0) := by
  rw [State.pageRecs] at he hl
  simp only [State.copyPage, he, hl]
  rfl

theorem State.flush_copied (hf : s.flushStarted = true) : s.flush.jnl.copied = l.seq := by
  rw [State.flush, if_pos hf, State.reportLost_copied, State.copyFirst_copied, State.copyPage_eq he hl]
  rfl

/-- With nothing else to copy and nothing to report, a flush is its page, programmed into the open ring block. -/
theorem State.flush_page {k : Nat} (hf : s.flushStarted = true) (ho : s.jnl.headOpen = true) (hh : s.jnl.head = some k)
    (hr : s.pageRoom k = true) (h0 : s.jnl.lostNew = 0) (hc : s.evr.first = [] ∨ s.jnl.evid = []) :
    s.flush = (s.program (some k) 1 e.seq s.pageRecs.length (s.pageRecs.flatMap EvRec.bytes)).countCopied s.pageRecs.length l.seq
      (s.jnl.flushDue && s.evr.waiting - s.pageRecs.length != 0) := by
  have page := State.copyPage_eq he hl
  rw [State.ringPage_open s k _ _ _ ho hh (of_decide_eq_true hr)] at page
  have noCopy : s.copyPage.copyFirst = s.copyPage := State.copyFirst_not_needed (by rw [page]; exact hc)
  rw [State.flush, if_pos hf, noCopy, page]
  exact if_pos h0

end

/-! ### Program and erase failures (R355) -/

/-- The medium after a failure, before the block leaves its partition: the block is bad, and the failure is recorded. -/
def State.failBlock (s : State) (n : Nat) (erase : Bool) : State :=
  (s.modNblk n fun b => { b with grownBad := true, pages := if erase then [] else b.pages }).event 0x9100 (n % 65536 + b2n erase * 65536)

/-- A block taken out of its partition. -/
def NandBlock.gone (b : NandBlock) : NandBlock := { b with part := .none, pages := [] }

theorem State.failBlock_rel (s : State) (n : Nat) (erase : Bool) : Rel [.evr, .jnl, .log] s (s.failBlock n erase) :=
  .comp ((State.modNblk_rel ..).weaken .auto) (State.event_rel ..) .auto

theorem State.failBlock_length (s : State) (n : Nat) (erase : Bool) : (s.failBlock n erase).jnl.blocks.length = s.jnl.blocks.length := by
  rw [State.failBlock, State.event_blocks, State.blocks_length_modNblk]

theorem State.failBlock_same {s : State} {n : Nat} (erase : Bool) (h : n < s.jnl.blocks.length) :
    (s.failBlock n erase).nblk n = { s.nblk n with grownBad := true, pages := if erase then [] else (s.nblk n).pages } :=
  (State.nblk_of (State.event_blocks ..) n).trans (State.nblk_modNblk_same s _ h)

theorem State.failBlock_other (s : State) {n k : Nat} (erase : Bool) (h : n ≠ k) : (s.failBlock n erase).nblk k = s.nblk k :=
  (State.nblk_of (State.event_blocks ..) k).trans (State.nblk_modNblk_other s _ h)

/-- The failure of a block outside the spare pool leaves the pool. -/
theorem State.failBlock_spares {s : State} {n : Nat} (erase : Bool) (hn : n < s.jnl.blocks.length) (h : (s.nblk n).part ≠ .spare) :
    (s.failBlock n erase).spares = s.spares := by
  refine State.spares_of (s.failBlock_length n erase) fun i => ?_
  by_cases hi : n = i
  · subst hi
    rw [State.failBlock_same erase hn]
    exact .inr ⟨h, h⟩
  · rw [s.failBlock_other erase hi]
    exact .inl ⟨rfl, rfl⟩

/-- The journal stopped, and its fault of this power-on used up. -/
def State.stopJournal (s : State) : State := { s with jnl := { s.jnl with stopped := true, spareRaised := true } }

theorem State.stopJournal_rel (s : State) : Rel [.jnl] s s.stopJournal := .mk_of (.refl s) .auto .auto

theorem State.sparesGone_jnl (s : State) (n : Nat) :
    (s.sparesGone n).jnl.stopped = true ∧ (s.sparesGone n).jnl.spareRaised = true ∧ (s.sparesGone n).jnl.blocks = s.jnl.blocks := by
  have fault := (s.stopJournal.nandFault_rel 98 .uc n).frame
  by_cases h : s.jnl.spareRaised = true
  · rw [show s.sparesGone n = s.stopJournal from if_pos h]
    exact ⟨rfl, rfl, rfl⟩
  · rw [show s.sparesGone n = s.stopJournal.nandFault 98 .uc n from if_neg h]
    exact ⟨fault.jnl_field (by decide) (·.stopped), fault.jnl_field (by decide) (·.spareRaised),
      fault.jnl_field (by decide) (·.blocks)⟩

theorem State.failBlock_spareRaised (s : State) (n : Nat) (erase : Bool) :
    (s.failBlock n erase).jnl.spareRaised = s.jnl.spareRaised :=
  (State.event_rel ..).frame.jnl_field (by decide) (·.spareRaised)

theorem State.programFail_no_block {s : State} {n : Nat} (erase : Bool)
    (h : s.jnl.present = false ∨ s.jnl.blocks.length ≤ n ∨ (s.nblk n).bad = true) : s.programFail n erase = s := by
  refine if_neg ?_
  obtain h | h | h := h <;> simp [h]

section
variable {s : State} {n : Nat} {erase : Bool} (hp : s.jnl.present = true) (hn : n < s.jnl.blocks.length) (hb : (s.nblk n).bad = false)
include hp hn hb

/-- What a failure of a good block does, by the partition of the block and the spares left. -/
theorem State.programFail_eq : s.programFail n erase =
    if (s.nblk n).part == .none then s.failBlock n erase
    else if (s.nblk n).part == .spare then ((s.failBlock n erase).modNblk n NandBlock.gone).nandFault 94 .ce n
    else if (s.failBlock n erase).spares.isEmpty then (s.failBlock n erase).sparesGone n
    else ((s.failBlock n erase).moveToSpare n NandBlock.gone).nandFault 94 .ce n :=
  if_pos (by simp [hp, hn, hb])

theorem State.programFail_unused (h : (s.nblk n).part = .none) : ((s.programFail n erase).nblk n).grownBad = true := by
  rw [State.programFail_eq hp hn hb, if_pos (by simp [h]), State.failBlock_same erase hn]

theorem State.programFail_spare (h : (s.nblk n).part = .spare) :
    (∃ info, Reacts s 94 .ce info (s.programFail n erase)) ∧ ((s.programFail n erase).nblk n).grownBad = true ∧
      ((s.programFail n erase).nblk n).part = .none := by
  rw [State.programFail_eq hp hn hb, if_neg (by simp [h]), if_pos (by simp [h]), State.nblk_of (State.nandFault_blocks ..),
    State.nblk_modNblk_same _ _ ((s.failBlock_length n erase).symm ▸ hn), State.failBlock_same erase hn]
  exact ⟨State.nandFault_reacts_after (.comp ((s.failBlock_rel n erase).weaken .auto) (State.modNblk_rel ..) .auto) .ce n, rfl, rfl⟩

/-- Without a spare the journal stops, and the first such failure of a power-on is a fault. -/
theorem State.programFail_stops (h0 : (s.nblk n).part ≠ .none) (h1 : (s.nblk n).part ≠ .spare) (hs : s.spares = []) :
    (s.programFail n erase).jnl.stopped = true ∧ (s.programFail n erase).jnl.spareRaised = true ∧
      ((s.programFail n erase).nblk n).grownBad = true ∧
      (s.jnl.spareRaised = false → ∃ info, Reacts s 98 .uc info (s.programFail n erase)) := by
  have stops : s.programFail n erase = (s.failBlock n erase).sparesGone n := by
    rw [State.programFail_eq hp hn hb, if_neg (by simp [h0]), if_neg (by simp [h1]), State.failBlock_spares erase hn h1,
      if_pos (by simp [hs])]
  obtain ⟨stopped, raised, blocks⟩ := (s.failBlock n erase).sparesGone_jnl n
  rw [stops, State.nblk_of blocks, State.failBlock_same erase hn]
  refine ⟨stopped, raised, rfl, fun h => ?_⟩
  rw [State.sparesGone, if_neg (by simp [State.failBlock_spareRaised, h])]
  exact State.nandFault_reacts_after (.comp ((s.failBlock_rel n erase).weaken .auto) (State.stopJournal_rel _) .auto) .uc n

/-- With a spare the block's content and place move there. -/
theorem State.programFail_moves (h0 : (s.nblk n).part ≠ .none) (h1 : (s.nblk n).part ≠ .spare) (hs : s.spares ≠ []) :
    (∃ info, Reacts s 94 .ce info (s.programFail n erase)) ∧ ((s.programFail n erase).nblk n).grownBad = true ∧
      ((s.programFail n erase).nblk n).part = .none ∧
      ∃ x ∈ s.spares, ((s.programFail n erase).nblk x).part = (s.nblk n).part ∧
        ((s.programFail n erase).nblk x).pages = if erase then [] else (s.nblk n).pages := by
  have moves : s.programFail n erase = ((s.failBlock n erase).moveToSpare n NandBlock.gone).nandFault 94 .ce n := by
    rw [State.programFail_eq hp hn hb, if_neg (by simp [h0]), if_neg (by simp [h1]), State.failBlock_spares erase hn h1,
      if_neg (by simp [hs])]
  have part : ((s.failBlock n erase).nblk n).part ≠ .spare := by
    rw [State.failBlock_same erase hn]
    exact h1
  obtain ⟨x, hx, -, old, new, -⟩ := (s.failBlock n erase).moveToSpare_effect n NandBlock.gone ((s.failBlock_length n erase).symm ▸ hn)
    part ((State.failBlock_spares erase hn h1).symm ▸ hs)
  rw [State.failBlock_same erase hn] at old new
  rw [State.failBlock_spares erase hn h1] at hx
  have blocks := ((s.failBlock n erase).moveToSpare n NandBlock.gone).nandFault_blocks 94 .ce n
  rw [moves, State.nblk_of blocks, old]
  refine ⟨State.nandFault_reacts_after (.comp ((s.failBlock_rel n erase).weaken .auto) (State.moveToSpare_rel ..) .auto) .ce n, rfl, rfl,
    x, hx, ?_⟩
  rw [State.nblk_of blocks, new]
  exact ⟨rfl, rfl⟩

end

/-! ### Refreshes (R357) -/

/-- A refreshed block as it returns to the pool. -/
def NandBlock.returned (b : NandBlock) : NandBlock := { b.erased with part := .spare }

def State.countRewrite (s : State) : State := { s with jnl := { s.jnl with rewrites := satInc 65535 s.jnl.rewrites } }

theorem State.refresh_no_spare {s : State} (n kind : Nat) (h : s.spares = []) : s.refresh n kind = s := if_pos (by simp [h])

theorem State.refresh_eq {s : State} (n kind : Nat) (h : s.spares ≠ []) :
    s.refresh n kind = (s.moveToSpare n NandBlock.returned).countRewrite.event 0x9101 (n % 65536 + kind * 65536) :=
  if_neg (by simp [h])

/-- A refreshed block returns to the pool erased, and a spare has its content and its place. -/
theorem State.refresh_effect {s : State} {n : Nat} (kind : Nat) (h : s.refreshable n = true) (hs : s.spares ≠ []) :
    let t := s.refresh n kind
    (t.nblk n).part = .spare ∧ (t.nblk n).pages = [] ∧ (t.nblk n).reads = 0 ∧ (t.nblk n).erases = (s.nblk n).erases + 1 ∧
      t.jnl.rewrites = satInc 65535 s.jnl.rewrites ∧
      ∃ x ∈ s.spares, (t.nblk x).part = (s.nblk n).part ∧ (t.nblk x).pages = (s.nblk n).pages := by
  obtain ⟨hn, part⟩ := State.refreshable_block h
  obtain ⟨x, hx, -, old, new, -, -, rewrites⟩ := s.moveToSpare_effect n NandBlock.returned hn part hs
  have kept := (State.event_rel (s.moveToSpare n NandBlock.returned).countRewrite 0x9101 (n % 65536 + kind * 65536)).frame
  have blocks : (s.refresh n kind).jnl.blocks = (s.moveToSpare n NandBlock.returned).jnl.blocks := by
    rw [State.refresh_eq n kind hs]
    exact kept.jnl_field (by decide) (·.blocks)
  have count : (s.refresh n kind).jnl.rewrites = satInc 65535 s.jnl.rewrites := by
    rw [State.refresh_eq n kind hs, ← rewrites]
    exact kept.jnl_field (by decide) (·.rewrites)
  dsimp only
  rw [State.nblk_of blocks, old]
  refine ⟨rfl, rfl, rfl, rfl, count, x, hx, ?_⟩
  rw [State.nblk_of blocks, new]
  exact ⟨rfl, rfl⟩

theorem State.readDisturb_no_refresh {s : State} {n : Nat} (h : s.refreshable n = false ∨ s.jnl.stopped = true ∨ s.spares = []) :
    s.readDisturb n = s := by
  obtain h | h | h := h
  · exact if_neg (by simp [h])
  · exact if_neg (by simp [h])
  · simp only [State.readDisturb, State.refresh_no_spare n 1 h, ite_self]

theorem State.readDisturb_refreshes {s : State} {n : Nat} (h : s.refreshable n = true) (hj : s.jnl.stopped = false)
    (hr : s.rdLimit ≤ (s.nblk n).reads) : s.readDisturb n = s.refresh n 1 := if_pos (by simp [h, hj, hr])

/-! ### Scrub passes (R358) -/

/-- The medium after a pass has read every page of it. -/
def State.scrubRead (s : State) : State :=
  { s with jnl := { s.jnl with
    scrubBusy := false, scrubBeats := 0, blocks := s.jnl.blocks.map fun b => { b with reads := b.reads + b.pages.length } } }

theorem State.scrubRead_rel (s : State) : Rel [.jnl] s s.scrubRead := .mk_of (.refl s) .auto .auto

theorem State.scrubRead_nblk (s : State) (k : Nat) :
    s.scrubRead.nblk k = { s.nblk k with reads := (s.nblk k).reads + (s.nblk k).pages.length } := by
  simp only [State.nblk, State.scrubRead, List.getD_eq_getElem?_getD, List.getElem?_map]
  cases s.jnl.blocks[k]? <;> rfl

theorem State.scrubRead_refreshable (s : State) (n : Nat) : s.scrubRead.refreshable n = s.refreshable n := by
  simp only [State.refreshable, s.scrubRead_nblk, NandBlock.bad]
  simp only [State.scrubRead, List.length_map]

theorem State.scrub_not_due {s : State} (found : List (Nat × Option Nat))
    (h : s.jnl.ready = false ∨ s.st.running = true ∨ (s.jnl.scrubBusy = false ∧ s.jnl.scrubBeats < scrubPeriod)) : s.scrub found = s := by
  refine if_neg ?_
  obtain h | h | ⟨hb, hl⟩ := h
  · simp [h]
  · simp [h]
  · simp [hb, hl]

section
variable {s : State} (hr : s.jnl.ready = true) (hs : s.st.running = false) (hd : s.jnl.scrubBusy = true ∨ scrubPeriod ≤ s.jnl.scrubBeats)
include hr hs hd

theorem State.scrub_due (found : List (Nat × Option Nat)) :
    s.scrub found = (s.weakBlocks found).foldl (fun (t : State) n => t.refresh n 0)
      (found.foldl (fun (t : State) f => t.scrubFound f) s.scrubRead) := if_pos (by simp [hr, hs, hd])

/-- A reported codeword is a fault, which the refreshes after the pass leave. -/
theorem State.scrub_reacts {n : Nat} {o : Option Nat} {c : FaultClass}
    (h : ∃ info, Reacts s 93 c info (s.scrubRead.scrubFound (n, o))) : ∃ info, Reacts s 93 c info (s.scrub [(n, o)]) := by
  obtain ⟨info, reacts⟩ := h
  rw [State.scrub_due hr hs hd]
  exact ⟨info, reacts.frame (.foldl (.refl _) fun t k => t.refresh_rel k 0) (by decide)⟩

end

/-- Codewords beyond their bits are a corrected fault. -/
theorem State.scrubFound_high {s : State} {n k : Nat} (h : s.refreshable n = true) (hk : s.scrubBits ≤ k) :
    ∃ info, Reacts s 93 .ce info (s.scrubRead.scrubFound (n, some k)) := by
  have beyond : s.scrubRead.scrubBits ≤ k := hk
  rw [State.scrubFound, s.scrubRead_refreshable, h]
  dsimp only
  rw [Bool.not_true, if_neg Bool.false_ne_true, if_pos beyond]
  exact State.nandFault_reacts_after (.comp (s.scrubRead_rel.weaken .auto) (qs := [.jnl]) (.mk_of (.refl s.scrubRead) .auto .auto) .auto) .ce n

/-- An uncorrectable codeword is an uncorrected fault. -/
theorem State.scrubFound_uncorrectable {s : State} {n : Nat} (h : s.refreshable n = true) :
    ∃ info, Reacts s 93 .uc info (s.scrubRead.scrubFound (n, none)) := by
  rw [State.scrubFound, s.scrubRead_refreshable, h]
  dsimp only
  rw [Bool.not_true, if_neg Bool.false_ne_true]
  exact (State.nandFault_reacts_after (src := 93)
    (.comp (.comp (s.scrubRead_rel.weaken .auto) s.scrubRead.freed_rel .auto) (State.modNblk_rel ..) .auto) .uc n).imp
    fun _ reacts => reacts.of_eq rfl rfl

/-! ### The commands -/

/-- Settles O50: each command by what its operation does in the case named, or by its doing nothing. -/
theorem journalMedium : Obligations.JournalMedium := by
  refine ⟨fun s hp hm => ⟨fun h => ?_, fun e l hf he hl => ⟨?_, fun k ho hh hr hk h0 hc => ?_⟩⟩,
    fun s n erase hp hm => ⟨fun h => ?_, fun hj hn hb => ⟨fun h0 h1 hs => ?_, fun h0 h1 hs => ?_, fun h => ?_, fun h => ?_⟩⟩,
    fun s n hp hm => ⟨fun h => ?_, fun h hj hs hr => ?_⟩,
    fun s hp hm => ⟨fun found h => ?_, fun hr hs hd => ⟨?_, fun n k h hk => ?_, fun n h => ?_⟩⟩⟩
  -- Flushes
  · exact (main_eq hp hm State.flush).trans (congrArg _ (State.flush_not_started h))
  · exact goes_main (f := State.flush) hp hm (State.flush_copied he hl hf)
  · refine goes_main (f := State.flush) hp hm ?_
    rw [State.flush_page he hl hf ho hh hr h0 hc]
    refine ⟨?_, rfl, rfl, rfl⟩
    exact congrArg NandBlock.pages (State.nblk_modNblk_same s _ hk)
  -- Program and erase failures
  · exact (main_eq hp hm fun s => s.programFail n erase).trans (congrArg _ (State.programFail_no_block erase h))
  · exact goes_main (f := fun s => s.programFail n erase) hp hm (State.programFail_stops hj hn hb h0 h1 hs)
  · exact goes_main (f := fun s => s.programFail n erase) hp hm (State.programFail_moves hj hn hb h0 h1 hs)
  · exact goes_main (f := fun s => s.programFail n erase) hp hm (State.programFail_spare hj hn hb h)
  · exact goes_main (f := fun s => s.programFail n erase) hp hm (State.programFail_unused hj hn hb h)
  -- Read-disturb refreshes
  · exact (main_eq hp hm fun s => s.readDisturb n).trans (congrArg _ (State.readDisturb_no_refresh h))
  · refine goes_main (f := fun s => s.readDisturb n) hp hm ?_
    rw [State.readDisturb_refreshes h hj hr]
    exact State.refresh_effect 1 h hs
  -- Scrub passes
  · exact (main_eq hp hm fun s => s.scrub found).trans (congrArg _ (State.scrub_not_due found h))
  · refine goes_main (f := fun s => s.scrub []) hp hm ?_
    rw [State.scrub_due hr hs hd]
    exact ⟨rfl, rfl, fun k => congrArg NandBlock.reads (s.scrubRead_nblk k)⟩
  · exact goes_main (f := fun s => s.scrub [(n, some k)]) hp hm (State.scrub_reacts hr hs hd (State.scrubFound_high h hk))
  · exact goes_main (f := fun s => s.scrub [(n, none)]) hp hm (State.scrub_reacts hr hs hd (State.scrubFound_uncorrectable h))

end Sys2Proof.Machine
end

section
/-!
PROOFS. Verification and loading of images (R381, R382, R391, R392).
-/
namespace Sys2Proof.Machine

/-! ### STAGED_IMAGE_VERIFIED (R391, R392) -/

section
variable {s : State} (hb : s.ldr.busy = true) (hu : s.svcUp = true)
include hb hu

theorem State.stagedVerified_refused {r : Refused} (hr : s.ldr.stagedRefusal = some r) (ok : Bool) :
    s.stagedVerified ok = s.transferDone 3 (some r) := by
  simp [State.stagedVerified, hb, hu, hr]

theorem State.stagedVerified_stored (hr : s.ldr.stagedRefusal = none) (hj : s.jnl.ready = true) (hs : s.jnl.stopped = false) :
    s.stagedVerified true =
      (s.setSlot s.ldr.target ⟨true, u64 s.ldr.received 0x20, digestOf s.ldr.received, s.ldr.received⟩).transferDone 1 none := by
  simp [State.stagedVerified, hb, hu, hr, hj, hs]

theorem State.stagedVerified_unread (hr : s.ldr.stagedRefusal = none) :
    s.stagedVerified false = (s.setSlot s.ldr.target ⟨false, 0, [], []⟩).transferDone 3 (some ⟨0x0B, 0, 0, 0, 0, 0⟩) := by
  simp [State.stagedVerified, hb, hu, hr]

end

theorem State.setSlot_slot (s : State) (b : Bool) (x : Slot) :
    (s.setSlot b x).slot b = x ∧ (s.setSlot b x).slot (!b) = s.slot (!b) ∧ (s.setSlot b x).ldr.target = s.ldr.target := by
  cases b <;> exact ⟨rfl, rfl, rfl⟩

/-- A transfer that ends with its slot written: the slot as written, the other one kept, and the result of the target. -/
theorem State.setSlot_transferDone (s : State) (x : Slot) (k : Nat) (r : Option Refused) :
    let t := (s.setSlot s.ldr.target x).transferDone k r
    t.ldr.busy = false ∧ t.slot s.ldr.target = x ∧ t.slot (!s.ldr.target) = s.slot (!s.ldr.target) ∧
      (if s.ldr.target then t.ldr.resultB else t.ldr.resultA) = r.elim (0, 0) (fun x => (x.code, x.sect)) ∧
      t.i3c.irqStatus = s.i3c.irqStatus ||| 0x20 := by
  obtain ⟨same, other, target⟩ := s.setSlot_slot s.ldr.target x
  obtain ⟨busy, slot, result, irq⟩ := transferDone_effect (s.setSlot s.ldr.target x) k r
  rw [target] at result
  exact ⟨busy, (slot _).trans same, (slot _).trans other, result, irq⟩

/-! ### The end of a load that passes (R381) -/

/-- The state in which the image of a load runs, before it is placed. -/
def State.loadRuns (s : State) (b fallback : Bool) (p : Passed) : State :=
  { s with
    ldr := { s.ldr with
      image := some p.image, running := true, service := false, fallback := fallback, runSlot := b
      keySlot := u8 (p.image.sec 0xFF) 0 }
    lk := { LkState.reset with
      lastStage := s.lk.lastStage, lastCode := s.lk.lastCode, skewMax := s.lk.skewMax, crcErrs := s.lk.crcErrs, aligns := s.lk.aligns }
    pwr := { s.pwr with waking := false } }

/-- The memories and units of a load as its image places them. -/
def State.loadUnits (s : State) (b fallback : Bool) (p : Passed) : State :=
  (((s.loadRuns b fallback p).useEntry p.entry).placeSram p.entry).placeGddr

/-- The state with the image placed and the tick origin in the next beat, before the profile is in force. -/
def State.loadPlaced (s : State) (b fallback : Bool) (p : Passed) : State :=
  let u := s.loadUnits b fallback p
  { u with
    sched := { u.sched with origin := some (s.beat + 1), staticEff := (staticUj u.powB * 1000 : Nat) }
    enc := { u.enc with validFrom := some (s.beat + 1 + u.speedWin) }
    ctrl := if s.st.running && !s.pwr.waking then { u.ctrl with split := ctrlMode u.strB == 1 } else u.ctrl }

/-- The image at work: its profile in force, streams, watchdogs, coverage and device time started, and the load logged. -/
def State.loadStarted (s : State) (b fallback : Bool) (p : Passed) : State :=
  let t := s.loadPlaced b fallback p
  (((((t.useProfile (u8 (t.sec 0x11) 1)).streamsStart).watchdogsStart).coverageStart).timeStart).event 0xC100
    (b2n b + 2 * b2n fallback + 2 ^ 32 * u32 p.image.digest 0)

theorem State.loadPass_eq (s : State) (b fallback : Bool) (p : Passed) :
    s.loadPass b fallback p = (s.loadStarted b fallback p).loadEnd b 0 := by
  unfold State.loadPass State.loadStarted State.loadPlaced State.loadUnits State.loadRuns
  with_reducible rfl

theorem State.loadPlaced_effect (s : State) (b fallback : Bool) (p : Passed) :
    let t := s.loadPlaced b fallback p
    t.ldr = (s.loadRuns b fallback p).ldr ∧ t.sched.origin = some (s.beat + 1) ∧ t.i3c.irqStatus = s.i3c.irqStatus := by
  have units : Rel [.cores, .engs, .gddrMem, .poison, .sched, .alt] (s.loadRuns b fallback p) (s.loadUnits b fallback p) :=
    .comp (.comp (.comp (.refl _) (State.useEntry_rel ..) .auto) (State.placeSram_rel ..) .auto) (State.placeGddr_rel _) .auto
  exact ⟨units.frame .ldr (by decide), rfl, (units.frame .irq (by decide)).1⟩

/-- Beside what the placing set, only the profile in force is new in the loader's state. -/
theorem State.loadStarted_effect (s : State) (b fallback : Bool) (p : Passed) :
    let u := s.loadStarted b fallback p
    u.ldr = ((s.loadPlaced b fallback p).useProfile (u8 (p.image.sec 0x11) 1)).ldr ∧ u.sched.origin = some (s.beat + 1) ∧
      u.i3c.irqStatus = s.i3c.irqStatus := by
  obtain ⟨ldr, origin, irq⟩ := s.loadPlaced_effect b fallback p
  have profile : (s.loadPlaced b fallback p).sec 0x11 = p.image.sec 0x11 := State.sec_of (s := s.loadRuns b fallback p) ldr 0x11
  dsimp only [State.loadStarted]
  rw [profile]
  generalize hv : (s.loadPlaced b fallback p).useProfile (u8 (p.image.sec 0x11) 1) = v
  have used : Rel [.ldr] (s.loadPlaced b fallback p) v := hv ▸ State.useProfile_rel ..
  have started : Rel [.io, .wd, .st, .time, .tel, .evr, .log] v (((((v.streamsStart).watchdogsStart).coverageStart).timeStart).event 0xC100
      (b2n b + 2 * b2n fallback + 2 ^ 32 * u32 p.image.digest 0)) :=
    .comp (.comp (.comp (.comp (.comp (.refl _) (State.streamsStart_rel _) .auto) (State.watchdogsStart_rel _) .auto)
      (State.coverageStart_rel _) .auto) (State.timeStart_rel _) .auto) (State.event_rel ..) .auto
  refine ⟨started.frame .ldr (by decide), ?_, ?_⟩
  · rw [started.frame .sched (by decide), used.frame .sched (by decide), origin]
  · rw [(started.frame .irq (by decide)).1, (used.frame .irq (by decide)).1, irq]

theorem State.loadPass_effect (s : State) (b fallback : Bool) (p : Passed) :
    let t := s.loadPass b fallback p
    t.ldr.image = some p.image ∧ t.ldr.running = true ∧ t.ldr.loading = false ∧ t.ldr.service = false ∧ t.ldr.runSlot = b ∧
      t.ldr.fallback = fallback ∧ t.ldr.profile = u8 (p.image.sec 0x11) 1 ∧ t.ldr.modified = 0 ∧ t.sched.origin = some (s.beat + 1) ∧
      t.i3c.irqStatus = s.i3c.irqStatus ||| 0x20 := by
  obtain ⟨runs, -, -⟩ := s.loadPlaced_effect b fallback p
  obtain ⟨profile, origin, status⟩ := s.loadStarted_effect b fallback p
  obtain ⟨ldr, irq, sched⟩ := loadEnd_effect (s.loadStarted b fallback p) b 0
  simp only [State.useProfile] at profile
  dsimp only
  rw [State.loadPass_eq, irq, sched, ldr, profile, runs, origin, status]
  exact ⟨rfl, rfl, rfl, rfl, rfl, rfl, rfl, rfl, rfl, rfl⟩

/-! ### The end of a load that fails (R382) -/

/-- A refusal of a slot is noted for it, and leaves the slots as they are. -/
theorem State.slotRefused_effect (s : State) (b : Bool) (r : Refused) :
    (∃ x y, (s.slotRefused b r).ldr = { s.ldr with resultA := x, resultB := y, detail := r } ∧ (if b then y else x) = (r.code, r.sect)) ∧
      (∀ c, (s.slotRefused b r).slotValid c = s.slotValid c) ∧ (s.slotRefused b r).i3c = s.i3c := by
  have logged := State.event_rel (s.noteRefusal b r) 0xC101 (b2n b + 256 * r.code + 2 ^ 16 * r.sect + 2 ^ 32 * r.index)
  have ldr : (s.slotRefused b r).ldr = (s.noteRefusal b r).ldr := logged.frame .ldr (by decide)
  have ready : (s.slotRefused b r).jnl.ready = s.jnl.ready := (State.slotRefused_rel s b r).frame.jnl_field (by decide) (·.ready)
  have i3c : (s.slotRefused b r).i3c = s.i3c := by
    have same := (State.slotRefused_rel s b r).frame .i3c (by decide)
    obtain ⟨status, ibi⟩ := (State.slotRefused_rel s b r).frame .irq (by decide)
    simp only [State.same, ← status, ← ibi] at same
    exact same
  obtain ⟨x, y, set, result, -⟩ := setResult_effect s b (r.code, r.sect)
  have noted : (s.noteRefusal b r).ldr = { s.ldr with resultA := x, resultB := y, detail := r } := by
    show ({ (s.setResult b (r.code, r.sect)).ldr with detail := r } : LoaderState) = _
    rw [set]
  refine ⟨⟨x, y, ldr.trans noted, result⟩, fun c => ?_, i3c⟩
  rw [State.slotValid, State.slotValid, ready, State.slot, State.slot, ldr, noted]

theorem State.loadFail_effect (s : State) (b : Bool) (c : Nat) :
    (s.loadFail b c).ldr = { s.ldr with service := true, loading := false } ∧ (s.loadFail b c).i3c.irqStatus = s.i3c.irqStatus ||| 0x20 := by
  obtain ⟨ldr, irq, -⟩ := loadEnd_effect ({ s with ldr := { s.ldr with service := true }, pwr := { s.pwr with waking := false } } : State) b c
  exact ⟨ldr, irq⟩

/-! ### IMAGE_LOAD (R381, R382) -/

section
variable {s : State} {l : LoadIn} (hl : s.ldr.loading = true) (hu : s.svcUp = true) (hf : s.ftActive = false)
include hl hu hf

theorem State.imageLoad_passes {p : Passed} (ht : s.haltSnapshot.trySlot s.ldr.prefSlot l = .ok p) :
    s.imageLoad l = s.haltSnapshot.loadPass s.ldr.prefSlot false p := by
  have pref : s.haltSnapshot.ldr = s.ldr := (State.haltSnapshot_rel s).frame .ldr (by decide)
  simp [State.imageLoad, hl, hu, hf, pref, ht]

theorem State.imageLoad_fails {r : Refused} (ht : s.haltSnapshot.trySlot s.ldr.prefSlot l = .error r)
    (hv : s.haltSnapshot.slotValid (!s.ldr.prefSlot) = false) :
    s.imageLoad l = (s.haltSnapshot.slotRefused s.ldr.prefSlot r).loadFail s.ldr.prefSlot r.code := by
  have pref : s.haltSnapshot.ldr = s.ldr := (State.haltSnapshot_rel s).frame .ldr (by decide)
  have other := ((s.haltSnapshot.slotRefused_effect s.ldr.prefSlot r).2.1 (!s.ldr.prefSlot)).trans hv
  simp [State.imageLoad, hl, hu, hf, pref, ht, other]

end

/-- Settles O24: a verification by the slot that it writes, a load by its end. -/
theorem imageLoads : Obligations.ImageLoads := by
  refine ⟨fun s ok r hp hm hb hu hr => ?_, fun s hp hm hb hu hr hj hs => ?_, fun s hp hm hb hu hr => ?_, fun s l p hp hm hl hu hf ht => ?_,
    fun s l r hp hm hl hu hf ht hv => ?_⟩
  -- STAGED_IMAGE_VERIFIED
  · refine goes_main (f := fun s => s.stagedVerified ok) hp hm ?_
    rw [State.stagedVerified_refused hb hu hr]
    obtain ⟨busy, slot, result, irq⟩ := transferDone_effect s 3 (some r)
    exact ⟨busy, slot _, result, irq⟩
  · refine goes_main (f := fun s => s.stagedVerified true) hp hm ?_
    rw [State.stagedVerified_stored hb hu hr hj hs]
    exact s.setSlot_transferDone _ 1 none
  · refine goes_main (f := fun s => s.stagedVerified false) hp hm ?_
    rw [State.stagedVerified_unread hb hu hr]
    obtain ⟨busy, slot, -, result, -⟩ := s.setSlot_transferDone ⟨false, 0, [], []⟩ 3 (some ⟨0x0B, 0, 0, 0, 0, 0⟩)
    exact ⟨busy, congrArg Slot.valid slot, result⟩
  -- IMAGE_LOAD
  · have snap := (State.haltSnapshot_rel s).frame
    refine goes_main (f := fun s => s.imageLoad l) hp hm ?_
    rw [State.imageLoad_passes hl hu hf ht]
    obtain ⟨image, running, loading, service, slot, fallback, profile, modified, origin, irq⟩ :=
      s.haltSnapshot.loadPass_effect s.ldr.prefSlot false p
    rw [snap .beat (by decide)] at origin
    rw [(snap .irq (by decide)).1] at irq
    exact ⟨image, running, loading, service, slot, fallback, profile, modified, origin, irq⟩
  · have snap := (State.haltSnapshot_rel s).frame
    refine goes_main (f := fun s => s.imageLoad l) hp hm ?_
    rw [State.imageLoad_fails hl hu hf ht hv]
    obtain ⟨⟨x, y, ldr, result⟩, -, i3c⟩ := s.haltSnapshot.slotRefused_effect s.ldr.prefSlot r
    obtain ⟨failed, irq⟩ := (s.haltSnapshot.slotRefused s.ldr.prefSlot r).loadFail_effect s.ldr.prefSlot r.code
    rw [failed, ldr, irq, i3c, snap .ldr (by decide), (snap .irq (by decide)).1]
    exact ⟨rfl, rfl, rfl, rfl, result, rfl⟩

end Sys2Proof.Machine
end

section
/-!
PROOFS. Power-on, lock-out reset and wake (R288, R289, R398 to R406, R453).
-/
namespace Sys2Proof.Machine

/-! ### The steps of a start-up (R400) -/

/-- What no step of a start-up touches: the power of the island, its safe inputs, the lock-out reset and the mailbox among others. -/
theorem State.startUp_rel (s : State) (x : StartTests) (first : Bool) (k : Nat) :
    Rel [.beat, .selftestFail, .fc, .wd, .evr, .watch, .enc, .so, .i3c, .ldr, .pwr, .time, .sched, .cores, .engs, .gddr, .ctrl, .alt, .golden,
      .grid, .flr, .ev, .io, .jnl, .st, .lc, .secu, .freeCtr, .wstate, .collected, .irq, .log] s ((s.runSteps x first k).toStep9) :=
  .comp (.comp (.refl _) (State.runSteps_rel ..) .auto) (State.toStep9_rel _) .auto

/-! ### POWER_ON (R398, R400) -/

/-- The state after reset with the always-on rails in window and the power-on recorded, before the first test. -/
def State.poweredUp (s : State) (x : StartTests) : State :=
  ({ s.cold true with pwr := { (s.cold true).pwr with inWindow := 0x194, armed := 0x194 } } : State).powerOnRecord x.nand

theorem State.powerUp_eq (s : State) (x : StartTests) : s.powerUp x = ((s.poweredUp x).runSteps x true 2).toStep9 := rfl

theorem State.poweredUp_rel (s : State) (x : StartTests) :
    Rel [.fc, .evr, .so, .ldr, .jnl, .lc, .freeCtr, .collected, .irq, .log]
      { s.cold true with pwr := { (s.cold true).pwr with inWindow := 0x194, armed := 0x194 } } (s.poweredUp x) := State.powerOnRecord_rel ..

/-- Power-on leaves in its reset state what no step of a start-up touches. -/
theorem State.powerUp_resets (s : State) (x : StartTests) :
    let t := s.powerUp x
    t.powered = true ∧ t.pending = s.pending ∧ t.si = State.reset.si ∧ t.tp = State.reset.tp ∧ t.lrst = State.reset.lrst ∧ t.cmd = State.reset.cmd ∧
      t.therm = State.reset.therm ∧ t.tel = State.reset.tel ∧ t.gddrMem = [] ∧ t.cmp = State.reset.cmp ∧ t.floorPair = State.reset.floorPair ∧
      t.lk = State.reset.lk := by
  have recorded := (s.poweredUp_rel x).frame
  have steps := ((s.poweredUp x).startUp_rel x true 2).frame
  dsimp only
  rw [State.powerUp_eq, steps .powered (by decide), steps .pending (by decide), steps .si (by decide), steps .tp (by decide),
    steps .lrst (by decide), steps .cmd (by decide), steps .therm (by decide), steps .tel (by decide), steps .gddrMem (by decide),
    steps .cmp (by decide), steps .floorPair (by decide), steps .lk (by decide)]
  exact ⟨recorded .powered (by decide), recorded .pending (by decide), recorded .si (by decide), recorded .tp (by decide),
    recorded .lrst (by decide), recorded .cmd (by decide), recorded .therm (by decide), recorded .tel (by decide), recorded .gddrMem (by decide),
    recorded .cmp (by decide), recorded .floorPair (by decide), recorded .lk (by decide)⟩

theorem State.powerUp_failed (s : State) {x : StartTests} {f : TestFail} (h : x.fail = some f) (h1 : 2 ≤ f.step) (h2 : f.step ≤ 8) :
    Failed (s.powerUp x) :=
  (s.poweredUp x).runSteps_failed x true 2 h h1 h2 ((s.poweredUp_rel x).frame .selftestFail (by decide))

/-! ### An accepted press (R288, R289, R406) -/

/-- What an accepted press leaves of the lock-out reset input. -/
def LrstState.taken (l : LrstState) (refused : Bool) : LrstState :=
  { l with acceptAt := none, fAccepted := true, count := satInc 65535 l.count, fRefused := l.fRefused || refused }

theorem State.lrstTake_effect (s : State) (refused : Bool) :
    (s.lrstTake refused).lrst = s.lrst.taken refused ∧ (s.lrstTake refused).watch = s.watch ∧ (s.lrstTake refused).fc = s.fc := by
  have rel := (s.lrstTake_rel refused).frame
  exact ⟨((State.event_rel ..).frame .lrst (by decide)).trans ((State.unlockInputs_rel _).frame .lrst (by decide)),
    rel.watch_eq (by decide) (by decide), rel .fc (by decide)⟩

theorem State.lrstTake_lcChanged (s : State) (refused : Bool) : (s.lrstTake refused).lcChanged = s.lcChanged := by
  rw [State.lcChanged, (s.lrstTake_rel refused).frame .lc (by decide)]
  rfl

/-- The lock-out reset sequence keeps the input of the press, and empties the mailbox and the memory. -/
theorem State.lockoutSequence_effect {s : State} (x : StartTests) (h : s.lcChanged = false) :
    (s.lockoutSequence x).powered = true ∧ (s.lockoutSequence x).lrst = s.lrst ∧ (s.lockoutSequence x).cmd = State.reset.cmd ∧
      (s.lockoutSequence x).gddrMem = [] ∧ ∀ f, x.fail = some f → 3 ≤ f.step → f.step ≤ 8 → Failed (s.lockoutSequence x) := by
  have sequence : s.lockoutSequence x = (s.lockoutKept.runSteps x false 3).toStep9 := if_neg (Bool.eq_false_iff.1 h)
  have steps := (s.lockoutKept.startUp_rel x false 3).frame
  rw [sequence]
  exact ⟨steps .powered (by decide), steps .lrst (by decide), steps .cmd (by decide), steps .gddrMem (by decide),
    fun f hf h1 h2 => s.lockoutKept.runSteps_failed x false 3 hf h1 h2 rfl⟩

section
variable {s : State} (x : StartTests) (hd : s.lrstDue = true)
include hd

theorem State.pressTakes_unlocks (h : ¬((s.watch.wstate = .halt ∧ s.st.running = false) ∨ s.selftestFail = true)) :
    s.pressTakes x = s.lrstTake false := (if_pos hd).trans (if_neg h)

variable (h : (s.watch.wstate = .halt ∧ s.st.running = false) ∨ s.selftestFail = true)
include h

theorem State.pressTakes_refused (ho : s.lrst.stoOn = false) : s.pressTakes x = s.lrstTake true :=
  (if_pos hd).trans ((if_pos h).trans (if_neg (Bool.eq_false_iff.1 ho)))

theorem State.pressTakes_runs (ho : s.lrst.stoOn = true) : s.pressTakes x = (s.lrstTake false).lockoutSequence x :=
  (if_pos hd).trans ((if_pos h).trans (if_pos ho))

end

/-! ### Presses that are ignored, and a discrepancy (R288) -/

theorem State.lrstIgnored_effect {s : State} {k : Nat} (h : s.lrst.ignoreDue = some k) :
    s.lrstIgnored.lrst = { s.lrst with
      ignoreDue := none, fShort := s.lrst.fShort || k == 2, fLong := s.lrst.fLong || k == 3, fInvalid := s.lrst.fInvalid || k == 5 } ∧
      s.lrstIgnored.fc = s.fc := by
  simp only [State.lrstIgnored, h]
  exact ⟨(State.event_rel ..).frame .lrst (by decide), (State.event_rel ..).frame .fc (by decide)⟩

theorem State.lrstDiscrepancy_effect {s : State} (h : s.lrst.discDue = true) :
    s.lrstDiscrepancy.lrst = { s.lrst with discDue := false, fDisc := true } ∧ Reacts s 11 .uc 3 s.lrstDiscrepancy := by
  rw [State.lrstDiscrepancy, if_pos h]
  exact ⟨(State.raise_rel ..).frame .lrst (by decide), (State.raise_reacts _ 11 .uc 3 (by decide)).source rfl rfl⟩

/-! ### WAKE (R453) -/

/-- The state that a wake leaves before its image load. -/
def State.woken (s : State) (x : StartTests) : State :=
  (({ s with pwr := { s.pwr with standby := false } } : State).bootWatchdogs).runSteps x false 4

theorem State.wakeSteps_eq {s : State} (x : StartTests) (hs : s.pwr.standby = true) (hw : s.pwr.waking = true) :
    s.wakeSteps x =
      if (s.woken x).selftestFail then (s.woken x).bootPeriods
      else if (s.woken x).ftActive then
        { (s.woken x).bootPeriods with st := { (s.woken x).st with running := false }, pwr := { (s.woken x).pwr with waking := false } }
      else (s.woken x).toStep9 := if_pos ⟨hs, hw⟩

theorem State.woken_standby (s : State) (x : StartTests) : (s.woken x).pwr.standby = false :=
  (State.runSteps_standby ..).trans (congrArg PwrState.standby ((State.bootWatchdogs_rel _).frame .pwr (by decide)))

theorem State.wakeSteps_standby {s : State} (x : StartTests) (hs : s.pwr.standby = true) (hw : s.pwr.waking = true) :
    (s.wakeSteps x).pwr.standby = false := by
  rw [State.wakeSteps_eq x hs hw]
  split
  · rw [(State.bootPeriods_rel _).frame .pwr (by decide)]
    exact s.woken_standby x
  · split
    · exact s.woken_standby x
    · rw [(State.toStep9_rel _).frame .pwr (by decide)]
      exact s.woken_standby x

theorem State.wakeSteps_fails {s : State} {x : StartTests} (hs : s.pwr.standby = true) (hw : s.pwr.waking = true) {f : TestFail}
    (h : x.fail = some f) (h1 : 4 ≤ f.step) (h2 : f.step ≤ 8) : (s.wakeSteps x).selftestFail = true := by
  have failed : (s.woken x).selftestFail = true := State.runSteps_fails _ x false 4 h h1 h2
  rw [State.wakeSteps_eq x hs hw, if_pos failed]
  exact ((State.bootPeriods_rel _).frame .selftestFail (by decide)).trans failed

/-- Settles O32: each sequence by what its steps leave alone, a failing test by the steps that run it, a press by where it falls. -/
theorem startUpSequences : Obligations.StartUpSequences := by
  refine ⟨fun s x h => ?_, fun s x hp h => ?_, fun s hp => ?_, fun s x hp hs hw => ?_, fun s x hp h => ?_,
    fun s x hp hd => ⟨fun h => ?_, fun h ho => ?_, fun h ho hc => ?_⟩, fun s x hp hd => ?_,
    fun s hp => ⟨fun h => ?_, fun k h => ?_, fun h => ?_, fun h => ?_⟩⟩
  -- POWER_ON and the collapse of the supply
  · obtain ⟨powered, pending, si, tp, lrst, cmd, therm, tel, mem, cmp, pair, lk⟩ := s.powerUp_resets x
    exact goes_of_eq (t := s.powerUp x) (congrArg _ (if_pos h)) ⟨powered, pending, si, tp, lrst, cmd, therm, tel, mem, cmp, pair, lk,
      fun f hf h1 h2 => s.powerUp_failed hf h1 h2⟩
  · exact congrArg _ (if_neg fun c => c.elim (fun off => Bool.false_ne_true (off.symm.trans hp)) h)
  · exact goes_island (f := State.collapse) hp ⟨rfl, rfl, rfl, rfl, rfl, rfl, rfl, rfl, rfl, rfl, rfl, rfl, rfl⟩
  -- WAKE
  · have rel := (s.wakeSteps_rel x).frame
    exact goes_island (f := fun s => s.wakeSteps x) hp ⟨State.wakeSteps_standby x hs hw, rel .si (by decide), rel .therm (by decide),
      rel .cmd (by decide), fun f hf h1 h2 => State.wakeSteps_fails hs hw hf h1 h2⟩
  · exact (island_eq hp fun s => s.wakeSteps x).trans (congrArg _ (if_neg fun c => h.elim (Bool.eq_false_iff.1 · c.1) (Bool.eq_false_iff.1 · c.2)))
  -- A press that is due
  · refine goes_of_eq ((island_eq hp fun s => s.pressTakes x).trans (congrArg _ (State.pressTakes_unlocks x hd h))) ?_
    obtain ⟨lrst, watch, fc⟩ := s.lrstTake_effect false
    rw [LrstState.taken, Bool.or_false] at lrst
    exact ⟨lrst, watch, fc⟩
  · refine goes_of_eq ((island_eq hp fun s => s.pressTakes x).trans (congrArg _ (State.pressTakes_refused x hd h ho))) ?_
    obtain ⟨lrst, watch, fc⟩ := s.lrstTake_effect true
    rw [LrstState.taken, Bool.or_true] at lrst
    exact ⟨lrst, watch, fc⟩
  · refine goes_of_eq ((island_eq hp fun s => s.pressTakes x).trans (congrArg _ (State.pressTakes_runs x hd h ho))) ?_
    obtain ⟨powered, kept, cmd, mem, failed⟩ := State.lockoutSequence_effect x ((s.lrstTake_lcChanged false).trans hc)
    obtain ⟨lrst, -, -⟩ := s.lrstTake_effect false
    rw [LrstState.taken, Bool.or_false] at lrst
    exact ⟨powered, kept.trans lrst, cmd, mem, failed⟩
  -- A press that is not
  · exact (island_eq hp fun s => s.pressTakes x).trans (congrArg _ (if_neg (Bool.eq_false_iff.1 hd)))
  -- Ignored presses and the discrepancy
  · exact (island_eq hp State.lrstIgnored).trans (congrArg _ (by simp only [State.lrstIgnored, h]))
  · exact goes_island (f := State.lrstIgnored) hp (State.lrstIgnored_effect h)
  · exact goes_island (f := State.lrstDiscrepancy) hp (State.lrstDiscrepancy_effect h)
  · exact (island_eq hp State.lrstDiscrepancy).trans (congrArg _ (if_neg (Bool.eq_false_iff.1 h)))

end Sys2Proof.Machine
end

section
/-!
PROOFS. The operations of the security block (R427 to R437) and the life-cycle transitions (R422 to R426).
-/
namespace Sys2Proof.Machine

/-! ### The checks that precede an operation (R436, R441) -/

section
variable {s : State} {op : Nat} {permitted : Bool} {run : State → State} (hm : s.pwr.mainOn = true)
include hm

theorem State.opStart_runs (ho : s.secu.op = none) (hq : permitted = true) : s.opStart op permitted run = run s := by
  simp [State.opStart, hm, ho, hq]

theorem State.opStart_busy (ho : s.secu.op.isSome = true) : s.opStart op permitted run = s.secRefuse op 1 := by
  simp [State.opStart, hm, ho]

theorem State.opStart_forbidden (ho : s.secu.op = none) (hq : permitted = false) : s.opStart op permitted run = s.secRefuse op 2 := by
  simp [State.opStart, hm, ho, hq]

end

/-- A refusal leaves its reason in RESULT, and the life cycle as it is. -/
theorem State.secRefuse_effect (s : State) (op code : Nat) :
    (s.secRefuse op code).secu = { s.secu with result := code } ∧ (s.secRefuse op code).lc = s.lc :=
  have rel := State.event_rel ({ s with secu := { s.secu with result := code } } : State) 0xC113 (op % 16 + 256 * code)
  ⟨rel.frame .secu (by decide), rel.frame .lc (by decide)⟩

/-- An operation that runs until it ends with its result. -/
theorem State.secStart_eq (s : State) (op result : Nat) : s.secStart op result = s.withOp ⟨op, result, [], false, 0⟩ := rfl

/-! ### Identity (R427) -/

/-- The state with a new seed: the draw counted, and the seed read back or marked bad. -/
def State.withSeed (s : State) (readBackOk : Bool) : State :=
  { s.drawn with lc := { s.lc with seed := some (s.draw 96), seedBad := !readBackOk } }

/-- The state with a new seed and its public key in the buffer. -/
def State.identified (s : State) : State :=
  (((s.withSeed true).bufPut (s.withSeed true).publicKey).event 0xC114 (u64 ((s.withSeed true).deviceId.getD []) 0)).secStart 1 0

section
variable {s : State} (hm : s.pwr.mainOn = true) (ho : s.secu.op = none) (hb : s.lc.bootState = 0) (hs : s.secService = true)
include hm ho hb hs

theorem State.idGenerate_present (hi : s.hasId = true) (a b : Bool) : s.idGenerate a b = s.secStart 1 0x0B :=
  (State.opStart_runs hm ho (by simp [hb, hs])).trans (if_pos hi)

variable (hi : s.hasId = false)
include hi

theorem State.idGenerate_seedBad (hq : s.lc.seedBad = true) (a b : Bool) : s.idGenerate a b = s.secStart 1 0x10 :=
  (State.opStart_runs hm ho (by simp [hb, hs])).trans ((if_neg (Bool.eq_false_iff.1 hi)).trans (if_pos hq))

variable (hq : s.lc.seedBad = false)
include hq

theorem State.idGenerate_noRandom (b : Bool) : s.idGenerate false b = s.drawn.secStart 1 0x0F :=
  (State.opStart_runs hm ho (by simp [hb, hs])).trans ((if_neg (Bool.eq_false_iff.1 hi)).trans ((if_neg (Bool.eq_false_iff.1 hq)).trans (if_pos rfl)))

theorem State.idGenerate_readBackFails : s.idGenerate true false = (s.withSeed false).secStart 1 0x10 :=
  (State.opStart_runs hm ho (by simp [hb, hs])).trans ((if_neg (Bool.eq_false_iff.1 hi)).trans (if_neg (Bool.eq_false_iff.1 hq)))

theorem State.idGenerate_passes : s.idGenerate true true = s.identified :=
  (State.opStart_runs hm ho (by simp [hb, hs])).trans ((if_neg (Bool.eq_false_iff.1 hi)).trans (if_neg (Bool.eq_false_iff.1 hq)))

end

theorem State.identified_effect (s : State) :
    s.identified.secu.op = some ⟨1, 0, [], false, 0⟩ ∧ s.identified.hasId = true ∧
      (∃ seed, s.identified.lc.seed = some seed ∧ seed.length = 96) ∧ s.identified.secu.len = s.identified.publicKey.length ∧
      s.identified.secu.ptr = 0 ∧ s.identified.secu.buf = Mem.writeN [] 0 s.identified.publicKey := by
  have rel := State.event_rel ((s.withSeed true).bufPut (s.withSeed true).publicKey) 0xC114 (u64 ((s.withSeed true).deviceId.getD []) 0)
  have lc : s.identified.lc = (s.withSeed true).lc := rel.frame .lc (by decide)
  have secu : s.identified.secu =
      { ((s.withSeed true).bufPut (s.withSeed true).publicKey).secu with op := some ⟨1, 0, [], false, 0⟩ } :=
    congrArg (fun x : SecState => { x with op := some ⟨1, 0, [], false, 0⟩ }) (rel.frame .secu (by decide))
  have key : s.identified.publicKey = (s.withSeed true).publicKey := by rw [State.publicKey, State.publicKey, lc]
  rw [key, secu, State.hasId, lc]
  exact ⟨rfl, rfl, ⟨s.draw 96, rfl, by simp [State.draw, upto]⟩, rfl, rfl, rfl⟩

/-! ### Certificate (R428) -/

section
variable {s : State} (hm : s.pwr.mainOn = true) (ho : s.secu.op = none) (hb : s.lc.bootState = 0) (hs : s.secService = true)
include hm ho hb hs

theorem State.certProgram_refused (hc : s.certCode s.secBytes ≠ 0) : s.certProgram = s.secStart 2 (s.certCode s.secBytes) :=
  (State.opStart_runs hm ho (by simp [hb, hs])).trans (if_neg hc)

theorem State.certProgram_stored (hc : s.certCode s.secBytes = 0) :
    s.certProgram.lc = { s.lc with cert := some s.secBytes } ∧ s.certProgram.secu.op = some ⟨2, 0, [], false, 0⟩ := by
  have runs : s.certProgram =
      (({ s with lc := { s.lc with cert := some s.secBytes } } : State).event 0xC115 (u64 s.secBytes 0x10)).secStart 2 0 :=
    (State.opStart_runs hm ho (by simp [hb, hs])).trans (if_pos hc)
  rw [runs]
  exact ⟨(State.event_rel ..).frame .lc (by decide), rfl⟩

end

/-! ### Owner keys (R433) -/

section
variable {s : State} (hm : s.pwr.mainOn = true) (ho : s.secu.op = none) (hb : s.lc.bootState ≤ 2) (hs : s.secService = true)
include hm ho hb hs

theorem State.keyOp_refused (hc : s.keyCode s.secBytes ≠ 0) : s.keyOp = s.secStart 4 (s.keyCode s.secBytes) :=
  (State.opStart_runs hm ho (by simp [hb, hs])).trans (if_neg hc)

/-- A valid message programs or revokes the slot that it names, and no other. -/
theorem State.keyOp_taken (hc : s.keyCode s.secBytes = 0) :
    s.keyOp.secu.op = some ⟨4, 0, [], false, 0⟩ ∧
      (u8 s.secBytes 4 = 1 → (s.keyOp.keySlot (u8 s.secBytes 5)).programmed = true ∧
        (s.keyOp.keySlot (u8 s.secBytes 5)).hash = Config.shake256 (slice s.secBytes 0x28 64) 32) ∧
      (u8 s.secBytes 4 = 2 → (s.keyOp.keySlot (u8 s.secBytes 5)).revoked = true) ∧
      ∀ k, k ≠ u8 s.secBytes 5 → s.keyOp.keySlot k = s.keySlot k := by
  obtain ⟨f, hf, t, runs, lc⟩ : ∃ f : KeySlot → KeySlot,
      (f = fun x => if u8 s.secBytes 4 = 1 then { x with hash := Config.shake256 (slice s.secBytes 0x28 64) 32, programmed := true }
        else { x with revoked := true }) ∧
      ∃ t : State, s.keyOp = t.secStart 4 0 ∧ t.lc = { s.lc with keys := vmod s.lc.keys (u8 s.secBytes 5) f } :=
    ⟨_, rfl, _, (State.opStart_runs hm ho (by simp [hb, hs])).trans (if_pos hc), (State.event_rel ..).frame .lc (by decide)⟩
  have slot (k : Nat) : s.keyOp.keySlot k = vget (vmod s.lc.keys (u8 s.secBytes 5) f) k ⟨[], false, false⟩ := by
    rw [runs]
    exact congrArg (fun x : LcState => vget x.keys k ⟨[], false, false⟩) lc
  have named : s.keyOp.keySlot (u8 s.secBytes 5) = f (s.keySlot (u8 s.secBytes 5)) := (slot _).trans (vget_vmod_same (keyCode_target hc))
  refine ⟨by rw [runs]; rfl, fun h1 => ?_, fun h2 => ?_, fun k hk => (slot k).trans (vget_vmod_other (Ne.symm hk))⟩
  · rw [named, hf]
    simp only [if_pos h1, and_self]
  · rw [named, hf]
    simp only [if_neg (show ¬u8 s.secBytes 4 = 1 by omega)]

end

/-! ### The commands of the security block -/

section
variable {s : State} (hp : s.powered = true) (hm : s.pwr.mainOn = true)
include hp hm

theorem exec_idGenerate (a b : Bool) : exec (.idGenerate a b) s = .next (s.idGenerate a b) :=
  (island_eq hp fun s => s.mainReg secCtrlAddr fun t => t.idGenerate a b).trans (congrArg _ (if_pos hm))

theorem exec_certProgram : exec .certProgram s = .next s.certProgram := mainWrite_eq hp hm s.regWrite_certProgram

theorem exec_certRead : exec .certRead s = .next s.certRead := mainWrite_eq hp hm s.regWrite_certRead

theorem exec_keyOp : exec .keyOp s = .next s.keyOp := mainWrite_eq hp hm s.regWrite_keyOp

theorem exec_attest (store : Bool) : exec (.attest store) s = .next (s.attest store) :=
  (island_eq hp fun s => s.regWrite secCtrlAddr (5 + 256 * b2n store)).trans
    (congrArg _ ((s.regWrite_attest store).trans (if_pos hm)))

theorem exec_bufClear : exec .bufClear s = .next s.bufClear := mainWrite_eq hp hm s.regWrite_bufClear

/-- The operations that run in SERVICE alone. -/
theorem exec_serviceOp {a b : Bool} {x : Instr} (hx : x ∈ [.idGenerate a b, .certProgram, .keyOp]) :
    ∃ op ok run, exec x s = .next (s.opStart op (ok && s.secService) run) := by
  simp only [List.mem_cons, List.not_mem_nil, or_false] at hx
  obtain rfl | rfl | rfl := hx
  · exact ⟨_, _, _, exec_idGenerate hp hm a b⟩
  · exact ⟨_, _, _, exec_certProgram hp hm⟩
  · exact ⟨_, _, _, exec_keyOp hp hm⟩

/-- Every operation begins with the checks of `State.opStart`. -/
theorem exec_secOp {a b : Bool} {x : Instr}
    (hx : x ∈ [.idGenerate a b, .certProgram, .certRead, .keyOp, .attest false, .attest true, .bufClear]) :
    ∃ op permitted run, exec x s = .next (s.opStart op permitted run) := by
  simp only [List.mem_cons, List.not_mem_nil, or_false] at hx
  obtain rfl | rfl | rfl | rfl | rfl | rfl | rfl := hx
  · exact ⟨_, _, _, exec_idGenerate hp hm a b⟩
  · exact ⟨_, _, _, exec_certProgram hp hm⟩
  · exact ⟨_, _, _, exec_certRead hp hm⟩
  · exact ⟨_, _, _, exec_keyOp hp hm⟩
  · exact ⟨_, _, _, exec_attest hp hm false⟩
  · exact ⟨_, _, _, exec_attest hp hm true⟩
  · exact ⟨_, _, _, exec_bufClear hp hm⟩

end

/-- Settles O20: each request by the equation of its operation in the case named, the refused ones by `exec_secOp`. -/
theorem securityOperations : Obligations.SecurityOperations := by
  refine ⟨fun s hp hm ho hb hs => ⟨fun hi a b => ?_, fun hi hq a b => ?_, fun hi hq b => ?_, fun hi hq => ?_, fun hi hq => ?_⟩,
    fun s hp hm ho hb hs => ⟨fun hc => ?_, fun hc => ?_⟩,
    fun s hp hm ho => ⟨fun c hc => ?_, fun hc => ?_, fun store hi => ?_, fun store hi => ?_, ?_⟩,
    fun s hp hm ho hb hs => ⟨fun hc => ?_, fun hc => ?_⟩, fun a b x hx s hp hm ho => ?_, fun a b x hx s hp hm ho hs => ?_⟩
  -- ID_GENERATE
  · exact (exec_idGenerate hp hm a b).trans (congrArg _ (State.idGenerate_present hm ho hb hs hi a b))
  · exact (exec_idGenerate hp hm a b).trans (congrArg _ (State.idGenerate_seedBad hm ho hb hs hi hq a b))
  · exact goes_of_eq ((exec_idGenerate hp hm false b).trans (congrArg _ (State.idGenerate_noRandom hm ho hb hs hi hq b))) ⟨rfl, rfl⟩
  · exact goes_of_eq ((exec_idGenerate hp hm true false).trans (congrArg _ (State.idGenerate_readBackFails hm ho hb hs hi hq))) ⟨rfl, rfl⟩
  · exact goes_of_eq ((exec_idGenerate hp hm true true).trans (congrArg _ (State.idGenerate_passes hm ho hb hs hi hq))) s.identified_effect
  -- CERT_PROGRAM
  · exact goes_of_eq (exec_certProgram hp hm) (State.certProgram_stored hm ho hb hs hc)
  · exact (exec_certProgram hp hm).trans (congrArg _ (State.certProgram_refused hm ho hb hs hc))
  -- CERT_READ, ATTEST and BUF_CLEAR
  · refine (exec_certRead hp hm).trans (congrArg _ ((State.opStart_runs hm ho rfl).trans ?_))
    rw [hc]
    rfl
  · refine (exec_certRead hp hm).trans (congrArg _ ((State.opStart_runs hm ho rfl).trans ?_))
    rw [hc]
    rfl
  · exact (exec_attest hp hm store).trans (congrArg _ ((State.opStart_runs hm ho rfl).trans (if_pos hi)))
  · exact (exec_attest hp hm store).trans (congrArg _ ((State.opStart_runs hm ho rfl).trans (if_neg (Bool.eq_false_iff.1 hi))))
  · exact (exec_bufClear hp hm).trans (congrArg _ (State.opStart_runs hm ho rfl))
  -- KEY_OP
  · exact goes_of_eq (exec_keyOp hp hm) (State.keyOp_taken hm ho hb hs hc)
  · exact (exec_keyOp hp hm).trans (congrArg _ (State.keyOp_refused hm ho hb hs hc))
  -- Requests that are refused
  · obtain ⟨op, permitted, run, start⟩ := exec_secOp hp hm hx
    exact goes_of_eq (start.trans (congrArg _ (State.opStart_busy hm ho))) (s.secRefuse_effect op 1)
  · obtain ⟨op, ok, run, start⟩ := exec_serviceOp hp hm hx
    exact goes_of_eq (start.trans (congrArg _ (State.opStart_forbidden hm ho (by simp [hs])))) (s.secRefuse_effect op 2)

end Sys2Proof.Machine
end

section
/-!
PROOFS. The completion of security operations (R434, R436, R437) and the life-cycle transitions (R422 to R426).
-/
namespace Sys2Proof.Machine

/-! ### The end of an operation (R436) -/

theorem State.secComplete_operation {s : State} {o : SecOp} (ho : s.secu.op = some o) (hn : o.op ≠ 15) (hr : ¬(o.op = 5 ∧ o.result = 0)) :
    s.secComplete = s.secEnd o.op o.result := by
  simp only [State.secComplete, ho, if_neg hr, if_neg hn]

/-- The state after the checks of a token: a passing one makes its transition pending. -/
def State.tokenChecked (s : State) (o : SecOp) : State :=
  if o.result = 0 then (s.secEnd 15 o.result).lcAccept o.dest (u8 s.secBytes 6) else s.secEnd 15 o.result

/-- The end of the checks of a token also answers the command that waits for it (R516). -/
theorem State.secComplete_transition {s : State} {o : SecOp} {w : CmdOpen} (ho : s.secu.op = some o) (hn : o.op = 15)
    (hw : s.cmd.waiting = some w) :
    s.secComplete = { s.tokenChecked o with cmd := { (s.tokenChecked o).cmd with
      waiting := none, results := (s.tokenChecked o).cmd.results ++ [⟨w.code, w.alive, if o.result = 0 then 0 else 0x60, none⟩] } } := by
  have h5 : ¬(o.op = 5 ∧ o.result = 0) := fun h => by omega
  simp only [State.secComplete, ho, if_neg h5, if_pos hn, hw, State.tokenChecked]

/-- An accepted transition waits for its application, and for a flush (R425). -/
theorem State.lcAccept_effect (s : State) (dest signer : Nat) :
    (s.lcAccept dest signer).lc.pending = some ⟨dest, signer, s.beat⟩ ∧ (s.lcAccept dest signer).jnl.flushDue = true :=
  ⟨congrArg LcState.pending ((State.event_rel ..).frame .lc (by decide)), State.event_flushDue _ _ _ rfl⟩

theorem State.tokenChecked_effect (s : State) (o : SecOp) :
    (s.tokenChecked o).secu = { s.secu with op := none, result := o.result, lastOp := 15 } ∧ (s.tokenChecked o).cmd = s.cmd ∧
      (o.result = 0 → (s.tokenChecked o).lc.pending = some ⟨o.dest, u8 s.secBytes 6, s.beat⟩ ∧ (s.tokenChecked o).jnl.flushDue = true) ∧
      (o.result ≠ 0 → (s.tokenChecked o).lc = s.lc) := by
  obtain ⟨secu, -, ended⟩ := s.secEnd_effect 15 o.result
  have cmd : (s.secEnd 15 o.result).cmd = s.cmd := ended.frame .cmd (by decide)
  by_cases hr : o.result = 0
  · rw [State.tokenChecked, if_pos hr]
    have accepted := State.lcAccept_rel (s.secEnd 15 o.result) o.dest (u8 s.secBytes 6)
    have waits := State.lcAccept_effect (s.secEnd 15 o.result) o.dest (u8 s.secBytes 6)
    rw [ended.frame .beat (by decide)] at waits
    exact ⟨(accepted.frame .secu (by decide)).trans secu, (accepted.frame .cmd (by decide)).trans cmd, fun _ => waits, fun h => absurd hr h⟩
  · rw [State.tokenChecked, if_neg hr]
    exact ⟨secu, cmd, fun h => absurd h hr, fun _ => ended.frame .lc (by decide)⟩

/-! ### Attestation (R434) -/

/-- A report as it is put into the buffer: its body and its signature. -/
def State.signedReport (s : State) (o : SecOp) : List Byte :=
  o.report ++ padTo 49856 (Config.slhDsaSign (s.lc.seed.getD []) attContext o.report)

/-- The state with the signed report in the buffer, counted. -/
def State.reported (s : State) (o : SecOp) : State :=
  ({ s.bufPut (s.signedReport o) with secu := { (s.bufPut (s.signedReport o)).secu with
      reportValid := true, attCount := (s.secu.attCount + 1) % 2 ^ 32 } } : State).event 0xC112 ((s.secu.attCount + 1) % 2 ^ 32)

theorem State.reportSigned_eq {s : State} {o : SecOp} (ho : s.secu.op = some o) (h5 : o.op = 5) (hr : o.result = 0) :
    s.reportSigned = (if o.store then (s.reported o).storeReport (s.signedReport o) else s.reported o).secEnd 5 0 := by
  simp only [State.reportSigned, ho, if_pos (And.intro h5 hr)]
  rfl

theorem State.reportSigned_effect {s : State} {o : SecOp} (ho : s.secu.op = some o) (h5 : o.op = 5) (hr : o.result = 0) :
    s.reportSigned.secu = { s.secu with
      op := none, result := 0, lastOp := 5, reportValid := true, attCount := (s.secu.attCount + 1) % 2 ^ 32
      buf := Mem.writeN [] 0 (s.signedReport o), len := (s.signedReport o).length, ptr := 0 } ∧
      s.reportSigned.i3c.irqStatus = s.i3c.irqStatus ||| 0x40 := by
  have logged : Rel [.evr, .log] _ (s.reported o) := State.event_rel ..
  have stored : Rel [.jnl] (s.reported o) (if o.store then (s.reported o).storeReport (s.signedReport o) else s.reported o) :=
    .cond (State.storeReport_rel ..)
  obtain ⟨secu, irq, -⟩ := (if o.store then (s.reported o).storeReport (s.signedReport o) else s.reported o).secEnd_effect 5 0
  rw [State.reportSigned_eq ho h5 hr, secu, irq, stored.frame .secu (by decide), logged.frame .secu (by decide),
    (stored.frame .irq (by decide)).1, (logged.frame .irq (by decide)).1]
  exact ⟨rfl, rfl⟩

/-! ### LC_TRANSITION (R424) -/

theorem State.run_lcTransition_refused {t : State} {w1 alive : Nat} (h : t.lcRefusal (bits w1 0 3) ≠ 0) :
    t.runCommand 10 w1 alive = (t.secRefuse 15 (t.lcRefusal (bits w1 0 3))).answer 0xA alive 0x60 none := if_pos h

theorem State.run_lcTransition_begins {t : State} {w1 alive : Nat} (h : t.lcRefusal (bits w1 0 3) = 0) :
    t.runCommand 10 w1 alive = { t with
      secu := { t.secu with op := some ⟨15, t.tokenCode t.secBytes (bits w1 0 3), [], false, bits w1 0 3⟩ }
      cmd := { t.cmd with busy := true, waiting := some ⟨0xA, alive⟩ } } := if_neg (not_not.2 h)

/-! ### LC_APPLY (R425, R426) -/

/-- The fuses of the destination blown, with the record that the next power-on repeats. -/
def State.lcBlown (s : State) (p : LcPending) : State :=
  { s with lc := { s.lc with pending := none, fuses := vset s.lc.fuses (p.dest - 1) 7, again := some (s.lcData p) } }

section
variable {s : State} {p : LcPending} (h : s.lc.pending = some p)
include h

theorem State.lcApply_abandoned (hf : s.ftActive = true) (f : Option (Nat × Nat)) :
    s.lcApply f = { s with lc := { s.lc with pending := none } } := by
  simp only [State.lcApply, h, if_pos hf]

variable (hf : s.ftActive = false) (hd : s.lcDue p = true)
include hf hd

theorem State.lcApply_resets : s.lcApply none = (s.lcBlown p).cold true := by
  simp only [State.lcApply, h, if_neg (Bool.eq_false_iff.1 hf), if_pos hd]
  rfl

theorem State.lcApply_fatal (src info : Nat) : s.lcApply (some (src, info)) = (s.lcBlown p).raise src .ft info := by
  simp only [State.lcApply, h, if_neg (Bool.eq_false_iff.1 hf), if_pos hd]
  rfl

end

/-- Settles O21: an operation by its end, a token by its checks, an application by what the reset keeps. -/
theorem securityCompletion : Obligations.SecurityCompletion := by
  refine ⟨fun s o hp hm ho hn hr => ?_, fun s o w hp hm ho hn hw => ?_, fun s o hp hm ho h5 hr => ?_, fun s c hp ha => ⟨fun h => ?_, fun h => ?_⟩,
    fun s p hp h => ⟨fun f hf => ?_, fun hf hd => ?_, fun src info hf hd => ?_⟩⟩
  -- Operations that complete
  · refine goes_main (f := State.secComplete) hp hm ?_
    rw [State.secComplete_operation ho hn hr]
    obtain ⟨secu, irq, -⟩ := s.secEnd_effect o.op o.result
    exact ⟨secu, irq⟩
  · refine goes_main (f := State.secComplete) hp hm ?_
    rw [State.secComplete_transition ho hn hw]
    obtain ⟨secu, cmd, passed, failed⟩ := s.tokenChecked_effect o
    refine ⟨congrArg SecState.op secu, congrArg SecState.result secu, rfl, ?_, passed, failed⟩
    rw [cmd]
  · refine goes_main (f := State.reportSigned) hp hm ?_
    obtain ⟨secu, irq⟩ := State.reportSigned_effect ho h5 hr
    rw [secu, irq]
    exact ⟨rfl, rfl, rfl, rfl, rfl, rfl, rfl, rfl⟩
  -- LC_TRANSITION
  · refine (island_eq hp fun s => s.mailbox 10 c).trans (congrArg _ ((ha.run hp).trans ?_))
    exact State.run_lcTransition_begins (t := s.withCmd { (s.withMail c).cmd with aliveLast := c.alive.toNat }) h
  · obtain ⟨k, run, answer⟩ := ha.island_mailbox hp
    refine goes_of_eq (run.trans (congrArg _ (State.run_lcTransition_refused (t := s.withCmd k) h))) ?_
    obtain ⟨secu, lc⟩ := (s.withCmd k).secRefuse_effect 15 (s.lcRefusal (bits (mailArg c) 0 3))
    rw [answer _ ((State.secRefuse_rel (s.withCmd k) _ _).frame .cmd (by decide))]
    exact ⟨secu, rfl, lc⟩
  -- LC_APPLY
  · exact (island_eq hp fun s => s.lcApply (f.map fun x => (x.1.val, x.2.toNat))).trans (congrArg _ (State.lcApply_abandoned h hf _))
  · exact goes_of_eq ((island_eq hp fun s => s.lcApply none).trans (congrArg _ (State.lcApply_resets h hf hd)))
      ⟨rfl, rfl, rfl, rfl, rfl, rfl, rfl, rfl, rfl, rfl, rfl, rfl, rfl⟩
  · refine goes_of_eq ((island_eq hp fun s => s.lcApply (some (src.val, info.toNat))).trans (congrArg _ (State.lcApply_fatal h hf hd _ _))) ?_
    have lc := (State.raise_rel (s.lcBlown p) src.val .ft info.toNat).frame .lc (by decide)
    exact ⟨(State.raise_reacts (s.lcBlown p) src.val .ft info.toNat (by omega)).source rfl rfl, congrArg LcState.fuses lc, congrArg LcState.pending lc⟩

end Sys2Proof.Machine
end

section
/-!
PROOFS. Power sequences of the primaries (R454, R455, R456).
-/
namespace Sys2Proof.Machine

/-! ### Requests (R456) -/

/-- A primary that is powered up waits for its reset to rise. -/
theorem State.accPowerUp_prim (s : State) (k : Fin 2) :
    (s.accPowerUp k).prim k = { s.prim k with seq := 1, pwrEn := true, since := s.beat, cycling := false } :=
  (State.event_prim ..).trans (State.modPrim_at ..)

/-- A primary that is powered down has its reset low first. -/
theorem State.accPowerDown_prim_at (s : State) (k : Fin 2) (n : Nat) (c : Bool) :
    (s.accPowerDown k n c).prim k = { s.prim k with seq := 3, rstN := false, since := s.beat, cycling := c } :=
  (State.event_prim ..).trans (State.modPrim_at ..)

/-- A requested cycle is a power-down that goes on to the off period, and counts. -/
theorem State.accStartCycle_prim (s : State) (k : Fin 2) :
    (s.accStartCycle k false).prim k =
      { s.prim k with seq := 3, rstN := false, since := s.beat, cycling := true, cycles := satInc 65535 (s.prim k).cycles } := by
  refine (State.modPrim_at ..).trans ?_
  dsimp only
  rw [if_neg Bool.false_ne_true, if_neg Bool.false_ne_true, State.accPowerDown_prim_at]

theorem State.accIgnored_pwr (s : State) : s.accIgnored.pwr = s.pwr := (State.ignoredWrite_rel ..).frame .pwr (by decide)

section
variable {s : State} {k : Nat} (he : primEn s.primB k = true)
include he

theorem State.accOnReq_off (h : (s.prim k).seq = 0) : s.accOnReq k = s.accPowerUp k := by
  simp [State.accOnReq, he, h]

theorem State.accOnReq_running (h : (s.prim k).seq = 2) : s.accOnReq k = s := by
  simp [State.accOnReq, he, h]

theorem State.accOnReq_conflict (h0 : (s.prim k).seq ≠ 0) (h2 : (s.prim k).seq ≠ 2) : s.accOnReq k = s.accIgnored := by
  simp only [State.accOnReq, he, Bool.true_eq_false, if_false]

theorem State.accOffReq_off (h : (s.prim k).seq = 0) : s.accOffReq k = s := by
  simp [State.accOffReq, he, h]

theorem State.accOffReq_on (h : (s.prim k).seq ≠ 0) : s.accOffReq k = s.accPowerDown k 1 false := by
  simp [State.accOffReq, he, h]

theorem State.accCycleReq_steady (h : (s.prim k).seq = 0 ∨ (s.prim k).seq = 2) : s.accCycleReq k = s.accStartCycle k false := by
  obtain h | h := h <;> simp [State.accCycleReq, he, h]

theorem State.accCycleReq_conflict (h0 : (s.prim k).seq ≠ 0) (h2 : (s.prim k).seq ≠ 2) : s.accCycleReq k = s.accIgnored := by
  simp only [State.accCycleReq, he, Bool.true_eq_false, if_false]

end

/-- A request for a primary that the image does not enable is ignored. -/
theorem State.accReq_disabled {s : State} {k : Nat} (he : primEn s.primB k = false) :
    s.accOnReq k = s.accIgnored ∧ s.accOffReq k = s.accIgnored ∧ s.accCycleReq k = s.accIgnored := ⟨if_pos he, if_pos he, if_pos he⟩

/-! ### The commands -/

section
variable {s : State} (hp : s.powered = true) (k : Fin 2)
include hp

theorem exec_accOn : exec (.accOn k) s = .next (s.accOnReq k) :=
  (island_eq hp fun s => s.regWrite 0x0C0014 (16 ^ k.val)).trans (congrArg _ (s.regWrite_accOn k))

theorem exec_accOff : exec (.accOff k) s = .next (s.accOffReq k) :=
  (island_eq hp fun s => s.regWrite 0x0C0014 (2 * 16 ^ k.val)).trans (congrArg _ (s.regWrite_accOff k))

theorem exec_accCycle : exec (.accCycle k) s = .next (s.accCycleReq k) :=
  (island_eq hp fun s => s.regWrite 0x0C0014 (3 * 16 ^ k.val)).trans (congrArg _ (s.regWrite_accCycle k))

end

/-- Settles O38: a request by the equation of its register write in the state of the sequence, a step when its beats are over. -/
theorem primarySequencing : Obligations.PrimarySequencing := by
  refine ⟨fun s k hp he => ⟨fun h => ?_, fun h => ?_, fun h0 h2 => ?_, fun h => ?_, fun h => ?_, fun h => ?_, fun h0 h2 => ?_⟩,
    fun s k x hx hp he => ?_, fun s k hp hq hb => ?_, fun s k hp hq hb => ?_, fun s k hp hq hb => ?_,
    fun s k hp => ⟨fun h => ?_, fun h => ?_, fun h => ?_⟩⟩
  -- The requests of an enabled primary
  · exact goes_of_eq ((exec_accOn hp k).trans (congrArg _ (State.accOnReq_off he h))) (s.accPowerUp_prim k)
  · exact (exec_accOn hp k).trans (congrArg _ (State.accOnReq_running he h))
  · exact goes_of_eq ((exec_accOn hp k).trans (congrArg _ (State.accOnReq_conflict he h0 h2))) s.accIgnored_pwr
  · exact (exec_accOff hp k).trans (congrArg _ (State.accOffReq_off he h))
  · exact goes_of_eq ((exec_accOff hp k).trans (congrArg _ (State.accOffReq_on he h))) (s.accPowerDown_prim_at k 1 false)
  · exact goes_of_eq ((exec_accCycle hp k).trans (congrArg _ (State.accCycleReq_steady he h))) (s.accStartCycle_prim k)
  · exact goes_of_eq ((exec_accCycle hp k).trans (congrArg _ (State.accCycleReq_conflict he h0 h2))) s.accIgnored_pwr
  -- The requests of a disabled one
  · obtain ⟨on, off, cycle⟩ := State.accReq_disabled he
    have ignored {y : Instr} {t : State} (hy : exec y s = .next t) (ht : t = s.accIgnored) : Goes (exec y s) fun u => u.pwr = s.pwr :=
      goes_of_eq (hy.trans (congrArg _ ht)) s.accIgnored_pwr
    simp only [List.mem_cons, List.not_mem_nil, or_false] at hx
    obtain rfl | rfl | rfl := hx
    · exact ignored (exec_accOn hp k) on
    · exact ignored (exec_accOff hp k) off
    · exact ignored (exec_accCycle hp k) cycle
  -- The steps that are due
  · exact goes_of_eq ((island_eq hp fun s => s.pwrToRst k).trans (congrArg _ (if_pos ⟨hq, hb⟩))) (State.modPrim_at ..)
  · exact goes_of_eq ((island_eq hp fun s => s.rstToOff k).trans (congrArg _ (if_pos ⟨hq, hb⟩))) (State.modPrim_at ..)
  · exact goes_of_eq ((island_eq hp fun s => s.offBeatsOver k).trans (congrArg _ (if_pos ⟨hq, hb⟩))) (s.accPowerUp_prim k)
  -- The steps that are not
  · exact (island_eq hp fun s => s.pwrToRst k).trans (congrArg _ (if_neg fun d => h.elim (· d.1) (Nat.not_lt.2 d.2)))
  · exact (island_eq hp fun s => s.rstToOff k).trans (congrArg _ (if_neg fun d => h.elim (· d.1) (Nat.not_lt.2 d.2)))
  · exact (island_eq hp fun s => s.offBeatsOver k).trans (congrArg _ (if_neg fun d => h.elim (· d.1) (Nat.not_lt.2 d.2)))

end Sys2Proof.Machine
end

section
/-!
PROOFS. The synchronisation of device time (R464, R465, R471).
-/
namespace Sys2Proof.Machine

/-! ### Samples (R471) -/

theorem State.timeB_of {s t : State} (hl : t.ldr = s.ldr) : t.timeB = s.timeB := State.sec_of hl 0x0C

/-- The state with a sample taken down, before the servo or a step uses it. -/
def State.sampled (s : State) (x : SyncSample) : State :=
  { s with time := { s.time with
    offset := x.offset, sample := some (x.offset, s.beat, (syncSeconds x.logInterval * 500000).floor.toNat) } }

/-- A sample that may be used: of the slave port, with its link and an interval in range. -/
structure State.Usable (s : State) (m : Fin 2) (x : SyncSample) : Prop where
  port : s.ptpPort m.val = true
  link : (s.eth m.val).link = true
  slave : s.time.slave = m.val
  low : -7 ≤ x.logInterval
  high : x.logInterval ≤ 1

theorem State.ptpSync_ignored {s : State} {m : Fin 2} {x : SyncSample}
    (h : s.ptpPort m.val = false ∨ (s.eth m.val).link = false ∨ s.time.slave ≠ m.val ∨ x.logInterval < -7 ∨ 1 < x.logInterval) :
    s.ptpSync m.val x = s := by
  refine if_neg fun ⟨port, link, slave, low, high⟩ => ?_
  obtain h | h | h | h | h := h
  · exact Bool.false_ne_true (h.symm.trans port)
  · exact Bool.false_ne_true (h.symm.trans link)
  · exact h slave
  · omega
  · omega

section
variable {s : State} {m : Fin 2} {x : SyncSample} (h : s.Usable m x)
include h

/-- The first sample steps the time, where the image lets it. -/
theorem State.ptpSync_first (hs : s.time.set = false) (hi : s.ptpInitStep = true) (hw : s.watch.wstate = .stopped) :
    s.ptpSync m.val x = { (s.sampled x).stepTime x.offset with time := { ((s.sampled x).stepTime x.offset).time with
      samples := satInc 65535 ((s.sampled x).stepTime x.offset).time.samples } } :=
  (if_pos ⟨h.port, h.link, h.slave, h.low, h.high⟩).trans (if_pos ⟨hs, hi, .inl hw⟩)

variable (hs : s.time.set = true)
include hs

theorem State.ptpSync_jump (hj : u32 s.timeB 8 < x.offset.natAbs) : s.ptpSync m.val x = (s.sampled x).refuseSample x.offset :=
  (if_pos ⟨h.port, h.link, h.slave, h.low, h.high⟩).trans ((if_neg (by simp [hs])).trans (if_pos hj))

theorem State.ptpSync_accepted (hj : x.offset.natAbs ≤ u32 s.timeB 8) :
    s.ptpSync m.val x = (s.sampled x).acceptSample x.offset (syncSeconds x.logInterval) :=
  (if_pos ⟨h.port, h.link, h.slave, h.low, h.high⟩).trans ((if_neg (by simp [hs])).trans (if_neg (Nat.not_lt.2 hj)))

end

/-- A refused sample sets JUMP, counts, and begins holdover, where the frequency is held. -/
theorem State.refuseSample_time (s : State) (o : Int) :
    let t := s.refuseSample o
    t.time.jump = true ∧ t.time.refused = satInc 65535 s.time.refused ∧ t.time.r = s.time.f ∧ t.time.now = s.time.now ∧ t.time.holdover = true := by
  dsimp only
  rw [State.refuseSample]
  generalize hu : (State.event _ 0xB100 (sat32 o) : State) = u
  have time : u.time = { s.time with jump := true, refused := satInc 65535 s.time.refused } := by
    rw [← hu, State.event_time]
  by_cases hh : u.time.holdover = true
  · rw [State.enterHoldover, if_pos hh]
    exact ⟨by rw [time], by rw [time], by rw [time], by rw [time], hh⟩
  · rw [State.enterHoldover, if_neg hh, State.holdEvent, State.event_time]
    exact ⟨by rw [time], by rw [time], by rw [time], by rw [time], rfl⟩

/-- A sample accepted in holdover counts until enough of them are good. -/
theorem State.acceptSample_counts {s : State} (o : Int) (t : Rat) (hh : s.time.holdover = true) (hg : s.time.good + 1 < u8 s.timeB 7) :
    s.acceptSample o t =
      { s with time := { s.time with samples := satInc 65535 s.time.samples, good := s.time.good + 1 } } := if_pos ⟨hh, hg⟩

/-- Elsewhere an accepted sample leaves holdover and goes into the servo. -/
theorem State.acceptSample_servo {s : State} (o : Int) (t : Rat) (h : s.time.holdover = false ∨ u8 s.timeB 7 ≤ s.time.good + 1) :
    s.acceptSample o t =
      (({ s with time := { s.time with samples := satInc 65535 s.time.samples } } : State).leaveHoldover).servo o t := by
  refine if_neg fun ⟨hh, hg⟩ => ?_
  obtain h | h := h
  · exact Bool.false_ne_true (h.symm.trans hh)
  · omega

theorem State.leaveHoldover_keeps (s : State) : s.leaveHoldover.time.samples = s.time.samples ∧ s.leaveHoldover.time.f = s.time.f := by
  rw [State.leaveHoldover]
  split
  · rw [(State.holdEvent_rel ..).frame .time (by decide)]
    exact ⟨rfl, rfl⟩
  · exact ⟨rfl, rfl⟩

theorem State.acceptSample_time {s : State} (o : Int) (t : Rat) (h : s.time.holdover = false ∨ u8 s.timeB 7 ≤ s.time.good + 1) :
    let u := s.acceptSample o t
    u.time.holdover = false ∧ u.time.samples = satInc 65535 s.time.samples ∧
      u.time.f = clampPpm (s.time.f + (u16 s.timeB 0x0E / 256 : Rat) * o / t) ∧
      u.time.r = clampPpm (u.time.f + (u16 s.timeB 0x0C / 256 : Rat) * o / t) ∧ u.time.now = s.time.now := by
  dsimp only
  rw [State.acceptSample_servo o t h]
  generalize hv : State.leaveHoldover _ = v
  have sync : v.timeB = s.timeB := by
    rw [← hv]
    exact State.timeB_of ((State.leaveHoldover_rel _).frame .ldr (by decide))
  obtain ⟨now, hold, -⟩ := hv ▸ State.leaveHoldover_time _
  obtain ⟨samples, f⟩ := hv ▸ State.leaveHoldover_keeps _
  simp only [State.servo, hold, samples, f, now, sync, and_self]

/-! ### Loss of the messages (R471) -/

section
variable {s : State} {o : Int} {b iv : Nat} (hs : s.time.sample = some (o, b, iv))
include hs

theorem State.syncLossDue_kept (h : s.time.holdover = true ∨ s.time.slave = 3 ∨ s.beat < b + u8 s.timeB 6 * iv) : s.syncLossDue = s := by
  simp only [State.syncLossDue, hs]
  refine if_neg fun ⟨_, slave, hold, due⟩ => ?_
  obtain h | h | h := h
  · exact Bool.false_ne_true (hold.symm.trans h)
  · exact slave h
  · omega

theorem State.syncLossDue_lost (hp : s.ptpOn = true) (hv : s.time.slave ≠ 3) (hh : s.time.holdover = false)
    (hd : b + u8 s.timeB 6 * iv ≤ s.beat) :
    s.syncLossDue.time = { s.time with good := 0, r := s.time.f, holdover := true, holdLoss := true } := by
  have lost : s.syncLossDue = s.enterHoldover true := by
    simp only [State.syncLossDue, hs]
    exact if_pos ⟨hp, hv, hh, hd⟩
  rw [lost, State.enterHoldover, if_neg (Bool.eq_false_iff.1 hh), State.holdEvent, State.event_time]

end

theorem State.syncLossDue_none {s : State} (h : s.time.sample = none) : s.syncLossDue = s := by
  simp only [State.syncLossDue, h]

/-! ### The two copies of device time (R465) -/

theorem State.timeMismatch_effect (s : State) {n : Nat} (h : n < 2 ^ 96) :
    (∃ info, Reacts s 103 .uc info (s.timeMismatch n)) ∧ (s.timeMismatch n).timeRaw = n ∧ (s.timeMismatch n).time.set = false := by
  refine ⟨⟨s.free 65536, ?_⟩, ?_, rfl⟩
  · have reacts : Reacts s 103 .uc (s.free 65536) (s.freed.raise 103 .uc (s.free 65536)) :=
      (State.raise_reacts s.freed 103 .uc (s.free 65536) (by decide)).source rfl rfl
    exact reacts.of_eq rfl rfl
  · show n % 2 ^ 96 / 2 ^ 32 % 2 ^ 64 * 2 ^ 32 + n % 2 ^ 96 % 2 ^ 32 = n
    omega

/-- Settles O52: a sample by its use, the loss of samples by its beat, a mismatch by the copy that it takes. -/
theorem timeSamples : Obligations.TimeSamples := by
  refine ⟨fun s m x hp hm => ⟨fun h => ?_, fun h1 h2 h3 h4 h5 => ?_⟩, fun s hp hm => ⟨fun h => ?_, fun o b iv hs => ⟨fun h => ?_, fun h hv hh hd => ?_⟩⟩,
    fun s n hp hn => goes_island (f := fun s => s.timeMismatch n) hp (s.timeMismatch_effect hn)⟩
  · exact (main_eq hp hm fun s => s.ptpSync m.val x).trans (congrArg _ (State.ptpSync_ignored h))
  · have usable : s.Usable m x := ⟨h1, h2, h3, h4, h5⟩
    refine ⟨fun hs hi hw => ?_, fun hs hj => ?_, fun hs hj => ⟨fun hh hg => ?_, fun h => ?_⟩⟩
    all_goals refine goes_main (f := fun s => s.ptpSync m.val x) hp hm ?_
    · rw [State.ptpSync_first usable hs hi hw]
      dsimp only
      rw [State.stepTime_time]
      exact ⟨rfl, rfl, rfl, rfl, rfl⟩
    · rw [State.ptpSync_jump usable hs hj]
      exact (s.sampled x).refuseSample_time x.offset
    · rw [State.ptpSync_accepted usable hs hj, State.acceptSample_counts (s := s.sampled x) _ _ hh hg]
      exact ⟨hh, rfl, rfl, rfl⟩
    · rw [State.ptpSync_accepted usable hs hj]
      exact State.acceptSample_time (s := s.sampled x) _ _ h
  · exact (main_eq hp hm State.syncLossDue).trans (congrArg _ (State.syncLossDue_none h))
  · exact (main_eq hp hm State.syncLossDue).trans (congrArg _ (State.syncLossDue_kept hs h))
  · refine goes_main (f := State.syncLossDue) hp hm ?_
    rw [State.syncLossDue_lost hs h hv hh hd]
    exact ⟨rfl, rfl, rfl, rfl⟩

end Sys2Proof.Machine
end

section
/-!
PROOFS. PTP and link events of the Ethernet ports (R466, R467, R468, R470, R477).
-/
namespace Sys2Proof.Machine

/-! ### Announces (R468) -/

theorem State.announce_ignored {s : State} {m : Nat} (a : Announce) (h : s.ptpPort m = false ∨ (s.eth m).link = false) : s.announce m a = s := by
  refine if_neg fun ⟨port, link⟩ => ?_
  obtain h | h := h
  · exact Bool.false_ne_true (h.symm.trans port)
  · exact Bool.false_ne_true (h.symm.trans link)

/-- The master that a port keeps after it heard another: the better one, or the same one's newer message. -/
def heardMaster (best : Option (List Nat × Nat)) (new : List Nat × Nat) : List Nat × Nat :=
  match best with
  | some b => if b.2 = new.2 ∨ lexBefore (masterKey new) (masterKey b) then new else b
  | none => new

theorem heardMaster_better {b new : List Nat × Nat} (h : b.2 = new.2 ∨ lexBefore (masterKey new) (masterKey b) = true) :
    heardMaster (some b) new = new := if_pos h

theorem heardMaster_worse {b new : List Nat × Nat} (hi : b.2 ≠ new.2) (hk : lexBefore (masterKey new) (masterKey b) = false) :
    heardMaster (some b) new = b := if_neg (by simp [hi, hk])

theorem State.announce_best {s : State} {m : Fin 2} (a : Announce) (hp : s.ptpPort m.val = true) (hl : (s.eth m.val).link = true) :
    ((s.announce m.val a).eth m.val).best = some (heardMaster (s.eth m.val).best (a.rank, a.identity)) := by
  have heard : s.announce m.val a =
      (s.modEth m.val fun p => { p with best := some (heardMaster (s.eth m.val).best (a.rank, a.identity)) }).ptpSelect := if_pos ⟨hp, hl⟩
  obtain ⟨n, eth⟩ := (s.modEth m.val fun p => { p with best := some (heardMaster (s.eth m.val).best (a.rank, a.identity)) }).ptpSelect_eth
    m.val m.isLt
  rw [heard, eth, State.eth_modEth s _ m.isLt]

/-! ### Delays (R467) -/

section
variable {s : State} {m : Fin 2} (hp : s.ptpPort m.val = true) (hl : (s.eth m.val).link = true)
include hp hl

theorem State.pdelayAnswer_eth : (s.pdelayAnswer m.val).eth m.val = { s.eth m.val with answered := (s.eth m.val).answered + 1 } := by
  rw [State.pdelayAnswer, if_pos ⟨hp, hl⟩, State.eth_modEth s _ m.isLt]

theorem State.delayAsk_eth (h : s.ptpPeer = true ∨ (s.eth m.val).best.isSome = true) :
    (s.delayAsk m.val).eth m.val = { s.eth m.val with sent := (s.eth m.val).sent + 1, asked := some s.time.now } := by
  rw [State.delayAsk, if_pos ⟨hp, hl, h⟩, State.eth_modEth s _ m.isLt]

end

/-- End to end, without a master, none is asked. -/
theorem State.delayAsk_none {s : State} {m : Nat} (hp : s.ptpPeer = false) (hb : (s.eth m).best = none) : s.delayAsk m = s :=
  if_neg (by simp [hp, hb])

theorem State.delayDone_unasked {s : State} {m : Nat} (d : Nat) (c : Bool) (h : (s.eth m).asked = none) : s.delayDone m d c = s :=
  if_neg (by simp [h])

theorem State.delayDone_eth {s : State} {m : Fin 2} (d : Nat) (c : Bool) (hp : s.ptpPort m.val = true) (ha : (s.eth m.val).asked.isSome = true) :
    (s.delayDone m.val d c).eth m.val = { s.eth m.val with pathDelay := d, asked := none, asCapable := s.ptpGptp && c } := by
  rw [State.delayDone, if_pos ⟨hp, ha⟩, State.eth_modEth s _ m.isLt]

/-! ### Links (R477) -/

theorem State.linkChange_same {s : State} {m : Nat} {up : Bool} (h : (s.eth m).link = up) : s.linkChange m up = s :=
  if_neg fun c => c.2 h

/-- A link that changes, as its port is left before the slave port is chosen anew. -/
def EthPort.linkTurns (p : EthPort) (up : Bool) : EthPort :=
  if up then { p with link := true } else { p with link := false, err := p.err ||| 1, best := none, asked := none, asCapable := false }

theorem State.linkChange_turns {s : State} {m : Fin 2} {up : Bool} (hm : s.pwr.mainOn = true) (h : (s.eth m.val).link ≠ up) :
    ∃ n, (s.linkChange m.val up).eth m.val = { (s.eth m.val).linkTurns up with ptpState := n } := by
  have turns : s.linkChange m.val up =
      ((s.modEth m.val (·.linkTurns up)).event 0xB104 (m.val + b2n up * 256)).ptpSelect := if_pos ⟨hm, h⟩
  obtain ⟨n, eth⟩ := ((s.modEth m.val (·.linkTurns up)).event 0xB104 (m.val + b2n up * 256)).ptpSelect_eth m.val m.isLt
  refine ⟨n, ?_⟩
  rw [turns, eth, State.eth, State.event_time]
  exact congrArg (fun p : EthPort => { p with ptpState := n }) (State.eth_modEth s _ m.isLt)

/-! ### Errors (R466, R470, R477) -/

theorem State.raise_eth (s : State) (src : Nat) (c : FaultClass) (info m : Nat) : (s.raise src c info).eth m = s.eth m :=
  congrArg (fun t : TimeState => vget t.eth m EthPort.reset) ((State.raise_rel ..).frame .time (by decide))

section
variable {s : State} (hm : s.pwr.mainOn = true) (m : Fin 2)
include hm

theorem State.tsLaneMismatch_effect :
    let t := s.tsLaneMismatch m.val
    (∃ info, Reacts s 102 .uc info t ∧ info / 256 = m.val) ∧ (t.eth m.val).swTs = true ∧ (t.eth m.val).err.getLsbD 1 = true := by
  have code : s.free 256 < 256 := s.free_lt 256 (by decide)
  have reacts := (State.raise_reacts s.freed 102 .uc (m.val * 256 + s.free 256) (by decide)).source (s := s) rfl rfl
  dsimp only
  rw [State.tsLaneMismatch, if_pos hm, State.eth_modEth _ _ m.isLt]
  exact ⟨⟨_, reacts.of_eq rfl rfl, by omega⟩, rfl, by simp⟩

theorem State.pcsFault_effect :
    Reacts s (100 + m.val) .uc (m.val * 256 + 3) (s.pcsFault m.val) ∧ ((s.pcsFault m.val).eth m.val).err.getLsbD 3 = true := by
  rw [State.pcsFault, if_pos hm, State.eth_modEth _ _ m.isLt]
  exact ⟨(State.raise_reacts s (100 + m.val) .uc (m.val * 256 + 3) (by omega)).of_eq rfl rfl, by simp⟩

theorem State.frameDiscarded_effect (fcs : Bool) :
    ((s.frameDiscarded m.val fcs).eth m.val).discarded = satInc 65535 (s.eth m.val).discarded ∧
      ((s.frameDiscarded m.val fcs).eth m.val).fcsErrs =
        if fcs then satInc 65535 (s.eth m.val).fcsErrs else (s.eth m.val).fcsErrs := by
  rw [State.frameDiscarded, if_pos hm, State.eth_modEth _ _ m.isLt]
  exact ⟨rfl, rfl⟩

end

/-- Settles O53: each command by what it leaves of its port. -/
theorem ethernetPorts : Obligations.EthernetPorts := by
  refine ⟨fun s m a hp hm => ⟨fun h => ?_, fun ho hl => ⟨fun hb => ?_, fun b hb h => ?_, fun b hb hi hk => ?_⟩⟩,
    fun s m hp hm ho hl => ⟨goes_main (f := fun s => s.pdelayAnswer m.val) hp hm (State.pdelayAnswer_eth ho hl),
      fun h => goes_main (f := fun s => s.delayAsk m.val) hp hm (State.delayAsk_eth ho hl h),
      fun hq hb => (main_eq hp hm fun s => s.delayAsk m.val).trans (congrArg _ (State.delayAsk_none hq hb))⟩,
    fun s m d c hp hm => ⟨fun h => (main_eq hp hm fun s => s.delayDone m.val d c).trans (congrArg _ (State.delayDone_unasked d c h)),
      fun ho ha => goes_main (f := fun s => s.delayDone m.val d c) hp hm (State.delayDone_eth d c ho ha)⟩,
    fun s m up hp hm => ⟨fun h => (main_eq hp hm fun s => s.linkChange m.val up).trans (congrArg _ (State.linkChange_same h)), fun h => ?_⟩,
    fun s m hp hm => ⟨goes_main (f := fun s => s.tsLaneMismatch m.val) hp hm (State.tsLaneMismatch_effect hm m),
      goes_main (f := fun s => s.pcsFault m.val) hp hm (State.pcsFault_effect hm m),
      fun fcs => goes_main (f := fun s => s.frameDiscarded m.val fcs) hp hm (State.frameDiscarded_effect hm m fcs)⟩⟩
  -- Announces
  · exact (main_eq hp hm fun s => s.announce m.val a).trans (congrArg _ (State.announce_ignored a h))
  · refine goes_main (f := fun s => s.announce m.val a) hp hm ((State.announce_best a ho hl).trans ?_)
    rw [hb]
    rfl
  · refine goes_main (f := fun s => s.announce m.val a) hp hm ((State.announce_best a ho hl).trans ?_)
    rw [hb, heardMaster_better h]
  · refine goes_main (f := fun s => s.announce m.val a) hp hm ((State.announce_best a ho hl).trans ?_)
    rw [hb, heardMaster_worse hi hk]
  -- Links
  · obtain ⟨n, eth⟩ := State.linkChange_turns hm h
    refine goes_main (f := fun s => s.linkChange m.val up) hp hm ?_
    rw [eth]
    cases up with
    | true => exact ⟨rfl, fun h => nomatch h⟩
    | false => exact ⟨rfl, fun _ => ⟨rfl, by simp [EthPort.linkTurns]⟩⟩

end Sys2Proof.Machine
end

section
/-!
PROOFS. The Larkspur link (R485 to R488, R491, R494).
-/
namespace Sys2Proof.Machine

/-! ### Training and CRC errors (R485, R487) -/

theorem State.linkTrained_ignored {s : State} (h : s.pairImage = false ∨ s.lk.state ≠ 1) : s.linkTrained = s := by
  refine if_neg fun ⟨pair, state⟩ => ?_
  obtain h | h := h
  · exact Bool.false_ne_true (h.symm.trans pair)
  · exact h state

theorem State.linkTrained_lk {s : State} (hi : s.pairImage = true) (h : s.lk.state = 1) :
    s.linkTrained.lk = { s.lk with lanes := 0xF, helloRun := 0, mismatched := false, state := 2 } := by
  rw [State.linkTrained, if_pos ⟨hi, h⟩, State.linkTo_lk]

/-! ### HELLO messages (R486) -/

section
variable {s : State} {m : HelloMsg}

theorem State.hello_crcFail (h : s.lk.state = 2) (hc : m.crcOk = false) : s.hello m = s.linkCrcFail :=
  (if_pos h).trans (if_neg (Bool.eq_false_iff.1 hc))

theorem State.helloCode_match (hi : m.pairId = s.pairId) (hd : m.digest = s.structDigest) (hn : m.chip ≠ s.chip) (hl : m.chip ≤ 1) :
    s.helloCode m = 0 := by
  have hn' : ¬(m.chip = s.chip ∨ 1 < m.chip) := by omega
  simp only [State.helloCode, ne_eq, hi, hd, not_true_eq_false, if_false, if_neg hn']

theorem State.helloCode_mismatch (h : m.pairId ≠ s.pairId ∨ m.digest ≠ s.structDigest ∨ m.chip = s.chip ∨ 1 < m.chip) :
    s.helloCode m ≠ 0 := by
  unfold State.helloCode
  split
  · decide
  · rename_i hi
    split
    · decide
    · rename_i hd
      rw [if_pos ((h.resolve_left hi).resolve_left hd)]
      decide

/-- The state with a match counted. -/
def State.matched (s : State) (m : HelloMsg) : State :=
  { s with lk := { s.lk with helloRun := s.lk.helloRun + 1, mismatched := false, latency := m.roundTrip / 2 } }

/-- The state with the run of matches broken. -/
def State.unmatched (s : State) : State := { s with lk := { s.lk with helloRun := 0, mismatched := true } }

variable (h : s.lk.state = 2) (hc : m.crcOk = true)
include h hc

theorem State.hello_match (h0 : s.helloCode m = 0) :
    s.hello m = if 16 ≤ s.lk.helloRun + 1 ∧ m.roundTrip ≤ 1000 then (s.matched m).align m else s.matched m :=
  (if_pos h).trans ((if_pos hc).trans (if_pos h0))

theorem State.hello_mismatch (h0 : s.helloCode m ≠ 0) :
    s.hello m = if s.lk.mismatched then s.unmatched else s.unmatched.raise 107 .uc (0xF00 + s.helloCode m) :=
  (if_pos h).trans ((if_pos hc).trans (if_neg h0))

end

/-- Entry to ALIGNED latches the relation of the two chips (R488). -/
theorem State.align_lk (s : State) (m : HelloMsg) :
    (s.align m).lk = { s.lk with
      delta := (s.beat : Int) - m.beat, phi0 := m.phase, latency := m.roundTrip / 2, skew := 0, skewBad := 0, partner := []
      msgBeat := s.beat, aligns := satInc 65535 s.lk.aligns, state := 3 } := by
  rw [State.align, State.event_lk, State.linkTo_lk]

/-! ### Beat messages (R487, R488) -/

/-- The run of skews out of bounds, a message's own included. -/
def State.skewRun (s : State) (m : BeatMsg) : Nat := if 100 < (m.phase - s.lk.phi0).natAbs then s.lk.skewBad + 1 else 0

/-- The state with a partner's beat message taken in. -/
def State.partnerBeat (s : State) (m : BeatMsg) : State :=
  { s with lk := { s.lk with
    partner := ((⟨s.beat, m.stage.toNat, m.ownDoubt.toNat, m.verdict.toNat, m.beat⟩ : PartnerMsg) :: s.lk.partner).take 4
    msgBeat := s.beat, latency := m.roundTrip / 2, skew := m.phase - s.lk.phi0
    skewMax := max s.lk.skewMax (m.phase - s.lk.phi0).natAbs, skewBad := s.skewRun m } }

section
variable {s : State} {m : BeatMsg} (h : s.lk.state = 3)
include h

theorem State.beatMsg_crcFail (hc : m.crcOk = false) : s.beatMsg m = s.linkCrcFail :=
  (if_pos h).trans (if_neg (Bool.eq_false_iff.1 hc))

theorem State.beatMsg_taken (hc : m.crcOk = true) :
    s.beatMsg m = if 2 ≤ s.skewRun m then (s.partnerBeat m).linkFault 106 0xF01 else s.partnerBeat m :=
  (if_pos h).trans (if_pos hc)

end

theorem State.skewRun_short {s : State} {m : BeatMsg} (h : (m.phase - s.lk.phi0).natAbs ≤ 100 ∨ s.lk.skewBad = 0) : ¬2 ≤ s.skewRun m := by
  unfold State.skewRun
  split <;> omega

theorem State.skewRun_long {s : State} {m : BeatMsg} (h : 100 < (m.phase - s.lk.phi0).natAbs) (h1 : 1 ≤ s.lk.skewBad) : 2 ≤ s.skewRun m := by
  rw [State.skewRun, if_pos h]
  omega

/-! ### Summaries (R491) -/

theorem State.frameSummary_crcFail {s : State} {m : SummaryMsg} (h : s.lk.state = 3) (hc : m.crcOk = false) :
    s.frameSummary m = s.linkCrcFail :=
  (if_pos h).trans (if_neg (Bool.eq_false_iff.1 hc))

theorem State.frameSummary_taken {s : State} {m : SummaryMsg} (h : s.lk.state = 3) (hc : m.crcOk = true) :
    let t := s.frameSummary m
    t.lk.partnerCMax = m.cMax ∧ t.lk.summaryIn = true ∧
      ∀ f c r h, s.lk.summary = some (f, c, r, h) → t.lk.hashRun = if h = m.hash then 0 else s.lk.hashRun + 1 := by
  dsimp only
  rw [State.frameSummary, if_pos h, if_pos hc]
  refine ⟨rfl, rfl, fun f c r h e => ?_⟩
  simp only [e]

/-! ### Lost lanes (R494) -/

theorem State.laneLost_down {s : State} (lane : Nat) (h : s.lk.state = 0 ∨ s.lk.state = 1) : s.laneLost lane = s :=
  (if_neg (by omega)).trans (if_neg (by omega))

theorem State.laneLost_hello {s : State} (lane : Nat) (h : s.lk.state = 2) : s.laneLost lane = s.linkDown :=
  (if_neg (by omega)).trans (if_pos h)

theorem State.laneLost_aligned {s : State} (lane : Nat) (h : s.lk.state = 3) : s.laneLost lane = s.linkFault 104 (lane * 256 + 1) := if_pos h

/-! ### The commands -/

/-- Settles O54: each message by its checks and by what it leaves of the link, a fault of the link by `State.linkFault_reacts`. -/
theorem pairLink : Obligations.PairLink := by
  refine ⟨fun s hp hm => ⟨fun h => ?_, fun hi h => ?_⟩,
    fun s m hp hm => ⟨fun h => ?_, fun h hc => ?_, fun h hc hi hd hn hl => ⟨fun hr => ?_, fun hr ht => ?_⟩, fun h hc hx => ⟨fun hq => ?_, fun hq => ?_⟩⟩,
    fun s m hp hm => ⟨fun h => ?_, fun h hc => ?_, fun h hc => ⟨fun hs => ?_, fun hs h1 => ?_⟩⟩,
    fun s m hp hm => ⟨fun h => ?_, fun h hc => ?_, fun h hc => ?_⟩, fun s hp hm => ⟨fun h => ?_, fun h => ?_⟩,
    fun s lane hp hm => ⟨fun h => ?_, fun h => ?_, fun h => ?_⟩⟩
  -- Training
  · exact (main_eq hp hm State.linkTrained).trans (congrArg _ (State.linkTrained_ignored h))
  · refine goes_main (f := State.linkTrained) hp hm ?_
    rw [State.linkTrained_lk hi h]
    exact ⟨rfl, rfl, rfl⟩
  -- HELLO messages
  · exact (main_eq hp hm fun s => s.hello m).trans (congrArg _ (if_neg h))
  · exact goes_of_eq ((main_eq hp hm fun s => s.hello m).trans (congrArg _ (State.hello_crcFail h hc))) ⟨rfl, rfl, h⟩
  · refine goes_of_eq ((main_eq hp hm fun s => s.hello m).trans
      (congrArg _ ((State.hello_match h hc (State.helloCode_match hi hd hn hl)).trans (if_neg ?_)))) ⟨h, rfl⟩
    omega
  · refine goes_of_eq ((main_eq hp hm fun s => s.hello m).trans
      (congrArg _ ((State.hello_match h hc (State.helloCode_match hi hd hn hl)).trans (if_pos ⟨hr, ht⟩)))) ?_
    rw [State.align_lk]
    exact ⟨rfl, rfl, rfl, rfl, rfl, rfl⟩
  · refine goes_of_eq ((main_eq hp hm fun s => s.hello m).trans
      (congrArg _ ((State.hello_mismatch h hc (State.helloCode_mismatch hx)).trans
      (if_neg (Bool.eq_false_iff.1 hq))))) ⟨?_, (State.raise_reacts s.unmatched 107 .uc _ (by decide)).source rfl rfl⟩
    rw [(State.raise_rel ..).frame .lk (by decide)]
    rfl
  · exact goes_of_eq ((main_eq hp hm fun s => s.hello m).trans
      (congrArg _ ((State.hello_mismatch h hc (State.helloCode_mismatch hx)).trans (if_pos hq)))) ⟨rfl, rfl⟩
  -- Beat messages
  · exact (main_eq hp hm fun s => s.beatMsg m).trans (congrArg _ (if_neg h))
  · exact goes_of_eq ((main_eq hp hm fun s => s.beatMsg m).trans (congrArg _ (State.beatMsg_crcFail h hc))) ⟨rfl, rfl, rfl⟩
  · exact goes_of_eq ((main_eq hp hm fun s => s.beatMsg m).trans
      (congrArg _ ((State.beatMsg_taken h hc).trans (if_neg (State.skewRun_short hs))))) ⟨h, rfl, rfl, rfl⟩
  · refine goes_of_eq ((main_eq hp hm fun s => s.beatMsg m).trans
      (congrArg _ ((State.beatMsg_taken h hc).trans (if_pos (State.skewRun_long hs h1))))) ?_
    obtain ⟨reacts, state, partner⟩ := (s.partnerBeat m).linkFault_reacts 106 0xF01 (by decide)
    exact ⟨reacts.source rfl rfl, state, partner⟩
  -- Summaries
  · exact (main_eq hp hm fun s => s.frameSummary m).trans (congrArg _ (if_neg h))
  · exact goes_of_eq ((main_eq hp hm fun s => s.frameSummary m).trans (congrArg _ (State.frameSummary_crcFail h hc))) ⟨rfl, rfl⟩
  · exact goes_main (f := fun s => s.frameSummary m) hp hm (State.frameSummary_taken h hc)
  -- The rate of CRC errors
  · exact (main_eq hp hm State.linkCrcRateDue).trans (congrArg _ (if_neg (Nat.not_lt.2 h)))
  · refine goes_of_eq ((main_eq hp hm State.linkCrcRateDue).trans (congrArg _ (if_pos h))) ?_
    obtain ⟨reacts, state, -⟩ := ({ s with lk := { s.lk with crcBeats := [] } } : State).linkFault_reacts 105 0xF01 (by decide)
    exact ⟨reacts.source rfl rfl, state⟩
  -- Lost lanes
  · exact (main_eq hp hm fun s => s.laneLost lane.val).trans (congrArg _ (State.laneLost_down lane.val h))
  · exact goes_of_eq ((main_eq hp hm fun s => s.laneLost lane.val).trans (congrArg _ (State.laneLost_hello lane.val h))) ⟨s.linkDown_lk.1, s.linkDown_rest.1⟩
  · refine goes_of_eq ((main_eq hp hm fun s => s.laneLost lane.val).trans (congrArg _ (State.laneLost_aligned lane.val h))) ?_
    obtain ⟨reacts, state, -⟩ := s.linkFault_reacts 104 (lane.val * 256 + 1) (by decide)
    exact ⟨reacts, state⟩

end Sys2Proof.Machine
end

section
/-!
PROOFS. The checks of the command mailbox, in their order (R515 to R518).
-/
namespace Sys2Proof.Machine

/-! ### A command that a check stops -/

section
variable {s : State} {words : List Nat} {alive crc : Nat}

theorem State.cmdStart_busy (hb : s.cmd.busy = true) : s.cmdStart words alive crc = s.answer (cmdCode words) alive 5 none := if_pos hb

variable (hb : s.cmd.busy = false)
include hb

theorem State.cmdStart_badCrc (hc : crc32c (cmdBytes words alive) ≠ crc) :
    s.cmdStart words alive crc = s.answer (cmdCode words) alive 1 none :=
  (if_neg (Bool.eq_false_iff.1 hb)).trans (if_pos hc)

variable (hc : crc32c (cmdBytes words alive) = crc)
include hc

theorem State.cmdStart_badAlive (ha : alive ≠ (s.cmd.aliveLast + 1) % 65536) :
    s.cmdStart words alive crc = s.answer (cmdCode words) alive 2 none :=
  (if_neg (Bool.eq_false_iff.1 hb)).trans ((if_neg (not_not.2 hc)).trans (if_pos ha))

/-- With its CRC and its ALIVE right a command takes its ALIVE, and its format and arguments are checked. -/
theorem State.cmdStart_taken (ha : alive = (s.cmd.aliveLast + 1) % 65536) :
    s.cmdStart words alive crc =
      (let t : State := { s with cmd := { s.cmd with aliveLast := alive } }
       if !cmdFormatOk words then t.answer (cmdCode words) alive 3 none
       else if cmdArgBad words then t.answer (cmdCode words) alive 4 none
       else t.runCommand (cmdCode words) (words.getD 1 0) alive) :=
  (if_neg (Bool.eq_false_iff.1 hb)).trans ((if_neg (not_not.2 hc)).trans (if_neg (not_not.2 ha)))

end

/-- Each command of the mailbox is a start with the code of its row. -/
theorem exec_mailbox {x : (CmdGo → Instr) × Nat}
    (hx : x ∈ [(Instr.arm, 1), (Instr.stop, 2), (Instr.resume, 3), (Instr.profileSelect, 4), (Instr.profileSet, 5), (Instr.intent, 6),
      (Instr.serviceEnter, 7), (Instr.serviceExit, 8), (Instr.clearFirstArea, 9), (Instr.lcTransition, 10)]) (s : State) (c : CmdGo) :
    exec (x.1 c) s = s.island fun s => s.mailbox x.2 c := by
  simp only [List.mem_cons, List.not_mem_nil, or_false] at hx
  obtain rfl | rfl | rfl | rfl | rfl | rfl | rfl | rfl | rfl | rfl := hx
  all_goals rfl

/-- Settles O17: the command starts on the state with its words in the mailbox, and each check that stops it answers. -/
theorem mailboxChecks : Obligations.MailboxChecks := by
  intro x hx s c hp hcode
  have start : exec (x.1 c) s = .next ((s.withMail c).cmdStart (mailWords c) c.alive.toNat c.crc.toNat) := by
    rw [exec_mailbox hx, island_eq hp, s.mailbox_eq x.2 c hp hcode]
  rw [← hcode]
  refine ⟨fun hb => start.trans (congrArg _ (State.cmdStart_busy hb)), fun hb hc => start.trans (congrArg _ (State.cmdStart_badCrc hb hc)),
    fun hb hc ha => start.trans (congrArg _ (State.cmdStart_badAlive hb hc ha)), fun hb hc ha hf => ?_, fun hb hc ha hf hg => ?_⟩
  · refine start.trans (congrArg _ ((State.cmdStart_taken (s := s.withMail c) hb hc ha).trans ?_))
    exact if_pos (by simp [hf])
  · refine start.trans (congrArg _ ((State.cmdStart_taken (s := s.withMail c) hb hc ha).trans ?_))
    exact (if_neg (by simp [hf])).trans (if_pos hg)

end Sys2Proof.Machine
end

section
/-!
PROOFS. The I3C target: common command codes, SDR and HDR-DDR transfers, in-band interrupts (R499 to R512).
-/
namespace Sys2Proof.Machine

/-! ### Common command codes (R499 to R502) -/

section
variable {s : State} (h : s.i3c.hdr = false)
include h

theorem State.cccSet_sdr (f : I3cState → I3cState) : s.cccSet f = { s with i3c := { f s.i3c with ack := true, resp := [] } } :=
  if_neg (by simp [h])

theorem State.cccRead_sdr (out : List Byte) :
    s.cccRead out = { s with i3c := { s.i3c with ack := s.i3c.daValid, resp := if s.i3c.daValid then out else [] } } := by
  rw [State.cccRead, if_neg (by simp [h])]
  cases s.i3c.daValid <;> rfl

theorem State.rstact_sdr (db : Byte) : s.rstact db.toNat = { s with i3c := { s.i3c with ack := db.toNat == 0, resp := [] } } :=
  if_neg (by simp [h])

/-- A target without a dynamic address takes part in ENTDAA. -/
theorem State.entdaa_free (hd : s.i3c.daValid = false) (a : Nat) (won : Bool) :
    s.entdaa a won = (if won then ({ s with i3c := s.i3c.address a } : State) else s).busAnswer true s.daaBytes :=
  if_neg (by simp [h, hd])

/-- GETSTATUS clears the protocol error where it answers. -/
theorem State.getStatus_addressed (hd : s.i3c.daValid = true) :
    s.getStatus = { s with i3c := { s.i3c with ack := true, resp := beBytes 2 s.statusWord, protoErr := false } } := by
  simp [State.getStatus, State.cccRead_sdr h, h, hd]

theorem State.getStatus_unaddressed (hd : s.i3c.daValid = false) : s.getStatus = { s with i3c := { s.i3c with ack := false, resp := [] } } := by
  simp [State.getStatus, State.cccRead_sdr h, h, hd]

end

/-- SETMRL sets the read length and the size of an IBI's payload, each within its own bounds. -/
theorem I3cState.setMrl_effect (x : I3cState) (n : Nat) (k : Option Byte) :
    (x.setMrl n (k.map fun b => b.toNat)).mrl = (if 4 ≤ n ∧ n ≤ 4096 then n else x.mrl) ∧
      (x.setMrl n (k.map fun b => b.toNat)).ibiSize = k.elim x.ibiSize fun b => if b.toNat ≤ 8 then b.toNat else x.ibiSize := by
  have length : ∀ y : I3cState, y = (if inRange 4 4096 n then { x with mrl := n } else x) →
      y.mrl = (if 4 ≤ n ∧ n ≤ 4096 then n else x.mrl) ∧ y.ibiSize = x.ibiSize := by
    rintro y rfl
    by_cases hn : 4 ≤ n ∧ n ≤ 4096 <;> simp [inRange, hn]
  obtain ⟨mrl, size⟩ := length _ rfl
  cases k with
  | none => exact ⟨mrl, size⟩
  | some b =>
    by_cases hb : b.toNat ≤ 8
    · simp only [I3cState.setMrl, Option.map_some, Option.elim_some, if_pos hb]
      exact ⟨mrl, trivial⟩
    · simp only [I3cState.setMrl, Option.map_some, Option.elim_some, if_neg hb]
      exact ⟨mrl, size⟩

/-- In HDR the target takes no common command code. -/
theorem State.ccc_hdr {s : State} (h : s.i3c.hdr = true) : (∀ f, s.cccSet f = s) ∧ (∀ out, s.cccRead out = s) ∧ s.getStatus = s := by
  refine ⟨fun f => if_pos h, fun out => if_pos h, ?_⟩
  simp [State.getStatus, State.cccRead, h]

/-- Settles O39: outside HDR each command code by its equation, in HDR by `State.ccc_hdr`. -/
theorem busIdentity : Obligations.BusIdentity := by
  refine ⟨fun s hp h => ?_, fun s x out hp h hx => ?_, fun s hp h => ⟨fun hd => ?_, fun hd => ?_⟩,
    fun s hp => ⟨island_eq hp State.busReset, island_eq hp fun s => { s with i3c := { s.i3c with hdr := false } }⟩, fun s x hp h hx => ?_⟩
  -- Codes that set
  · have set (f : I3cState → I3cState) : (s.island fun s => s.cccSet f) = .next { s with i3c := { f s.i3c with ack := true, resp := [] } } :=
      (island_eq hp _).trans (congrArg _ (State.cccSet_sdr h f))
    have entdaa (hd : s.i3c.daValid = false) (a : BitVec 7) (won : Bool) :=
      (island_eq hp fun s => s.entdaa a.toNat won).trans (congrArg _ (State.entdaa_free h hd a.toNat won))
    refine ⟨set _, set _, set _, set _, set _, set _, fun n => (set _).trans ?_, fun n k => goes_of_eq (set _) (I3cState.setMrl_effect s.i3c n.toNat k),
      fun db => (island_eq hp fun s => s.rstact db.toNat).trans (congrArg _ (State.rstact_sdr h db)),
      fun a hd => ⟨(set _).trans ?_, entdaa hd a true, entdaa hd a false, (set _).trans ?_⟩,
      fun a hd => ⟨(set _).trans ?_, (set _).trans ?_, fun w => (island_eq hp fun s => s.entdaa a.toNat w).trans (congrArg _ (if_pos (by simp [hd])))⟩⟩
    · by_cases hn : 7 ≤ n.toNat ∧ n.toNat ≤ 4099 <;> simp [I3cState.setMwl, inRange, hn]
    · simp [I3cState.address, hd]
    · simp [hd]
    · simp [I3cState.address, hd]
    · simp [hd]
  -- Codes that read
  · have read (out : List Byte) : (s.island fun s => s.cccRead out) =
        .next { s with i3c := { s.i3c with ack := s.i3c.daValid, resp := if s.i3c.daValid then out else [] } } :=
      (island_eq hp _).trans (congrArg _ (State.cccRead_sdr h out))
    simp only [List.mem_cons, List.not_mem_nil, or_false, Prod.mk.injEq] at hx
    obtain ⟨rfl, rfl⟩ | ⟨rfl, rfl⟩ | ⟨rfl, rfl⟩ | ⟨rfl, rfl⟩ | ⟨rfl, rfl⟩ | ⟨rfl, rfl⟩ | ⟨rfl, rfl⟩ := hx
    all_goals exact read _
  · exact (island_eq hp State.getStatus).trans (congrArg _ (State.getStatus_addressed h hd))
  · exact (island_eq hp State.getStatus).trans (congrArg _ (State.getStatus_unaddressed h hd))
  -- In HDR
  · obtain ⟨set, read, status⟩ := State.ccc_hdr h
    have sets (f : I3cState → I3cState) : (s.island fun s => s.cccSet f) = .next s := (island_eq hp _).trans (congrArg _ (set f))
    have reads (out : List Byte) : (s.island fun s => s.cccRead out) = .next s := (island_eq hp _).trans (congrArg _ (read out))
    simp only [List.mem_cons, List.not_mem_nil, or_false] at hx
    obtain rfl | rfl | rfl | rfl | rfl | rfl | rfl | rfl | rfl | rfl | rfl | rfl := hx
    exacts [sets _, sets _, sets _, sets _, reads _, reads _, reads _, reads _, reads _,
      (island_eq hp State.getStatus).trans (congrArg _ status), reads _, reads _]

/-! ### Writes (R503, R508, R509) -/

theorem State.busWrite_unaligned {s : State} {a : Nat} (h : a % 4 ≠ 0) (bs : List Byte) : s.busWrite a bs = s := if_pos h

theorem State.busWrite_address {s : State} {a : Nat} (h : a % 4 = 0) : s.busWrite a [] = { s with i3c := { s.i3c with readAddr := a } } := by
  rw [State.busWrite, if_neg (not_not.2 h)]
  rfl

/-- Data for an address that is no stream register is written word by word. -/
theorem State.busWrite_words {s : State} {a : Nat} {b : Byte} {bs : List Byte} (h : a % 4 = 0) (h1 : a ≠ 0x0E0010) (h2 : a ≠ 0x0F004C) :
    s.busWrite a (b :: bs) = s.wordsWrite a (b :: bs) := by
  rw [State.busWrite, if_neg (not_not.2 h), if_neg (by simp)]
  exact if_neg (not_or.2 ⟨h1, h2⟩)

theorem State.registerWrite_sdr {s : State} (h : s.i3c.hdr = false) (a0 a1 a2 : Byte) (ds : List Byte) :
    s.registerWrite (a0 :: a1 :: a2 :: ds) false = (s.busAnswer true []).busWrite (ofLe [a0, a1, a2]) ds :=
  if_neg (by simp [h])

/-- The byte with the parity error, which here follows an address, is discarded. -/
theorem State.registerWrite_parity {s : State} (h : s.i3c.hdr = false) {bs : List Byte} (b : Byte) (hl : bs.length = 3) (ha : ofLe bs % 4 = 0) :
    s.registerWrite (bs ++ [b]) true =
      { s with i3c := { s.i3c with ack := true, resp := [], readAddr := ofLe bs, parity := satInc 255 s.i3c.parity, protoErr := true } } := by
  obtain ⟨a0, a1, a2, rfl⟩ := List.length_eq_three.1 hl
  refine (if_neg (by simp [h])).trans ?_
  exact State.busWrite_address ha

/-! ### HDR-DDR (R508) -/

section
variable {s : State} (h : s.i3c.hdr = true)
include h

theorem State.hdrWrite_crc (ws : List Nat) :
    s.hdrWrite 0x20 ws false = { s with i3c := { s.i3c with hdrCrc := satInc 65535 s.i3c.hdrCrc, protoErr := true } } :=
  (if_neg (by simp [h])).trans (if_pos rfl)

theorem State.hdrWrite_words (lo hi : Nat) (ds : List Nat) :
    s.hdrWrite 0x20 (lo :: hi :: ds) true = (s.busAnswer true []).busWrite (lo + 2 ^ 16 * (hi % 256)) (ds.flatMap (leBytes 2)) :=
  (if_neg (by simp [h])).trans (if_neg (by simp))

theorem State.hdrRead_held (n : Nat) (hr : s.readHeld s.i3c.readAddr = true) : s.hdrRead 0xA0 n = s.nackRead := by
  have nack : s.busRead (min n (s.i3c.mrl / 2) / 2) = s.nackRead := if_pos hr
  rw [State.hdrRead, if_neg (by simp [h])]
  dsimp only
  rw [nack]
  exact if_pos (.inr (.inl rfl))

/-- Two words of 16 bits are one register. -/
theorem State.hdrRead_word {n : Nat} (hn : min n (s.i3c.mrl / 2) = 2) (hr : s.readHeld s.i3c.readAddr = false) :
    s.hdrRead 0xA0 n = ({ (s.readWord s.i3c.readAddr).1 with
      i3c := { (s.readWord s.i3c.readAddr).1.i3c with readAddr := (s.i3c.readAddr + 4) % 2 ^ 24 } } : State).busAnswer true
        (leBytes 4 (s.readWord s.i3c.readAddr).2) := by
  rw [State.hdrRead, if_neg (by simp [h]), hn]
  refine (if_pos (.inl rfl)).trans ?_
  simp only [State.busRead, State.burst, hr, Bool.false_eq_true, if_false, List.append_nil]

end

theorem State.hdrRead_other (s : State) {code : Nat} (n : Nat) (h : code ≠ 0xA0) : s.hdrRead code n = s := if_pos (.inr h)

/-! ### In-band interrupts (R512) -/

section
variable {s : State} {n : Fin 7} {p : List Byte} (hi : s.ibiFirst = some (n.val, p))
include hi

/-- An acknowledged IBI sends its mandatory byte and its payload, and is no longer pending. -/
theorem State.ibiRequest_acked (hd : s.i3c.daValid = true) (he : s.i3c.enint = true) (hh : s.i3c.hdr = false) :
    s.ibiRequest true = { s with i3c := { s.i3c with
      ibi := vset s.i3c.ibi n none, ack := true, resp := BitVec.ofNat 8 (n.val + 1) :: p.take s.i3c.ibiSize } } := by
  simp [State.ibiRequest, hi, hd, he, hh, State.busAnswer, beBytes, leBytes, mdb]

theorem State.ibiRequest_nacked (hd : s.i3c.daValid = true) (he : s.i3c.enint = true) (hh : s.i3c.hdr = false) :
    s.ibiRequest false = { s with i3c := { s.i3c with nacked := satInc 65535 s.i3c.nacked } } := by
  simp [State.ibiRequest, hi, hd, he, hh]

theorem State.ibiRequest_withheld (k : Bool) (h : s.i3c.daValid = false ∨ s.i3c.enint = false ∨ s.i3c.hdr = true) : s.ibiRequest k = s := by
  obtain h | h | h := h <;> simp [State.ibiRequest, hi, h]

end

theorem State.ibiRequest_none {s : State} (k : Bool) (h : s.ibiFirst = none) : s.ibiRequest k = s := by
  simp [State.ibiRequest, h]

/-- Settles O40: a write by its address and its words, a read by what holds the register, an IBI by what permits it. -/
theorem busTransfers : Obligations.BusTransfers := by
  refine ⟨fun s a0 a1 a2 hp h ha => ?_, fun s a0 a1 a2 ds hp h ha => ?_,
    fun s bs b hp h hl ha => (island_eq hp fun s => s.registerWrite (bs ++ [b]) true).trans (congrArg _ (State.registerWrite_parity h b hl ha)),
    fun s bs p hp h => (island_eq hp fun s => s.registerWrite bs p).trans (congrArg _ (if_pos h)), fun s lo hi d0 d1 hp h => ⟨fun ha h1 h2 => ?_, ?_⟩,
    fun s code n hp h => ⟨?_, ?_, fun hc => ?_⟩, fun s n p hp hi => ⟨fun hd he hh => ⟨?_, ?_⟩, fun k hk => ?_⟩, fun s k hp hi => ?_⟩
  -- SDR writes
  · have write (ds : List Byte) : exec (.registerWrite (a0 :: a1 :: a2 :: ds) false) s =
        .next ((s.busAnswer true []).busWrite (ofLe [a0, a1, a2]) ds) :=
      (island_eq hp fun s => s.registerWrite (a0 :: a1 :: a2 :: ds) false).trans (congrArg _ (State.registerWrite_sdr h a0 a1 a2 ds))
    exact ⟨(write _).trans (congrArg _ (State.busWrite_address ha)),
      fun b0 b1 b2 b3 h1 h2 => (write _).trans (congrArg _ (State.busWrite_words ha h1 h2)),
      fun b0 b1 b2 b3 c0 c1 c2 c3 h1 h2 => (write _).trans (congrArg _ (State.busWrite_words ha h1 h2))⟩
  · exact (island_eq hp fun s => s.registerWrite (a0 :: a1 :: a2 :: ds) false).trans
      (congrArg _ ((State.registerWrite_sdr h a0 a1 a2 ds).trans (State.busWrite_unaligned ha ds)))
  -- HDR-DDR
  · exact (island_eq hp fun s => s.hdrWrite 0x20 [lo.toNat, hi.toNat, d0.toNat, d1.toNat] true).trans
      (congrArg _ ((State.hdrWrite_words h _ _ _).trans (State.busWrite_words ha h1 h2)))
  · exact (island_eq hp fun s => s.hdrWrite 0x20 [lo.toNat, hi.toNat, d0.toNat, d1.toNat] false).trans (congrArg _ (State.hdrWrite_crc h _))
  · rintro rfl hn hr
    exact goes_of_eq ((island_eq hp fun s => s.hdrRead 0xA0 n).trans (congrArg _ (State.hdrRead_word h hn hr))) ⟨rfl, rfl, rfl⟩
  · rintro rfl hr
    exact goes_of_eq ((island_eq hp fun s => s.hdrRead 0xA0 n).trans (congrArg _ (State.hdrRead_held h n hr))) ⟨rfl, rfl, rfl⟩
  · exact (island_eq hp fun s => s.hdrRead code.toNat n).trans (congrArg _ (s.hdrRead_other n fun e => hc (BitVec.eq_of_toNat_eq e)))
  -- In-band interrupts
  · exact (island_eq hp fun s => s.ibiRequest true).trans (congrArg _ (State.ibiRequest_acked hi hd he hh))
  · exact (island_eq hp fun s => s.ibiRequest false).trans (congrArg _ (State.ibiRequest_nacked hi hd he hh))
  · exact (island_eq hp fun s => s.ibiRequest k).trans (congrArg _ (State.ibiRequest_withheld hi k hk))
  · exact (island_eq hp fun s => s.ibiRequest k).trans (congrArg _ (State.ibiRequest_none k hi))

end Sys2Proof.Machine
end
